-- ==== Sys2Proof/Word.lean ====
section
/-! DEFINITION. Word.lean: the word types, the sparse tables in which the state holds its many like units, and the
packet of the fabric, which both the syntax of the events and the state name. -/

namespace Sys2Proof

/-- A 64-bit register, operand or address (R2). -/
abbrev Word := BitVec 64
/-- One byte of memory. -/
abbrev Byte := BitVec 8

/-- A sparse table: the entry of an index that is not listed is the default that the reader supplies. -/
abbrev Table (α : Type) := List (Nat × α)

/-- The entry of index `k`, or `d`. -/
def Table.get {α : Type} : Table α → Nat → α → α
  | [], _, d => d
  | (j, v) :: r, k, d => if j = k then v else Table.get r k d

/-- The table with the entry of index `k` replaced; the listed indices keep rising. -/
def Table.set {α : Type} : Table α → Nat → α → Table α
  | [], k, v => [(k, v)]
  | (j, w) :: r, k, v =>
    if k = j then (k, v) :: r else if k < j then (k, v) :: (j, w) :: r else (j, w) :: Table.set r k v

theorem Table.get_set_same {α : Type} (m : Table α) (k : Nat) (v d : α) : Table.get (Table.set m k v) k d = v := by
  induction m with
  | nil => simp [Table.set, Table.get]
  | cons p r ih =>
    obtain ⟨j, w⟩ := p
    simp only [Table.set]
    split
    · simp [Table.get]
    · split
      · simp [Table.get]
      · have : ¬ j = k := fun h => ‹¬ k = j› h.symm
        simp [Table.get, this, ih]

theorem Table.get_set_other {α : Type} (m : Table α) {k j : Nat} (v d : α) (h : j ≠ k) :
    Table.get (Table.set m k v) j d = Table.get m j d := by
  induction m with
  | nil => simp [Table.set, Table.get, Ne.symm h]
  | cons p r ih =>
    obtain ⟨i, w⟩ := p
    simp only [Table.set]
    split
    · rename_i e; subst e; simp [Table.get, Ne.symm h]
    · split
      · simp [Table.get, Ne.symm h]
      · simp only [Table.get, ih]

/-- A message of the fabric as the port hands it over: the fields of the 32-byte header (R373, R377) and the payload. -/
structure Packet where
  kind    : BitVec 8
  flags   : BitVec 8
  src     : BitVec 16
  dst     : BitVec 16
  sdev    : BitVec 16
  /-- destination device; the header does not carry it, the transport does. -/
  ddev    : BitVec 9
  seq     : BitVec 32
  stamp   : BitVec 40
  /-- header bytes +0x11 to +0x1F, zero except for COLL. -/
  coll    : BitVec 120
  payload : List Byte
  deriving DecidableEq, Repr

end Sys2Proof
end

