-- ==== Sys2Proof/Syntax.lean ====
section
/-! DEFINITION. Syntax.lean: the steps of the machine, one constructor for each row of spec/opcode_table.json.
The rows with an encoding are the Glifel instructions of R111 and R105; their arguments are the encoded fields (sl the slip
count, d, a, b, c name indices, the rest immediates and selectors). The rows without one are the events of the device; their
arguments say where the event happens and what the outside world supplies. -/

namespace Sys2Proof

/-- One step of the machine. -/
inductive Instr where
  /-- ADD (R121): Adds two names exactly and fits the sum to the destination. -/
  | add (sl : BitVec 2) (d : BitVec 6) (a : BitVec 6) (b : BitVec 6)
  /-- SUB (R121): Subtracts B from A exactly and fits the result to the destination. -/
  | sub (sl : BitVec 2) (d : BitVec 6) (a : BitVec 6) (b : BitVec 6)
  /-- MUL (R121): Multiplies two names exactly and fits the product. -/
  | mul (sl : BitVec 2) (d : BitVec 6) (a : BitVec 6) (b : BitVec 6)
  /-- MULH (R121): Writes the floor of the product divided by 2^64. -/
  | mulh (sl : BitVec 2) (d : BitVec 6) (a : BitVec 6) (b : BitVec 6)
  /-- DIV (R121): Divides with truncation towards zero, trapping DIVZERO on a zero divisor. -/
  | div (sl : BitVec 2) (d : BitVec 6) (a : BitVec 6) (b : BitVec 6)
  /-- REM (R121): Writes the remainder of truncating division, trapping DIVZERO on a zero divisor. -/
  | rem (sl : BitVec 2) (d : BitVec 6) (a : BitVec 6) (b : BitVec 6)
  /-- MIN (R121): Writes the smaller of two exact values. -/
  | min (sl : BitVec 2) (d : BitVec 6) (a : BitVec 6) (b : BitVec 6)
  /-- MAX (R121): Writes the larger of two exact values. -/
  | max (sl : BitVec 2) (d : BitVec 6) (a : BitVec 6) (b : BitVec 6)
  /-- AND (R121): Writes the bitwise AND in infinite two's complement. -/
  | and (sl : BitVec 2) (d : BitVec 6) (a : BitVec 6) (b : BitVec 6)
  /-- OR (R121): Writes the bitwise OR in infinite two's complement. -/
  | or (sl : BitVec 2) (d : BitVec 6) (a : BitVec 6) (b : BitVec 6)
  /-- XOR (R121): Writes the bitwise XOR in infinite two's complement. -/
  | xor (sl : BitVec 2) (d : BitVec 6) (a : BitVec 6) (b : BitVec 6)
  /-- ANDN (R121): Writes A AND NOT B. -/
  | andn (sl : BitVec 2) (d : BitVec 6) (a : BitVec 6) (b : BitVec 6)
  /-- SHL (R121): Multiplies A by 2 to the clamped shift count and fits the result. -/
  | shl (sl : BitVec 2) (d : BitVec 6) (a : BitVec 6) (b : BitVec 6)
  /-- SHR (R121): Writes the floor of A divided by 2 to the clamped shift count. -/
  | shr (sl : BitVec 2) (d : BitVec 6) (a : BitVec 6) (b : BitVec 6)
  /-- ROL (R121): Rotates A's pattern left by B modulo its width. -/
  | rol (sl : BitVec 2) (d : BitVec 6) (a : BitVec 6) (b : BitVec 6)
  /-- ROR (R121): Rotates A's pattern right by B modulo its width. -/
  | ror (sl : BitVec 2) (d : BitVec 6) (a : BitVec 6) (b : BitVec 6)
  /-- SETEQ (R121): Writes 1 if the exact values are equal, else 0. -/
  | seteq (sl : BitVec 2) (d : BitVec 6) (a : BitVec 6) (b : BitVec 6)
  /-- SETNE (R121): Writes 1 if the exact values differ, else 0. -/
  | setne (sl : BitVec 2) (d : BitVec 6) (a : BitVec 6) (b : BitVec 6)
  /-- SETLT (R121): Writes 1 if A is below B, else 0. -/
  | setlt (sl : BitVec 2) (d : BitVec 6) (a : BitVec 6) (b : BitVec 6)
  /-- SETLE (R121): Writes 1 if A is at most B, else 0. -/
  | setle (sl : BitVec 2) (d : BitVec 6) (a : BitVec 6) (b : BitVec 6)
  /-- ABSD (R121): Writes the absolute difference of A and B. -/
  | absd (sl : BitVec 2) (d : BitVec 6) (a : BitVec 6) (b : BitVec 6)
  /-- MOV (R124): Copies A into D, fitting it or moving a float encoding unchanged. -/
  | mov (sl : BitVec 2) (d : BitVec 6) (a : BitVec 6)
  /-- NEG (R124): Writes the exact negation of A, fitted. -/
  | neg (sl : BitVec 2) (d : BitVec 6) (a : BitVec 6)
  /-- ABS (R124): Writes the exact absolute value of A, fitted. -/
  | abs (sl : BitVec 2) (d : BitVec 6) (a : BitVec 6)
  /-- NOT (R124): Inverts A's pattern and reads it in A's kind. -/
  | not (sl : BitVec 2) (d : BitVec 6) (a : BitVec 6)
  /-- CLZ (R124): Counts the leading zero bits of A's pattern. -/
  | clz (sl : BitVec 2) (d : BitVec 6) (a : BitVec 6)
  /-- CTZ (R124): Counts the trailing zero bits of A's pattern. -/
  | ctz (sl : BitVec 2) (d : BitVec 6) (a : BitVec 6)
  /-- POPC (R124): Counts the one bits of A's pattern. -/
  | popc (sl : BitVec 2) (d : BitVec 6) (a : BitVec 6)
  /-- BREV (R124): Reverses the bits of A's pattern. -/
  | brev (sl : BitVec 2) (d : BitVec 6) (a : BitVec 6)
  /-- FITS (R124): Writes 1 if A is representable at B's current width and kind. -/
  | fits (sl : BitVec 2) (d : BitVec 6) (a : BitVec 6) (b : BitVec 6)
  /-- GETW (R124): Writes A's current width. -/
  | getw (sl : BitVec 2) (d : BitVec 6) (a : BitVec 6)
  /-- GETM (R124): Writes A's current overflow mode. -/
  | getm (sl : BitVec 2) (d : BitVec 6) (a : BitVec 6)
  /-- SEL (R125): Writes A or B according to the predicate name in F. -/
  | sel (sl : BitVec 2) (d : BitVec 6) (a : BitVec 6) (b : BitVec 6) (p : BitVec 5)
  /-- BFX (R126): Extracts an unsigned bit field of A into D. -/
  | bfx (sl : BitVec 2) (d : BitVec 6) (a : BitVec 6) (p : BitVec 6) (l : BitVec 5)
  /-- BFI (R126): Inserts the low bits of A into a field of D. -/
  | bfi (sl : BitVec 2) (d : BitVec 6) (a : BitVec 6) (p : BitVec 6) (l : BitVec 5)
  /-- ADDI (R123): Adds a sign-extended immediate. -/
  | addi (sl : BitVec 2) (d : BitVec 6) (a : BitVec 6) (i : BitVec 11)
  /-- MULI (R123): Multiplies by a sign-extended immediate. -/
  | muli (sl : BitVec 2) (d : BitVec 6) (a : BitVec 6) (i : BitVec 11)
  /-- ANDI (R123): ANDs with a zero-extended immediate. -/
  | andi (sl : BitVec 2) (d : BitVec 6) (a : BitVec 6) (i : BitVec 11)
  /-- ORI (R123): ORs with a zero-extended immediate. -/
  | ori (sl : BitVec 2) (d : BitVec 6) (a : BitVec 6) (i : BitVec 11)
  /-- XORI (R123): XORs with a zero-extended immediate. -/
  | xori (sl : BitVec 2) (d : BitVec 6) (a : BitVec 6) (i : BitVec 11)
  /-- SHLI (R123): Shifts left by an immediate count. -/
  | shli (sl : BitVec 2) (d : BitVec 6) (a : BitVec 6) (i : BitVec 6)
  /-- SHRI (R123): Shifts right by an immediate count. -/
  | shri (sl : BitVec 2) (d : BitVec 6) (a : BitVec 6) (i : BitVec 6)
  /-- SETEQI (R123): Writes 1 if A equals the immediate. -/
  | seteqi (sl : BitVec 2) (d : BitVec 6) (a : BitVec 6) (i : BitVec 11)
  /-- SETLTI (R123): Writes 1 if A is below the immediate. -/
  | setlti (sl : BitVec 2) (d : BitVec 6) (a : BitVec 6) (i : BitVec 11)
  /-- MOVI (R127): Writes a sign-extended 17-bit immediate into D. -/
  | movi (sl : BitVec 2) (d : BitVec 6) (i : BitVec 17)
  /-- MOVK (R127): Replaces 16 bits of D at position 16q with an immediate. -/
  | movk (q : BitVec 2) (sl : BitVec 2) (d : BitVec 6) (i : BitVec 16)
  /-- RSZ (R128): Resizes a name, fitting its value and repacking its region. -/
  | rsz (sl : BitVec 2) (d : BitVec 6) (w : BitVec 6)
  /-- SETM (R130): Changes a name's overflow mode without moving bits. -/
  | setm (sl : BitVec 2) (d : BitVec 6) (m : BitVec 6)
  /-- BORROW (R131): Takes a free user slot and loads a second map into its rows. -/
  | borrow (sl : BitVec 2) (d : BitVec 6) (a : BitVec 6) (b : BitVec 6)
  /-- GIVEBACK (R132): Discards the borrowed rows and frees the borrowed slot. -/
  | giveback (sl : BitVec 2)
  /-- XGET (R133): Reads a name of the second map into D. -/
  | xget (sl : BitVec 2) (d : BitVec 6) (k : BitVec 6)
  /-- XPUT (R133): Fits A into a name of the second map. -/
  | xput (sl : BitVec 2) (k : BitVec 6) (a : BitVec 6)
  /-- TWXCH (R136): Exchanges a pair name with another name in one cycle. -/
  | twxch (sl : BitVec 2) (d : BitVec 6) (a : BitVec 6)
  /-- MAPLD (R138): Checks and loads a new map for the slot. -/
  | mapld (sl : BitVec 2) (a : BitVec 6)
  /-- MAPQ (R139): Writes the properties and place of a name. -/
  | mapq (sl : BitVec 2) (d : BitVec 6) (a : BitVec 6)
  /-- GETS (R140): Reads a user special register into D. -/
  | gets (sl : BitVec 2) (d : BitVec 6) (r : BitVec 6)
  /-- PUTS (R140): Writes A into a user special register. -/
  | puts (sl : BitVec 2) (a : BitVec 6) (r : BitVec 6)
  /-- OXL (R142): Loads an extension register from a name. -/
  | oxl (sl : BitVec 2) (k : BitVec 3) (a : BitVec 6)
  /-- OXR (R142): Reads an extension register into a name. -/
  | oxr (sl : BitVec 2) (d : BitVec 6) (k : BitVec 3)
  /-- OXCLR (R142): Clears one or all extension registers. -/
  | oxclr (sl : BitVec 2) (m : BitVec 1) (k : BitVec 3)
  /-- OXI (R142): Inserts or sign-extends an immediate into an extension register. -/
  | oxi (sl : BitVec 2) (m : BitVec 1) (q : BitVec 2) (k : BitVec 3) (i : BitVec 17)
  /-- FADD (R150): Adds two floats, rounded into D. -/
  | fadd (sl : BitVec 2) (d : BitVec 6) (a : BitVec 6) (b : BitVec 6)
  /-- FSUB (R150): Subtracts two floats, rounded into D. -/
  | fsub (sl : BitVec 2) (d : BitVec 6) (a : BitVec 6) (b : BitVec 6)
  /-- FMUL (R150): Multiplies two floats, rounded into D. -/
  | fmul (sl : BitVec 2) (d : BitVec 6) (a : BitVec 6) (b : BitVec 6)
  /-- FDIV (R150): Divides two floats, rounded into D. -/
  | fdiv (sl : BitVec 2) (d : BitVec 6) (a : BitVec 6) (b : BitVec 6)
  /-- FMIN (R150): Writes the smaller float operand. -/
  | fmin (sl : BitVec 2) (d : BitVec 6) (a : BitVec 6) (b : BitVec 6)
  /-- FMAX (R150): Writes the larger float operand. -/
  | fmax (sl : BitVec 2) (d : BitVec 6) (a : BitVec 6) (b : BitVec 6)
  /-- FSETEQ (R150): Writes 1 if two floats are equal. -/
  | fseteq (sl : BitVec 2) (d : BitVec 6) (a : BitVec 6) (b : BitVec 6)
  /-- FSETLT (R150): Writes 1 if A is below B. -/
  | fsetlt (sl : BitVec 2) (d : BitVec 6) (a : BitVec 6) (b : BitVec 6)
  /-- FSETLE (R150): Writes 1 if A is at most B. -/
  | fsetle (sl : BitVec 2) (d : BitVec 6) (a : BitVec 6) (b : BitVec 6)
  /-- FSETUN (R150): Writes 1 if either operand is NaN. -/
  | fsetun (sl : BitVec 2) (d : BitVec 6) (a : BitVec 6) (b : BitVec 6)
  /-- FCPYS (R150): Writes abs(A) with B's sign bit. -/
  | fcpys (sl : BitVec 2) (d : BitVec 6) (a : BitVec 6) (b : BitVec 6)
  /-- FABS (R152): Writes the float absolute value. -/
  | fabs (sl : BitVec 2) (d : BitVec 6) (a : BitVec 6)
  /-- FNEG (R152): Writes the float negation. -/
  | fneg (sl : BitVec 2) (d : BitVec 6) (a : BitVec 6)
  /-- FCVT (R153): Converts between integer and float kinds under a rounding selector. -/
  | fcvt (sl : BitVec 2) (d : BitVec 6) (a : BitVec 6) (r : BitVec 6)
  /-- FRND (R152): Rounds a float to an integral value. -/
  | frnd (sl : BitVec 2) (d : BitVec 6) (a : BitVec 6) (r : BitVec 6)
  /-- FCLASS (R152): Writes the class number of a float. -/
  | fclass (sl : BitVec 2) (d : BitVec 6) (a : BitVec 6)
  /-- FSQRT (R152): Writes the rounded square root. -/
  | fsqrt (sl : BitVec 2) (d : BitVec 6) (a : BitVec 6)
  /-- RCPA (R155): Writes the 12-bit reciprocal approximation. -/
  | rcpa (sl : BitVec 2) (d : BitVec 6) (a : BitVec 6)
  /-- RSQA (R155): Writes the 12-bit inverse square root approximation. -/
  | rsqa (sl : BitVec 2) (d : BitVec 6) (a : BitVec 6)
  /-- EXP2A (R155): Writes the approximation of 2^x. -/
  | exp2a (sl : BitVec 2) (d : BitVec 6) (a : BitVec 6)
  /-- LOG2A (R155): Writes the approximation of log2 x. -/
  | log2a (sl : BitVec 2) (d : BitVec 6) (a : BitVec 6)
  /-- SIGA (R155): Writes the approximation of the logistic sigmoid. -/
  | siga (sl : BitVec 2) (d : BitVec 6) (a : BitVec 6)
  /-- TANHA (R155): Writes the approximation of tanh. -/
  | tanha (sl : BitVec 2) (d : BitVec 6) (a : BitVec 6)
  /-- FFMA (R157): Writes D + A×B rounded once. -/
  | ffma (sl : BitVec 2) (d : BitVec 6) (a : BitVec 6) (b : BitVec 6)
  /-- FFMS (R157): Writes D − A×B rounded once. -/
  | ffms (sl : BitVec 2) (d : BitVec 6) (a : BitVec 6) (b : BitVec 6)
  /-- RCPS (R157): Refines a reciprocal estimate by one Newton step. -/
  | rcps (sl : BitVec 2) (d : BitVec 6) (a : BitVec 6) (b : BitVec 6)
  /-- RSQS (R157): Refines an inverse square root estimate by one Newton step. -/
  | rsqs (sl : BitVec 2) (d : BitVec 6) (a : BitVec 6) (b : BitVec 6)
  /-- BR (R161): Branches on a test of name C. -/
  | br (sl : BitVec 2) (c : BitVec 6) (t : BitVec 2) (o : BitVec 15)
  /-- CALL (R162): Stores the return address in D and jumps PC-relative. -/
  | call (sl : BitVec 2) (d : BitVec 6) (i : BitVec 17)
  /-- LOOP (R161): Decrements C and branches while it is non-zero. -/
  | loop (sl : BitVec 2) (c : BitVec 6) (o : BitVec 15)
  /-- JMP (R162): Jumps to the address in A. -/
  | jmp (sl : BitVec 2) (a : BitVec 6)
  /-- CALLR (R162): Stores the return address in D and jumps to A. -/
  | callr (sl : BitVec 2) (d : BitVec 6) (a : BitVec 6)
  /-- RET (R162): Returns to the address in A. -/
  | ret (sl : BitVec 2) (a : BitVec 6)
  /-- YIELD (R163): Saves the thread and requeues it at the tail of its priority. -/
  | yield (sl : BitVec 2)
  /-- EXIT (R164): Ends the thread, conveying its estate and replying to a caller. -/
  | exit (sl : BitVec 2) (a : BitVec 6)
  /-- TRAP (R165): Traps SYSCALL with the code in B. -/
  | trap (sl : BitVec 2) (b : BitVec 6)
  /-- BRK (R165): Traps BREAK. -/
  | brk (sl : BitVec 2)
  /-- NOP (R165): Does nothing beyond its slip. -/
  | nop (sl : BitVec 2)
  /-- CALLAT (R167): Places a call entry in a target core's task queue. -/
  | callat (sl : BitVec 2) (d : BitVec 6) (a : BitVec 6) (b : BitVec 6)
  /-- SEND (R171): Reserves a place in a destination channel and sends private rows as a message. -/
  | send (sl : BitVec 2) (a : BitVec 6) (b : BitVec 6)
  /-- RECV (R172): Blocks until a message is in the channel, then receives it into rows. -/
  | recv (sl : BitVec 2) (d : BitVec 6) (a : BitVec 6) (b : BitVec 6)
  /-- TRYRECV (R172): Receives a message if one is present, else writes 0. -/
  | tryrecv (sl : BitVec 2) (d : BitVec 6) (a : BitVec 6) (b : BitVec 6)
  /-- CHSTAT (R174): Writes a snapshot of a channel's state. -/
  | chstat (sl : BitVec 2) (d : BitVec 6) (b : BitVec 6)
  /-- SPAWN (R175): Submits a launch record, optionally with a DEPDUTY. -/
  | spawn (sl : BitVec 2) (d : BitVec 6) (a : BitVec 6) (u : BitVec 1)
  /-- DEP (R176): Sends one decrement to a launch record's counter. -/
  | dep (sl : BitVec 2) (a : BitVec 6)
  /-- WAITANY (R177): Blocks until some mask bit is set in TAGS. -/
  | waitany (sl : BitVec 2) (d : BitVec 6) (a : BitVec 6)
  /-- WAITALL (R177): Blocks until every mask bit is set in TAGS. -/
  | waitall (sl : BitVec 2) (d : BitVec 6) (a : BitVec 6)
  /-- FFR (R177): Writes the index of the lowest set tag in the mask. -/
  | ffr (sl : BitVec 2) (d : BitVec 6) (a : BitVec 6)
  /-- TAGCLR (R177): Clears the TAGS bits named by the mask. -/
  | tagclr (sl : BitVec 2) (a : BitVec 6)
  /-- BARI (R180): Initialises a barrier object or enters an ARRIVEDUTY. -/
  | bari (sl : BitVec 2) (d : BitVec 6) (a : BitVec 6) (b : BitVec 6)
  /-- ARRIVE (R181): Counts one arrival at a barrier object after a release. -/
  | arrive (sl : BitVec 2) (d : BitVec 6) (a : BitVec 6) (b : BitVec 6)
  /-- WAITB (R182): Blocks until a barrier's phase passes the awaited phase. -/
  | waitb (sl : BitVec 2) (d : BitVec 6) (a : BitVec 6) (b : BitVec 6)
  /-- WAITCH (R182): Blocks until a chunk bit of a barrier is set. -/
  | waitch (sl : BitVec 2) (d : BitVec 6) (a : BitVec 6) (b : BitVec 6)
  /-- PUSH (R183): Offers a 64-byte command to an engine queue without blocking. -/
  | push (sl : BitVec 2) (d : BitVec 6) (q : BitVec 6) (b : BitVec 6)
  /-- QSTAT (R184): Writes a snapshot of an engine queue's places. -/
  | qstat (sl : BitVec 2) (d : BitVec 6) (q : BitVec 6)
  /-- LD (R188): Loads a container into a name under a cache policy. -/
  | ld (sl : BitVec 2) (d : BitVec 6) (a : BitVec 6) (i : BitVec 11)
  /-- ST (R188): Stores a name's container under a cache policy. -/
  | st (sl : BitVec 2) (d : BitVec 6) (a : BitVec 6) (i : BitVec 11)
  /-- LDA (R188): Loads a container and then acquires at a scope. -/
  | lda (sl : BitVec 2) (d : BitVec 6) (a : BitVec 6) (i : BitVec 11)
  /-- STL (R188): Releases at a scope and then stores a container. -/
  | stl (sl : BitVec 2) (d : BitVec 6) (a : BitVec 6) (i : BitVec 11)
  /-- SPILL (R192): Stores consecutive private rows to memory, restartably. -/
  | spill (sl : BitVec 2) (d : BitVec 6) (a : BitVec 6) (b : BitVec 6)
  /-- FILL (R192): Loads consecutive private rows from memory, restartably. -/
  | fill (sl : BitVec 2) (d : BitVec 6) (a : BitVec 6) (b : BitVec 6)
  /-- PF (R193): Prefetches a line to a cache level. -/
  | pf (sl : BitVec 2) (a : BitVec 6) (b : BitVec 6)
  /-- FLUSH (R193): Writes back dirty sectors of a range to the level serving a scope. -/
  | flush (sl : BitVec 2) (d : BitVec 6) (a : BitVec 6) (b : BitVec 6)
  /-- INV (R193): Writes back and invalidates cache or instruction-cache copies of a range. -/
  | inv (sl : BitVec 2) (d : BitVec 6) (a : BitVec 6) (b : BitVec 6)
  /-- FENCE (R193): Releases, acquires or both at a scope. -/
  | fence (sl : BitVec 2) (d : BitVec 6) (b : BitVec 6)
  /-- LDX (R191): Loads with an indexed address. -/
  | ldx (sl : BitVec 2) (d : BitVec 6) (a : BitVec 6) (b : BitVec 6)
  /-- STX (R191): Stores with an indexed address. -/
  | stx (sl : BitVec 2) (d : BitVec 6) (a : BitVec 6) (b : BitVec 6)
  /-- STC (R195): Stores at the home and then counts an arrival on a barrier. -/
  | stc (sl : BitVec 2) (d : BitVec 6) (a : BitVec 6) (b : BitVec 6)
  /-- AADD (R196): Atomically adds to memory and returns the old value. -/
  | aadd (sl : BitVec 2) (d : BitVec 6) (a : BitVec 6) (b : BitVec 6)
  /-- AAND (R196): Atomically ANDs memory and returns the old value. -/
  | aand (sl : BitVec 2) (d : BitVec 6) (a : BitVec 6) (b : BitVec 6)
  /-- AOR (R196): Atomically ORs memory and returns the old value. -/
  | aor (sl : BitVec 2) (d : BitVec 6) (a : BitVec 6) (b : BitVec 6)
  /-- AXOR (R196): Atomically XORs memory and returns the old value. -/
  | axor (sl : BitVec 2) (d : BitVec 6) (a : BitVec 6) (b : BitVec 6)
  /-- AMIN (R196): Atomically keeps the smaller value and returns the old one. -/
  | amin (sl : BitVec 2) (d : BitVec 6) (a : BitVec 6) (b : BitVec 6)
  /-- AMAX (R196): Atomically keeps the larger value and returns the old one. -/
  | amax (sl : BitVec 2) (d : BitVec 6) (a : BitVec 6) (b : BitVec 6)
  /-- ASWP (R196): Atomically swaps memory with B. -/
  | aswp (sl : BitVec 2) (d : BitVec 6) (a : BitVec 6) (b : BitVec 6)
  /-- ACAS (R196): Atomically compares with D and swaps in B. -/
  | acas (sl : BitVec 2) (d : BitVec 6) (a : BitVec 6) (b : BitVec 6)
  /-- FAADD (R196): Atomically adds a float to memory. -/
  | faadd (sl : BitVec 2) (d : BitVec 6) (a : BitVec 6) (b : BitVec 6)
  /-- LOCK (R202): Tries to take a lock word and returns a status. -/
  | lock (sl : BitVec 2) (d : BitVec 6) (a : BitVec 6)
  /-- UNLOCK (R202): Releases and frees a lock the thread owns. -/
  | unlock (sl : BitVec 2) (d : BitVec 6) (a : BitVec 6)
  /-- HOLD (R203): Enters a USER holding in the estate. -/
  | hold (sl : BitVec 2) (d : BitVec 6) (a : BitVec 6) (b : BitVec 6)
  /-- WILL (R203): Sets the heir of estate entries on an object. -/
  | will (sl : BitVec 2) (d : BitVec 6) (a : BitVec 6) (b : BitVec 6)
  /-- RELH (R203): Removes the most recent removable entry on an object. -/
  | relh (sl : BitVec 2) (d : BitVec 6) (a : BitVec 6)
  /-- CONVEY (R203): Conveys the most recent entry on an object now. -/
  | convey (sl : BitVec 2) (d : BitVec 6) (a : BitVec 6)
  /-- ESTQ (R203): Queries the estate. -/
  | estq (sl : BitVec 2) (d : BitVec 6) (a : BitVec 6) (b : BitVec 6)
  /-- PRMK (R204): Makes an EMPTY promise held by the thread. -/
  | prmk (sl : BitVec 2) (a : BitVec 6)
  /-- KEEP (R204): Keeps a promise with a value after a release. -/
  | keep (sl : BitVec 2) (d : BitVec 6) (a : BitVec 6) (b : BitVec 6)
  /-- AWAITP (R204): Blocks while a promise is EMPTY, then acquires. -/
  | awaitp (sl : BitVec 2) (d : BitVec 6) (a : BitVec 6)
  /-- PRMQ (R204): Reads a promise's word 0 without acquiring. -/
  | prmq (sl : BitVec 2) (d : BitVec 6) (a : BitVec 6)
  /-- CHAIN (R221): Issues an element-wise chain of operations to the stream unit. -/
  | chain (sl : BitVec 2) (d : BitVec 6) (a : BitVec 6) (b : BitVec 6)
  /-- REDUCE (R223): Issues a reduction along dimension 0. -/
  | reduce (sl : BitVec 2) (d : BitVec 6) (a : BitVec 6) (b : BitVec 6)
  /-- GATHER (R224): Issues an indexed row gather. -/
  | gather (sl : BitVec 2) (d : BitVec 6) (a : BitVec 6) (b : BitVec 6)
  /-- SCATTER (R224): Issues an indexed row scatter. -/
  | scatter (sl : BitVec 2) (d : BitVec 6) (a : BitVec 6) (b : BitVec 6)
  /-- CPYB (R225): Issues a converting copy between banks. -/
  | cpyb (sl : BitVec 2) (d : BitVec 6) (a : BitVec 6) (b : BitVec 6)
  /-- FILLS (R225): Issues a fill of a tensor with one value. -/
  | fills (sl : BitVec 2) (d : BitVec 6) (a : BitVec 6) (b : BitVec 6)
  /-- SETF (R226): Sets a bank's format register after checks. -/
  | setf (sl : BitVec 2) (a : BitVec 6) (b : BitVec 6)
  /-- GETF (R226): Reads a bank's format register. -/
  | getf (sl : BitVec 2) (d : BitVec 6) (b : BitVec 6)
  /-- XFORM (R235): Offers a layout transform to the cluster transform engine. -/
  | xform (sl : BitVec 2) (d : BitVec 6) (a : BitVec 6) (b : BitVec 6)
  /-- SRAND (R226): Sets the slot's stochastic-rounding seed. -/
  | srand (sl : BitVec 2) (a : BitVec 6)
  /-- LICQ (R245): Takes the pair's licence if it is free, without queuing. -/
  | licq (sl : BitVec 2) (d : BitVec 6)
  /-- LICW (R245): Requests the licence and blocks until granted. -/
  | licw (sl : BitVec 2) (d : BitVec 6)
  /-- LICR (R245): Releases the licence or withdraws a request. -/
  | licr (sl : BitVec 2) (d : BitVec 6)
  /-- LICS (R245): Reads the licence state. -/
  | lics (sl : BitVec 2) (d : BitVec 6)
  /-- MMA (R249): Issues a licensed matrix multiply-accumulate into a tile. -/
  | mma (sl : BitVec 2) (d : BitVec 6) (a : BitVec 6) (b : BitVec 6)
  /-- MMAD (R249): Issues a licensed squared-distance matrix command into a tile. -/
  | mmad (sl : BitVec 2) (d : BitVec 6) (a : BitVec 6) (b : BitVec 6)
  /-- TOPK (R250): Issues a per-row k-smallest selection from a tile. -/
  | topk (sl : BitVec 2) (d : BitVec 6) (a : BitVec 6) (b : BitVec 6)
  /-- ACLR (R251): Clears the masked accumulator tiles. -/
  | aclr (sl : BitVec 2) (m : BitVec 4)
  /-- DRN (R252): Drains a tile into a bank with the glaze. -/
  | drn (sl : BitVec 2) (d : BitVec 6) (a : BitVec 6) (b : BitVec 6)
  /-- DRN2 (R252): Drains a tile into row- and column-blocked copies. -/
  | drn2 (sl : BitVec 2) (d : BitVec 6) (a : BitVec 6) (b : BitVec 6)
  /-- ASAVE (R254): Saves masked tiles to memory. -/
  | asave (sl : BitVec 2) (d : BitVec 6) (a : BitVec 6) (b : BitVec 6)
  /-- ARST (R254): Restores masked tiles from memory. -/
  | arst (sl : BitVec 2) (d : BitVec 6) (a : BitVec 6) (b : BitVec 6)
  /-- PPT (R255): Takes a pending pre-emption of a licence holder once its matrix commands complete. -/
  | ppt (sl : BitVec 2) (m : BitVec 4)
  /-- MWAIT (R257): Enters a marker that sets a tag when earlier matrix commands complete. -/
  | mwait (sl : BitVec 2) (d : BitVec 6) (b : BitVec 6)
  /-- SRET (R309): Ends the system event, optionally resuming a held slot. -/
  | sret (sl : BitVec 2) (a : BitVec 6) (b : BitVec 6)
  /-- GETP (R308): Reads a privileged register. -/
  | getp (sl : BitVec 2) (d : BitVec 6) (a : BitVec 6) (b : BitVec 6)
  /-- PUTP (R296): Writes a privileged register under its write conditions. -/
  | putp (sl : BitVec 2) (d : BitVec 6) (a : BitVec 6) (b : BitVec 6)
  /-- TLBI (R312): Invalidates translations in the core's and cluster's TLBs. -/
  | tlbi (sl : BitVec 2) (a : BitVec 6) (b : BitVec 6)
  /-- CKPT (R312): Opens or closes a checkpoint interval. -/
  | ckpt (sl : BitVec 2) (d : BitVec 6) (b : BitVec 6)
  /-- KILL (R310): Kills a thread softly or hard, by slot or handle. -/
  | kill (sl : BitVec 2) (d : BitVec 6) (a : BitVec 6) (y : BitVec 1) (h : BitVec 1)
  /-- SLOTS (R311): Reads the state code of every slot. -/
  | slots (sl : BitVec 2) (d : BitVec 6)
  /-- LICF (R313): Hands a held slot's licence to a waiting grantee. -/
  | licf (sl : BitVec 2) (d : BitVec 6) (a : BitVec 6) (b : BitVec 6)
  /-- IBPEEK (R308): Reads a word of the inbox head entry. -/
  | ibpeek (sl : BitVec 2) (d : BitVec 6) (b : BitVec 6)
  /-- IBTAKE (R308): Removes the inbox head entry, optionally performing a live WRITE. -/
  | ibtake (sl : BitVec 2) (d : BitVec 6) (b : BitVec 6)
  /-- DEFER (R308): Moves the head WRITE entry into a deferred place. -/
  | defer (sl : BitVec 2) (d : BitVec 6)
  /-- RESUME (R308): Enters a parked saved thread into the run list. -/
  | resume (sl : BitVec 2) (d : BitVec 6) (a : BitVec 6)
  /-- EVICT (R311): Saves a held slot's thread to its image and frees the slot. -/
  | evict (sl : BitVec 2) (d : BitVec 6) (a : BitVec 6) (b : BitVec 6)
  /-- TRACE (R314): Writes an entry into the core's trace ring. -/
  | trace (sl : BitVec 2) (a : BitVec 6) (b : BitVec 6)
  /-- ADD_COMPACT (R105): Compact form of ADD d, d, a. -/
  | addCompact (d : BitVec 5) (a : BitVec 5)
  /-- SUB_COMPACT (R105): Compact form of SUB d, d, a. -/
  | subCompact (d : BitVec 5) (a : BitVec 5)
  /-- AND_COMPACT (R105): Compact form of AND d, d, a. -/
  | andCompact (d : BitVec 5) (a : BitVec 5)
  /-- OR_COMPACT (R105): Compact form of OR d, d, a. -/
  | orCompact (d : BitVec 5) (a : BitVec 5)
  /-- XOR_COMPACT (R105): Compact form of XOR d, d, a. -/
  | xorCompact (d : BitVec 5) (a : BitVec 5)
  /-- MOV_COMPACT (R105): Compact form of MOV d, a. -/
  | movCompact (d : BitVec 5) (a : BitVec 5)
  /-- ADDI_COMPACT (R105): Compact form of ADDI with a 5-bit signed immediate. -/
  | addiCompact (d : BitVec 5) (i : BitVec 5)
  /-- SHLI_COMPACT (R105): Compact form of SHLI with a count of 0 to 31. -/
  | shliCompact (d : BitVec 5) (i : BitVec 5)
  /-- SHRI_COMPACT (R105): Compact form of SHRI with a count of 0 to 31. -/
  | shriCompact (d : BitVec 5) (i : BitVec 5)
  /-- SETEQ_COMPACT (R105): Compact form of SETEQ d, d, a. -/
  | seteqCompact (d : BitVec 5) (a : BitVec 5)
  /-- SETLT_COMPACT (R105): Compact form of SETLT d, d, a. -/
  | setltCompact (d : BitVec 5) (a : BitVec 5)
  /-- LD_COMPACT (R105): Compact load with offset 0 and policy from AMODE. -/
  | ldCompact (d : BitVec 5) (a : BitVec 5)
  /-- ST_COMPACT (R105): Compact store with offset 0 and policy from AMODE. -/
  | stCompact (d : BitVec 5) (a : BitVec 5)
  /-- BRZ (R105): Compact branch if zero with a 5-bit offset. -/
  | brz (d : BitVec 5) (o : BitVec 5)
  /-- BRNZ (R105): Compact branch if non-zero with a 5-bit offset. -/
  | brnz (d : BitVec 5) (o : BitVec 5)
  /-- NOP_COMPACT (R105): Compact NOP with slip 0. -/
  | nopCompact
  /-- YIELD_COMPACT (R105): Compact YIELD. -/
  | yieldCompact
  /-- FADD_COMPACT (R105): Compact form of FADD d, d, a. -/
  | faddCompact (d : BitVec 5) (a : BitVec 5)
  /-- FMUL_COMPACT (R105): Compact form of FMUL d, d, a. -/
  | fmulCompact (d : BitVec 5) (a : BitVec 5)
  /-- SUBMISSION_PLACE_WAIT (R395): A submission waiting for a free counter place is accepted when one frees. -/
  | submissionPlaceWait (core : Nat)
  /-- TASK_COUNTER_DECREMENT (R39): A decrement arrives at a task counter and may make the task ready. -/
  | taskCounterDecrement (task : Nat) (bereaved : Bool)
  /-- DEAL_TASK (R41): A selected task entry is dealt group by group to its logical units. -/
  | dealTask (core : Nat)
  /-- DEAL_RESUME (R327): A held deal continues once run-list room or free images appear. -/
  | dealResume (idx : Nat)
  /-- SLOT_FILL (R44): The dispatcher fills a free enabled user slot from the head of the run list. -/
  | slotFill (core : Nat)
  /-- RESUME_AFTER_WRITEBACK (R72): A saved thread resumes elsewhere after its last core acknowledges the write-back of its rows. -/
  | resumeAfterWriteback (core : Nat) (idx : Nat)
  /-- AGE_PROMOTE (R45): An entry that has waited past its AGE interval is promoted one priority. -/
  | agePromote (core : Nat) (idx : Nat)
  /-- CALL_ENTRY_TAKE (R47): The target dispatcher takes a call entry and enters a callee thread. -/
  | callEntryTake (core : Nat)
  /-- OVERFLOW_ENTER (R328): An entry from the tower overflow queue enters its run list as room appears. -/
  | overflowEnter (tower : Nat)
  /-- SUCCESSOR_START (R278): After every predecessor core acknowledges the deferred release, the successor's threads start with acquire. -/
  | successorStart (task : Nat)
  /-- WAKE_RECHECK (R49): A woken slot re-evaluates its waiting condition in its next turn. -/
  | wakeRecheck (core : Nat) (slot : Nat)
  /-- ROW_FILL (R70): A demanded private row arrives in the register cache and the stalled slot proceeds. -/
  | rowFill (core : Nat) (slot : Nat) (bad : Bool)
  /-- ROW_IDLE_WRITEBACK (R71): The core writes dirty evictable rows back in idle cycles. -/
  | rowIdleWriteback (core : Nat) (idx : Nat)
  /-- REPACK_COMPLETE (R78): The fuller finishes a repack, increments MAPGEN and ends the freeze; it finds the rows of `bad`
  uncorrectable. -/
  | repackComplete (core : Nat)
  /-- MESSAGE_DELIVER (R173): A message's flits arrive whole in a receive channel. -/
  | messageDeliver (core : Nat) (chan : Nat) (idx : Nat)
  /-- FABRIC_MSG_RECEIVE (R275): A MSG packet arrives and is delivered through the reorder buffer. -/
  | fabricMsgReceive (p : Packet)
  /-- PUT_RECEIVE (R276): A remote put is performed at its home. -/
  | putReceive (p : Packet)
  /-- CPUT_RECEIVE (R195): A counted put is performed and then counted at its barrier. -/
  | cputReceive (p : Packet)
  /-- ATOM_RECEIVE (R197): A remote atomic is performed at its home and replied to. -/
  | atomReceive (p : Packet)
  /-- REPLY_RECEIVE (R373): A reply to a remote operation reaches its requester. -/
  | replyReceive (p : Packet)
  /-- NAME_WINDOW_WRITE (R79): A window write fits a value into a named slot, shared or pair name. -/
  | nameWindowWrite (pa : Nat) (size : Nat) (value : Word) (by_ : Nat)
  /-- NAME_WINDOW_READ (R79): A window read returns a name's value extended to 64 bits. -/
  | nameWindowRead (pa : Nat) (size : Nat) (by_ : Nat)
  /-- RAW_ROW_ACCESS (R80): The system slot reads or writes a raw register row. -/
  | rawRowAccess (pa : Nat) (store : Bool) (value : Word) (by_ : Nat)
  /-- ACC_WINDOW_READ (R244): A read of a tile through the accumulator window waits for earlier commands on the tile. -/
  | accWindowRead (pa : Nat) (size : Nat) (by_ : Nat)
  /-- ACC_WINDOW_WRITE (R244): A write of raw bits into a tile through the accumulator window. -/
  | accWindowWrite (pa : Nat) (size : Nat) (value : Word) (by_ : Nat)
  /-- INBOX_ENTRY_ENTER (R303): A waiting producer's entry enters the inbox once it has room. -/
  | inboxEntryEnter (core : Nat)
  /-- SETF_TAKE_EFFECT (R87): A SETF waiting on its bank's commands replaces the format register. -/
  | setfTakeEffect (core : Nat) (idx : Nat)
  /-- STREAM_COMMAND_START (R219): A stream command starts once the scoreboard finds no overlap ahead. -/
  | streamCommandStart (core : Nat) (idx : Nat)
  /-- STREAM_COMMAND_COMPLETE (R218): A stream command finishes writing and sets its tag. -/
  | streamCommandComplete (core : Nat) (idx : Nat)
  /-- CHUNK_WAIT_RELEASE (R227): A command held on a chunk acquires once the chunk bit is set. -/
  | chunkWaitRelease (core : Nat) (idx : Nat)
  /-- COPY_COMMAND_START (R228): The copy engine checks and starts an accepted copy command. -/
  | copyCommandStart (core : Nat) (idx : Nat)
  /-- COPY_COMMAND_COMPLETE (R229): A copy finishes, sets its tag and counts its barrier arrival. -/
  | copyCommandComplete (core : Nat) (idx : Nat)
  /-- COLL_COMMAND_START (R230): The collective engine checks and starts a member's collective. -/
  | collCommandStart (core : Nat) (idx : Nat)
  /-- COLL_PACKET_RECEIVE (R231): A collective packet is checked against the member's command and reduced or held. -/
  | collPacketReceive (core : Nat) (p : Packet)
  /-- COLL_ABORT_RECEIVE (R231): An ABORT packet aborts the receiving member's command. -/
  | collAbortReceive (core : Nat) (p : Packet)
  /-- CHUNK_LAND (R232): A chunk's result is performed and its chunk bit set, with the final arrival after the last. -/
  | chunkLand (core : Nat) (idx : Nat) (chunk : Nat)
  /-- INSWITCH_TIMEOUT (R377): A switch that refuses or does not answer in 2^20 cycles sends the collective to the engines. -/
  | inswitchTimeout (core : Nat) (idx : Nat)
  /-- HOST_RECORD_SEND (R234): A HOST command appends a completion record to its host queue. -/
  | hostRecordSend (core : Nat) (idx : Nat)
  /-- XFORM_START (R237): The transform engine reads the layout record and starts the transform. -/
  | xformStart (core : Nat) (idx : Nat)
  /-- XFORM_COMPLETE (R237): A transform finishes and counts one arrival on its barrier. -/
  | xformComplete (core : Nat) (idx : Nat)
  /-- MATRIX_COMMAND_START (R242): A matrix-queue command starts once tile order and scoreboard allow. -/
  | matrixCommandStart (core : Nat) (idx : Nat)
  /-- MCAST_WAIT_EXPIRE (R243): After 4,096 cycles the owning bank serves present cores separately. -/
  | mcastWaitExpire (core : Nat) (idx : Nat)
  /-- MMA_COMPLETE (R249): An MMA or MMAD writes its tile and sets its tag. -/
  | mmaComplete (core : Nat) (idx : Nat)
  /-- TOPK_COMPLETE (R250): TOPK writes its index and value records. -/
  | topkComplete (core : Nat) (idx : Nat)
  /-- DRAIN_COMPLETE (R252): A drain finishes the glaze, sets its tag and counts its arrival. -/
  | drainComplete (core : Nat) (idx : Nat)
  /-- ACC_SAVE_COMPLETE (R254): ASAVE finishes writing its tiles. -/
  | accSaveComplete (core : Nat) (idx : Nat)
  /-- ACC_RESTORE_COMPLETE (R248): A tile restore completes and SAVED is cleared. -/
  | accRestoreComplete (core : Nat) (idx : Nat)
  /-- MWAIT_MARKER_FIRE (R257): An MWAIT marker sets its tag once earlier matrix commands complete. -/
  | mwaitMarkerFire (core : Nat) (idx : Nat)
  /-- ENGINE_FAULT_PARK (R349): A faulting engine command is parked and reported in the inbox. -/
  | engineFaultPark (core : Nat) (idx : Nat)
  /-- ENGPARK_RESUME (R349): ENGPARK act 1 resumes a parked command. -/
  | engparkResume (core : Nat) (place : Nat)
  /-- ENGPARK_KILL (R349): ENGPARK act 2 kills a parked command. -/
  | engparkKill (core : Nat) (place : Nat)
  /-- LICENCE_TERM_END (R247): A term ends by count or 2^20 cycles with a waiter, making the licence DUE. -/
  | licenceTermEnd (pair : Nat)
  /-- LICENCE_DRAIN_GRANT (R247): When the former holder's MMAs complete, the licence passes to the next grantee. -/
  | licenceDrainGrant (pair : Nat)
  /-- TIMER_EXPIRE (R298): A slot TIMER reaches 0 and requests pre-emption or raises a TIMER event. -/
  | timerExpire (core : Nat) (slot : Nat)
  /-- PREEMPT_TAKE (R300): A pending pre-emption of a non-licensed thread is taken at an instruction boundary. -/
  | preemptTake (core : Nat) (slot : Nat)
  /-- PREEMPT_FORCE (R255): A licensed thread that reaches no PPT in 2^20 cycles is pre-empted by force. -/
  | preemptForce (core : Nat) (slot : Nat)
  /-- SYSTEM_EVENT_BEGIN (R293): The system slot begins the highest pending event at SYSVEC. -/
  | systemEventBegin (core : Nat)
  /-- SYSTEM_SLOT_RESTART (R295): The Bexelone controller restarts a stopped system slot with a RESET event. -/
  | systemSlotRestart (core : Nat)
  /-- CONVEY_ENTRY (R316): One estate entry of a dying thread is conveyed after the previous delivery is performed. -/
  | conveyEntry (idx : Nat)
  /-- HOST_SUBMIT (R323): A host SUBMIT command submits a launch record and is answered. -/
  | hostSubmit (queue : Nat) (cmd : BitVec 512)
  /-- HOST_DECR (R323): A host DECR command sends one decrement to a record's counter. -/
  | hostDecr (queue : Nat) (cmd : BitVec 512)
  /-- HOST_CLOSE (R323): A host CLOSE command tears the queue down and leaves it closed. -/
  | hostClose (queue : Nat) (cmd : BitVec 512)
  /-- HOST_RESET (R323): A host RESET command tears the queue down and reopens it. -/
  | hostReset (queue : Nat) (cmd : BitVec 512)
  /-- HQCTL_OPEN (R322): A write of REQ 1 opens a closed host queue whose endpoint is valid. -/
  | hqctlOpen (queue : Nat) (value : Word)
  /-- HQCTL_TEARDOWN_SOFT (R331): A write of REQ 2 begins a soft teardown of an open queue. -/
  | hqctlTeardownSoft (queue : Nat) (value : Word)
  /-- HQCTL_TEARDOWN_HARD (R331): A write of REQ 3 begins a hard teardown of an open queue. -/
  | hqctlTeardownHard (queue : Nat) (value : Word)
  /-- TEARDOWN_COMPLETE (R331): Once every task of the queue is final, replies and CLOSED are sent. -/
  | teardownComplete (queue : Nat)
  /-- DUAL_EFFECT_COMPARE (R333): The mesh router compares paired effects of two redundant copies. -/
  | dualEffectCompare (task : Nat) (group : Nat)
  /-- DUAL_PARTNER_TIMEOUT (R334): An effect waiting 2^20 cycles for its partner is a mismatch. -/
  | dualPartnerTimeout (task : Nat) (group : Nat)
  /-- TLBSHOOT_CTX (R347): TLBSHOOT SEL 0 invalidates every entry of a context device-wide. -/
  | tlbshootCtx (value : Word)
  /-- TLBSHOOT_PAGE (R347): TLBSHOOT SEL 1 invalidates a context's entries for one page. -/
  | tlbshootPage (value : Word)
  /-- TLBSHOOT_ALL (R347): TLBSHOOT SEL 2 invalidates every entry. -/
  | tlbshootAll (value : Word)
  /-- TLBSHOOT_COMPLETE (R347): The shootdown completes and BUSY clears. -/
  | tlbshootComplete
  /-- POOL_LINE_WRITEBACK (R352): A pool line is compressed and committed under a shadow record. -/
  | poolLineWriteback (tower : Nat) (line : Nat) (bad : Bool)
  /-- SHADOW_RECORD_REPLAY (R352): A restarting slice rewrites an unretired shadow record in place. -/
  | shadowRecordReplay (tower : Nat) (slice : Nat)
  /-- POOL_HOT_EXPIRE (R353): HOT clears after 65,536 cycles without an atomic. -/
  | poolHotExpire (tower : Nat) (line : Nat)
  /-- POOL_PUSH (R350): A write to PUSH adds a chunk index to the free list. -/
  | poolPush (tower : Nat) (value : Word)
  /-- POOL_DROP (R355): A write to DROP discards the lines of one pool page. -/
  | poolDrop (tower : Nat) (value : Word)
  /-- CKLOG_WRITE (R357): A write to CKLOG empties the channel log and clears OVF. -/
  | cklogWrite (channel : Nat) (value : Word)
  /-- ROLLBACK_START (R358): A write with GO starts or refuses a rollback. -/
  | rollbackStart (value : Word)
  /-- ROLLBACK_COMPLETE (R358): The rollback finishes replaying logs and sets DONE. -/
  | rollbackComplete
  /-- SCRUB_PASS (R369): A channel controller scrubs a line and writes back corrected data. -/
  | scrubPass (line : Nat) (bad : Bool)
  /-- CTRAREA_WRITE (R395): A write sets a core's counter area unless it passes the scratchpad's end. -/
  | ctrareaWrite (core : Nat) (value : Word)
  /-- PWRREQ_STEP_WRITE (R361): A STEP write replaces the cluster's pending step request. -/
  | pwrreqStepWrite (cluster : Nat) (value : Word)
  /-- PWRREQ_GO (R361): A GO releases GRANT and starts or holds a ramp. -/
  | pwrreqGo (cluster : Nat) (value : Word)
  /-- RAMP_COMPLETE (R362): A step ramp ends and a held GO may act. -/
  | rampComplete (cluster : Nat)
  /-- CURRENT_SAMPLE (R363): Every 256 cycles the current loop raises or lowers the removed-slot count. -/
  | currentSample (cluster : Nat) (amps : Nat)
  /-- CURRENT_STEP_DOWN (R364): After 2^16 cycles with slots removed the cluster steps down. -/
  | currentStepDown (cluster : Nat)
  /-- THERMAL_OFFLINE (R366): At 105 °C the die's core sites are taken offline. -/
  | thermalOffline (die : Nat) (temp : Nat)
  /-- THERMAL_CLAMP (R365): A second hot die of a tower is clamped at step 8. -/
  | thermalClamp (die : Nat) (temp : Nat)
  /-- THERMAL_CUT (R365): At 115 °C the core sites' supply is cut at once. -/
  | thermalCut (die : Nat) (temp : Nat)
  /-- OFFLINE_TIMEOUT_CUT (R365): An offlining not complete after 1 ms cuts the supply. -/
  | offlineTimeoutCut (die : Nat)
  /-- THERMST_READMIT (R367): A READMIT write returns a cooled offline die to service. -/
  | thermstReadmit (die : Nat) (value : Word)
  /-- FWDOG_KICK (R368): A KICK restarts the firmware watchdog period. -/
  | fwdogKick (value : Word)
  /-- FWDOG_EXPIRE (R368): An unkicked watchdog restarts the firmware from its signed image. -/
  | fwdogExpire
  /-- FIRMWARE_VERIFY (R380): The controller verifies both signatures of a firmware image before running it. -/
  | firmwareVerify (pss : Bool) (slh : Bool) (version : Nat)
  /-- ATTESTATION_REPORT (R381): A nonce request yields a doubly signed attestation report. -/
  | attestationReport (nonce : BitVec 256)
  /-- ENDPOINT_INSTALL (R379): The controller installs a host endpoint association. -/
  | endpointInstall (ep : Nat) (ctx : BitVec 16) (host : BitVec 32)
  /-- ENDPOINT_REVOKE (R379): A revoked endpoint has its bound queues torn down hard. -/
  | endpointRevoke (ep : Nat)
  /-- ALARM_RAISE (R382): A tamper or glitch alarm acts at its configured level. -/
  | alarmRaise (source : Nat)
  /-- PORT_LINK_CHANGE (R374): A fabric port going down or up moves flows between planes. -/
  | portLinkChange (port : Nat) (up : Bool)
  /-- UCIE_RETRAIN_FAIL (R378): A UCIe module that fails retraining is disabled. -/
  | ucieRetrainFail (module : Nat)
  /-- PARTCTL_OPEN (R384): Setting an OPEN bit checks a partition's PLACE words and snapshots the table. -/
  | partctlOpen (value : Word)
  /-- PARTCTL_CLOSE (R384): Clearing an OPEN bit closes an idle partition. -/
  | partctlClose (value : Word)
  /-- WRST_GO (R385): A GO starts or refuses a warm reset of a die. -/
  | wrstGo (die : Nat) (value : Word)
  /-- WARM_RESET_PHASE (R385): A warm reset phase completes and the next begins. -/
  | warmResetPhase (die : Nat) (ok : Bool)
  /-- DIE_RESET (R293): A die is brought up or reset and its system slots receive RESET events. -/
  | dieReset (die : Nat)
  /-- REGISTER_WRITE (R5): A write to a register without behaviour of its own updates it by its access codes. -/
  | registerWrite (off : Nat) (value : Word) (by_ : Nat)
  /-- LINE_WRITE_BACK (R356): A dirty line of an L1, an L2 or the LLC is evicted and written back to its storage, logged and poisoned where the rules say. -/
  | lineWriteBack (level : Nat) (unit_ : Nat) (line : Nat) (bad : Bool)
  /-- ACCESS_RESULT_ARRIVAL (R107): The result of a variable-latency local access, atomic or XGET arrives and is written, ending the slot's stall. -/
  | accessResultArrival (core : Nat) (slot : Nat) (idx : Nat)
  /-- UCIE_MODULE_RETURN (R378): A UCIe module comes back up and held cross-tower traffic resumes. -/
  | ucieModuleReturn (module : Nat)
  /-- WARM_ZONE (R365): A die's hottest sensor crosses 95 °C and THERMST ZONE enters or leaves the warm zone. -/
  | warmZone (die : Nat) (temp : Nat)
  /-- COLD_START (R381): The package powers on, the Bexelone controller starts from its ROM and derives its identity keys. -/
  | coldStart
  deriving DecidableEq, Repr

end Sys2Proof
end

