-- ==== Sys2Proof/WellFormed.lean ====
section
/-! DEFINITION. WellFormed.lean: the field limits of R103, R104, R105 and of the instruction entries, and the ranges of the
units that an event names (R12, R13, R17). -/

namespace Sys2Proof

/-- The operand fields keep the limits of their entries (R112): what an encoding may hold beyond its fixed bits. -/
def Instr.wf : Instr → Bool
  | .add _ _ _ _ => true
  | .sub _ _ _ _ => true
  | .mul _ _ _ _ => true
  | .mulh _ _ _ _ => true
  | .div _ _ _ _ => true
  | .rem _ _ _ _ => true
  | .min _ _ _ _ => true
  | .max _ _ _ _ => true
  | .and _ _ _ _ => true
  | .or _ _ _ _ => true
  | .xor _ _ _ _ => true
  | .andn _ _ _ _ => true
  | .shl _ _ _ _ => true
  | .shr _ _ _ _ => true
  | .rol _ _ _ _ => true
  | .ror _ _ _ _ => true
  | .seteq _ _ _ _ => true
  | .setne _ _ _ _ => true
  | .setlt _ _ _ _ => true
  | .setle _ _ _ _ => true
  | .absd _ _ _ _ => true
  | .mov _ _ _ => true
  | .neg _ _ _ => true
  | .abs _ _ _ => true
  | .not _ _ _ => true
  | .clz _ _ _ => true
  | .ctz _ _ _ => true
  | .popc _ _ _ => true
  | .brev _ _ _ => true
  | .fits _ _ _ _ => true
  | .getw _ _ _ => true
  | .getm _ _ _ => true
  | .sel _ _ _ _ _ => true
  | .bfx _ _ _ p l => decide (p.toNat + l.toNat < 64)
  | .bfi _ _ _ p l => decide (p.toNat + l.toNat < 64)
  | .addi _ _ _ _ => true
  | .muli _ _ _ _ => true
  | .andi _ _ _ _ => true
  | .ori _ _ _ _ => true
  | .xori _ _ _ _ => true
  | .shli _ _ _ _ => true
  | .shri _ _ _ _ => true
  | .seteqi _ _ _ _ => true
  | .setlti _ _ _ _ => true
  | .movi _ _ _ => true
  | .movk _ _ _ _ => true
  | .rsz _ _ _ => true
  | .setm _ _ m => decide (m.toNat < 3)
  | .borrow _ _ _ _ => true
  | .giveback _ => true
  | .xget _ _ _ => true
  | .xput _ _ _ => true
  | .twxch _ _ _ => true
  | .mapld _ _ => true
  | .mapq _ _ _ => true
  | .gets _ _ r => decide (r.toNat < 11)
  | .puts _ _ r => decide (r.toNat < 11)
  | .oxl _ _ _ => true
  | .oxr _ _ _ => true
  | .oxclr _ m k => m == 0 || k == 0
  | .oxi _ m q _ i => if m == 0 then !(i.getLsbD 16) else q == 0
  | .fadd _ _ _ _ => true
  | .fsub _ _ _ _ => true
  | .fmul _ _ _ _ => true
  | .fdiv _ _ _ _ => true
  | .fmin _ _ _ _ => true
  | .fmax _ _ _ _ => true
  | .fseteq _ _ _ _ => true
  | .fsetlt _ _ _ _ => true
  | .fsetle _ _ _ _ => true
  | .fsetun _ _ _ _ => true
  | .fcpys _ _ _ _ => true
  | .fabs _ _ _ => true
  | .fneg _ _ _ => true
  | .fcvt _ _ _ r => decide (r.toNat < 6)
  | .frnd _ _ _ r => decide (r.toNat < 6)
  | .fclass _ _ _ => true
  | .fsqrt _ _ _ => true
  | .rcpa _ _ _ => true
  | .rsqa _ _ _ => true
  | .exp2a _ _ _ => true
  | .log2a _ _ _ => true
  | .siga _ _ _ => true
  | .tanha _ _ _ => true
  | .ffma _ _ _ _ => true
  | .ffms _ _ _ _ => true
  | .rcps _ _ _ _ => true
  | .rsqs _ _ _ _ => true
  | .br _ c t _ => t != 3 || c == 63
  | .call _ _ _ => true
  | .loop _ c _ => c != 63
  | .jmp _ _ => true
  | .callr _ _ _ => true
  | .ret _ _ => true
  | .yield _ => true
  | .exit _ _ => true
  | .trap _ _ => true
  | .brk _ => true
  | .nop _ => true
  | .callat _ d _ _ => decide (d.toNat < 16) || d == 63
  | .send _ _ _ => true
  | .recv _ _ _ b => decide (b.toNat < 16)
  | .tryrecv _ _ _ b => decide (b.toNat < 16)
  | .chstat _ _ b => decide (b.toNat < 16)
  | .spawn _ _ _ _ => true
  | .dep _ _ => true
  | .waitany _ _ _ => true
  | .waitall _ _ _ => true
  | .ffr _ _ _ => true
  | .tagclr _ _ => true
  | .bari _ d _ b => d == 0 || (d == 1 && b == 0)
  | .arrive _ _ _ b => decide (b.toNat < 8)
  | .waitb _ _ _ _ => true
  | .waitch _ _ _ _ => true
  | .push _ _ q _ => decide (q.toNat < 3)
  | .qstat _ _ q => decide (q.toNat < 3)
  | .ld _ _ _ _ => true
  | .st _ _ _ _ => true
  | .lda _ _ _ _ => true
  | .stl _ _ _ _ => true
  | .spill _ _ _ b => decide (0 < b.toNat)
  | .fill _ _ _ b => decide (0 < b.toNat)
  | .pf _ _ b => decide (b.toNat < 3)
  | .flush _ d _ _ => decide (d.toNat < 8)
  | .inv _ d _ _ => decide (d.toNat < 9)
  | .fence _ d b => decide (d.toNat < 8) && decide (b.toNat < 3)
  | .ldx _ _ _ _ => true
  | .stx _ _ _ _ => true
  | .stc _ _ _ _ => true
  | .aadd _ _ _ _ => true
  | .aand _ _ _ _ => true
  | .aor _ _ _ _ => true
  | .axor _ _ _ _ => true
  | .amin _ _ _ _ => true
  | .amax _ _ _ _ => true
  | .aswp _ _ _ _ => true
  | .acas _ _ _ _ => true
  | .faadd _ _ _ _ => true
  | .lock _ _ _ => true
  | .unlock _ _ _ => true
  | .hold _ _ _ _ => true
  | .will _ _ _ _ => true
  | .relh _ _ _ => true
  | .convey _ _ _ => true
  | .estq _ _ _ b => decide (b.toNat < 3)
  | .prmk _ _ => true
  | .keep _ _ _ _ => true
  | .awaitp _ _ _ => true
  | .prmq _ _ _ => true
  | .chain _ _ _ _ => true
  | .reduce _ _ _ _ => true
  | .gather _ _ _ _ => true
  | .scatter _ _ _ _ => true
  | .cpyb _ _ _ _ => true
  | .fills _ _ _ _ => true
  | .setf _ _ b => decide (b.toNat < 16)
  | .getf _ _ b => decide (b.toNat < 16)
  | .xform _ _ _ b => decide (b.toNat < 5)
  | .srand _ _ => true
  | .licq _ _ => true
  | .licw _ _ => true
  | .licr _ _ => true
  | .lics _ _ => true
  | .mma _ _ _ _ => true
  | .mmad _ _ _ _ => true
  | .topk _ _ _ _ => true
  | .aclr _ _ => true
  | .drn _ _ _ _ => true
  | .drn2 _ _ _ _ => true
  | .asave _ d a _ => d == 7 || (decide (d.toNat < 7) && a == 0)
  | .arst _ d a _ => d == 7 || (decide (d.toNat < 7) && a == 0)
  | .ppt _ _ => true
  | .mwait _ _ _ => true
  | .sret _ _ b => decide (b.toNat < 3)
  | .getp _ _ _ b => decide (b.toNat < 15)
  | .putp _ _ _ b => decide (b.toNat < 15)
  | .tlbi _ _ b => decide (b.toNat < 3)
  | .ckpt _ _ b => decide (b.toNat < 2)
  | .kill _ _ _ _ _ => true
  | .slots _ _ => true
  | .licf _ _ _ _ => true
  | .ibpeek _ _ b => decide (b.toNat < 4)
  | .ibtake _ _ b => decide (b.toNat < 2)
  | .defer _ _ => true
  | .resume _ _ _ => true
  | .evict _ _ _ b => decide (b.toNat < 2)
  | .trace _ _ b => decide (b.toNat < 16)
  | .addCompact _ _ => true
  | .subCompact _ _ => true
  | .andCompact _ _ => true
  | .orCompact _ _ => true
  | .xorCompact _ _ => true
  | .movCompact _ _ => true
  | .addiCompact _ _ => true
  | .shliCompact _ _ => true
  | .shriCompact _ _ => true
  | .seteqCompact _ _ => true
  | .setltCompact _ _ => true
  | .ldCompact _ _ => true
  | .stCompact _ _ => true
  | .brz _ _ => true
  | .brnz _ _ => true
  | .nopCompact => true
  | .yieldCompact => true
  | .faddCompact _ _ => true
  | .fmulCompact _ _ => true
  | .submissionPlaceWait core => decide (core < 1024)
  | .taskCounterDecrement _ _ => true
  | .dealTask core => decide (core < 1024)
  | .dealResume _ => true
  | .slotFill core => decide (core < 1024)
  | .resumeAfterWriteback core _ => decide (core < 1024)
  | .agePromote core _ => decide (core < 1024)
  | .callEntryTake core => decide (core < 1024)
  | .overflowEnter tower => decide (tower < 2)
  | .successorStart _ => true
  | .wakeRecheck core slot => decide (core < 1024) && decide (slot < 8)
  | .rowFill core slot _ => decide (core < 1024) && decide (slot < 8)
  | .rowIdleWriteback core _ => decide (core < 1024)
  | .repackComplete core => decide (core < 1024)
  | .messageDeliver core chan _ => decide (core < 1024) && decide (chan < 16)
  | .fabricMsgReceive _ => true
  | .putReceive _ => true
  | .cputReceive _ => true
  | .atomReceive _ => true
  | .replyReceive _ => true
  | .nameWindowWrite _ _ _ _ => true
  | .nameWindowRead _ _ _ => true
  | .rawRowAccess _ _ _ _ => true
  | .accWindowRead _ _ _ => true
  | .accWindowWrite _ _ _ _ => true
  | .inboxEntryEnter core => decide (core < 1024)
  | .setfTakeEffect core _ => decide (core < 1024)
  | .streamCommandStart core _ => decide (core < 1024)
  | .streamCommandComplete core _ => decide (core < 1024)
  | .chunkWaitRelease core _ => decide (core < 1024)
  | .copyCommandStart core _ => decide (core < 1024)
  | .copyCommandComplete core _ => decide (core < 1024)
  | .collCommandStart core _ => decide (core < 1024)
  | .collPacketReceive core _ => decide (core < 1024)
  | .collAbortReceive core _ => decide (core < 1024)
  | .chunkLand core _ _ => decide (core < 1024)
  | .inswitchTimeout core _ => decide (core < 1024)
  | .hostRecordSend core _ => decide (core < 1024)
  | .xformStart core _ => decide (core < 1024)
  | .xformComplete core _ => decide (core < 1024)
  | .matrixCommandStart core _ => decide (core < 1024)
  | .mcastWaitExpire core _ => decide (core < 1024)
  | .mmaComplete core _ => decide (core < 1024)
  | .topkComplete core _ => decide (core < 1024)
  | .drainComplete core _ => decide (core < 1024)
  | .accSaveComplete core _ => decide (core < 1024)
  | .accRestoreComplete core _ => decide (core < 1024)
  | .mwaitMarkerFire core _ => decide (core < 1024)
  | .engineFaultPark core _ => decide (core < 1024)
  | .engparkResume core place => decide (core < 1024) && decide (place < 16)
  | .engparkKill core place => decide (core < 1024) && decide (place < 16)
  | .licenceTermEnd pair => decide (pair < 512)
  | .licenceDrainGrant pair => decide (pair < 512)
  | .timerExpire core slot => decide (core < 1024) && decide (slot < 8)
  | .preemptTake core slot => decide (core < 1024) && decide (slot < 8)
  | .preemptForce core slot => decide (core < 1024) && decide (slot < 8)
  | .systemEventBegin core => decide (core < 1024)
  | .systemSlotRestart core => decide (core < 1024)
  | .conveyEntry _ => true
  | .hostSubmit queue _ => decide (queue < 4096)
  | .hostDecr queue _ => decide (queue < 4096)
  | .hostClose queue _ => decide (queue < 4096)
  | .hostReset queue _ => decide (queue < 4096)
  | .hqctlOpen queue _ => decide (queue < 4096)
  | .hqctlTeardownSoft queue _ => decide (queue < 4096)
  | .hqctlTeardownHard queue _ => decide (queue < 4096)
  | .teardownComplete queue => decide (queue < 4096)
  | .dualEffectCompare _ _ => true
  | .dualPartnerTimeout _ _ => true
  | .tlbshootCtx _ => true
  | .tlbshootPage _ => true
  | .tlbshootAll _ => true
  | .tlbshootComplete => true
  | .poolLineWriteback tower _ _ => decide (tower < 2)
  | .shadowRecordReplay tower _ => decide (tower < 2)
  | .poolHotExpire tower _ => decide (tower < 2)
  | .poolPush tower _ => decide (tower < 2)
  | .poolDrop tower _ => decide (tower < 2)
  | .cklogWrite channel _ => decide (channel < 1024)
  | .rollbackStart _ => true
  | .rollbackComplete => true
  | .scrubPass _ _ => true
  | .ctrareaWrite core _ => decide (core < 1024)
  | .pwrreqStepWrite cluster _ => decide (cluster < 128)
  | .pwrreqGo cluster _ => decide (cluster < 128)
  | .rampComplete cluster => decide (cluster < 128)
  | .currentSample cluster _ => decide (cluster < 128)
  | .currentStepDown cluster => decide (cluster < 128)
  | .thermalOffline die _ => decide (die < 4)
  | .thermalClamp die _ => decide (die < 4)
  | .thermalCut die _ => decide (die < 4)
  | .offlineTimeoutCut die => decide (die < 4)
  | .thermstReadmit die _ => decide (die < 4)
  | .fwdogKick _ => true
  | .fwdogExpire => true
  | .firmwareVerify _ _ _ => true
  | .attestationReport _ => true
  | .endpointInstall _ _ _ => true
  | .endpointRevoke _ => true
  | .alarmRaise _ => true
  | .portLinkChange port _ => decide (port < 32)
  | .ucieRetrainFail _ => true
  | .partctlOpen _ => true
  | .partctlClose _ => true
  | .wrstGo die _ => decide (die < 4)
  | .warmResetPhase die _ => decide (die < 4)
  | .dieReset die => decide (die < 4)
  | .registerWrite _ _ _ => true
  | .lineWriteBack _ _ _ _ => true
  | .accessResultArrival core slot _ => decide (core < 1024) && decide (slot < 8)
  | .ucieModuleReturn _ => true
  | .warmZone die _ => decide (die < 4)
  | .coldStart => true

/-- The instruction has a 32-bit encoding. -/
def Instr.is32 : Instr → Bool
  | .add _ _ _ _ => true
  | .sub _ _ _ _ => true
  | .mul _ _ _ _ => true
  | .mulh _ _ _ _ => true
  | .div _ _ _ _ => true
  | .rem _ _ _ _ => true
  | .min _ _ _ _ => true
  | .max _ _ _ _ => true
  | .and _ _ _ _ => true
  | .or _ _ _ _ => true
  | .xor _ _ _ _ => true
  | .andn _ _ _ _ => true
  | .shl _ _ _ _ => true
  | .shr _ _ _ _ => true
  | .rol _ _ _ _ => true
  | .ror _ _ _ _ => true
  | .seteq _ _ _ _ => true
  | .setne _ _ _ _ => true
  | .setlt _ _ _ _ => true
  | .setle _ _ _ _ => true
  | .absd _ _ _ _ => true
  | .mov _ _ _ => true
  | .neg _ _ _ => true
  | .abs _ _ _ => true
  | .not _ _ _ => true
  | .clz _ _ _ => true
  | .ctz _ _ _ => true
  | .popc _ _ _ => true
  | .brev _ _ _ => true
  | .fits _ _ _ _ => true
  | .getw _ _ _ => true
  | .getm _ _ _ => true
  | .sel _ _ _ _ _ => true
  | .bfx _ _ _ _ _ => true
  | .bfi _ _ _ _ _ => true
  | .addi _ _ _ _ => true
  | .muli _ _ _ _ => true
  | .andi _ _ _ _ => true
  | .ori _ _ _ _ => true
  | .xori _ _ _ _ => true
  | .shli _ _ _ _ => true
  | .shri _ _ _ _ => true
  | .seteqi _ _ _ _ => true
  | .setlti _ _ _ _ => true
  | .movi _ _ _ => true
  | .movk _ _ _ _ => true
  | .rsz _ _ _ => true
  | .setm _ _ _ => true
  | .borrow _ _ _ _ => true
  | .giveback _ => true
  | .xget _ _ _ => true
  | .xput _ _ _ => true
  | .twxch _ _ _ => true
  | .mapld _ _ => true
  | .mapq _ _ _ => true
  | .gets _ _ _ => true
  | .puts _ _ _ => true
  | .oxl _ _ _ => true
  | .oxr _ _ _ => true
  | .oxclr _ _ _ => true
  | .oxi _ _ _ _ _ => true
  | .fadd _ _ _ _ => true
  | .fsub _ _ _ _ => true
  | .fmul _ _ _ _ => true
  | .fdiv _ _ _ _ => true
  | .fmin _ _ _ _ => true
  | .fmax _ _ _ _ => true
  | .fseteq _ _ _ _ => true
  | .fsetlt _ _ _ _ => true
  | .fsetle _ _ _ _ => true
  | .fsetun _ _ _ _ => true
  | .fcpys _ _ _ _ => true
  | .fabs _ _ _ => true
  | .fneg _ _ _ => true
  | .fcvt _ _ _ _ => true
  | .frnd _ _ _ _ => true
  | .fclass _ _ _ => true
  | .fsqrt _ _ _ => true
  | .rcpa _ _ _ => true
  | .rsqa _ _ _ => true
  | .exp2a _ _ _ => true
  | .log2a _ _ _ => true
  | .siga _ _ _ => true
  | .tanha _ _ _ => true
  | .ffma _ _ _ _ => true
  | .ffms _ _ _ _ => true
  | .rcps _ _ _ _ => true
  | .rsqs _ _ _ _ => true
  | .br _ _ _ _ => true
  | .call _ _ _ => true
  | .loop _ _ _ => true
  | .jmp _ _ => true
  | .callr _ _ _ => true
  | .ret _ _ => true
  | .yield _ => true
  | .exit _ _ => true
  | .trap _ _ => true
  | .brk _ => true
  | .nop _ => true
  | .callat _ _ _ _ => true
  | .send _ _ _ => true
  | .recv _ _ _ _ => true
  | .tryrecv _ _ _ _ => true
  | .chstat _ _ _ => true
  | .spawn _ _ _ _ => true
  | .dep _ _ => true
  | .waitany _ _ _ => true
  | .waitall _ _ _ => true
  | .ffr _ _ _ => true
  | .tagclr _ _ => true
  | .bari _ _ _ _ => true
  | .arrive _ _ _ _ => true
  | .waitb _ _ _ _ => true
  | .waitch _ _ _ _ => true
  | .push _ _ _ _ => true
  | .qstat _ _ _ => true
  | .ld _ _ _ _ => true
  | .st _ _ _ _ => true
  | .lda _ _ _ _ => true
  | .stl _ _ _ _ => true
  | .spill _ _ _ _ => true
  | .fill _ _ _ _ => true
  | .pf _ _ _ => true
  | .flush _ _ _ _ => true
  | .inv _ _ _ _ => true
  | .fence _ _ _ => true
  | .ldx _ _ _ _ => true
  | .stx _ _ _ _ => true
  | .stc _ _ _ _ => true
  | .aadd _ _ _ _ => true
  | .aand _ _ _ _ => true
  | .aor _ _ _ _ => true
  | .axor _ _ _ _ => true
  | .amin _ _ _ _ => true
  | .amax _ _ _ _ => true
  | .aswp _ _ _ _ => true
  | .acas _ _ _ _ => true
  | .faadd _ _ _ _ => true
  | .lock _ _ _ => true
  | .unlock _ _ _ => true
  | .hold _ _ _ _ => true
  | .will _ _ _ _ => true
  | .relh _ _ _ => true
  | .convey _ _ _ => true
  | .estq _ _ _ _ => true
  | .prmk _ _ => true
  | .keep _ _ _ _ => true
  | .awaitp _ _ _ => true
  | .prmq _ _ _ => true
  | .chain _ _ _ _ => true
  | .reduce _ _ _ _ => true
  | .gather _ _ _ _ => true
  | .scatter _ _ _ _ => true
  | .cpyb _ _ _ _ => true
  | .fills _ _ _ _ => true
  | .setf _ _ _ => true
  | .getf _ _ _ => true
  | .xform _ _ _ _ => true
  | .srand _ _ => true
  | .licq _ _ => true
  | .licw _ _ => true
  | .licr _ _ => true
  | .lics _ _ => true
  | .mma _ _ _ _ => true
  | .mmad _ _ _ _ => true
  | .topk _ _ _ _ => true
  | .aclr _ _ => true
  | .drn _ _ _ _ => true
  | .drn2 _ _ _ _ => true
  | .asave _ _ _ _ => true
  | .arst _ _ _ _ => true
  | .ppt _ _ => true
  | .mwait _ _ _ => true
  | .sret _ _ _ => true
  | .getp _ _ _ _ => true
  | .putp _ _ _ _ => true
  | .tlbi _ _ _ => true
  | .ckpt _ _ _ => true
  | .kill _ _ _ _ _ => true
  | .slots _ _ => true
  | .licf _ _ _ _ => true
  | .ibpeek _ _ _ => true
  | .ibtake _ _ _ => true
  | .defer _ _ => true
  | .resume _ _ _ => true
  | .evict _ _ _ _ => true
  | .trace _ _ _ => true
  | .addCompact _ _ => false
  | .subCompact _ _ => false
  | .andCompact _ _ => false
  | .orCompact _ _ => false
  | .xorCompact _ _ => false
  | .movCompact _ _ => false
  | .addiCompact _ _ => false
  | .shliCompact _ _ => false
  | .shriCompact _ _ => false
  | .seteqCompact _ _ => false
  | .setltCompact _ _ => false
  | .ldCompact _ _ => false
  | .stCompact _ _ => false
  | .brz _ _ => false
  | .brnz _ _ => false
  | .nopCompact => false
  | .yieldCompact => false
  | .faddCompact _ _ => false
  | .fmulCompact _ _ => false
  | .submissionPlaceWait _ => false
  | .taskCounterDecrement _ _ => false
  | .dealTask _ => false
  | .dealResume _ => false
  | .slotFill _ => false
  | .resumeAfterWriteback _ _ => false
  | .agePromote _ _ => false
  | .callEntryTake _ => false
  | .overflowEnter _ => false
  | .successorStart _ => false
  | .wakeRecheck _ _ => false
  | .rowFill _ _ _ => false
  | .rowIdleWriteback _ _ => false
  | .repackComplete _ => false
  | .messageDeliver _ _ _ => false
  | .fabricMsgReceive _ => false
  | .putReceive _ => false
  | .cputReceive _ => false
  | .atomReceive _ => false
  | .replyReceive _ => false
  | .nameWindowWrite _ _ _ _ => false
  | .nameWindowRead _ _ _ => false
  | .rawRowAccess _ _ _ _ => false
  | .accWindowRead _ _ _ => false
  | .accWindowWrite _ _ _ _ => false
  | .inboxEntryEnter _ => false
  | .setfTakeEffect _ _ => false
  | .streamCommandStart _ _ => false
  | .streamCommandComplete _ _ => false
  | .chunkWaitRelease _ _ => false
  | .copyCommandStart _ _ => false
  | .copyCommandComplete _ _ => false
  | .collCommandStart _ _ => false
  | .collPacketReceive _ _ => false
  | .collAbortReceive _ _ => false
  | .chunkLand _ _ _ => false
  | .inswitchTimeout _ _ => false
  | .hostRecordSend _ _ => false
  | .xformStart _ _ => false
  | .xformComplete _ _ => false
  | .matrixCommandStart _ _ => false
  | .mcastWaitExpire _ _ => false
  | .mmaComplete _ _ => false
  | .topkComplete _ _ => false
  | .drainComplete _ _ => false
  | .accSaveComplete _ _ => false
  | .accRestoreComplete _ _ => false
  | .mwaitMarkerFire _ _ => false
  | .engineFaultPark _ _ => false
  | .engparkResume _ _ => false
  | .engparkKill _ _ => false
  | .licenceTermEnd _ => false
  | .licenceDrainGrant _ => false
  | .timerExpire _ _ => false
  | .preemptTake _ _ => false
  | .preemptForce _ _ => false
  | .systemEventBegin _ => false
  | .systemSlotRestart _ => false
  | .conveyEntry _ => false
  | .hostSubmit _ _ => false
  | .hostDecr _ _ => false
  | .hostClose _ _ => false
  | .hostReset _ _ => false
  | .hqctlOpen _ _ => false
  | .hqctlTeardownSoft _ _ => false
  | .hqctlTeardownHard _ _ => false
  | .teardownComplete _ => false
  | .dualEffectCompare _ _ => false
  | .dualPartnerTimeout _ _ => false
  | .tlbshootCtx _ => false
  | .tlbshootPage _ => false
  | .tlbshootAll _ => false
  | .tlbshootComplete => false
  | .poolLineWriteback _ _ _ => false
  | .shadowRecordReplay _ _ => false
  | .poolHotExpire _ _ => false
  | .poolPush _ _ => false
  | .poolDrop _ _ => false
  | .cklogWrite _ _ => false
  | .rollbackStart _ => false
  | .rollbackComplete => false
  | .scrubPass _ _ => false
  | .ctrareaWrite _ _ => false
  | .pwrreqStepWrite _ _ => false
  | .pwrreqGo _ _ => false
  | .rampComplete _ => false
  | .currentSample _ _ => false
  | .currentStepDown _ => false
  | .thermalOffline _ _ => false
  | .thermalClamp _ _ => false
  | .thermalCut _ _ => false
  | .offlineTimeoutCut _ => false
  | .thermstReadmit _ _ => false
  | .fwdogKick _ => false
  | .fwdogExpire => false
  | .firmwareVerify _ _ _ => false
  | .attestationReport _ => false
  | .endpointInstall _ _ _ => false
  | .endpointRevoke _ => false
  | .alarmRaise _ => false
  | .portLinkChange _ _ => false
  | .ucieRetrainFail _ => false
  | .partctlOpen _ => false
  | .partctlClose _ => false
  | .wrstGo _ _ => false
  | .warmResetPhase _ _ => false
  | .dieReset _ => false
  | .registerWrite _ _ _ => false
  | .lineWriteBack _ _ _ _ => false
  | .accessResultArrival _ _ _ => false
  | .ucieModuleReturn _ => false
  | .warmZone _ _ => false
  | .coldStart => false

/-- The instruction has a compact encoding (R105). -/
def Instr.isCompact : Instr → Bool
  | .add _ _ _ _ => false
  | .sub _ _ _ _ => false
  | .mul _ _ _ _ => false
  | .mulh _ _ _ _ => false
  | .div _ _ _ _ => false
  | .rem _ _ _ _ => false
  | .min _ _ _ _ => false
  | .max _ _ _ _ => false
  | .and _ _ _ _ => false
  | .or _ _ _ _ => false
  | .xor _ _ _ _ => false
  | .andn _ _ _ _ => false
  | .shl _ _ _ _ => false
  | .shr _ _ _ _ => false
  | .rol _ _ _ _ => false
  | .ror _ _ _ _ => false
  | .seteq _ _ _ _ => false
  | .setne _ _ _ _ => false
  | .setlt _ _ _ _ => false
  | .setle _ _ _ _ => false
  | .absd _ _ _ _ => false
  | .mov _ _ _ => false
  | .neg _ _ _ => false
  | .abs _ _ _ => false
  | .not _ _ _ => false
  | .clz _ _ _ => false
  | .ctz _ _ _ => false
  | .popc _ _ _ => false
  | .brev _ _ _ => false
  | .fits _ _ _ _ => false
  | .getw _ _ _ => false
  | .getm _ _ _ => false
  | .sel _ _ _ _ _ => false
  | .bfx _ _ _ _ _ => false
  | .bfi _ _ _ _ _ => false
  | .addi _ _ _ _ => false
  | .muli _ _ _ _ => false
  | .andi _ _ _ _ => false
  | .ori _ _ _ _ => false
  | .xori _ _ _ _ => false
  | .shli _ _ _ _ => false
  | .shri _ _ _ _ => false
  | .seteqi _ _ _ _ => false
  | .setlti _ _ _ _ => false
  | .movi _ _ _ => false
  | .movk _ _ _ _ => false
  | .rsz _ _ _ => false
  | .setm _ _ _ => false
  | .borrow _ _ _ _ => false
  | .giveback _ => false
  | .xget _ _ _ => false
  | .xput _ _ _ => false
  | .twxch _ _ _ => false
  | .mapld _ _ => false
  | .mapq _ _ _ => false
  | .gets _ _ _ => false
  | .puts _ _ _ => false
  | .oxl _ _ _ => false
  | .oxr _ _ _ => false
  | .oxclr _ _ _ => false
  | .oxi _ _ _ _ _ => false
  | .fadd _ _ _ _ => false
  | .fsub _ _ _ _ => false
  | .fmul _ _ _ _ => false
  | .fdiv _ _ _ _ => false
  | .fmin _ _ _ _ => false
  | .fmax _ _ _ _ => false
  | .fseteq _ _ _ _ => false
  | .fsetlt _ _ _ _ => false
  | .fsetle _ _ _ _ => false
  | .fsetun _ _ _ _ => false
  | .fcpys _ _ _ _ => false
  | .fabs _ _ _ => false
  | .fneg _ _ _ => false
  | .fcvt _ _ _ _ => false
  | .frnd _ _ _ _ => false
  | .fclass _ _ _ => false
  | .fsqrt _ _ _ => false
  | .rcpa _ _ _ => false
  | .rsqa _ _ _ => false
  | .exp2a _ _ _ => false
  | .log2a _ _ _ => false
  | .siga _ _ _ => false
  | .tanha _ _ _ => false
  | .ffma _ _ _ _ => false
  | .ffms _ _ _ _ => false
  | .rcps _ _ _ _ => false
  | .rsqs _ _ _ _ => false
  | .br _ _ _ _ => false
  | .call _ _ _ => false
  | .loop _ _ _ => false
  | .jmp _ _ => false
  | .callr _ _ _ => false
  | .ret _ _ => false
  | .yield _ => false
  | .exit _ _ => false
  | .trap _ _ => false
  | .brk _ => false
  | .nop _ => false
  | .callat _ _ _ _ => false
  | .send _ _ _ => false
  | .recv _ _ _ _ => false
  | .tryrecv _ _ _ _ => false
  | .chstat _ _ _ => false
  | .spawn _ _ _ _ => false
  | .dep _ _ => false
  | .waitany _ _ _ => false
  | .waitall _ _ _ => false
  | .ffr _ _ _ => false
  | .tagclr _ _ => false
  | .bari _ _ _ _ => false
  | .arrive _ _ _ _ => false
  | .waitb _ _ _ _ => false
  | .waitch _ _ _ _ => false
  | .push _ _ _ _ => false
  | .qstat _ _ _ => false
  | .ld _ _ _ _ => false
  | .st _ _ _ _ => false
  | .lda _ _ _ _ => false
  | .stl _ _ _ _ => false
  | .spill _ _ _ _ => false
  | .fill _ _ _ _ => false
  | .pf _ _ _ => false
  | .flush _ _ _ _ => false
  | .inv _ _ _ _ => false
  | .fence _ _ _ => false
  | .ldx _ _ _ _ => false
  | .stx _ _ _ _ => false
  | .stc _ _ _ _ => false
  | .aadd _ _ _ _ => false
  | .aand _ _ _ _ => false
  | .aor _ _ _ _ => false
  | .axor _ _ _ _ => false
  | .amin _ _ _ _ => false
  | .amax _ _ _ _ => false
  | .aswp _ _ _ _ => false
  | .acas _ _ _ _ => false
  | .faadd _ _ _ _ => false
  | .lock _ _ _ => false
  | .unlock _ _ _ => false
  | .hold _ _ _ _ => false
  | .will _ _ _ _ => false
  | .relh _ _ _ => false
  | .convey _ _ _ => false
  | .estq _ _ _ _ => false
  | .prmk _ _ => false
  | .keep _ _ _ _ => false
  | .awaitp _ _ _ => false
  | .prmq _ _ _ => false
  | .chain _ _ _ _ => false
  | .reduce _ _ _ _ => false
  | .gather _ _ _ _ => false
  | .scatter _ _ _ _ => false
  | .cpyb _ _ _ _ => false
  | .fills _ _ _ _ => false
  | .setf _ _ _ => false
  | .getf _ _ _ => false
  | .xform _ _ _ _ => false
  | .srand _ _ => false
  | .licq _ _ => false
  | .licw _ _ => false
  | .licr _ _ => false
  | .lics _ _ => false
  | .mma _ _ _ _ => false
  | .mmad _ _ _ _ => false
  | .topk _ _ _ _ => false
  | .aclr _ _ => false
  | .drn _ _ _ _ => false
  | .drn2 _ _ _ _ => false
  | .asave _ _ _ _ => false
  | .arst _ _ _ _ => false
  | .ppt _ _ => false
  | .mwait _ _ _ => false
  | .sret _ _ _ => false
  | .getp _ _ _ _ => false
  | .putp _ _ _ _ => false
  | .tlbi _ _ _ => false
  | .ckpt _ _ _ => false
  | .kill _ _ _ _ _ => false
  | .slots _ _ => false
  | .licf _ _ _ _ => false
  | .ibpeek _ _ _ => false
  | .ibtake _ _ _ => false
  | .defer _ _ => false
  | .resume _ _ _ => false
  | .evict _ _ _ _ => false
  | .trace _ _ _ => false
  | .addCompact _ _ => true
  | .subCompact _ _ => true
  | .andCompact _ _ => true
  | .orCompact _ _ => true
  | .xorCompact _ _ => true
  | .movCompact _ _ => true
  | .addiCompact _ _ => true
  | .shliCompact _ _ => true
  | .shriCompact _ _ => true
  | .seteqCompact _ _ => true
  | .setltCompact _ _ => true
  | .ldCompact _ _ => true
  | .stCompact _ _ => true
  | .brz _ _ => true
  | .brnz _ _ => true
  | .nopCompact => true
  | .yieldCompact => true
  | .faddCompact _ _ => true
  | .fmulCompact _ _ => true
  | .submissionPlaceWait _ => false
  | .taskCounterDecrement _ _ => false
  | .dealTask _ => false
  | .dealResume _ => false
  | .slotFill _ => false
  | .resumeAfterWriteback _ _ => false
  | .agePromote _ _ => false
  | .callEntryTake _ => false
  | .overflowEnter _ => false
  | .successorStart _ => false
  | .wakeRecheck _ _ => false
  | .rowFill _ _ _ => false
  | .rowIdleWriteback _ _ => false
  | .repackComplete _ => false
  | .messageDeliver _ _ _ => false
  | .fabricMsgReceive _ => false
  | .putReceive _ => false
  | .cputReceive _ => false
  | .atomReceive _ => false
  | .replyReceive _ => false
  | .nameWindowWrite _ _ _ _ => false
  | .nameWindowRead _ _ _ => false
  | .rawRowAccess _ _ _ _ => false
  | .accWindowRead _ _ _ => false
  | .accWindowWrite _ _ _ _ => false
  | .inboxEntryEnter _ => false
  | .setfTakeEffect _ _ => false
  | .streamCommandStart _ _ => false
  | .streamCommandComplete _ _ => false
  | .chunkWaitRelease _ _ => false
  | .copyCommandStart _ _ => false
  | .copyCommandComplete _ _ => false
  | .collCommandStart _ _ => false
  | .collPacketReceive _ _ => false
  | .collAbortReceive _ _ => false
  | .chunkLand _ _ _ => false
  | .inswitchTimeout _ _ => false
  | .hostRecordSend _ _ => false
  | .xformStart _ _ => false
  | .xformComplete _ _ => false
  | .matrixCommandStart _ _ => false
  | .mcastWaitExpire _ _ => false
  | .mmaComplete _ _ => false
  | .topkComplete _ _ => false
  | .drainComplete _ _ => false
  | .accSaveComplete _ _ => false
  | .accRestoreComplete _ _ => false
  | .mwaitMarkerFire _ _ => false
  | .engineFaultPark _ _ => false
  | .engparkResume _ _ => false
  | .engparkKill _ _ => false
  | .licenceTermEnd _ => false
  | .licenceDrainGrant _ => false
  | .timerExpire _ _ => false
  | .preemptTake _ _ => false
  | .preemptForce _ _ => false
  | .systemEventBegin _ => false
  | .systemSlotRestart _ => false
  | .conveyEntry _ => false
  | .hostSubmit _ _ => false
  | .hostDecr _ _ => false
  | .hostClose _ _ => false
  | .hostReset _ _ => false
  | .hqctlOpen _ _ => false
  | .hqctlTeardownSoft _ _ => false
  | .hqctlTeardownHard _ _ => false
  | .teardownComplete _ => false
  | .dualEffectCompare _ _ => false
  | .dualPartnerTimeout _ _ => false
  | .tlbshootCtx _ => false
  | .tlbshootPage _ => false
  | .tlbshootAll _ => false
  | .tlbshootComplete => false
  | .poolLineWriteback _ _ _ => false
  | .shadowRecordReplay _ _ => false
  | .poolHotExpire _ _ => false
  | .poolPush _ _ => false
  | .poolDrop _ _ => false
  | .cklogWrite _ _ => false
  | .rollbackStart _ => false
  | .rollbackComplete => false
  | .scrubPass _ _ => false
  | .ctrareaWrite _ _ => false
  | .pwrreqStepWrite _ _ => false
  | .pwrreqGo _ _ => false
  | .rampComplete _ => false
  | .currentSample _ _ => false
  | .currentStepDown _ => false
  | .thermalOffline _ _ => false
  | .thermalClamp _ _ => false
  | .thermalCut _ _ => false
  | .offlineTimeoutCut _ => false
  | .thermstReadmit _ _ => false
  | .fwdogKick _ => false
  | .fwdogExpire => false
  | .firmwareVerify _ _ _ => false
  | .attestationReport _ => false
  | .endpointInstall _ _ _ => false
  | .endpointRevoke _ => false
  | .alarmRaise _ => false
  | .portLinkChange _ _ => false
  | .ucieRetrainFail _ => false
  | .partctlOpen _ => false
  | .partctlClose _ => false
  | .wrstGo _ _ => false
  | .warmResetPhase _ _ => false
  | .dieReset _ => false
  | .registerWrite _ _ _ => false
  | .lineWriteBack _ _ _ _ => false
  | .accessResultArrival _ _ _ => false
  | .ucieModuleReturn _ => false
  | .warmZone _ _ => false
  | .coldStart => false

end Sys2Proof
end

