-- ==== Sys2Proof/Decode.lean ====
section
/-! DEFINITION. Decode.lean: from the parcels of an instruction to its constructor (R100 to R105, R111, R112), total on any
bytes and rejecting by name; then the encoder, written from the same encodings. -/

namespace Sys2Proof

/-- Why bytes are no instruction (R6, R112). -/
inductive DecodeError where
  /-- fewer bytes than the instruction needs. -/
  | truncated
  /-- a major opcode that R111 does not assign. -/
  | reservedMop
  /-- a function that R111 does not assign to its major opcode. -/
  | reservedFunction
  /-- a field value that R103, R104, R105 or the entry forbids. -/
  | reservedField
  /-- a compact code that R105 does not assign. -/
  | reservedCompact
  deriving DecidableEq, Repr

/-- An instruction whose unused bits are zero, or a rejection. -/
def accept (zero : Bool) (i : Instr) : Except DecodeError Instr := if zero then .ok i else .error .reservedField

/-- Major opcode 0x01. -/
def decode01 (_w f sl d a b : Nat) : Except DecodeError Instr :=
  if f = 0 then accept (true) (.add (.ofNat 2 sl) (.ofNat 6 d) (.ofNat 6 a) (.ofNat 6 b)) else
  if f = 1 then accept (true) (.sub (.ofNat 2 sl) (.ofNat 6 d) (.ofNat 6 a) (.ofNat 6 b)) else
  if f = 2 then accept (true) (.mul (.ofNat 2 sl) (.ofNat 6 d) (.ofNat 6 a) (.ofNat 6 b)) else
  if f = 3 then accept (true) (.mulh (.ofNat 2 sl) (.ofNat 6 d) (.ofNat 6 a) (.ofNat 6 b)) else
  if f = 4 then accept (true) (.div (.ofNat 2 sl) (.ofNat 6 d) (.ofNat 6 a) (.ofNat 6 b)) else
  if f = 5 then accept (true) (.rem (.ofNat 2 sl) (.ofNat 6 d) (.ofNat 6 a) (.ofNat 6 b)) else
  if f = 6 then accept (true) (.min (.ofNat 2 sl) (.ofNat 6 d) (.ofNat 6 a) (.ofNat 6 b)) else
  if f = 7 then accept (true) (.max (.ofNat 2 sl) (.ofNat 6 d) (.ofNat 6 a) (.ofNat 6 b)) else
  if f = 8 then accept (true) (.and (.ofNat 2 sl) (.ofNat 6 d) (.ofNat 6 a) (.ofNat 6 b)) else
  if f = 9 then accept (true) (.or (.ofNat 2 sl) (.ofNat 6 d) (.ofNat 6 a) (.ofNat 6 b)) else
  if f = 10 then accept (true) (.xor (.ofNat 2 sl) (.ofNat 6 d) (.ofNat 6 a) (.ofNat 6 b)) else
  if f = 11 then accept (true) (.andn (.ofNat 2 sl) (.ofNat 6 d) (.ofNat 6 a) (.ofNat 6 b)) else
  if f = 12 then accept (true) (.shl (.ofNat 2 sl) (.ofNat 6 d) (.ofNat 6 a) (.ofNat 6 b)) else
  if f = 13 then accept (true) (.shr (.ofNat 2 sl) (.ofNat 6 d) (.ofNat 6 a) (.ofNat 6 b)) else
  if f = 14 then accept (true) (.rol (.ofNat 2 sl) (.ofNat 6 d) (.ofNat 6 a) (.ofNat 6 b)) else
  if f = 15 then accept (true) (.ror (.ofNat 2 sl) (.ofNat 6 d) (.ofNat 6 a) (.ofNat 6 b)) else
  if f = 16 then accept (true) (.seteq (.ofNat 2 sl) (.ofNat 6 d) (.ofNat 6 a) (.ofNat 6 b)) else
  if f = 17 then accept (true) (.setne (.ofNat 2 sl) (.ofNat 6 d) (.ofNat 6 a) (.ofNat 6 b)) else
  if f = 18 then accept (true) (.setlt (.ofNat 2 sl) (.ofNat 6 d) (.ofNat 6 a) (.ofNat 6 b)) else
  if f = 19 then accept (true) (.setle (.ofNat 2 sl) (.ofNat 6 d) (.ofNat 6 a) (.ofNat 6 b)) else
  if f = 20 then accept (true) (.absd (.ofNat 2 sl) (.ofNat 6 d) (.ofNat 6 a) (.ofNat 6 b)) else
  .error .reservedFunction

/-- Major opcode 0x02. -/
def decode02 (w f sl d a b : Nat) : Except DecodeError Instr :=
  if f = 0 then accept (w / 32 % 64 == 0) (.mov (.ofNat 2 sl) (.ofNat 6 d) (.ofNat 6 a)) else
  if f = 1 then accept (w / 32 % 64 == 0) (.neg (.ofNat 2 sl) (.ofNat 6 d) (.ofNat 6 a)) else
  if f = 2 then accept (w / 32 % 64 == 0) (.abs (.ofNat 2 sl) (.ofNat 6 d) (.ofNat 6 a)) else
  if f = 3 then accept (w / 32 % 64 == 0) (.not (.ofNat 2 sl) (.ofNat 6 d) (.ofNat 6 a)) else
  if f = 4 then accept (w / 32 % 64 == 0) (.clz (.ofNat 2 sl) (.ofNat 6 d) (.ofNat 6 a)) else
  if f = 5 then accept (w / 32 % 64 == 0) (.ctz (.ofNat 2 sl) (.ofNat 6 d) (.ofNat 6 a)) else
  if f = 6 then accept (w / 32 % 64 == 0) (.popc (.ofNat 2 sl) (.ofNat 6 d) (.ofNat 6 a)) else
  if f = 7 then accept (w / 32 % 64 == 0) (.brev (.ofNat 2 sl) (.ofNat 6 d) (.ofNat 6 a)) else
  if f = 8 then accept (true) (.fits (.ofNat 2 sl) (.ofNat 6 d) (.ofNat 6 a) (.ofNat 6 b)) else
  if f = 9 then accept (w / 32 % 64 == 0) (.getw (.ofNat 2 sl) (.ofNat 6 d) (.ofNat 6 a)) else
  if f = 10 then accept (w / 32 % 64 == 0) (.getm (.ofNat 2 sl) (.ofNat 6 d) (.ofNat 6 a)) else
  .error .reservedFunction

/-- Major opcode 0x03. -/
def decode03 (_w f sl d a b : Nat) : Except DecodeError Instr :=
  accept (true) (.sel (.ofNat 2 sl) (.ofNat 6 d) (.ofNat 6 a) (.ofNat 6 b) (.ofNat 5 f))

/-- Major opcode 0x04. -/
def decode04 (_w f sl d a b : Nat) : Except DecodeError Instr :=
  accept (true) (.bfx (.ofNat 2 sl) (.ofNat 6 d) (.ofNat 6 a) (.ofNat 6 b) (.ofNat 5 f))

/-- Major opcode 0x05. -/
def decode05 (_w f sl d a b : Nat) : Except DecodeError Instr :=
  accept (true) (.bfi (.ofNat 2 sl) (.ofNat 6 d) (.ofNat 6 a) (.ofNat 6 b) (.ofNat 5 f))

/-- Major opcode 0x06. -/
def decode06 (w _f sl d a _b : Nat) : Except DecodeError Instr :=
  accept (true) (.addi (.ofNat 2 sl) (.ofNat 6 d) (.ofNat 6 a) (.ofNat 11 w))

/-- Major opcode 0x07. -/
def decode07 (w _f sl d a _b : Nat) : Except DecodeError Instr :=
  accept (true) (.muli (.ofNat 2 sl) (.ofNat 6 d) (.ofNat 6 a) (.ofNat 11 w))

/-- Major opcode 0x08. -/
def decode08 (w _f sl d a _b : Nat) : Except DecodeError Instr :=
  accept (true) (.andi (.ofNat 2 sl) (.ofNat 6 d) (.ofNat 6 a) (.ofNat 11 w))

/-- Major opcode 0x09. -/
def decode09 (w _f sl d a _b : Nat) : Except DecodeError Instr :=
  accept (true) (.ori (.ofNat 2 sl) (.ofNat 6 d) (.ofNat 6 a) (.ofNat 11 w))

/-- Major opcode 0x0A. -/
def decode0A (w _f sl d a _b : Nat) : Except DecodeError Instr :=
  accept (true) (.xori (.ofNat 2 sl) (.ofNat 6 d) (.ofNat 6 a) (.ofNat 11 w))

/-- Major opcode 0x0B. -/
def decode0B (w _f sl d a _b : Nat) : Except DecodeError Instr :=
  accept (w / 64 % 32 == 0) (.shli (.ofNat 2 sl) (.ofNat 6 d) (.ofNat 6 a) (.ofNat 6 w))

/-- Major opcode 0x0C. -/
def decode0C (w _f sl d a _b : Nat) : Except DecodeError Instr :=
  accept (w / 64 % 32 == 0) (.shri (.ofNat 2 sl) (.ofNat 6 d) (.ofNat 6 a) (.ofNat 6 w))

/-- Major opcode 0x0D. -/
def decode0D (w _f sl d a _b : Nat) : Except DecodeError Instr :=
  accept (true) (.seteqi (.ofNat 2 sl) (.ofNat 6 d) (.ofNat 6 a) (.ofNat 11 w))

/-- Major opcode 0x0E. -/
def decode0E (w _f sl d a _b : Nat) : Except DecodeError Instr :=
  accept (true) (.setlti (.ofNat 2 sl) (.ofNat 6 d) (.ofNat 6 a) (.ofNat 11 w))

/-- Major opcode 0x0F. -/
def decode0F (w _f sl d _a _b : Nat) : Except DecodeError Instr :=
  accept (true) (.movi (.ofNat 2 sl) (.ofNat 6 d) (.ofNat 17 w))

/-- Major opcode 0x10. -/
def decode10 (w _f sl d _a _b : Nat) : Except DecodeError Instr :=
  accept (w / 65536 % 2 == 0) (.movk (.ofNat 2 0) (.ofNat 2 sl) (.ofNat 6 d) (.ofNat 16 w))

/-- Major opcode 0x11. -/
def decode11 (w _f sl d _a _b : Nat) : Except DecodeError Instr :=
  accept (w / 65536 % 2 == 0) (.movk (.ofNat 2 1) (.ofNat 2 sl) (.ofNat 6 d) (.ofNat 16 w))

/-- Major opcode 0x12. -/
def decode12 (w _f sl d _a _b : Nat) : Except DecodeError Instr :=
  accept (w / 65536 % 2 == 0) (.movk (.ofNat 2 2) (.ofNat 2 sl) (.ofNat 6 d) (.ofNat 16 w))

/-- Major opcode 0x13. -/
def decode13 (w _f sl d _a _b : Nat) : Except DecodeError Instr :=
  accept (w / 65536 % 2 == 0) (.movk (.ofNat 2 3) (.ofNat 2 sl) (.ofNat 6 d) (.ofNat 16 w))

/-- Major opcode 0x14. -/
def decode14 (w f sl d a b : Nat) : Except DecodeError Instr :=
  if f = 0 then accept (w / 2048 % 64 == 0) (.rsz (.ofNat 2 sl) (.ofNat 6 d) (.ofNat 6 b)) else
  if f = 1 then accept (w / 2048 % 64 == 0) (.setm (.ofNat 2 sl) (.ofNat 6 d) (.ofNat 6 b)) else
  if f = 2 then accept (true) (.borrow (.ofNat 2 sl) (.ofNat 6 d) (.ofNat 6 a) (.ofNat 6 b)) else
  if f = 3 then accept (w / 32 % 262144 == 0) (.giveback (.ofNat 2 sl)) else
  if f = 4 then accept (w / 2048 % 64 == 0) (.xget (.ofNat 2 sl) (.ofNat 6 d) (.ofNat 6 b)) else
  if f = 5 then accept (w / 32 % 64 == 0) (.xput (.ofNat 2 sl) (.ofNat 6 d) (.ofNat 6 a)) else
  if f = 6 then accept (w / 32 % 64 == 0) (.twxch (.ofNat 2 sl) (.ofNat 6 d) (.ofNat 6 a)) else
  if f = 7 then accept (w / 32 % 64 == 0 && w / 131072 % 64 == 0) (.mapld (.ofNat 2 sl) (.ofNat 6 a)) else
  if f = 8 then accept (w / 32 % 64 == 0) (.mapq (.ofNat 2 sl) (.ofNat 6 d) (.ofNat 6 a)) else
  if f = 9 then accept (w / 2048 % 64 == 0) (.gets (.ofNat 2 sl) (.ofNat 6 d) (.ofNat 6 b)) else
  if f = 10 then accept (w / 131072 % 64 == 0) (.puts (.ofNat 2 sl) (.ofNat 6 a) (.ofNat 6 b)) else
  if f = 11 then accept (w / 32 % 64 == 0 && w / 1048576 % 8 == 0) (.oxl (.ofNat 2 sl) (.ofNat 3 (w / 131072)) (.ofNat 6 a)) else
  if f = 12 then accept (w / 256 % 512 == 0) (.oxr (.ofNat 2 sl) (.ofNat 6 d) (.ofNat 3 (w / 32))) else
  if f = 13 then accept (w / 32 % 4096 == 0 && w / 1048576 % 4 == 0) (.oxclr (.ofNat 2 sl) (.ofNat 1 (w / 4194304)) (.ofNat 3 (w / 131072))) else
  .error .reservedFunction

/-- Major opcode 0x15. -/
def decode15 (w _f sl _d _a _b : Nat) : Except DecodeError Instr :=
  accept (true) (.oxi (.ofNat 2 sl) (.ofNat 1 (w / 4194304)) (.ofNat 2 (w / 1048576)) (.ofNat 3 (w / 131072)) (.ofNat 17 w))

/-- Major opcode 0x18. -/
def decode18 (_w f sl d a b : Nat) : Except DecodeError Instr :=
  if f = 0 then accept (true) (.fadd (.ofNat 2 sl) (.ofNat 6 d) (.ofNat 6 a) (.ofNat 6 b)) else
  if f = 1 then accept (true) (.fsub (.ofNat 2 sl) (.ofNat 6 d) (.ofNat 6 a) (.ofNat 6 b)) else
  if f = 2 then accept (true) (.fmul (.ofNat 2 sl) (.ofNat 6 d) (.ofNat 6 a) (.ofNat 6 b)) else
  if f = 3 then accept (true) (.fdiv (.ofNat 2 sl) (.ofNat 6 d) (.ofNat 6 a) (.ofNat 6 b)) else
  if f = 4 then accept (true) (.fmin (.ofNat 2 sl) (.ofNat 6 d) (.ofNat 6 a) (.ofNat 6 b)) else
  if f = 5 then accept (true) (.fmax (.ofNat 2 sl) (.ofNat 6 d) (.ofNat 6 a) (.ofNat 6 b)) else
  if f = 6 then accept (true) (.fseteq (.ofNat 2 sl) (.ofNat 6 d) (.ofNat 6 a) (.ofNat 6 b)) else
  if f = 7 then accept (true) (.fsetlt (.ofNat 2 sl) (.ofNat 6 d) (.ofNat 6 a) (.ofNat 6 b)) else
  if f = 8 then accept (true) (.fsetle (.ofNat 2 sl) (.ofNat 6 d) (.ofNat 6 a) (.ofNat 6 b)) else
  if f = 9 then accept (true) (.fsetun (.ofNat 2 sl) (.ofNat 6 d) (.ofNat 6 a) (.ofNat 6 b)) else
  if f = 10 then accept (true) (.fcpys (.ofNat 2 sl) (.ofNat 6 d) (.ofNat 6 a) (.ofNat 6 b)) else
  .error .reservedFunction

/-- Major opcode 0x19. -/
def decode19 (w f sl d a b : Nat) : Except DecodeError Instr :=
  if f = 0 then accept (w / 32 % 64 == 0) (.fabs (.ofNat 2 sl) (.ofNat 6 d) (.ofNat 6 a)) else
  if f = 1 then accept (w / 32 % 64 == 0) (.fneg (.ofNat 2 sl) (.ofNat 6 d) (.ofNat 6 a)) else
  if f = 2 then accept (true) (.fcvt (.ofNat 2 sl) (.ofNat 6 d) (.ofNat 6 a) (.ofNat 6 b)) else
  if f = 3 then accept (true) (.frnd (.ofNat 2 sl) (.ofNat 6 d) (.ofNat 6 a) (.ofNat 6 b)) else
  if f = 4 then accept (w / 32 % 64 == 0) (.fclass (.ofNat 2 sl) (.ofNat 6 d) (.ofNat 6 a)) else
  if f = 5 then accept (w / 32 % 64 == 0) (.fsqrt (.ofNat 2 sl) (.ofNat 6 d) (.ofNat 6 a)) else
  if f = 6 then accept (w / 32 % 64 == 0) (.rcpa (.ofNat 2 sl) (.ofNat 6 d) (.ofNat 6 a)) else
  if f = 7 then accept (w / 32 % 64 == 0) (.rsqa (.ofNat 2 sl) (.ofNat 6 d) (.ofNat 6 a)) else
  if f = 8 then accept (w / 32 % 64 == 0) (.exp2a (.ofNat 2 sl) (.ofNat 6 d) (.ofNat 6 a)) else
  if f = 9 then accept (w / 32 % 64 == 0) (.log2a (.ofNat 2 sl) (.ofNat 6 d) (.ofNat 6 a)) else
  if f = 10 then accept (w / 32 % 64 == 0) (.siga (.ofNat 2 sl) (.ofNat 6 d) (.ofNat 6 a)) else
  if f = 11 then accept (w / 32 % 64 == 0) (.tanha (.ofNat 2 sl) (.ofNat 6 d) (.ofNat 6 a)) else
  .error .reservedFunction

/-- Major opcode 0x1A. -/
def decode1A (_w f sl d a b : Nat) : Except DecodeError Instr :=
  if f = 0 then accept (true) (.ffma (.ofNat 2 sl) (.ofNat 6 d) (.ofNat 6 a) (.ofNat 6 b)) else
  if f = 1 then accept (true) (.ffms (.ofNat 2 sl) (.ofNat 6 d) (.ofNat 6 a) (.ofNat 6 b)) else
  if f = 2 then accept (true) (.rcps (.ofNat 2 sl) (.ofNat 6 d) (.ofNat 6 a) (.ofNat 6 b)) else
  if f = 3 then accept (true) (.rsqs (.ofNat 2 sl) (.ofNat 6 d) (.ofNat 6 a) (.ofNat 6 b)) else
  .error .reservedFunction

/-- Major opcode 0x20. -/
def decode20 (w _f sl d _a _b : Nat) : Except DecodeError Instr :=
  accept (true) (.br (.ofNat 2 sl) (.ofNat 6 d) (.ofNat 2 (w / 32768)) (.ofNat 15 w))

/-- Major opcode 0x21. -/
def decode21 (w _f sl d _a _b : Nat) : Except DecodeError Instr :=
  accept (true) (.call (.ofNat 2 sl) (.ofNat 6 d) (.ofNat 17 w))

/-- Major opcode 0x22. -/
def decode22 (w _f sl d _a _b : Nat) : Except DecodeError Instr :=
  accept (w / 32768 % 4 == 1) (.loop (.ofNat 2 sl) (.ofNat 6 d) (.ofNat 15 w))

/-- Major opcode 0x23. -/
def decode23 (w f sl d a b : Nat) : Except DecodeError Instr :=
  if f = 0 then accept (w / 32 % 64 == 0 && w / 131072 % 64 == 0) (.jmp (.ofNat 2 sl) (.ofNat 6 a)) else
  if f = 1 then accept (w / 32 % 64 == 0) (.callr (.ofNat 2 sl) (.ofNat 6 d) (.ofNat 6 a)) else
  if f = 2 then accept (w / 32 % 64 == 0 && w / 131072 % 64 == 0) (.ret (.ofNat 2 sl) (.ofNat 6 a)) else
  if f = 3 then accept (w / 32 % 262144 == 0) (.yield (.ofNat 2 sl)) else
  if f = 4 then accept (w / 32 % 64 == 0 && w / 131072 % 64 == 0) (.exit (.ofNat 2 sl) (.ofNat 6 a)) else
  if f = 5 then accept (w / 2048 % 4096 == 0) (.trap (.ofNat 2 sl) (.ofNat 6 b)) else
  if f = 6 then accept (w / 32 % 262144 == 0) (.brk (.ofNat 2 sl)) else
  if f = 7 then accept (w / 32 % 262144 == 0) (.nop (.ofNat 2 sl)) else
  if f = 8 then accept (true) (.callat (.ofNat 2 sl) (.ofNat 6 d) (.ofNat 6 a) (.ofNat 6 b)) else
  .error .reservedFunction

/-- Major opcode 0x24. -/
def decode24 (w f sl d a b : Nat) : Except DecodeError Instr :=
  if f = 0 then accept (w / 131072 % 64 == 0) (.send (.ofNat 2 sl) (.ofNat 6 a) (.ofNat 6 b)) else
  if f = 1 then accept (true) (.recv (.ofNat 2 sl) (.ofNat 6 d) (.ofNat 6 a) (.ofNat 6 b)) else
  if f = 2 then accept (true) (.tryrecv (.ofNat 2 sl) (.ofNat 6 d) (.ofNat 6 a) (.ofNat 6 b)) else
  if f = 3 then accept (w / 2048 % 64 == 0) (.chstat (.ofNat 2 sl) (.ofNat 6 d) (.ofNat 6 b)) else
  if f = 4 then accept (w / 64 % 32 == 0) (.spawn (.ofNat 2 sl) (.ofNat 6 d) (.ofNat 6 a) (.ofNat 1 (w / 32))) else
  if f = 5 then accept (w / 32 % 64 == 0 && w / 131072 % 64 == 0) (.dep (.ofNat 2 sl) (.ofNat 6 a)) else
  if f = 6 then accept (w / 32 % 64 == 0) (.waitany (.ofNat 2 sl) (.ofNat 6 d) (.ofNat 6 a)) else
  if f = 7 then accept (w / 32 % 64 == 0) (.waitall (.ofNat 2 sl) (.ofNat 6 d) (.ofNat 6 a)) else
  if f = 8 then accept (w / 32 % 64 == 0) (.ffr (.ofNat 2 sl) (.ofNat 6 d) (.ofNat 6 a)) else
  if f = 9 then accept (w / 32 % 64 == 0 && w / 131072 % 64 == 0) (.tagclr (.ofNat 2 sl) (.ofNat 6 a)) else
  if f = 10 then accept (true) (.bari (.ofNat 2 sl) (.ofNat 6 d) (.ofNat 6 a) (.ofNat 6 b)) else
  if f = 11 then accept (true) (.arrive (.ofNat 2 sl) (.ofNat 6 d) (.ofNat 6 a) (.ofNat 6 b)) else
  if f = 12 then accept (true) (.waitb (.ofNat 2 sl) (.ofNat 6 d) (.ofNat 6 a) (.ofNat 6 b)) else
  if f = 13 then accept (true) (.waitch (.ofNat 2 sl) (.ofNat 6 d) (.ofNat 6 a) (.ofNat 6 b)) else
  if f = 14 then accept (true) (.push (.ofNat 2 sl) (.ofNat 6 d) (.ofNat 6 a) (.ofNat 6 b)) else
  if f = 15 then accept (w / 2048 % 64 == 0) (.qstat (.ofNat 2 sl) (.ofNat 6 d) (.ofNat 6 b)) else
  .error .reservedFunction

/-- Major opcode 0x28. -/
def decode28 (w _f sl d a _b : Nat) : Except DecodeError Instr :=
  accept (true) (.ld (.ofNat 2 sl) (.ofNat 6 d) (.ofNat 6 a) (.ofNat 11 w))

/-- Major opcode 0x29. -/
def decode29 (w _f sl d a _b : Nat) : Except DecodeError Instr :=
  accept (true) (.st (.ofNat 2 sl) (.ofNat 6 d) (.ofNat 6 a) (.ofNat 11 w))

/-- Major opcode 0x2A. -/
def decode2A (w _f sl d a _b : Nat) : Except DecodeError Instr :=
  accept (true) (.lda (.ofNat 2 sl) (.ofNat 6 d) (.ofNat 6 a) (.ofNat 11 w))

/-- Major opcode 0x2B. -/
def decode2B (w _f sl d a _b : Nat) : Except DecodeError Instr :=
  accept (true) (.stl (.ofNat 2 sl) (.ofNat 6 d) (.ofNat 6 a) (.ofNat 11 w))

/-- Major opcode 0x2C. -/
def decode2C (w f sl d a b : Nat) : Except DecodeError Instr :=
  if f = 0 then accept (true) (.spill (.ofNat 2 sl) (.ofNat 6 d) (.ofNat 6 a) (.ofNat 6 b)) else
  if f = 1 then accept (true) (.fill (.ofNat 2 sl) (.ofNat 6 d) (.ofNat 6 a) (.ofNat 6 b)) else
  if f = 2 then accept (w / 131072 % 64 == 0) (.pf (.ofNat 2 sl) (.ofNat 6 a) (.ofNat 6 b)) else
  if f = 3 then accept (true) (.flush (.ofNat 2 sl) (.ofNat 6 d) (.ofNat 6 a) (.ofNat 6 b)) else
  if f = 4 then accept (true) (.inv (.ofNat 2 sl) (.ofNat 6 d) (.ofNat 6 a) (.ofNat 6 b)) else
  if f = 5 then accept (w / 2048 % 64 == 0) (.fence (.ofNat 2 sl) (.ofNat 6 d) (.ofNat 6 b)) else
  if f = 6 then accept (true) (.ldx (.ofNat 2 sl) (.ofNat 6 d) (.ofNat 6 a) (.ofNat 6 b)) else
  if f = 7 then accept (true) (.stx (.ofNat 2 sl) (.ofNat 6 d) (.ofNat 6 a) (.ofNat 6 b)) else
  if f = 8 then accept (true) (.stc (.ofNat 2 sl) (.ofNat 6 d) (.ofNat 6 a) (.ofNat 6 b)) else
  .error .reservedFunction

/-- Major opcode 0x2D. -/
def decode2D (_w f sl d a b : Nat) : Except DecodeError Instr :=
  if f = 0 then accept (true) (.aadd (.ofNat 2 sl) (.ofNat 6 d) (.ofNat 6 a) (.ofNat 6 b)) else
  if f = 1 then accept (true) (.aand (.ofNat 2 sl) (.ofNat 6 d) (.ofNat 6 a) (.ofNat 6 b)) else
  if f = 2 then accept (true) (.aor (.ofNat 2 sl) (.ofNat 6 d) (.ofNat 6 a) (.ofNat 6 b)) else
  if f = 3 then accept (true) (.axor (.ofNat 2 sl) (.ofNat 6 d) (.ofNat 6 a) (.ofNat 6 b)) else
  if f = 4 then accept (true) (.amin (.ofNat 2 sl) (.ofNat 6 d) (.ofNat 6 a) (.ofNat 6 b)) else
  if f = 5 then accept (true) (.amax (.ofNat 2 sl) (.ofNat 6 d) (.ofNat 6 a) (.ofNat 6 b)) else
  if f = 6 then accept (true) (.aswp (.ofNat 2 sl) (.ofNat 6 d) (.ofNat 6 a) (.ofNat 6 b)) else
  if f = 7 then accept (true) (.acas (.ofNat 2 sl) (.ofNat 6 d) (.ofNat 6 a) (.ofNat 6 b)) else
  if f = 8 then accept (true) (.faadd (.ofNat 2 sl) (.ofNat 6 d) (.ofNat 6 a) (.ofNat 6 b)) else
  .error .reservedFunction

/-- Major opcode 0x2E. -/
def decode2E (w f sl d a b : Nat) : Except DecodeError Instr :=
  if f = 0 then accept (w / 32 % 64 == 0) (.lock (.ofNat 2 sl) (.ofNat 6 d) (.ofNat 6 a)) else
  if f = 1 then accept (w / 32 % 64 == 0) (.unlock (.ofNat 2 sl) (.ofNat 6 d) (.ofNat 6 a)) else
  if f = 2 then accept (true) (.hold (.ofNat 2 sl) (.ofNat 6 d) (.ofNat 6 a) (.ofNat 6 b)) else
  if f = 3 then accept (true) (.will (.ofNat 2 sl) (.ofNat 6 d) (.ofNat 6 a) (.ofNat 6 b)) else
  if f = 4 then accept (w / 32 % 64 == 0) (.relh (.ofNat 2 sl) (.ofNat 6 d) (.ofNat 6 a)) else
  if f = 5 then accept (w / 32 % 64 == 0) (.convey (.ofNat 2 sl) (.ofNat 6 d) (.ofNat 6 a)) else
  if f = 6 then accept (true) (.estq (.ofNat 2 sl) (.ofNat 6 d) (.ofNat 6 a) (.ofNat 6 b)) else
  if f = 7 then accept (w / 32 % 64 == 0 && w / 131072 % 64 == 0) (.prmk (.ofNat 2 sl) (.ofNat 6 a)) else
  if f = 8 then accept (true) (.keep (.ofNat 2 sl) (.ofNat 6 d) (.ofNat 6 a) (.ofNat 6 b)) else
  if f = 9 then accept (w / 32 % 64 == 0) (.awaitp (.ofNat 2 sl) (.ofNat 6 d) (.ofNat 6 a)) else
  if f = 10 then accept (w / 32 % 64 == 0) (.prmq (.ofNat 2 sl) (.ofNat 6 d) (.ofNat 6 a)) else
  .error .reservedFunction

/-- Major opcode 0x30. -/
def decode30 (w f sl d a b : Nat) : Except DecodeError Instr :=
  if f = 0 then accept (true) (.chain (.ofNat 2 sl) (.ofNat 6 d) (.ofNat 6 a) (.ofNat 6 b)) else
  if f = 1 then accept (true) (.reduce (.ofNat 2 sl) (.ofNat 6 d) (.ofNat 6 a) (.ofNat 6 b)) else
  if f = 2 then accept (true) (.gather (.ofNat 2 sl) (.ofNat 6 d) (.ofNat 6 a) (.ofNat 6 b)) else
  if f = 3 then accept (true) (.scatter (.ofNat 2 sl) (.ofNat 6 d) (.ofNat 6 a) (.ofNat 6 b)) else
  if f = 4 then accept (true) (.cpyb (.ofNat 2 sl) (.ofNat 6 d) (.ofNat 6 a) (.ofNat 6 b)) else
  if f = 5 then accept (true) (.fills (.ofNat 2 sl) (.ofNat 6 d) (.ofNat 6 a) (.ofNat 6 b)) else
  if f = 6 then accept (w / 131072 % 64 == 0) (.setf (.ofNat 2 sl) (.ofNat 6 a) (.ofNat 6 b)) else
  if f = 7 then accept (w / 2048 % 64 == 0) (.getf (.ofNat 2 sl) (.ofNat 6 d) (.ofNat 6 b)) else
  if f = 8 then accept (true) (.xform (.ofNat 2 sl) (.ofNat 6 d) (.ofNat 6 a) (.ofNat 6 b)) else
  if f = 9 then accept (w / 32 % 64 == 0 && w / 131072 % 64 == 0) (.srand (.ofNat 2 sl) (.ofNat 6 a)) else
  .error .reservedFunction

/-- Major opcode 0x34. -/
def decode34 (w f sl d a b : Nat) : Except DecodeError Instr :=
  if f = 0 then accept (w / 32 % 4096 == 0) (.licq (.ofNat 2 sl) (.ofNat 6 d)) else
  if f = 1 then accept (w / 32 % 4096 == 0) (.licw (.ofNat 2 sl) (.ofNat 6 d)) else
  if f = 2 then accept (w / 32 % 4096 == 0) (.licr (.ofNat 2 sl) (.ofNat 6 d)) else
  if f = 3 then accept (w / 32 % 4096 == 0) (.lics (.ofNat 2 sl) (.ofNat 6 d)) else
  if f = 4 then accept (true) (.mma (.ofNat 2 sl) (.ofNat 6 d) (.ofNat 6 a) (.ofNat 6 b)) else
  if f = 5 then accept (true) (.mmad (.ofNat 2 sl) (.ofNat 6 d) (.ofNat 6 a) (.ofNat 6 b)) else
  if f = 6 then accept (true) (.topk (.ofNat 2 sl) (.ofNat 6 d) (.ofNat 6 a) (.ofNat 6 b)) else
  if f = 7 then accept (w / 512 % 16384 == 0) (.aclr (.ofNat 2 sl) (.ofNat 4 (w / 32))) else
  if f = 8 then accept (true) (.drn (.ofNat 2 sl) (.ofNat 6 d) (.ofNat 6 a) (.ofNat 6 b)) else
  if f = 9 then accept (true) (.drn2 (.ofNat 2 sl) (.ofNat 6 d) (.ofNat 6 a) (.ofNat 6 b)) else
  if f = 10 then accept (true) (.asave (.ofNat 2 sl) (.ofNat 6 d) (.ofNat 6 a) (.ofNat 6 b)) else
  if f = 11 then accept (true) (.arst (.ofNat 2 sl) (.ofNat 6 d) (.ofNat 6 a) (.ofNat 6 b)) else
  if f = 12 then accept (w / 512 % 16384 == 0) (.ppt (.ofNat 2 sl) (.ofNat 4 (w / 32))) else
  if f = 13 then accept (w / 2048 % 64 == 0) (.mwait (.ofNat 2 sl) (.ofNat 6 d) (.ofNat 6 b)) else
  .error .reservedFunction

/-- Major opcode 0x38. -/
def decode38 (w f sl d a b : Nat) : Except DecodeError Instr :=
  if f = 0 then accept (w / 131072 % 64 == 0) (.sret (.ofNat 2 sl) (.ofNat 6 a) (.ofNat 6 b)) else
  if f = 1 then accept (true) (.getp (.ofNat 2 sl) (.ofNat 6 d) (.ofNat 6 a) (.ofNat 6 b)) else
  if f = 2 then accept (true) (.putp (.ofNat 2 sl) (.ofNat 6 d) (.ofNat 6 a) (.ofNat 6 b)) else
  if f = 3 then accept (w / 131072 % 64 == 0) (.tlbi (.ofNat 2 sl) (.ofNat 6 a) (.ofNat 6 b)) else
  if f = 4 then accept (w / 2048 % 64 == 0) (.ckpt (.ofNat 2 sl) (.ofNat 6 d) (.ofNat 6 b)) else
  if f = 5 then accept (w / 128 % 16 == 0) (.kill (.ofNat 2 sl) (.ofNat 6 d) (.ofNat 6 a) (.ofNat 1 (w / 64)) (.ofNat 1 (w / 32))) else
  if f = 6 then accept (w / 32 % 4096 == 0) (.slots (.ofNat 2 sl) (.ofNat 6 d)) else
  if f = 7 then accept (true) (.licf (.ofNat 2 sl) (.ofNat 6 d) (.ofNat 6 a) (.ofNat 6 b)) else
  if f = 8 then accept (w / 2048 % 64 == 0) (.ibpeek (.ofNat 2 sl) (.ofNat 6 d) (.ofNat 6 b)) else
  if f = 9 then accept (w / 2048 % 64 == 0) (.ibtake (.ofNat 2 sl) (.ofNat 6 d) (.ofNat 6 b)) else
  if f = 10 then accept (w / 32 % 4096 == 0) (.defer (.ofNat 2 sl) (.ofNat 6 d)) else
  if f = 11 then accept (w / 32 % 64 == 0) (.resume (.ofNat 2 sl) (.ofNat 6 d) (.ofNat 6 a)) else
  if f = 12 then accept (true) (.evict (.ofNat 2 sl) (.ofNat 6 d) (.ofNat 6 a) (.ofNat 6 b)) else
  if f = 13 then accept (w / 131072 % 64 == 0) (.trace (.ofNat 2 sl) (.ofNat 6 a) (.ofNat 6 b)) else
  .error .reservedFunction

/-- A 32-bit word before the field limits are checked. -/
def decodeRaw (w : Nat) : Except DecodeError Instr :=
  let mop := w / 33554432 % 64
  let f := w % 32
  let sl := w / 8388608 % 4
  let d := w / 131072 % 64
  let a := w / 2048 % 64
  let b := w / 32 % 64
  if mop = 1 then decode01 w f sl d a b else
  if mop = 2 then decode02 w f sl d a b else
  if mop = 3 then decode03 w f sl d a b else
  if mop = 4 then decode04 w f sl d a b else
  if mop = 5 then decode05 w f sl d a b else
  if mop = 6 then decode06 w f sl d a b else
  if mop = 7 then decode07 w f sl d a b else
  if mop = 8 then decode08 w f sl d a b else
  if mop = 9 then decode09 w f sl d a b else
  if mop = 10 then decode0A w f sl d a b else
  if mop = 11 then decode0B w f sl d a b else
  if mop = 12 then decode0C w f sl d a b else
  if mop = 13 then decode0D w f sl d a b else
  if mop = 14 then decode0E w f sl d a b else
  if mop = 15 then decode0F w f sl d a b else
  if mop = 16 then decode10 w f sl d a b else
  if mop = 17 then decode11 w f sl d a b else
  if mop = 18 then decode12 w f sl d a b else
  if mop = 19 then decode13 w f sl d a b else
  if mop = 20 then decode14 w f sl d a b else
  if mop = 21 then decode15 w f sl d a b else
  if mop = 24 then decode18 w f sl d a b else
  if mop = 25 then decode19 w f sl d a b else
  if mop = 26 then decode1A w f sl d a b else
  if mop = 32 then decode20 w f sl d a b else
  if mop = 33 then decode21 w f sl d a b else
  if mop = 34 then decode22 w f sl d a b else
  if mop = 35 then decode23 w f sl d a b else
  if mop = 36 then decode24 w f sl d a b else
  if mop = 40 then decode28 w f sl d a b else
  if mop = 41 then decode29 w f sl d a b else
  if mop = 42 then decode2A w f sl d a b else
  if mop = 43 then decode2B w f sl d a b else
  if mop = 44 then decode2C w f sl d a b else
  if mop = 45 then decode2D w f sl d a b else
  if mop = 46 then decode2E w f sl d a b else
  if mop = 48 then decode30 w f sl d a b else
  if mop = 52 then decode34 w f sl d a b else
  if mop = 56 then decode38 w f sl d a b else
  .error .reservedMop

/-- A 32-bit instruction word (R102). -/
def decode32 (w : Nat) : Except DecodeError Instr :=
  match decodeRaw w with
  | .ok i => if i.wf then .ok i else .error .reservedField
  | .error e => .error e

/-- A compact parcel (R105). -/
def decode16 (w : Nat) : Except DecodeError Instr :=
  let cop := w / 1024 % 32
  let d := w / 32 % 32
  let a := w % 32
  if cop = 1 then .ok (.addCompact (.ofNat 5 d) (.ofNat 5 a)) else
  if cop = 2 then .ok (.subCompact (.ofNat 5 d) (.ofNat 5 a)) else
  if cop = 3 then .ok (.andCompact (.ofNat 5 d) (.ofNat 5 a)) else
  if cop = 4 then .ok (.orCompact (.ofNat 5 d) (.ofNat 5 a)) else
  if cop = 5 then .ok (.xorCompact (.ofNat 5 d) (.ofNat 5 a)) else
  if cop = 6 then .ok (.movCompact (.ofNat 5 d) (.ofNat 5 a)) else
  if cop = 7 then .ok (.addiCompact (.ofNat 5 d) (.ofNat 5 a)) else
  if cop = 8 then .ok (.shliCompact (.ofNat 5 d) (.ofNat 5 a)) else
  if cop = 9 then .ok (.shriCompact (.ofNat 5 d) (.ofNat 5 a)) else
  if cop = 10 then .ok (.seteqCompact (.ofNat 5 d) (.ofNat 5 a)) else
  if cop = 11 then .ok (.setltCompact (.ofNat 5 d) (.ofNat 5 a)) else
  if cop = 12 then .ok (.ldCompact (.ofNat 5 d) (.ofNat 5 a)) else
  if cop = 13 then .ok (.stCompact (.ofNat 5 d) (.ofNat 5 a)) else
  if cop = 14 then .ok (.brz (.ofNat 5 d) (.ofNat 5 a)) else
  if cop = 15 then .ok (.brnz (.ofNat 5 d) (.ofNat 5 a)) else
  if cop = 16 then accept (w % 1024 == 0) .nopCompact else
  if cop = 17 then accept (w % 1024 == 0) .yieldCompact else
  if cop = 18 then .ok (.faddCompact (.ofNat 5 d) (.ofNat 5 a)) else
  if cop = 19 then .ok (.fmulCompact (.ofNat 5 d) (.ofNat 5 a)) else
  .error .reservedCompact

/-- The first parcel decides the length (R100). -/
def isLong (p : Nat) : Bool := p / 32768 % 2 = 1

/-- An instruction and its length from the bytes at its address: parcels little-endian, the high parcel first (R2, R100). -/
def decodeBytes : List Byte → Except DecodeError (Instr × Nat)
  | b0 :: b1 :: r =>
    let p := b0.toNat + 256 * b1.toNat
    if isLong p then
      match r with
      | b2 :: b3 :: _ => match decode32 (p * 65536 + b2.toNat + 256 * b3.toNat) with
        | .ok i => .ok (i, 4)
        | .error e => .error e
      | _ => .error .truncated
    else match decode16 p with
      | .ok i => .ok (i, 2)
      | .error e => .error e
  | _ => .error .truncated

/-- The instruction word, or the compact parcel, of an instruction (R102 to R105); 0 for an event. -/
def encode : Instr → Nat
  | .add sl d a b => 0x82000000 + sl.toNat * 8388608 + d.toNat * 131072 + a.toNat * 2048 + b.toNat * 32
  | .sub sl d a b => 0x82000001 + sl.toNat * 8388608 + d.toNat * 131072 + a.toNat * 2048 + b.toNat * 32
  | .mul sl d a b => 0x82000002 + sl.toNat * 8388608 + d.toNat * 131072 + a.toNat * 2048 + b.toNat * 32
  | .mulh sl d a b => 0x82000003 + sl.toNat * 8388608 + d.toNat * 131072 + a.toNat * 2048 + b.toNat * 32
  | .div sl d a b => 0x82000004 + sl.toNat * 8388608 + d.toNat * 131072 + a.toNat * 2048 + b.toNat * 32
  | .rem sl d a b => 0x82000005 + sl.toNat * 8388608 + d.toNat * 131072 + a.toNat * 2048 + b.toNat * 32
  | .min sl d a b => 0x82000006 + sl.toNat * 8388608 + d.toNat * 131072 + a.toNat * 2048 + b.toNat * 32
  | .max sl d a b => 0x82000007 + sl.toNat * 8388608 + d.toNat * 131072 + a.toNat * 2048 + b.toNat * 32
  | .and sl d a b => 0x82000008 + sl.toNat * 8388608 + d.toNat * 131072 + a.toNat * 2048 + b.toNat * 32
  | .or sl d a b => 0x82000009 + sl.toNat * 8388608 + d.toNat * 131072 + a.toNat * 2048 + b.toNat * 32
  | .xor sl d a b => 0x8200000A + sl.toNat * 8388608 + d.toNat * 131072 + a.toNat * 2048 + b.toNat * 32
  | .andn sl d a b => 0x8200000B + sl.toNat * 8388608 + d.toNat * 131072 + a.toNat * 2048 + b.toNat * 32
  | .shl sl d a b => 0x8200000C + sl.toNat * 8388608 + d.toNat * 131072 + a.toNat * 2048 + b.toNat * 32
  | .shr sl d a b => 0x8200000D + sl.toNat * 8388608 + d.toNat * 131072 + a.toNat * 2048 + b.toNat * 32
  | .rol sl d a b => 0x8200000E + sl.toNat * 8388608 + d.toNat * 131072 + a.toNat * 2048 + b.toNat * 32
  | .ror sl d a b => 0x8200000F + sl.toNat * 8388608 + d.toNat * 131072 + a.toNat * 2048 + b.toNat * 32
  | .seteq sl d a b => 0x82000010 + sl.toNat * 8388608 + d.toNat * 131072 + a.toNat * 2048 + b.toNat * 32
  | .setne sl d a b => 0x82000011 + sl.toNat * 8388608 + d.toNat * 131072 + a.toNat * 2048 + b.toNat * 32
  | .setlt sl d a b => 0x82000012 + sl.toNat * 8388608 + d.toNat * 131072 + a.toNat * 2048 + b.toNat * 32
  | .setle sl d a b => 0x82000013 + sl.toNat * 8388608 + d.toNat * 131072 + a.toNat * 2048 + b.toNat * 32
  | .absd sl d a b => 0x82000014 + sl.toNat * 8388608 + d.toNat * 131072 + a.toNat * 2048 + b.toNat * 32
  | .mov sl d a => 0x84000000 + sl.toNat * 8388608 + d.toNat * 131072 + a.toNat * 2048
  | .neg sl d a => 0x84000001 + sl.toNat * 8388608 + d.toNat * 131072 + a.toNat * 2048
  | .abs sl d a => 0x84000002 + sl.toNat * 8388608 + d.toNat * 131072 + a.toNat * 2048
  | .not sl d a => 0x84000003 + sl.toNat * 8388608 + d.toNat * 131072 + a.toNat * 2048
  | .clz sl d a => 0x84000004 + sl.toNat * 8388608 + d.toNat * 131072 + a.toNat * 2048
  | .ctz sl d a => 0x84000005 + sl.toNat * 8388608 + d.toNat * 131072 + a.toNat * 2048
  | .popc sl d a => 0x84000006 + sl.toNat * 8388608 + d.toNat * 131072 + a.toNat * 2048
  | .brev sl d a => 0x84000007 + sl.toNat * 8388608 + d.toNat * 131072 + a.toNat * 2048
  | .fits sl d a b => 0x84000008 + sl.toNat * 8388608 + d.toNat * 131072 + a.toNat * 2048 + b.toNat * 32
  | .getw sl d a => 0x84000009 + sl.toNat * 8388608 + d.toNat * 131072 + a.toNat * 2048
  | .getm sl d a => 0x8400000A + sl.toNat * 8388608 + d.toNat * 131072 + a.toNat * 2048
  | .sel sl d a b p => 0x86000000 + sl.toNat * 8388608 + d.toNat * 131072 + a.toNat * 2048 + b.toNat * 32 + p.toNat
  | .bfx sl d a p l => 0x88000000 + sl.toNat * 8388608 + d.toNat * 131072 + a.toNat * 2048 + p.toNat * 32 + l.toNat
  | .bfi sl d a p l => 0x8A000000 + sl.toNat * 8388608 + d.toNat * 131072 + a.toNat * 2048 + p.toNat * 32 + l.toNat
  | .addi sl d a i => 0x8C000000 + sl.toNat * 8388608 + d.toNat * 131072 + a.toNat * 2048 + i.toNat
  | .muli sl d a i => 0x8E000000 + sl.toNat * 8388608 + d.toNat * 131072 + a.toNat * 2048 + i.toNat
  | .andi sl d a i => 0x90000000 + sl.toNat * 8388608 + d.toNat * 131072 + a.toNat * 2048 + i.toNat
  | .ori sl d a i => 0x92000000 + sl.toNat * 8388608 + d.toNat * 131072 + a.toNat * 2048 + i.toNat
  | .xori sl d a i => 0x94000000 + sl.toNat * 8388608 + d.toNat * 131072 + a.toNat * 2048 + i.toNat
  | .shli sl d a i => 0x96000000 + sl.toNat * 8388608 + d.toNat * 131072 + a.toNat * 2048 + i.toNat
  | .shri sl d a i => 0x98000000 + sl.toNat * 8388608 + d.toNat * 131072 + a.toNat * 2048 + i.toNat
  | .seteqi sl d a i => 0x9A000000 + sl.toNat * 8388608 + d.toNat * 131072 + a.toNat * 2048 + i.toNat
  | .setlti sl d a i => 0x9C000000 + sl.toNat * 8388608 + d.toNat * 131072 + a.toNat * 2048 + i.toNat
  | .movi sl d i => 0x9E000000 + sl.toNat * 8388608 + d.toNat * 131072 + i.toNat
  | .movk q sl d i => 0xA0000000 + q.toNat * 33554432 + sl.toNat * 8388608 + d.toNat * 131072 + i.toNat
  | .rsz sl d w => 0xA8000000 + sl.toNat * 8388608 + d.toNat * 131072 + w.toNat * 32
  | .setm sl d m => 0xA8000001 + sl.toNat * 8388608 + d.toNat * 131072 + m.toNat * 32
  | .borrow sl d a b => 0xA8000002 + sl.toNat * 8388608 + d.toNat * 131072 + a.toNat * 2048 + b.toNat * 32
  | .giveback sl => 0xA8000003 + sl.toNat * 8388608
  | .xget sl d k => 0xA8000004 + sl.toNat * 8388608 + d.toNat * 131072 + k.toNat * 32
  | .xput sl k a => 0xA8000005 + sl.toNat * 8388608 + k.toNat * 131072 + a.toNat * 2048
  | .twxch sl d a => 0xA8000006 + sl.toNat * 8388608 + d.toNat * 131072 + a.toNat * 2048
  | .mapld sl a => 0xA8000007 + sl.toNat * 8388608 + a.toNat * 2048
  | .mapq sl d a => 0xA8000008 + sl.toNat * 8388608 + d.toNat * 131072 + a.toNat * 2048
  | .gets sl d r => 0xA8000009 + sl.toNat * 8388608 + d.toNat * 131072 + r.toNat * 32
  | .puts sl a r => 0xA800000A + sl.toNat * 8388608 + a.toNat * 2048 + r.toNat * 32
  | .oxl sl k a => 0xA800000B + sl.toNat * 8388608 + k.toNat * 131072 + a.toNat * 2048
  | .oxr sl d k => 0xA800000C + sl.toNat * 8388608 + d.toNat * 131072 + k.toNat * 32
  | .oxclr sl m k => 0xA800000D + sl.toNat * 8388608 + m.toNat * 4194304 + k.toNat * 131072
  | .oxi sl m q k i => 0xAA000000 + sl.toNat * 8388608 + m.toNat * 4194304 + q.toNat * 1048576 + k.toNat * 131072 + i.toNat
  | .fadd sl d a b => 0xB0000000 + sl.toNat * 8388608 + d.toNat * 131072 + a.toNat * 2048 + b.toNat * 32
  | .fsub sl d a b => 0xB0000001 + sl.toNat * 8388608 + d.toNat * 131072 + a.toNat * 2048 + b.toNat * 32
  | .fmul sl d a b => 0xB0000002 + sl.toNat * 8388608 + d.toNat * 131072 + a.toNat * 2048 + b.toNat * 32
  | .fdiv sl d a b => 0xB0000003 + sl.toNat * 8388608 + d.toNat * 131072 + a.toNat * 2048 + b.toNat * 32
  | .fmin sl d a b => 0xB0000004 + sl.toNat * 8388608 + d.toNat * 131072 + a.toNat * 2048 + b.toNat * 32
  | .fmax sl d a b => 0xB0000005 + sl.toNat * 8388608 + d.toNat * 131072 + a.toNat * 2048 + b.toNat * 32
  | .fseteq sl d a b => 0xB0000006 + sl.toNat * 8388608 + d.toNat * 131072 + a.toNat * 2048 + b.toNat * 32
  | .fsetlt sl d a b => 0xB0000007 + sl.toNat * 8388608 + d.toNat * 131072 + a.toNat * 2048 + b.toNat * 32
  | .fsetle sl d a b => 0xB0000008 + sl.toNat * 8388608 + d.toNat * 131072 + a.toNat * 2048 + b.toNat * 32
  | .fsetun sl d a b => 0xB0000009 + sl.toNat * 8388608 + d.toNat * 131072 + a.toNat * 2048 + b.toNat * 32
  | .fcpys sl d a b => 0xB000000A + sl.toNat * 8388608 + d.toNat * 131072 + a.toNat * 2048 + b.toNat * 32
  | .fabs sl d a => 0xB2000000 + sl.toNat * 8388608 + d.toNat * 131072 + a.toNat * 2048
  | .fneg sl d a => 0xB2000001 + sl.toNat * 8388608 + d.toNat * 131072 + a.toNat * 2048
  | .fcvt sl d a r => 0xB2000002 + sl.toNat * 8388608 + d.toNat * 131072 + a.toNat * 2048 + r.toNat * 32
  | .frnd sl d a r => 0xB2000003 + sl.toNat * 8388608 + d.toNat * 131072 + a.toNat * 2048 + r.toNat * 32
  | .fclass sl d a => 0xB2000004 + sl.toNat * 8388608 + d.toNat * 131072 + a.toNat * 2048
  | .fsqrt sl d a => 0xB2000005 + sl.toNat * 8388608 + d.toNat * 131072 + a.toNat * 2048
  | .rcpa sl d a => 0xB2000006 + sl.toNat * 8388608 + d.toNat * 131072 + a.toNat * 2048
  | .rsqa sl d a => 0xB2000007 + sl.toNat * 8388608 + d.toNat * 131072 + a.toNat * 2048
  | .exp2a sl d a => 0xB2000008 + sl.toNat * 8388608 + d.toNat * 131072 + a.toNat * 2048
  | .log2a sl d a => 0xB2000009 + sl.toNat * 8388608 + d.toNat * 131072 + a.toNat * 2048
  | .siga sl d a => 0xB200000A + sl.toNat * 8388608 + d.toNat * 131072 + a.toNat * 2048
  | .tanha sl d a => 0xB200000B + sl.toNat * 8388608 + d.toNat * 131072 + a.toNat * 2048
  | .ffma sl d a b => 0xB4000000 + sl.toNat * 8388608 + d.toNat * 131072 + a.toNat * 2048 + b.toNat * 32
  | .ffms sl d a b => 0xB4000001 + sl.toNat * 8388608 + d.toNat * 131072 + a.toNat * 2048 + b.toNat * 32
  | .rcps sl d a b => 0xB4000002 + sl.toNat * 8388608 + d.toNat * 131072 + a.toNat * 2048 + b.toNat * 32
  | .rsqs sl d a b => 0xB4000003 + sl.toNat * 8388608 + d.toNat * 131072 + a.toNat * 2048 + b.toNat * 32
  | .br sl c t o => 0xC0000000 + sl.toNat * 8388608 + c.toNat * 131072 + t.toNat * 32768 + o.toNat
  | .call sl d i => 0xC2000000 + sl.toNat * 8388608 + d.toNat * 131072 + i.toNat
  | .loop sl c o => 0xC4008000 + sl.toNat * 8388608 + c.toNat * 131072 + o.toNat
  | .jmp sl a => 0xC6000000 + sl.toNat * 8388608 + a.toNat * 2048
  | .callr sl d a => 0xC6000001 + sl.toNat * 8388608 + d.toNat * 131072 + a.toNat * 2048
  | .ret sl a => 0xC6000002 + sl.toNat * 8388608 + a.toNat * 2048
  | .yield sl => 0xC6000003 + sl.toNat * 8388608
  | .exit sl a => 0xC6000004 + sl.toNat * 8388608 + a.toNat * 2048
  | .trap sl b => 0xC6000005 + sl.toNat * 8388608 + b.toNat * 32
  | .brk sl => 0xC6000006 + sl.toNat * 8388608
  | .nop sl => 0xC6000007 + sl.toNat * 8388608
  | .callat sl d a b => 0xC6000008 + sl.toNat * 8388608 + d.toNat * 131072 + a.toNat * 2048 + b.toNat * 32
  | .send sl a b => 0xC8000000 + sl.toNat * 8388608 + a.toNat * 2048 + b.toNat * 32
  | .recv sl d a b => 0xC8000001 + sl.toNat * 8388608 + d.toNat * 131072 + a.toNat * 2048 + b.toNat * 32
  | .tryrecv sl d a b => 0xC8000002 + sl.toNat * 8388608 + d.toNat * 131072 + a.toNat * 2048 + b.toNat * 32
  | .chstat sl d b => 0xC8000003 + sl.toNat * 8388608 + d.toNat * 131072 + b.toNat * 32
  | .spawn sl d a u => 0xC8000004 + sl.toNat * 8388608 + d.toNat * 131072 + a.toNat * 2048 + u.toNat * 32
  | .dep sl a => 0xC8000005 + sl.toNat * 8388608 + a.toNat * 2048
  | .waitany sl d a => 0xC8000006 + sl.toNat * 8388608 + d.toNat * 131072 + a.toNat * 2048
  | .waitall sl d a => 0xC8000007 + sl.toNat * 8388608 + d.toNat * 131072 + a.toNat * 2048
  | .ffr sl d a => 0xC8000008 + sl.toNat * 8388608 + d.toNat * 131072 + a.toNat * 2048
  | .tagclr sl a => 0xC8000009 + sl.toNat * 8388608 + a.toNat * 2048
  | .bari sl d a b => 0xC800000A + sl.toNat * 8388608 + d.toNat * 131072 + a.toNat * 2048 + b.toNat * 32
  | .arrive sl d a b => 0xC800000B + sl.toNat * 8388608 + d.toNat * 131072 + a.toNat * 2048 + b.toNat * 32
  | .waitb sl d a b => 0xC800000C + sl.toNat * 8388608 + d.toNat * 131072 + a.toNat * 2048 + b.toNat * 32
  | .waitch sl d a b => 0xC800000D + sl.toNat * 8388608 + d.toNat * 131072 + a.toNat * 2048 + b.toNat * 32
  | .push sl d q b => 0xC800000E + sl.toNat * 8388608 + d.toNat * 131072 + q.toNat * 2048 + b.toNat * 32
  | .qstat sl d q => 0xC800000F + sl.toNat * 8388608 + d.toNat * 131072 + q.toNat * 32
  | .ld sl d a i => 0xD0000000 + sl.toNat * 8388608 + d.toNat * 131072 + a.toNat * 2048 + i.toNat
  | .st sl d a i => 0xD2000000 + sl.toNat * 8388608 + d.toNat * 131072 + a.toNat * 2048 + i.toNat
  | .lda sl d a i => 0xD4000000 + sl.toNat * 8388608 + d.toNat * 131072 + a.toNat * 2048 + i.toNat
  | .stl sl d a i => 0xD6000000 + sl.toNat * 8388608 + d.toNat * 131072 + a.toNat * 2048 + i.toNat
  | .spill sl d a b => 0xD8000000 + sl.toNat * 8388608 + d.toNat * 131072 + a.toNat * 2048 + b.toNat * 32
  | .fill sl d a b => 0xD8000001 + sl.toNat * 8388608 + d.toNat * 131072 + a.toNat * 2048 + b.toNat * 32
  | .pf sl a b => 0xD8000002 + sl.toNat * 8388608 + a.toNat * 2048 + b.toNat * 32
  | .flush sl d a b => 0xD8000003 + sl.toNat * 8388608 + d.toNat * 131072 + a.toNat * 2048 + b.toNat * 32
  | .inv sl d a b => 0xD8000004 + sl.toNat * 8388608 + d.toNat * 131072 + a.toNat * 2048 + b.toNat * 32
  | .fence sl d b => 0xD8000005 + sl.toNat * 8388608 + d.toNat * 131072 + b.toNat * 32
  | .ldx sl d a b => 0xD8000006 + sl.toNat * 8388608 + d.toNat * 131072 + a.toNat * 2048 + b.toNat * 32
  | .stx sl d a b => 0xD8000007 + sl.toNat * 8388608 + d.toNat * 131072 + a.toNat * 2048 + b.toNat * 32
  | .stc sl d a b => 0xD8000008 + sl.toNat * 8388608 + d.toNat * 131072 + a.toNat * 2048 + b.toNat * 32
  | .aadd sl d a b => 0xDA000000 + sl.toNat * 8388608 + d.toNat * 131072 + a.toNat * 2048 + b.toNat * 32
  | .aand sl d a b => 0xDA000001 + sl.toNat * 8388608 + d.toNat * 131072 + a.toNat * 2048 + b.toNat * 32
  | .aor sl d a b => 0xDA000002 + sl.toNat * 8388608 + d.toNat * 131072 + a.toNat * 2048 + b.toNat * 32
  | .axor sl d a b => 0xDA000003 + sl.toNat * 8388608 + d.toNat * 131072 + a.toNat * 2048 + b.toNat * 32
  | .amin sl d a b => 0xDA000004 + sl.toNat * 8388608 + d.toNat * 131072 + a.toNat * 2048 + b.toNat * 32
  | .amax sl d a b => 0xDA000005 + sl.toNat * 8388608 + d.toNat * 131072 + a.toNat * 2048 + b.toNat * 32
  | .aswp sl d a b => 0xDA000006 + sl.toNat * 8388608 + d.toNat * 131072 + a.toNat * 2048 + b.toNat * 32
  | .acas sl d a b => 0xDA000007 + sl.toNat * 8388608 + d.toNat * 131072 + a.toNat * 2048 + b.toNat * 32
  | .faadd sl d a b => 0xDA000008 + sl.toNat * 8388608 + d.toNat * 131072 + a.toNat * 2048 + b.toNat * 32
  | .lock sl d a => 0xDC000000 + sl.toNat * 8388608 + d.toNat * 131072 + a.toNat * 2048
  | .unlock sl d a => 0xDC000001 + sl.toNat * 8388608 + d.toNat * 131072 + a.toNat * 2048
  | .hold sl d a b => 0xDC000002 + sl.toNat * 8388608 + d.toNat * 131072 + a.toNat * 2048 + b.toNat * 32
  | .will sl d a b => 0xDC000003 + sl.toNat * 8388608 + d.toNat * 131072 + a.toNat * 2048 + b.toNat * 32
  | .relh sl d a => 0xDC000004 + sl.toNat * 8388608 + d.toNat * 131072 + a.toNat * 2048
  | .convey sl d a => 0xDC000005 + sl.toNat * 8388608 + d.toNat * 131072 + a.toNat * 2048
  | .estq sl d a b => 0xDC000006 + sl.toNat * 8388608 + d.toNat * 131072 + a.toNat * 2048 + b.toNat * 32
  | .prmk sl a => 0xDC000007 + sl.toNat * 8388608 + a.toNat * 2048
  | .keep sl d a b => 0xDC000008 + sl.toNat * 8388608 + d.toNat * 131072 + a.toNat * 2048 + b.toNat * 32
  | .awaitp sl d a => 0xDC000009 + sl.toNat * 8388608 + d.toNat * 131072 + a.toNat * 2048
  | .prmq sl d a => 0xDC00000A + sl.toNat * 8388608 + d.toNat * 131072 + a.toNat * 2048
  | .chain sl d a b => 0xE0000000 + sl.toNat * 8388608 + d.toNat * 131072 + a.toNat * 2048 + b.toNat * 32
  | .reduce sl d a b => 0xE0000001 + sl.toNat * 8388608 + d.toNat * 131072 + a.toNat * 2048 + b.toNat * 32
  | .gather sl d a b => 0xE0000002 + sl.toNat * 8388608 + d.toNat * 131072 + a.toNat * 2048 + b.toNat * 32
  | .scatter sl d a b => 0xE0000003 + sl.toNat * 8388608 + d.toNat * 131072 + a.toNat * 2048 + b.toNat * 32
  | .cpyb sl d a b => 0xE0000004 + sl.toNat * 8388608 + d.toNat * 131072 + a.toNat * 2048 + b.toNat * 32
  | .fills sl d a b => 0xE0000005 + sl.toNat * 8388608 + d.toNat * 131072 + a.toNat * 2048 + b.toNat * 32
  | .setf sl a b => 0xE0000006 + sl.toNat * 8388608 + a.toNat * 2048 + b.toNat * 32
  | .getf sl d b => 0xE0000007 + sl.toNat * 8388608 + d.toNat * 131072 + b.toNat * 32
  | .xform sl d a b => 0xE0000008 + sl.toNat * 8388608 + d.toNat * 131072 + a.toNat * 2048 + b.toNat * 32
  | .srand sl a => 0xE0000009 + sl.toNat * 8388608 + a.toNat * 2048
  | .licq sl d => 0xE8000000 + sl.toNat * 8388608 + d.toNat * 131072
  | .licw sl d => 0xE8000001 + sl.toNat * 8388608 + d.toNat * 131072
  | .licr sl d => 0xE8000002 + sl.toNat * 8388608 + d.toNat * 131072
  | .lics sl d => 0xE8000003 + sl.toNat * 8388608 + d.toNat * 131072
  | .mma sl d a b => 0xE8000004 + sl.toNat * 8388608 + d.toNat * 131072 + a.toNat * 2048 + b.toNat * 32
  | .mmad sl d a b => 0xE8000005 + sl.toNat * 8388608 + d.toNat * 131072 + a.toNat * 2048 + b.toNat * 32
  | .topk sl d a b => 0xE8000006 + sl.toNat * 8388608 + d.toNat * 131072 + a.toNat * 2048 + b.toNat * 32
  | .aclr sl m => 0xE8000007 + sl.toNat * 8388608 + m.toNat * 32
  | .drn sl d a b => 0xE8000008 + sl.toNat * 8388608 + d.toNat * 131072 + a.toNat * 2048 + b.toNat * 32
  | .drn2 sl d a b => 0xE8000009 + sl.toNat * 8388608 + d.toNat * 131072 + a.toNat * 2048 + b.toNat * 32
  | .asave sl d a b => 0xE800000A + sl.toNat * 8388608 + d.toNat * 131072 + a.toNat * 2048 + b.toNat * 32
  | .arst sl d a b => 0xE800000B + sl.toNat * 8388608 + d.toNat * 131072 + a.toNat * 2048 + b.toNat * 32
  | .ppt sl m => 0xE800000C + sl.toNat * 8388608 + m.toNat * 32
  | .mwait sl d b => 0xE800000D + sl.toNat * 8388608 + d.toNat * 131072 + b.toNat * 32
  | .sret sl a b => 0xF0000000 + sl.toNat * 8388608 + a.toNat * 2048 + b.toNat * 32
  | .getp sl d a b => 0xF0000001 + sl.toNat * 8388608 + d.toNat * 131072 + a.toNat * 2048 + b.toNat * 32
  | .putp sl d a b => 0xF0000002 + sl.toNat * 8388608 + d.toNat * 131072 + a.toNat * 2048 + b.toNat * 32
  | .tlbi sl a b => 0xF0000003 + sl.toNat * 8388608 + a.toNat * 2048 + b.toNat * 32
  | .ckpt sl d b => 0xF0000004 + sl.toNat * 8388608 + d.toNat * 131072 + b.toNat * 32
  | .kill sl d a y h => 0xF0000005 + sl.toNat * 8388608 + d.toNat * 131072 + a.toNat * 2048 + y.toNat * 64 + h.toNat * 32
  | .slots sl d => 0xF0000006 + sl.toNat * 8388608 + d.toNat * 131072
  | .licf sl d a b => 0xF0000007 + sl.toNat * 8388608 + d.toNat * 131072 + a.toNat * 2048 + b.toNat * 32
  | .ibpeek sl d b => 0xF0000008 + sl.toNat * 8388608 + d.toNat * 131072 + b.toNat * 32
  | .ibtake sl d b => 0xF0000009 + sl.toNat * 8388608 + d.toNat * 131072 + b.toNat * 32
  | .defer sl d => 0xF000000A + sl.toNat * 8388608 + d.toNat * 131072
  | .resume sl d a => 0xF000000B + sl.toNat * 8388608 + d.toNat * 131072 + a.toNat * 2048
  | .evict sl d a b => 0xF000000C + sl.toNat * 8388608 + d.toNat * 131072 + a.toNat * 2048 + b.toNat * 32
  | .trace sl a b => 0xF000000D + sl.toNat * 8388608 + a.toNat * 2048 + b.toNat * 32
  | .addCompact d a => 0x0400 + d.toNat * 32 + a.toNat
  | .subCompact d a => 0x0800 + d.toNat * 32 + a.toNat
  | .andCompact d a => 0x0C00 + d.toNat * 32 + a.toNat
  | .orCompact d a => 0x1000 + d.toNat * 32 + a.toNat
  | .xorCompact d a => 0x1400 + d.toNat * 32 + a.toNat
  | .movCompact d a => 0x1800 + d.toNat * 32 + a.toNat
  | .addiCompact d i => 0x1C00 + d.toNat * 32 + i.toNat
  | .shliCompact d i => 0x2000 + d.toNat * 32 + i.toNat
  | .shriCompact d i => 0x2400 + d.toNat * 32 + i.toNat
  | .seteqCompact d a => 0x2800 + d.toNat * 32 + a.toNat
  | .setltCompact d a => 0x2C00 + d.toNat * 32 + a.toNat
  | .ldCompact d a => 0x3000 + d.toNat * 32 + a.toNat
  | .stCompact d a => 0x3400 + d.toNat * 32 + a.toNat
  | .brz d o => 0x3800 + d.toNat * 32 + o.toNat
  | .brnz d o => 0x3C00 + d.toNat * 32 + o.toNat
  | .nopCompact => 0x4000
  | .yieldCompact => 0x4400
  | .faddCompact d a => 0x4800 + d.toNat * 32 + a.toNat
  | .fmulCompact d a => 0x4C00 + d.toNat * 32 + a.toNat
  | .submissionPlaceWait _ => 0
  | .taskCounterDecrement _ _ => 0
  | .dealTask _ => 0
  | .dealResume _ => 0
  | .slotFill _ => 0
  | .resumeAfterWriteback _ _ => 0
  | .agePromote _ _ => 0
  | .callEntryTake _ => 0
  | .overflowEnter _ => 0
  | .successorStart _ => 0
  | .wakeRecheck _ _ => 0
  | .rowFill _ _ _ => 0
  | .rowIdleWriteback _ _ => 0
  | .repackComplete _ => 0
  | .messageDeliver _ _ _ => 0
  | .fabricMsgReceive _ => 0
  | .putReceive _ => 0
  | .cputReceive _ => 0
  | .atomReceive _ => 0
  | .replyReceive _ => 0
  | .nameWindowWrite _ _ _ _ => 0
  | .nameWindowRead _ _ _ => 0
  | .rawRowAccess _ _ _ _ => 0
  | .accWindowRead _ _ _ => 0
  | .accWindowWrite _ _ _ _ => 0
  | .inboxEntryEnter _ => 0
  | .setfTakeEffect _ _ => 0
  | .streamCommandStart _ _ => 0
  | .streamCommandComplete _ _ => 0
  | .chunkWaitRelease _ _ => 0
  | .copyCommandStart _ _ => 0
  | .copyCommandComplete _ _ => 0
  | .collCommandStart _ _ => 0
  | .collPacketReceive _ _ => 0
  | .collAbortReceive _ _ => 0
  | .chunkLand _ _ _ => 0
  | .inswitchTimeout _ _ => 0
  | .hostRecordSend _ _ => 0
  | .xformStart _ _ => 0
  | .xformComplete _ _ => 0
  | .matrixCommandStart _ _ => 0
  | .mcastWaitExpire _ _ => 0
  | .mmaComplete _ _ => 0
  | .topkComplete _ _ => 0
  | .drainComplete _ _ => 0
  | .accSaveComplete _ _ => 0
  | .accRestoreComplete _ _ => 0
  | .mwaitMarkerFire _ _ => 0
  | .engineFaultPark _ _ => 0
  | .engparkResume _ _ => 0
  | .engparkKill _ _ => 0
  | .licenceTermEnd _ => 0
  | .licenceDrainGrant _ => 0
  | .timerExpire _ _ => 0
  | .preemptTake _ _ => 0
  | .preemptForce _ _ => 0
  | .systemEventBegin _ => 0
  | .systemSlotRestart _ => 0
  | .conveyEntry _ => 0
  | .hostSubmit _ _ => 0
  | .hostDecr _ _ => 0
  | .hostClose _ _ => 0
  | .hostReset _ _ => 0
  | .hqctlOpen _ _ => 0
  | .hqctlTeardownSoft _ _ => 0
  | .hqctlTeardownHard _ _ => 0
  | .teardownComplete _ => 0
  | .dualEffectCompare _ _ => 0
  | .dualPartnerTimeout _ _ => 0
  | .tlbshootCtx _ => 0
  | .tlbshootPage _ => 0
  | .tlbshootAll _ => 0
  | .tlbshootComplete => 0
  | .poolLineWriteback _ _ _ => 0
  | .shadowRecordReplay _ _ => 0
  | .poolHotExpire _ _ => 0
  | .poolPush _ _ => 0
  | .poolDrop _ _ => 0
  | .cklogWrite _ _ => 0
  | .rollbackStart _ => 0
  | .rollbackComplete => 0
  | .scrubPass _ _ => 0
  | .ctrareaWrite _ _ => 0
  | .pwrreqStepWrite _ _ => 0
  | .pwrreqGo _ _ => 0
  | .rampComplete _ => 0
  | .currentSample _ _ => 0
  | .currentStepDown _ => 0
  | .thermalOffline _ _ => 0
  | .thermalClamp _ _ => 0
  | .thermalCut _ _ => 0
  | .offlineTimeoutCut _ => 0
  | .thermstReadmit _ _ => 0
  | .fwdogKick _ => 0
  | .fwdogExpire => 0
  | .firmwareVerify _ _ _ => 0
  | .attestationReport _ => 0
  | .endpointInstall _ _ _ => 0
  | .endpointRevoke _ => 0
  | .alarmRaise _ => 0
  | .portLinkChange _ _ => 0
  | .ucieRetrainFail _ => 0
  | .partctlOpen _ => 0
  | .partctlClose _ => 0
  | .wrstGo _ _ => 0
  | .warmResetPhase _ _ => 0
  | .dieReset _ => 0
  | .registerWrite _ _ _ => 0
  | .lineWriteBack _ _ _ _ => 0
  | .accessResultArrival _ _ _ => 0
  | .ucieModuleReturn _ => 0
  | .warmZone _ _ => 0
  | .coldStart => 0

/-- The bytes of an instruction as they stand in memory (R2). -/
def encodeBytes (i : Instr) : List Byte :=
  let w := encode i
  if i.is32 then [.ofNat 8 (w / 65536), .ofNat 8 (w / 16777216), .ofNat 8 w, .ofNat 8 (w / 256)]
  else if i.isCompact then [.ofNat 8 w, .ofNat 8 (w / 256)]
  else []

/-- Bytes of a table word of `nbits` bits: one parcel, or the high parcel of the 32-bit word first. -/
def tableBytes (nbits w : Nat) : List Byte :=
  if nbits ≤ 16 then [.ofNat 8 w, .ofNat 8 (w / 256), 0, 0]
  else [.ofNat 8 (w / 65536), .ofNat 8 (w / 16777216), .ofNat 8 w, .ofNat 8 (w / 256)]

/-- What the decoder reads from a word numbered as spec/opcode_table.json numbers it. -/
def decodeTableWord (nbits w : Nat) : Option Instr :=
  match decodeBytes (tableBytes nbits w) with
  | .ok (i, _) => some i
  | .error _ => none

end Sys2Proof
end

