-- ==== Sys2Proof/Config.lean ====
section
/-! DEFINITION. Config.lean: what is fixed for one device, and the free values of the model. An opaque constant has no
body: nothing in Lean can evaluate it or prove a value of it, so what is proved holds for every value. -/

namespace Sys2Proof

/-- Where a check code is found wrong (R369): corrected in place in a structure of a core (numbered as ECCLOG's LAST), or
uncorrectable in a row of a slot's register cache (from 32 on, of its borrowed slot), a shared row, a row of the pair, a line of the
instruction cache, an 8-byte unit of a line of an L1, an L2 or the LLC, an 8-byte word of storage, 8 bytes of a scratchpad, or an
element of the accumulators. -/
inductive Flaw where
  | corrected (core kind : Nat)
  | row (core slot row : Nat)
  | sharedRow (core row : Nat)
  | pairRow (core row : Nat)
  | fetched (core line : Nat)
  | l1 (core line unit : Nat)
  | l2 (cluster line unit : Nat)
  | llc (line unit : Nat)
  | stored (addr : Nat)
  | spad (core off : Nat)
  | acc (core elem : Nat)
  deriving DecidableEq, Repr, Inhabited

/-- A move of the machine: a cycle of the pair of a core (its twin issues in the move after it), the issue of a core in a
cycle that has begun, one event of the device, a part of what an engine command writes, the command being named by its
core and its place there (R219, R229, R271), rows of a slot's repack that the fuller finds uncorrectable (R78), or an error of a
check code; one found in the old copy after a move has written the new one names the structure of the old copy (R370). -/
inductive Move where
  | cycle (core : Nat)
  | issue (core : Nat)
  | event (i : Instr)
  | progress (core idx part unit : Nat)
  | uncorrectable (core slot : Nat) (rows : BitVec 32)
  | flaw (at_ : Flaw) (old : Option (Nat × Nat))
  deriving DecidableEq, Repr, Inhabited

/-- The party that moves when the state's agenda names none: the order in which cores and units act is free
(R1, R17, R398); log entry 2. -/
opaque Config.freeMove : Nat → Move
/-- A free value wherever the spec leaves one: every use is named in the assumption log (entry 3). -/
opaque Config.freeWord : Nat → Word
/-- A free choice among several allowed ones (entry 3). -/
opaque Config.freeNat : Nat → Nat
/-- The bits a reader finds where R7, R256 or R7's like call the contents unpredictable (entry 3). -/
opaque Config.freeBits : (tick place width : Nat) → Nat
/-- The hash by which the mesh router compares the effects of redundant copies (R333): the spec gives its width and
what it covers, not its function (entry 3). -/
opaque Config.effectHash : List Nat → BitVec 64

/-- Whether a line lies in the crown half of its cluster's L2 slice: R16 gives each die one half and not which lines it holds
(entry 3). -/
opaque Config.l2Crown : Nat → Bool

/-- Number of core sites (R13). -/
def Config.sites : Nat := 1024
/-- Physical base of the per-core windows (R20, R340). -/
def Config.windowBase : Nat := 0x10000000000
/-- Bytes of one per-core window (R20). -/
def Config.windowSize : Nat := 0x400000
/-- Physical base of the spread view (R340). -/
def Config.spreadBase : Nat := 0x8000000000
/-- Physical base of pool space (R340). -/
def Config.poolBase : Nat := 0x18000000000
/-- Physical base of the privileged device control space (R321). -/
def Config.ctrlBase : Nat := 0x20000000000
/-- Length of the control space (R340). -/
def Config.ctrlSize : Nat := 0x409000
/-- Physical base of the memories of the domain's devices (R340, R342). -/
def Config.remoteBase : Nat := 0x80000000000000

end Sys2Proof
end

