-- ==== Sys2Proof/Machine/State.lean ====
section
/-! DEFINITION. Machine/State.lean: everything the spec gives the device, as plain data, and the device right after
reset. The many like units (core sites, pairs, clusters, towers, dies, host queues) stand in sparse tables: a unit that
is not listed is at its reset value. -/

namespace Sys2Proof.Machine

/-- Kinds of a name (R58, codes of R59). -/
inductive Kind where
  | unsigned | signed | flag | float32 | bfloat16 | float16 | float64
  deriving DecidableEq, Repr

/-- Overflow modes of a name (R58). -/
inductive Mode where
  | wrap | sat | trap
  deriving DecidableEq, Repr

/-- Regions of a name (R58). -/
inductive Region where
  | priv | shared | pair
  deriving DecidableEq, Repr

/-- A declared name with its current width and mode (R58, R61). For a shared or pair name of a slot's map the current
values are those of the signature (R66, R129). -/
structure NameD where
  width     : Nat
  kind      : Kind
  mode      : Mode
  region    : Region
  declWidth : Nat
  declMode  : Mode
  curv      : Bool
  deriving DecidableEq, Repr

/-- Trap causes (R115). -/
inductive Cause where
  | illegal | priv | width | divzero | slipshort | misalign | pfload | pfstore | pffetch | protect | poison | heirless
  | licence | pool | brk | syscall | kind | maperr | borrow | mismatch | float | preempt | killed | buserr | partial_
  deriving DecidableEq, Repr

/-- What a blocked slot waits for (R29, R48). -/
inductive Wait where
  | none | recv | send | waitany | waitall | waitb | waitch | awaitp | licw | callat
  deriving DecidableEq, Repr

/-- What a slot is doing (R48, R299, R306, R311). A borrowed or removed slot is `free` or as its thread is; those two
facts stand in `lentTo` and in the cluster's `removed` count. -/
inductive Phase where
  | free | running | blocked | held | dying
  deriving DecidableEq, Repr

/-- A result that an issued instruction has not yet written (R107): the name of the slot's map, its bits, the core
cycle in which it is written (none: a variable-latency result that has not arrived), the slot's turn from which it
is visible, and the cycle of the issue. -/
structure Pending where
  name : Nat
  bits : BitVec 64
  due  : Option Nat
  turn : Nat
  born : Nat
  deriving DecidableEq, Repr

/-- A repack in progress, of the slot whose RSZ began it (R76, R77). -/
structure Repack where
  region : Region
  name   : Nat
  width  : Nat
  bits   : BitVec 64
  until_ : Nat
  /-- rows that the fuller has found uncorrectable so far (R78). -/
  bad    : BitVec 32 := 0
  deriving DecidableEq, Repr

/-- An operand that a waiting instruction has read (R108): the name, its bits, and the width that it had. -/
structure Latched where
  name  : Nat
  bits  : BitVec 64
  width : Nat
  deriving DecidableEq, Repr

/-- A borrowed slot's second map and rows (R73, R131). -/
structure Borrow where
  slot     : Nat
  map      : List NameD
  rows     : BitVec 4096
  resident : BitVec 32
  dirty    : BitVec 32
  poisoned : BitVec 32
  /-- physical address of the backing area, how many of its 32 sectors lie in the first page, and the address of the next one. -/
  backing  : Nat
  split    : Nat
  backing2 : Nat
  deriving DecidableEq, Repr

/-- A deferred place (R301). -/
structure Deferred where
  name : BitVec 6
  req  : BitVec 10
  data : Word
  deriving DecidableEq, Repr

/-- Where a callee's reply goes (R47, R169). -/
structure Callee where
  core : Nat
  chan : Nat
  deriving DecidableEq, Repr

/-- A barrel slot with the thread it holds (R17, R27). -/
structure Slot where
  phase     : Phase := .free
  wait      : Wait := .none
  waitArg   : Word := 0
  woken     : Bool := false
  waitSince : Nat := 0
  /-- the object that a blocked instruction waits for is in another device's memory (R48). -/
  farWait   : Bool := false
  /-- physical address of the barrier object or promise that a blocked instruction waits for. -/
  waitPa    : Nat := 0
  /-- physical address of the thread's image, the key of its record in `State.threads`; 0 for none. -/
  img       : Nat := 0
  handle    : BitVec 32 := 0
  pc        : Word := 0
  mapPtr    : Word := 0
  map       : List NameD := []
  rows      : BitVec 4096 := 0
  resident  : BitVec 32 := 0
  dirty     : BitVec 32 := 0
  poisoned  : BitVec 32 := 0
  /-- the private row whose fill a stalled instruction waits for (R70). -/
  demand    : Option Nat := none
  ox        : BitVec 512 := 0
  /-- AMODE, whose ASCOPE resets to CORE (R114). -/
  amode     : Word := 1
  rmode     : Word := 0
  fxf       : Word := 0
  seed      : Word := 0
  licst     : Word := 0
  borrow    : Option Borrow := none
  /-- the slot of the core whose thread borrows this one (R73). -/
  lentTo    : Option Nat := none
  /-- turns the slot has had, and the first turn at which it may issue again (R106). -/
  turn      : Nat := 0
  nextTurn  : Nat := 0
  pending   : List Pending := []
  /-- operand values read by an instruction that waits (R108). -/
  latch     : List Latched := []
  /-- an instruction has issued and waits for the results before it (R108, R109). -/
  issued    : Bool := false
  repack    : Option Repack := none
  /-- an instruction of the slot waits for a submission (R395) or the mesh router (R333). -/
  stalled   : Bool := false
  preTimer  : Bool := false
  preTerm   : Bool := false
  preSince  : Nat := 0
  trCause   : Word := 0
  trVal     : Word := 0
  trPc      : Word := 0
  trTime    : Word := 0
  estBase   : Word := 0
  timer     : Word := 0
  defer0    : Option Deferred := none
  defer1    : Option Deferred := none
  matSeq    : BitVec 16 := 0
  /-- a PPT of the slot waits for matrix commands (R255). -/
  pptWait   : Bool := false
  /-- the thread's saved tiles are to be restored once its queue has a place (R248). -/
  restore   : Bool := false
  /-- cycles in which the slot stood free, enabled, and could have been filled (R44). -/
  freeWait  : Nat := 0
  /-- the thread that the slot's KILL waits to see stopped (R310). -/
  killing   : Option Nat := none
  deriving DecidableEq, Repr

/-- Evictable rows of a thread that ran in a slot before (R71). -/
structure FormerRows where
  slot  : Nat
  img   : Nat
  rows  : BitVec 4096
  mask  : BitVec 32
  dirty : BitVec 32
  poison : BitVec 32
  deriving DecidableEq, Repr

/-- An entry of an estate (R198). -/
structure EstEntry where
  object   : Word
  kind     : Nat
  heirKind : Nat
  level    : Nat
  heir     : BitVec 32
  seq      : BitVec 16
  time     : Word
  deriving DecidableEq, Repr

/-- A thread wherever it is (R27, R28): the facts the dispatcher and the estate machine keep of it. `state` is the
STATE code of R29. -/
structure Thread where
  handle   : BitVec 32 := 0
  ctx      : BitVec 16 := 0
  state    : Nat := 0
  prio     : Nat := 0
  aged     : Bool := false
  task     : Option Nat := none
  group    : Nat := 0
  member   : Nat := 0
  lastCore : Nat := 0
  lastSlot : Nat := 0
  inSlot   : Bool := false
  parked   : Bool := false
  dying    : Bool := false
  estate   : List EstEntry := []
  estSeq   : BitVec 16 := 0
  /-- entries reserved for a licence request (R245). -/
  reserved : Nat := 0
  defHeir  : Word := 0
  callee   : Option Callee := none
  /-- USER messages held for a thread that is out of its slot, each with its information word and the scope of its release
  (R205, R316). -/
  userMsgs : List (BitVec 128 × BitVec 64 × Nat) := []
  /-- redundant copy number (R332). -/
  copy     : Option Nat := none
  effects  : Nat := 0
  /-- the thread has issued from a slot before. -/
  started  : Bool := false
  /-- TRVAL of KILLED of a thread that is being killed, with the time of the kill (R301, R307). -/
  killVal  : Option (Word × Word) := none
  /-- a kill, hard or soft, has begun and the thread has not reached the boundary at which it stops (R306 step 1). -/
  stopping : Option Bool := none
  /-- size of the thread's group (R38), and the arguments of a callee (R47). -/
  size     : Nat := 1
  args     : BitVec 256 := 0
  /-- return value of an exiting callee (R169). -/
  retVal   : Word := 0
  /-- the borrowed slot of a thread that yielded (R134, R163). -/
  borrow   : Option Borrow := none
  /-- the restore of the saved tiles is due and has found no place yet (R248). -/
  restore  : Bool := false
  /-- handle from which SEED starts (R38, R332), and the scope of the acquire at the thread's start (R47). -/
  seedH    : BitVec 32 := 0
  acq      : Nat := 0
  deriving DecidableEq, Repr

/-- One line of an L1, of an L2 slice or of the LLC (R18, R260): data, valid and dirty 16-byte sectors, poison per
byte, the scope record, the keep mark, whether an L2 slice owns it, and the context of its last writer (R357). -/
structure Line where
  addr   : Nat
  data   : BitVec 1024
  valid  : BitVec 8
  dirty  : BitVec 8
  poison : BitVec 128
  scope  : Nat
  keep   : Bool
  owned  : Bool
  ctx    : Option (BitVec 16)
  deriving DecidableEq, Repr

/-- A leaf held in a TLB (R346): context, virtual base, page size as a power of two, physical base, entry bits. -/
structure TlbEntry where
  ctx   : BitVec 16
  va    : Nat
  log   : Nat
  pa    : Nat
  entry : Word
  deriving DecidableEq, Repr

/-- A message in a receive channel, or on its way to one (R170, R172): flits, information word, release scope. -/
structure Msg where
  flits : List (BitVec 128)
  info  : Word
  rel   : Option Nat
  /-- sending party, for the order of R173. -/
  fromCore : Nat
  fromSlot : Nat
  /-- its first flit has arrived (R48). -/
  headed   : Bool := false
  deriving DecidableEq, Repr

/-- A receive channel (R18, R174): complete messages, and messages whose place is reserved and whose flits travel. -/
structure Channel where
  ready     : List Msg := []
  travel    : List Msg := []
  deriving DecidableEq, Repr

/-- An entry of a run list or of an overflow queue (R43, R328): a task, or a thread by its image address. -/
inductive EntryKind where
  | task (id : Nat)
  | thread (img : Nat)
  deriving DecidableEq, Repr

structure RunEntry where
  what  : EntryKind
  prio  : Nat
  aged  : Bool
  since : Nat
  cls   : Nat := 1
  deriving DecidableEq, Repr

/-- An entry of a core's task queue (R46). -/
structure CallEntry where
  pc      : Word
  args    : BitVec 256
  mapPtr  : Word
  prio    : Nat
  defHeir : Word
  ctx     : BitVec 16
  parent  : BitVec 32
  reply   : Option Callee
  fromCore : Nat
  task    : Option Nat
  deriving DecidableEq, Repr

/-- An inbox entry (R304). -/
structure InboxEntry where
  head : Word
  data : Word
  aux  : Word
  time : Word
  deriving DecidableEq, Repr

/-- A tensor shape record (R215). -/
structure Shape where
  index   : Nat
  bank    : Nat
  dims    : List Nat
  strides : List Int
  bcast   : Bool
  deriving DecidableEq, Repr

/-- What an accepted engine command does. The raw forms keep the bytes the engine was given. -/
inductive CmdOp where
  | chain (dst : Shape) (src : List (Option Shape)) (ops : List (BitVec 32)) (s : BitVec 32)
  | reduce (op : Nat) (src dst : Shape)
  | gather (dst src idx : Shape)
  | scatter (dst src idx : Shape)
  | cpyb (src dst : Shape)
  | fills (dst : Shape) (kind : Kind) (bits : Int)
  | setf (bank : Nat) (value : Word)
  | mma (minus : Bool) (tile : Nat) (acc : Bool) (kb : Nat) (da db : Word)
  | topk (tile k : Nat) (idx val : Shape)
  | aclr (mask : BitVec 4)
  | drain (tile : Nat) (dsts : List Shape)
  | asave (mask : BitVec 4) (pages : List Nat)
  | arst (mask : BitVec 4) (pages : List Nat)
  | restore (mask : BitVec 4) (pages : List Nat)
  | marker
  | copy (c : BitVec 512)
  | coll (c : BitVec 512)
  | host (c : BitVec 512)
  | xform (op : Nat) (record : Nat) (lay : BitVec 512)
  deriving DecidableEq, Repr

/-- An engine command of one core (R219, R228, R242). The list of a core is in issue order. `park` is the park place of
a faulted command, `faulted` an engine fault that waits to be parked (R349). -/
structure Cmd where
  op       : CmdOp
  slot     : Nat
  img      : Nat
  handle   : BitVec 32
  ctx      : BitVec 16
  seq      : Nat
  user     : Bool
  rd       : List (Nat × Nat)
  wr       : List (Nat × Nat)
  tag      : Option Nat
  barrier  : Option Word
  barPa    : Option Nat
  chunk    : Option (Nat × Nat)
  released : Bool
  started  : Bool
  startAt  : Nat
  /-- cycle in which an MMA or MMAD at work completes (R238). -/
  doneAt   : Nat
  seed     : BitVec 32
  fmts     : BitVec 1024
  faulted  : Option (Cause × Word)
  park     : Option Nat
  /-- SEQ of the thread's ENGINE entry for this command (R198, R228). -/
  est      : Option (BitVec 16)
  /-- collective: contributions that have arrived, in order, as packets; chunk bits already set; sent to a switch. -/
  contrib  : List Packet
  landed   : BitVec 64
  inswitch : Bool
  /-- collective: its contributions are sent. -/
  sent     : Bool := false
  /-- matrix: accepted while its thread awaited the licence or a restore (R248); presented to the owner of a shared read
  (R243). -/
  waits    : Bool
  mcast    : Bool
  /-- tiles of the restore that such a command waits for, and the number of that restore once it is in the queue (R248). -/
  owed     : BitVec 4 := 0
  behind   : Option Nat := none
  /-- what a part of the command (0, or a collective's chunk) has found and not yet written (R229, R271): bytes by address, the
  poison bit above the byte; of a copy part 0 holds the units not yet read (position and length), and part 1 those read (position,
  and 16 times the value plus the length). -/
  plans    : Table (List (Nat × Nat)) := []
  /-- groups of destination bytes of a part whose values are found. -/
  groups   : Table (List Nat) := []
  /-- source bytes read before the values that need them are found (R219, R261); of an MMA part 0 and 1 hold its operands as read
  whole, and part 2 and 3 the format of their banks at that read (R242, R243). -/
  got      : Table (List (Nat × Nat)) := []
  /-- collective: number of the first contribution that a switch refused, which goes with all later ones to the members (R377). -/
  fell     : Option Nat := none
  /-- lines that the engine owns until it has finished writing them (R266). -/
  own      : List Nat := []
  /-- format register of the bank in which a collective's result lands, as its checks found it (R283). -/
  fmtAt    : Option Word := none
  deriving DecidableEq, Repr

/-- An access to an accumulator tile that has arrived at the core and waits for the matrix commands accepted before it
(R244): its requester (a slot at an instruction, or an engine command), the slot's turn of its latest try, the tile, and the
number of the first command accepted after it. -/
structure AccWait where
  core   : Nat
  slot   : Option Nat
  seq    : Option Nat
  pc     : Word
  handle : BitVec 32
  turn   : Nat
  tile   : Nat
  mark   : Nat
  deriving DecidableEq, Repr

/-- A machine-check record (R356). -/
structure MachineCheck where
  time  : Word
  addr  : Word
  kind  : Word
  where_ : Word
  deriving DecidableEq, Repr

/-- One core site (R18). -/
structure Core where
  cycle     : Nat := 0
  slots     : Table Slot := []
  former    : List FormerRows := []
  sharedRows : BitVec 2048 := 0
  sharedPoison : BitVec 16 := 0
  /-- the shared signature: declarations with current widths and modes (R66). -/
  sig       : List NameD := []
  mapGen    : BitVec 16 := 0
  tags      : Word := 0
  /-- tags that a completion has set in the current cycle (R177). -/
  tagsNow   : Word := 0
  l1        : List Line := []
  icache    : List Line := []
  tlb       : List TlbEntry := []
  chans     : Table Channel := []
  /-- senders that wait for a place in a channel of the core: channel and party, oldest first (R56). -/
  sendQ     : List (Nat × Nat × Nat) := []
  runList   : List RunEntry := []
  taskQ     : List CallEntry := []
  /-- callers that wait for a place in the task queue: core and slot, oldest first (R56). -/
  callQ     : List (Nat × Nat) := []
  /-- the first cycle in which a task entry may be handed on, and the cycles for which one has waited (R44). -/
  dealAt    : Nat := 0
  dealWait  : Nat := 0
  inbox     : List InboxEntry := []
  /-- entries that wait for room, each with the party that waits with it: a core and a slot, the number of a dying thread's
  image with core 1024, or 16 more than the slot of an engine command (R303). -/
  inboxWait : List (InboxEntry × Option (Nat × Nat)) := []
  cmds      : List Cmd := []
  cmdSeq    : Nat := 0
  /-- accesses that wait at the accumulator window, and the first cycle in which the array is free (R238, R244). -/
  accWait   : List AccWait := []
  arrayFree : Nat := 0
  /-- format registers in force, and as of the latest SETF issued (R85, R87, R226). -/
  bfmt      : BitVec 1024 := 0
  bfmtNext  : BitVec 1024 := 0
  tiles     : BitVec 524288 := 0
  tilePoison : BitVec 16384 := 0
  /-- event state of the system slot (R293, R297). -/
  evActive  : Bool := false
  evKind    : BitVec 2 := 0
  evSlot    : BitVec 3 := 0
  resetPend : Bool := false
  trapPend  : BitVec 7 := 0
  timePend  : BitVec 7 := 0
  stopped   : Bool := false
  imgBase   : Word := 0
  slotEn    : Word := 0x7F
  ptBase    : Word := 0
  ctxId     : Word := 0
  traceNext : Nat := 0
  imagesTold : Bool := false
  offline   : Bool := false
  /-- counter places in use in the core's counter area (R395). -/
  places    : List Nat := []
  deriving DecidableEq, Repr

/-- A waiter for a licence, or its holder: core, slot, image address, handle. -/
structure LicReq where
  core   : Nat
  slot   : Nat
  img    : Nat
  handle : BitVec 32
  deriving DecidableEq, Repr

inductive LicState where
  | free | held | due | draining
  deriving DecidableEq, Repr

/-- What the two twins of a pair share (R19, R74, R247). -/
structure Pair where
  rows    : BitVec 1024 := 0
  poison  : BitVec 8 := 0
  sig     : List NameD := []
  lic     : LicState := .free
  holder  : Option LicReq := none
  fifo    : List LicReq := []
  grantee : Option LicReq := none
  termN   : Nat := 0
  granted : Nat := 0
  /-- the former holder whose commands drain (R247). -/
  drains  : Option LicReq := none
  deriving DecidableEq, Repr

/-- Eight core sites with their shared units (R16, R359, R363). -/
structure Cluster where
  l2      : List Line := []
  tlb     : List TlbEntry := []
  step    : Nat := 8
  target  : Nat := 8
  ramp    : Bool := false
  rampEnd : Nat := 0
  pend    : Option Nat := none
  heldGo  : Option Nat := none
  removed : Nat := 0
  lowRun  : Nat := 0
  removedSince : Nat := 0
  /-- cycle of the latest sample of the current. -/
  sampled : Nat := 0
  stepDown : Bool := false
  /-- the ramp that runs is the loop's own: `removed` falls to 0 at its end (R364). -/
  clears  : Bool := false
  toEight : Bool := false
  deriving DecidableEq, Repr

/-- A deal that waits for run-list room or images (R327). -/
structure Deal where
  task  : Nat
  group : Nat
  prio  : Nat
  aged  : Bool
  /-- the home core has been told of a shortage of images (R31). -/
  told  : Bool := false
  deriving DecidableEq, Repr

/-- A shadow record of a pool line (R352): line, new entry, new chunk contents with their indices and their poison. -/
structure Shadow where
  line   : Nat
  entry  : BitVec 128
  chunks : List (Nat × BitVec 256 × BitVec 32)
  inPlace : Bool
  deriving DecidableEq, Repr

/-- One tower (R12): overflow queue, held deals, collective buffer, pool lines held expanded, shadow records. -/
structure Tower where
  overflow : List (Nat × RunEntry) := []
  deals    : List Deal := []
  collBuf  : List Packet := []
  /-- pool lines with HOT set and the cycle of their last atomic; lines in a reserve way, and lines pinned in an
  ordinary way, each oldest first (R353, R354). -/
  hot      : List (Nat × Nat) := []
  reserve  : List Nat := []
  pinned   : List Nat := []
  shadows  : List Shadow := []
  deriving DecidableEq, Repr

/-- A warm reset's phase (R385). -/
inductive WarmPhase where
  | idle | offline | quiesce | writeback | reset | retrain | readmit
  deriving DecidableEq, Repr

/-- One compute die (R365, R385). -/
structure Die where
  temp    : Nat := 25
  zone    : Nat := 0
  cut     : Bool := false
  phase   : WarmPhase := .idle
  refused : Bool := false
  failed  : Bool := false
  offSince : Nat := 0
  offBusy : Bool := false
  clamped : Bool := false
  deriving DecidableEq, Repr

/-- STATE of a launch record (R36). -/
inductive TaskState where
  | pending | ready | dealt | done | killed | discarded | refused
  deriving DecidableEq, Repr

/-- A predecessor of a task (R278): the cores of its placement, the cores that ran it, and whether its placement takes in
other devices. -/
structure Pred where
  placed : List Nat
  ran    : List Nat
  far    : Bool
  deriving DecidableEq, Repr

/-- A task that the dispatcher has accepted (R34 to R42). -/
structure Task where
  record  : Word := 0
  recordPa : Nat := 0
  ctx     : BitVec 16 := 0
  home    : Nat := 0
  state   : TaskState := .pending
  /-- scratchpad offset of the counter place, while the task has one. -/
  ctr     : Option Nat := none
  bereaved : Bool := false
  excess  : Bool := false
  /-- the record's bytes at its acceptance, STATUS and CTRLOC as zero (R34). -/
  given   : BitVec 1024 := 0
  /-- the 128 bytes read when the task became ready (R40). -/
  snap    : BitVec 1024 := 0
  count   : Nat := 0
  parent  : BitVec 32 := 0
  prio    : Nat := 0
  aged    : Bool := false
  entered : Nat := 0
  live    : Nat := 0
  anyKilled : Bool := false
  /-- cores its threads were dealt to, cores its threads have run on, and its predecessors (R277, R278). -/
  cores   : List Nat := []
  ran     : List Nat := []
  owes    : List Pred := []
  started : Bool := true
  /-- the task is READY and waits for room in the run list of its home core (R56, R328). -/
  waits   : Bool := false
  queue   : Option Nat := none
  tag     : BitVec 32 := 0
  byHost  : Bool := false
  /-- kind of a reply that waits for the end of its queue's teardown (R331). -/
  reply   : Option Nat := none
  deriving DecidableEq, Repr

/-- A decrement on its way to a task counter (R39): the launch record, whether it is bereaved, and the core it comes from. -/
structure Decrement where
  pa       : Nat
  bereaved : Bool
  src      : Nat
  deriving DecidableEq, Repr

/-- Who waits for a submission (R395): a thread's SPAWN, or a host queue. -/
inductive Submitter where
  | thread (core slot name : Nat) (duty : Bool)
  | host (queue : Nat) (tag : BitVec 32)
  deriving DecidableEq, Repr

structure Submission where
  record : Word
  recordPa : Nat
  ctx  : BitVec 16
  home : Nat
  deps : BitVec 32
  parent : BitVec 32
  queue : Option Nat
  by_  : Submitter
  deriving DecidableEq, Repr

inductive QState where
  | closed | open_ | tearing
  deriving DecidableEq, Repr

/-- One host queue (R322, R325, R331). -/
structure HostQueue where
  state    : QState := .closed
  reopen   : Bool := false
  hard     : Bool := false
  closeTag : BitVec 32 := 0
  byCommand : Bool := false
  done     : Nat := 0
  killed   : Nat := 0
  discarded : Nat := 0
  /-- sequence number of the next reply. -/
  seq      : BitVec 32 := 0
  deriving DecidableEq, Repr

/-- A reply of a host queue (R325): queue and the 64 bytes, with what its header holds of the flow (R373): the sequence number,
the stamp and, once it has left, the plane. -/
structure Reply where
  queue : Nat
  bytes : BitVec 512
  seq   : BitVec 32 := 0
  stamp : BitVec 40 := 0
  plane : Nat := 0
  deriving DecidableEq, Repr

/-- What an heir resolves to (R200): none, the system slot of a core, or a thread by its image. -/
inductive Heir where
  | none | system (core : Nat) | thread (img : Nat)
  deriving DecidableEq, Repr

/-- An operation on another device's memory that awaits the reply (R342, R373), with the reply once it has arrived: 128 bits
of value, and above them whether the home's bytes were poisoned. Its party is a slot, or with core 1024 a dying thread by its
image, whose conveyance has resolved to `heir` (R206, R208). -/
structure RemoteOp where
  id    : Nat
  core  : Nat
  slot  : Nat
  reply : Option (BitVec 129)
  heir  : Heir := .none
  /-- a place asked for a message (R171): the device, and the core and channel there. -/
  place : Option (Nat × Nat) := none
  deriving DecidableEq, Repr

/-- A write of a slot or of an engine command that has been sent to another device and that its home has not answered
(R264, R276): where it goes, and whether it is an atomic operation. -/
structure FarWrite where
  id   : Nat
  core : Nat
  slot : Nat
  cmd  : Option Nat
  dev  : Nat
  off  : Nat
  size : Nat
  atom : Bool
  deriving DecidableEq, Repr

/-- An effect of a redundant copy that waits at the mesh router (R333). -/
structure DualEffect where
  task  : Nat
  group : Nat
  member : Nat
  copy  : Nat
  k     : Nat
  hash  : BitVec 64
  core  : Nat
  slot  : Nat
  since : Nat
  /-- 0 waits, 1 compared equal, 2 performed by copy 0. -/
  stage : Nat
  reply : Option (BitVec 64)
  deriving DecidableEq, Repr

/-- An open checkpoint interval of a context (R357). -/
structure Interval where
  ctx : BitVec 16
  id  : BitVec 32
  deriving DecidableEq, Repr

/-- A checkpoint log entry (R357): stamp, physical address, CKPTID (0: dead), CTXID, old content. -/
structure LogEntry where
  stamp : Word
  addr  : Nat
  id    : BitVec 32
  ctx   : BitVec 16
  old   : BitVec 1024
  deriving DecidableEq, Repr

/-- An attestation report (R381): the nonce, the word DEVID, the hash of the fuses, the measurements of the ROM, the
firmware and the system image, the harvest maps, ALMST, and its signatures. -/
structure Report where
  nonce    : BitVec 256
  device   : Word
  fuses    : BitVec 384
  measures : List (BitVec 384)
  harvest  : List Word
  almSt    : BitVec 6
  /-- the signatures under the two schemes of R380. -/
  sigPss   : BitVec 3072
  sigSlh   : Nat
  deriving DecidableEq, Repr

/-- The device (R12). -/
structure State where
  /-- who moves next, decided already; when empty, the next mover is free. -/
  agenda   : List Move := []
  /-- counter of free choices (the model's own). -/
  tick     : Nat := 0
  /-- the party whose instruction `exec` runs (the model's own). -/
  cur      : Nat × Nat := (0, 7)
  /-- device time in ns (R25). -/
  time     : Word := 0
  /-- bytes of DRAM (home view) and of the scratchpads (per-core windows), by physical address. -/
  mem      : List Host.Cell := []
  /-- poisoned bytes of that storage. -/
  memPoison : List Nat := []
  llc      : List Line := []
  cores    : Table Core := []
  pairs    : Table Pair := []
  clusters : Table Cluster := []
  towers   : Table Tower := []
  dies     : Table Die := []
  threads  : Table Thread := []
  dying    : List Nat := []
  tasks    : Table Task := []
  nextTask : Nat := 0
  submissions : List Submission := []
  /-- decrements on their way to a task counter (R39). -/
  decrements : List Decrement := []
  /-- words of the privileged device control space that differ from their reset value, by offset (R321). -/
  ctrl     : Table Word := []
  queues   : Table HostQueue := []
  replies  : List Reply := []
  /-- replies held at their source, as packets are (R374, R375). -/
  repliesHeld : List Reply := []
  /-- packets that have left the device, oldest first, each with its plane, and packets held at their source (R374, R378). -/
  fabricOut : List (Nat × Packet) := []
  fabricHeld : List Packet := []
  /-- ordered-flow state: next sequence to send and to deliver by flow key, and the reorder buffer (R275). -/
  flowSend : Table Nat := []
  flowRecv : Table Nat := []
  reorder  : List Packet := []
  remoteOps : List RemoteOp := []
  farWrites : List FarWrite := []
  nextRemote : Nat := 0
  portUp   : BitVec 32 := 0xFFFFFFFF
  portErrors : Table Nat := []
  ucieUp   : BitVec 32 := 0xFFFFFFFF
  partOpen : BitVec 16 := 0
  /-- the dispatch controllers' snapshot of the PLACE words: physical site, partition, logical core (R384). -/
  places   : List (Nat × Nat × Nat) := []
  dual     : List DualEffect := []
  tlbBusy  : Bool := false
  intervals : List Interval := []
  nextCkpt : BitVec 32 := 1
  /-- checkpoint log of each channel, newest last, and its overflow mark. -/
  logs     : Table (List LogEntry) := []
  logOvf   : List Nat := []
  rbBusy   : Bool := false
  rbDone   : Bool := false
  rbRefused : Bool := false
  /-- what the rollback in progress was started with (R358). -/
  rbWord   : Word := 0
  /-- the Bexelone controller (R368, R379 to R382). -/
  fwUp     : Bool := false
  fwKick   : Nat := 0
  fwRestarts : Nat := 0
  fwMinVersion : Nat := 0
  fwFailed : Bool := false
  keysUp   : Bool := false
  epCount  : Nat := 0
  /-- packets dropped because they failed authentication or the replay window (R379, R382). -/
  authFails : Nat := 0
  reports  : List Report := []
  machineChecks : List MachineCheck := []
  mcDropped : Nat := 0
  mcTaken : Nat := 0
  almSt    : BitVec 6 := 0
  fabricStopped : Bool := false
  deriving DecidableEq, Repr

/-- Faults of the model. -/
inductive Fault where
  /-- raised by every instruction with an encoding when the current party is no slot that runs a thread: the spec gives
  an instruction no effect there, and `step` never asks for it. Safe. -/
  | noThread
  deriving DecidableEq, Repr

/-- Refusals of the model. -/
inductive Refusal where
  /-- an instruction that has no meaning yet. Safe. -/
  | notModelled (mnemonic : String)
  deriving DecidableEq, Repr

/-- The device right after reset (R293, R296, R321): every field at the value the spec gives or, where it gives none,
at the value that log entry 1 names. -/
def State.reset : State := {}

end Sys2Proof.Machine
end

