-- ==== Sys2Proof/Machine/Memory.lean ====
section
/-! DEFINITION. Machine/Memory.lean: bit-field and byte-order helpers, the canonical byte store, the accessors of the
sparse tables, and the cache levels with what a release writes back and an acquire discards (R260 to R267). -/

namespace Sys2Proof.Machine

/-! ## Bits and bytes -/

/-- Field [lo + w - 1 : lo] of a number (R2). -/
def bitsAt (v lo w : Nat) : Nat := v / 2 ^ lo % 2 ^ w

/-- `v` with its field [lo + w - 1 : lo] replaced by the low bits of `x`. -/
def setBits (v lo w x : Nat) : Nat := v - bitsAt v lo w * 2 ^ lo + x % 2 ^ w * 2 ^ lo

/-- Field of a register word. -/
def fld (v : Word) (lo w : Nat) : Nat := bitsAt v.toNat lo w

/-- Register word with one field replaced. -/
def setFld (v : Word) (lo w x : Nat) : Word := BitVec.ofNat 64 (setBits v.toNat lo w x)

/-- Two's-complement reading of the low `w` bits of a number. -/
def toSigned (w v : Nat) : Int := if 0 < w ∧ 2 ^ (w - 1) ≤ v % 2 ^ w then (v % 2 ^ w : Nat) - (2 ^ w : Nat) else (v % 2 ^ w : Nat)

/-- The low `w` bits of an exact integer in infinite two's complement. -/
def modPow (x : Int) (w : Nat) : Nat := (x % (2 ^ w : Nat)).toNat

/-- A 64-bit word from an exact integer. -/
def wordOf (x : Int) : Word := BitVec.ofNat 64 (modPow x 64)

/-- Field [lo + w - 1 : lo] of a wide register, as a number. -/
def wideGet {n : Nat} (v : BitVec n) (lo w : Nat) : Nat := v.toNat / 2 ^ lo % 2 ^ w

/-- A wide register with one field replaced. -/
def wideSet {n : Nat} (v : BitVec n) (lo w x : Nat) : BitVec n :=
  (v &&& ~~~(BitVec.ofNat n (2 ^ w - 1) <<< lo)) ||| (BitVec.ofNat n (x % 2 ^ w) <<< lo)

/-- Little-endian value of a list of bytes (R2). -/
def leValue : List Byte → Nat
  | [] => 0
  | b :: r => b.toNat + 256 * leValue r

/-- The `n` little-endian bytes of a number (R2). -/
def leBytes : Nat → Nat → List Byte
  | 0, _ => []
  | n + 1, v => BitVec.ofNat 8 v :: leBytes n (v / 256)

/-! ## The byte store -/

/-- What an address reads as: an unlisted one reads 0 (log entry 4). -/
def memRead : List Host.Cell → Nat → Byte
  | [], _ => 0
  | (b, v) :: r, a => if b = a then v else memRead r a

/-- Writing one byte keeps the list's canonical form: addresses strictly rising, no byte equal to 0. -/
def memWrite : List Host.Cell → Nat → Byte → List Host.Cell
  | [], a, v => if v = 0 then [] else [(a, v)]
  | (b, w) :: r, a, v =>
    if a = b then (if v = 0 then r else (a, v) :: r)
    else if a < b then (if v = 0 then (b, w) :: r else (a, v) :: (b, w) :: r)
    else (b, w) :: memWrite r a v

/-- The canonical form: every listed address is above `lo`, addresses rise strictly, no byte is 0. -/
def memWfFrom : Nat → List Host.Cell → Bool
  | _, [] => true
  | lo, (a, v) :: r => decide (lo ≤ a) && v != 0 && memWfFrom (a + 1) r

def memWf (m : List Host.Cell) : Bool := memWfFrom 0 m

/-- Little-endian read of `n` bytes. -/
def memReadLE (m : List Host.Cell) (a : Nat) : Nat → Nat
  | 0 => 0
  | n + 1 => (memRead m a).toNat + 256 * memReadLE m (a + 1) n

/-- Little-endian write of `n` bytes. -/
def memWriteLE (m : List Host.Cell) (a : Nat) : Nat → Nat → List Host.Cell
  | 0, _ => m
  | n + 1, v => memWriteLE (memWrite m a (BitVec.ofNat 8 v)) (a + 1) n (v / 256)

/-- Write of the bytes of a mask: bit i of `mask` selects byte i of `v`. -/
def memWriteMask (m : List Host.Cell) (a : Nat) : Nat → (v mask : Nat) → List Host.Cell
  | 0, _, _ => m
  | n + 1, v, mask =>
    memWriteMask (if mask % 2 = 1 then memWrite m a (BitVec.ofNat 8 v) else m) (a + 1) n (v / 256) (mask / 2)

/-- Sorted insertion without repeats. -/
def insertNat (a : Nat) : List Nat → List Nat
  | [] => [a]
  | b :: r => if a = b then b :: r else if a < b then a :: b :: r else b :: insertNat a r

/-- Poison of `n` bytes as a mask, bit i for byte i. -/
def poisonRead (p : List Nat) (a n : Nat) : Nat :=
  (p.filter (fun x => a ≤ x && x < a + n)).foldl (fun acc x => acc ||| 2 ^ (x - a)) 0

/-- Poison of `n` bytes replaced where `mask` is set. -/
def poisonWrite (p : List Nat) (a n mask poison : Nat) : List Nat :=
  (List.range n).foldl
    (fun q i => if mask / 2 ^ i % 2 = 1 then
        (if poison / 2 ^ i % 2 = 1 then insertNat (a + i) q else q.filter (· ≠ a + i)) else q) p

/-! ## The tables of the state -/

def State.core (s : State) (n : Nat) : Core := s.cores.get n {}
def State.setCore (s : State) (n : Nat) (c : Core) : State := { s with cores := s.cores.set n c }
def State.pair (s : State) (n : Nat) : Pair := s.pairs.get n {}
def State.setPair (s : State) (n : Nat) (p : Pair) : State := { s with pairs := s.pairs.set n p }
def State.cluster (s : State) (n : Nat) : Cluster := s.clusters.get n {}
def State.setCluster (s : State) (n : Nat) (c : Cluster) : State := { s with clusters := s.clusters.set n c }
def State.tower (s : State) (n : Nat) : Tower := s.towers.get n {}
def State.setTower (s : State) (n : Nat) (t : Tower) : State := { s with towers := s.towers.set n t }
def State.die (s : State) (n : Nat) : Die := s.dies.get n {}
def State.setDie (s : State) (n : Nat) (d : Die) : State := { s with dies := s.dies.set n d }
def State.thread (s : State) (img : Nat) : Thread := s.threads.get img {}
def State.setThread (s : State) (img : Nat) (t : Thread) : State := { s with threads := s.threads.set img t }
def State.task (s : State) (n : Nat) : Task := s.tasks.get n {}
def State.setTask (s : State) (n : Nat) (t : Task) : State := { s with tasks := s.tasks.set n t }
def State.hostQueue (s : State) (n : Nat) : HostQueue := s.queues.get n {}
def State.setHostQueue (s : State) (n : Nat) (q : HostQueue) : State := { s with queues := s.queues.set n q }

def Core.slot (c : Core) (k : Nat) : Slot := c.slots.get k {}
def Core.setSlot (c : Core) (k : Nat) (x : Slot) : Core := { c with slots := c.slots.set k x }
def Core.chan (c : Core) (k : Nat) : Channel := c.chans.get k {}
def Core.setChan (c : Core) (k : Nat) (x : Channel) : Core := { c with chans := c.chans.set k x }
def State.slot (s : State) (n k : Nat) : Slot := (s.core n).slot k
def State.setSlot (s : State) (n k : Nat) (x : Slot) : State := s.setCore n ((s.core n).setSlot k x)
def State.modCore (s : State) (n : Nat) (f : Core → Core) : State := s.setCore n (f (s.core n))
def State.modSlot (s : State) (n k : Nat) (f : Slot → Slot) : State := s.setSlot n k (f (s.slot n k))
def State.modPair (s : State) (n : Nat) (f : Pair → Pair) : State := s.setPair n (f (s.pair n))
def State.modCluster (s : State) (n : Nat) (f : Cluster → Cluster) : State := s.setCluster n (f (s.cluster n))
def State.modTower (s : State) (n : Nat) (f : Tower → Tower) : State := s.setTower n (f (s.tower n))
def State.modDie (s : State) (n : Nat) (f : Die → Die) : State := s.setDie n (f (s.die n))
def State.modThread (s : State) (img : Nat) (f : Thread → Thread) : State := s.setThread img (f (s.thread img))
def State.modTask (s : State) (n : Nat) (f : Task → Task) : State := s.setTask n (f (s.task n))
def State.modQueue (s : State) (n : Nat) (f : HostQueue → HostQueue) : State := s.setHostQueue n (f (s.hostQueue n))

/-- The current party's core, slot and slot contents. -/
def State.me (s : State) : Slot := s.slot s.cur.1 s.cur.2
def State.myCore (s : State) : Core := s.core s.cur.1
def State.modMe (s : State) (f : Slot → Slot) : State := s.modSlot s.cur.1 s.cur.2 f
def State.modMyCore (s : State) (f : Core → Core) : State := s.modCore s.cur.1 f

/-! ## Identities (R14) -/

def twinOf (core : Nat) : Nat := if core % 2 = 0 then core + 1 else core - 1
def pairOf (core : Nat) : Nat := core / 2
def clusterOf (core : Nat) : Nat := core / 8
def towerOf (core : Nat) : Nat := core / 512
/-- Die number 2 × tower + level (R12). -/
def dieOf (core : Nat) : Nat := 2 * towerOf core + core % 2

/-- The narrowest scope that encloses two parties of one device (R262): codes of R33. -/
def enclosing (c1 s1 c2 s2 : Nat) : Nat :=
  if c1 = c2 ∧ s1 = s2 then 0 else if c1 = c2 then 1 else if pairOf c1 = pairOf c2 then 2
  else if clusterOf c1 = clusterOf c2 then 3 else if towerOf c1 = towerOf c2 then 4 else 5

/-! ## Lines -/

def lineBase (a : Nat) : Nat := a / 128 * 128
def findLine (ls : List Line) (a : Nat) : Option Line := ls.find? (fun l => l.addr = a)
def dropLine (ls : List Line) (a : Nat) : List Line := ls.filter (fun l => l.addr ≠ a)
/-- The line put at the front, the most recently used place. -/
def putLine (ls : List Line) (l : Line) : List Line := l :: dropLine ls l.addr

/-- Byte mask of the sectors in a sector mask (R18: 16-byte sectors). -/
def sectorBytes (m : Nat) : Nat := (List.range 8).foldl (fun acc i => if m / 2 ^ i % 2 = 1 then acc + 0xFFFF * 2 ^ (16 * i) else acc) 0

/-- Bit mask of a byte mask of 128 bytes. -/
def byteBits (m : Nat) : Nat := (List.range 128).foldl (fun acc i => if m / 2 ^ i % 2 = 1 then acc + 0xFF * 2 ^ (8 * i) else acc) 0

/-- `old` with the bytes of `mask` taken from `new`. -/
def mergeBytes (old new mask : Nat) : Nat := (old &&& ((2 ^ 1024 - 1) ^^^ byteBits mask)) ||| (new &&& byteBits mask)

/-- Byte mask of bytes `off` to `off + n - 1` of a line, and the sectors they lie in. -/
def spanMask (off n : Nat) : Nat := (2 ^ n - 1) * 2 ^ off % 2 ^ 128
def spanSectors (off n : Nat) : Nat :=
  (List.range 8).foldl (fun acc i => if off < 16 * (i + 1) ∧ 16 * i < off + n then acc + 2 ^ i else acc) 0

/-! ## Physical places (R340 to R342) -/

inductive Place where
  | home (a : Nat)
  | pool (a : Nat)
  | window (core off : Nat)
  | ctrl (off : Nat)
  | remote (dev off : Nat)
  | hole
  deriving DecidableEq, Repr

/-- The home address a spread address names (R341). -/
def spreadHome (a : Nat) : Nat :=
  let o := a - Config.spreadBase
  (o / 4096 % 1024) * 0x20000000 + (o / 0x400000 * 4096 + o % 4096)

/-- The device's own number and its V bit (R375). -/
def State.ctrlWord (s : State) (off : Nat) (reset : Word) : Word := s.ctrl.get off reset
def State.devId (s : State) : Nat := fld (s.ctrlWord 0x408690 0) 0 9
def State.devValid (s : State) : Bool := fld (s.ctrlWord 0x408690 0) 9 1 = 1

/-- Where a physical address lies. -/
def placeOf (s : State) (a : Nat) : Place :=
  if a < Config.spreadBase then .home a
  else if a < Config.windowBase then .home (spreadHome a)
  else if a < Config.windowBase + 1024 * Config.windowSize then
    .window ((a - Config.windowBase) / Config.windowSize) ((a - Config.windowBase) % Config.windowSize)
  else if Config.poolBase ≤ a ∧ a < Config.poolBase + 0x8000000000 then .pool a
  else if Config.ctrlBase ≤ a ∧ a < Config.ctrlBase + Config.ctrlSize then .ctrl (a - Config.ctrlBase)
  else if Config.remoteBase ≤ a ∧ a < 2 ^ 56 then
    if bitsAt a 49 6 ≠ 0 ∨ bitsAt a 40 9 = s.devId then .hole else .remote (bitsAt a 40 9) (a % 2 ^ 40)
  else .hole

/-- Scratchpad address of a core's offset. -/
def spadAddr (core off : Nat) : Nat := Config.windowBase + core * Config.windowSize + off

/-- The fused maps: the word that R383 gives for die 0, and every site enabled elsewhere (log entry 1). -/
def harvestReset (off : Nat) : Word := if off = 0x408600 then 0xFFFFFFFFFFDFFFFF else 0xFFFFFFFFFFFFFFFF

/-- A core site is enabled (R383). -/
def harvestBit (s : State) (core : Nat) : Bool :=
  let k := bitsAt core 3 6 * 4 + bitsAt core 1 2
  let off := 0x408600 + 32 * dieOf core + 8 * (k / 64)
  (s.ctrlWord off (harvestReset off)).getLsbD (k % 64)

/-- The home core of an address (R22): none outside the home and spread views. -/
def homeCore (s : State) (pa : Nat) : Option Nat :=
  match placeOf s pa with
  | .home a =>
    if pa < Config.windowBase then
      let n := a / 0x20000000
      some (if harvestBit s n then n else twinOf n)
    else none
  | _ => none

/-! ## Storage and the LLC -/

/-- A pool line's metadata word and chunk base (R350): control words of the tower. -/
def poolWord (s : State) (t i : Nat) : Word := s.ctrlWord (0x408100 + 0x40 * t + 8 * i) 0
def poolTower (a : Nat) : Nat := (a - Config.poolBase) / 0x4000000000
def poolLineNo (a : Nat) : Nat := (a - Config.poolBase) % 0x4000000000 / 128

/-- A read at the channel of a home address, through the slice that owns it (R350): value and poison mask. -/
def chanRead (s : State) (a n : Nat) : Nat × Nat :=
  match findLine s.llc (lineBase a) with
  | some l => (bitsAt l.data.toNat (8 * (a % 128)) (8 * n), bitsAt l.poison.toNat (a % 128) n)
  | none => (memReadLE s.mem a n, poisonRead s.memPoison a n)

/-- A write at the channel of a home address; a copy in the slice is kept equal. -/
def chanWrite (s : State) (a n v : Nat) : State :=
  let m := spanMask (a % 128) n
  let upd (l : Line) : Line :=
    if l.addr = lineBase a then
      { l with data := BitVec.ofNat 1024 (mergeBytes l.data.toNat (v % 2 ^ (8 * n) * 2 ^ (8 * (a % 128))) m),
               poison := l.poison &&& ~~~(BitVec.ofNat 128 m) }
    else l
  { s with
    mem := memWriteLE s.mem a n v
    memPoison := poisonWrite s.memPoison a n (2 ^ n - 1) 0
    llc := s.llc.map upd }

/-- The metadata entry of a pool line (R351). -/
def metaAddr (s : State) (a : Nat) : Nat := bitsAt (poolWord s (poolTower a) 0).toNat 12 44 * 4096 + 16 * poolLineNo a
def poolMeta (s : State) (a : Nat) : Nat := (chanRead s (metaAddr s a) 16).1

/-- Chunk indices of an entry, `NM1 + 1` of them when VALID. -/
def metaChunks (e : Nat) : List Nat :=
  if bitsAt e 18 1 = 1 then (List.range (bitsAt e 16 2 + 1)).map (fun i => bitsAt e (20 + 27 * i) 27) else []

/-- Expansion of a pool line: the i-th stored word goes to the i-th set bit of MASK (R351). -/
def expandWords (stored : Nat) : (mask i : Nat) → Nat → Nat
  | _, _, 0 => 0
  | mask, i, n + 1 =>
    if mask % 2 = 1 then stored % 2 ^ 64 * 2 ^ (64 * i) + expandWords (stored / 2 ^ 64) (mask / 2) (i + 1) n
    else expandWords stored (mask / 2) (i + 1) n

/-- Poison of an expanded line: a stored word that is poisoned poisons its 8 bytes (R356). -/
def expandPoison (stored : Nat) : (mask i : Nat) → Nat → Nat
  | _, _, 0 => 0
  | mask, i, n + 1 =>
    if mask % 2 = 1 then (if stored % 256 ≠ 0 then 255 * 2 ^ (8 * i) else 0) + expandPoison (stored / 256) (mask / 2) (i + 1) n
    else expandPoison stored (mask / 2) (i + 1) n

/-- What storage holds for a line: DRAM for the home view, the expanded chunks for pool space; with poison. -/
def storageRead (s : State) (a : Nat) : Nat × Nat :=
  if a < Config.windowBase then (memReadLE s.mem a 128, poisonRead s.memPoison a 128)
  else
    let e := poolMeta s a
    let base := bitsAt (poolWord s (poolTower a) 1).toNat 12 44 * 4096
    let cs := metaChunks e
    let stored := cs.foldr (fun k acc => (chanRead s (base + 32 * k) 32).1 + 2 ^ 256 * acc) 0
    let pois := cs.foldr (fun k acc => (chanRead s (base + 32 * k) 32).2 + 2 ^ 32 * acc) 0
    (expandWords stored (bitsAt e 0 16) 0 16,
      if (chanRead s (metaAddr s a) 16).2 ≠ 0 then 2 ^ 128 - 1 else expandPoison pois (bitsAt e 0 16) 0 16)

/-! ## Storage behind the LLC (R350 to R352, R356, R357) -/

/-- One free choice made: the counter of free values moves on. -/
def State.ticked (s : State) : State := { s with tick := s.tick + 1 }

/-- A stamped machine-check record (R356); without firmware a buffer of 64 holds those that it has not
taken up (R368). -/
def machineCheck (s : State) (kind level : Nat) (addr : Nat) (ctx : Option (BitVec 16)) (wher : Nat) : State :=
  let k := kind + level * 2 ^ 8 + (match ctx with | some c => c.toNat * 2 ^ 16 + 2 ^ 32 | none => 0)
  if s.fwUp = false ∧ 64 ≤ s.machineChecks.length - s.mcTaken then { s with mcDropped := s.mcDropped + 1 }
  else
    { s with mcTaken := if s.fwUp then s.machineChecks.length + 1 else s.mcTaken
             machineChecks := s.machineChecks ++ [{ time := s.time, addr := BitVec.ofNat 64 addr, kind := BitVec.ofNat 64 k,
                                                    where_ := BitVec.ofNat 64 wher }] }

/-- The cluster whose LLC slice is the home of a pool line (R350). -/
def poolCluster (a : Nat) : Nat := 64 * poolTower a + poolLineNo a % 64

/-- An uncorrectable pool metadata entry found when its line is read from storage is recorded (R356, log entry 77). -/
def metaCheck (s : State) (a : Nat) : State :=
  if Config.windowBase ≤ a ∧ findLine s.llc a = none ∧ (chanRead s (metaAddr s a) 16).2 ≠ 0 then machineCheck s 2 3 a none (poolCluster a)
  else s

/-- A word of the control space replaced. -/
def setCtrl (s : State) (off : Nat) (w : Word) : State := { s with ctrl := s.ctrl.set off w }

def poolFree (s : State) (t : Nat) : Nat := fld (poolWord s t 3) 0 27
def poolOff (t i : Nat) : Nat := 0x408100 + 0x40 * t + 8 * i
def poolBaseOf (s : State) (t i : Nat) : Nat := bitsAt (poolWord s t i).toNat 12 44 * 4096
def setPoolFree (s : State) (t k : Nat) : State := setCtrl s (poolOff t 3) (setFld (poolWord s t 3) 0 27 k)

/-- A chunk index pushed onto the tower's free list. -/
def pushChunk (s : State) (t k : Nat) : State :=
  let n := poolFree s t
  setPoolFree (chanWrite s (poolBaseOf s t 2 + 4 * n) 4 k) t (n + 1)

/-- A chunk index popped; none when the list is empty. -/
def popChunk (s : State) (t : Nat) : Option (State × Nat) :=
  let n := poolFree s t
  if n = 0 then none else some (setPoolFree s t (n - 1), (chanRead s (poolBaseOf s t 2 + 4 * (n - 1)) 4).1 % 2 ^ 27)

/-- Poison as DRAM keeps it: per 8-byte word. -/
def wordPoison (p : Nat) : Nat := (List.range 16).foldl (fun a i => if bitsAt p (8 * i) 8 ≠ 0 then a + 255 * 2 ^ (8 * i) else a) 0

/-- The words of a log entry at its place in memory. -/
def logWords (s : State) (pa : Nat) : List Nat → State
  | [] => s
  | w :: r => logWords (chanWrite s pa 8 w) (pa + 8) r

def logBytes (e : LogEntry) : List Nat :=
  [e.stamp.toNat, e.addr, e.id.toNat + e.ctx.toNat * 2 ^ 32, 0] ++ (List.range 16).map (fun j => wideGet e.old (64 * j) 64)

def setLogs (s : State) (l : Table (List LogEntry)) : State := { s with logs := l }

/-- One log entry at its place. -/
def logPut (s : State) (ch pa : Nat) (e : LogEntry) : State := setLogs (logWords s pa (logBytes e)) (s.logs.set ch (s.logs.get ch [] ++ [e]))

/-- The old content of a line appended to its channel's log (R357). -/
def logAppend (s : State) (ch a old : Nat) (i : Interval) : State :=
  let w := s.ctrlWord (0x1000 * ch + 0x20) 0
  let size := fld w 0 12 * 0x100000
  let es := s.logs.get ch []
  if size = 0 ∨ s.logOvf.contains ch then s
  else if size < 160 * (es.length + 1) then { s with logOvf := s.logOvf ++ [ch] }
  else
    logPut s ch (fld w 20 36 * 0x100000 + 160 * es.length)
      { stamp := s.time, addr := a, id := i.id, ctx := i.ctx, old := BitVec.ofNat 1024 old }

/-- The channel whose log takes a line: its home span's, or the first of the pool slice's cluster (log entry 3). -/
def logChannel (a : Nat) : Nat := if a < Config.windowBase then a / 0x20000000 else 8 * poolCluster a

/-- A line whose last writer's context has an open interval is logged before its storage is overwritten. -/
def logLine (s : State) (a : Nat) (ctx : Option (BitVec 16)) : State :=
  match ctx with
  | none => s
  | some c => match s.intervals.find? (fun i => i.ctx = c) with
    | some i => logAppend s (logChannel a) a (storageRead s a).1 i
    | none => s

/-- A line of the home view written to DRAM. -/
def storeHome (s : State) (a data poison : Nat) (ctx : Option (BitVec 16)) : State :=
  let s := logLine s a ctx
  { s with mem := memWriteLE s.mem a 128 data, memPoison := poisonWrite s.memPoison a 128 (2 ^ 128 - 1) (wordPoison poison) }

/-- The words of a line that are stored: the non-zero and the poisoned ones, or all of a hot line. -/
def storedWords (data poison : Nat) (hot : Bool) : List (Nat × Nat × Bool) :=
  ((List.range 16).map (fun i => (i, bitsAt data (64 * i) 64, decide (bitsAt poison (8 * i) 8 ≠ 0)))).filter (fun w => hot || w.2.1 ≠ 0 || w.2.2)

def popChunks (s : State) (t : Nat) : Nat → Option (State × List Nat)
  | 0 => some (s, [])
  | n + 1 => match popChunk s t with
    | none => none
    | some (s, k) => match popChunks s t n with
      | none => none
      | some (s, ks) => some (s, k :: ks)

/-- One chunk in place, with its poison. -/
def writeChunk (s : State) (t : Nat) (c : Nat × BitVec 256 × BitVec 32) : State :=
  let pa := poolBaseOf s t 1 + 32 * c.1
  let s := chanWrite s pa 32 c.2.1.toNat
  { s with memPoison := poisonWrite s.memPoison pa 32 (2 ^ 32 - 1) c.2.2.toNat }

def chunkBits (ws : List (Nat × Nat × Bool)) : BitVec 256 := BitVec.ofNat 256 (ws.foldr (fun w acc => w.2.1 + 2 ^ 64 * acc) 0)
def chunkPoison (ws : List (Nat × Nat × Bool)) : BitVec 32 :=
  BitVec.ofNat 32 (ws.foldr (fun w acc => (if w.2.2 then 255 else 0) + 256 * acc) 0)

/-- Chunks that a line takes when it is stored (R351). -/
def lineChunks (data poison : Nat) (hot : Bool) : Nat := max 1 (((storedWords data poison hot).length + 3) / 4)

/-- A line compressed and committed under its shadow record; none when chunks are short. The record may stay unretired for a
while, in the shadow area of its slice: free. -/
def poolStore (s : State) (a data poison : Nat) (hot : Bool) (ctx : Option (BitVec 16)) : Option State :=
  let t := poolTower a
  let ws := storedWords data poison hot
  let n := lineChunks data poison hot
  let held := metaChunks (poolMeta s a)
  let s := logLine s a ctx
  match popChunks s t (n - held.length) with
  | none => none
  | some (s, new) =>
    let cs := held.take n ++ new
    let s := (held.drop n).foldl (fun s k => pushChunk s t k) s
    let mask := ws.foldl (fun m w => m + 2 ^ w.1) 0
    let entry := mask + (n - 1) * 2 ^ 16 + 2 ^ 18 + (if hot then 2 ^ 19 else 0)
      + (List.range n).foldl (fun e i => e + cs.getD i 0 * 2 ^ (20 + 27 * i)) 0
    let part (i : Nat) := (ws.drop (4 * i)).take 4
    let record : Shadow := { line := a, entry := BitVec.ofNat 128 entry, chunks := (List.range n).map (fun i => (cs.getD i 0, chunkBits (part i), chunkPoison (part i))),
                             inPlace := true }
    let keep := Config.freeNat s.tick % 2 = 1
    let s := s.ticked.modTower t (fun x =>
      { x with shadows := x.shadows.filter (fun r => poolLineNo r.line % 64 ≠ poolLineNo a % 64) ++ if keep then [record] else [] })
    let s := record.chunks.foldl (fun s c => writeChunk s t c) s
    some (chanWrite s (metaAddr s a) 16 entry)

/-- A pool line leaves the LLC. -/
def dropPool (s : State) (a : Nat) : State :=
  ({ s with llc := dropLine s.llc a }).modTower (poolTower a)
    (fun t => { t with reserve := t.reserve.filter (· ≠ a), pinned := t.pinned.filter (· ≠ a) })

/-- The line as its LLC home holds it. -/
def homeLine (s : State) (a : Nat) : Line :=
  match findLine s.llc a with
  | some l => l
  | none =>
    let (d, p) := storageRead s a
    { addr := a, data := BitVec.ofNat 1024 d, valid := 0xFF, dirty := 0, poison := BitVec.ofNat 128 p, scope := 5,
      keep := false, owned := false, ctx := none }

/-- The cluster whose LLC slice holds a line (R16, R350). -/
def sliceOf (a : Nat) : Nat := if a < Config.windowBase then clusterOf (a / 0x20000000) else poolCluster a

/-- A set of an LLC slice: 64 MiB in 32,768 sets of 16 ways (R16, R354; log entry 77). -/
def llcSet (a : Nat) : Nat × Nat :=
  if a < Config.windowBase then (sliceOf a, a / 128 % 32768) else (sliceOf a, poolLineNo a / 64 % 32768)

/-- Ways of a set beside its reserve way. -/
def llcWays : Nat := 15

/-- The line stands in its set's reserve way, and the reserve way of a line's set is occupied. -/
def isReserved (s : State) (a : Nat) : Bool := decide (Config.windowBase ≤ a) && (s.tower (poolTower a)).reserve.contains a
def reserveTaken (s : State) (a : Nat) : Bool := (s.tower ((llcSet a).1 / 64)).reserve.any (fun b => llcSet b = llcSet a)

/-- The lines in the ordinary ways of a line's set. -/
def ordinaryLines (s : State) (a : Nat) : List Line := s.llc.filter (fun l => llcSet l.addr = llcSet a && !isReserved s l.addr)

def lineHot (s : State) (a : Nat) : Bool := (s.tower (poolTower a)).hot.any (fun h => h.1 = a)

/-- A pool line needs more chunks than the free list holds. -/
def chunksShort (s : State) (l : Line) : Bool :=
  decide (poolFree s (poolTower l.addr) < lineChunks l.data.toNat l.poison.toNat (lineHot s l.addr) - (metaChunks (poolMeta s l.addr)).length)

/-- The slice writes back reserved lines, and then pinned lines, oldest first (R354). -/
def poolTurn (s : State) (a : Nat) : Bool :=
  let mine (ls : List Nat) : List Nat := ls.filter (fun b => sliceOf b = sliceOf a)
  let t := s.tower (poolTower a)
  if t.reserve.contains a then (mine t.reserve).head? = some a
  else if t.pinned.contains a then (mine t.reserve).isEmpty && (mine t.pinned).head? = some a
  else true

/-- A line can leave the ordinary ways: a dirty pool line for its chunks, or for a free reserve way. -/
def mayLeave (s : State) (l : Line) : Bool :=
  decide (l.addr < Config.windowBase) || l.dirty = 0 || (poolTurn s l.addr && (!chunksShort s l || !reserveTaken s l.addr))

/-- HEAD of an inbox entry (R304). -/
def inboxHead (kind slot name handle : Nat) : Word := BitVec.ofNat 64 (kind + slot * 2 ^ 8 + name * 2 ^ 11 + handle * 2 ^ 32)

/-- An entry sent to a core's inbox by a party; a producer that finds it full waits, in order (R56, R303). -/
def inboxSendBy (s : State) (n : Nat) (by_ : Option (Nat × Nat)) (head data aux : Word) : State :=
  let e : InboxEntry := { head := head, data := data, aux := aux, time := s.time }
  s.modCore n (fun c =>
    if c.inbox.length < 32 ∧ c.inboxWait = [] then { c with inbox := c.inbox ++ [e] } else { c with inboxWait := c.inboxWait ++ [(e, by_)] })

/-- An entry of a unit that waits for nothing after it. -/
def inboxSend (s : State) (n : Nat) (head data aux : Word) : State := inboxSendBy s n none head data aux

/-- Pool pressure: the system slot of IRQCORE is told once (R354). -/
def poolPress (s : State) (t a : Nat) : State :=
  let w := poolWord s t 3
  if fld w 50 1 = 1 then s
  else
    inboxSend (setCtrl s (poolOff t 3) (setFld w 50 1 1)) (fld w 52 10) (inboxHead 0x23 0 0 0) (BitVec.ofNat 64 a) (BitVec.ofNat 64 (fld w 0 27))

/-- A dirty pool line that finds no chunks moves into its set's reserve way, or is pinned where it is (R354). -/
def poolKeep (s : State) (a : Nat) : State :=
  let t := s.tower (poolTower a)
  if t.reserve.contains a then s
  else if reserveTaken s a then
    (if t.pinned.contains a then s else s.modTower (poolTower a) (fun t => { t with pinned := t.pinned ++ [a] }))
  else poolPress (s.modTower (poolTower a) (fun t => { t with reserve := t.reserve ++ [a], pinned := t.pinned.filter (· ≠ a) })) (poolTower a) a

/-- A line leaves the ordinary ways of the LLC (R352, R354). -/
def llcEvict (s : State) (l : Line) : State :=
  if l.addr < Config.windowBase then
    let s := if l.dirty = 0 then s else storeHome s l.addr l.data.toNat l.poison.toNat l.ctx
    { s with llc := dropLine s.llc l.addr }
  else if l.dirty = 0 then dropPool s l.addr
  else match poolStore s l.addr l.data.toNat l.poison.toNat (lineHot s l.addr) l.ctx with
    | some s => dropPool s l.addr
    | none => poolKeep s l.addr

/-- Lines of one die's half of an L2 slice of 4 MiB (R16). -/
def l2Lines : Nat := 16384

/-- Room in the set of a line that comes in: a full set gives up a line that can leave, freely chosen (log entry 3). -/
def llcRoom (s : State) (a : Nat) : State :=
  let mine := ordinaryLines s a
  if (findLine s.llc a).isSome ∨ mine.length < llcWays then s
  else
    let may := mine.filter (mayLeave s)
    match may[Config.freeNat s.tick % may.length]? with
    | some l => llcEvict s.ticked l
    | none => s

/-- A fill would wait: the line is not in the slice, and every way of its set is pinned (R354). -/
def llcPinned (s : State) (a : Nat) : Bool :=
  (findLine s.llc a).isNone && decide (llcWays ≤ (ordinaryLines s a).length) && !(ordinaryLines s a).any (mayLeave s)

/-- While the reserve way of its set is occupied and fewer than 4 chunks are free, the reserve is full for a pool line. -/
def reserveFull (s : State) (a : Nat) : Bool :=
  decide (Config.windowBase ≤ a) && reserveTaken s a && decide (poolFree s (poolTower a) < 4)

/-- A line that is written at its home stands there dirty; a pool line that comes while the reserve is full is pinned. A line of
the home view whose set has no way goes to its storage. -/
def homePut (s : State) (l : Line) : State :=
  if l.addr < Config.windowBase ∧ llcPinned s l.addr = true then storeHome s l.addr l.data.toNat l.poison.toNat l.ctx
  else
    let s := { s with llc := putLine s.llc l }
    if reserveFull s l.addr then poolKeep s l.addr else s

/-- A write performed at the home (R261): the bytes of `mask`, with poison and the writer's context (R357). -/
def homeWrite (s : State) (a data mask poison : Nat) (ctx : Option (BitVec 16)) : State :=
  let l := homeLine s a
  let l' := { l with data := BitVec.ofNat 1024 (mergeBytes l.data.toNat data mask), dirty := 0xFF,
                     poison := BitVec.ofNat 128 ((l.poison.toNat &&& ((2 ^ 128 - 1) ^^^ mask)) ||| (poison &&& mask)), ctx := ctx }
  homePut (llcRoom (metaCheck s a) a) l'

/-! ## L2 slices -/

/-- A line replaced where it stands, without a use of it. -/
def swapLine (ls : List Line) (l : Line) : List Line := ls.map (fun x => if x.addr = l.addr then l else x)

/-- Write-back of a cluster's dirty L2 line to its home; the record becomes DEVICE (R264). -/
def l2ToHome (s : State) (cl a : Nat) : State :=
  let c := s.cluster cl
  match findLine c.l2 a with
  | none => s
  | some l =>
    let s := if l.dirty = 0 then s else homeWrite s a l.data.toNat (sectorBytes l.dirty.toNat) l.poison.toNat l.ctx
    s.modCluster cl (fun c => { c with l2 := swapLine c.l2 { l with dirty := 0, scope := 5 } })

/-- No traffic crosses the join of the towers: no module is up, or a brim die's logic is reset or its modules retrain (R24, R378,
R385). -/
def joinDown (s : State) : Bool :=
  let away (d : Nat) : Bool := (s.die d).phase == .reset || (s.die d).phase == .retrain
  s.ucieUp = 0 || away 0 || away 2

/-- What cluster `cl` sends to the home of a line is held: at the join, or until the line's set has a way. -/
def homeBlocked (s : State) (cl a : Nat) : Bool := (joinDown s && decide (sliceOf a / 64 ≠ cl / 64)) || llcPinned s a

/-- A die's half of an L2 slice is out of service: from the write-back of a warm reset until the die is brought up (R385). -/
def halfAway (s : State) (d : Nat) : Bool :=
  match (s.die d).phase with
  | .writeback | .reset | .retrain | .readmit => true
  | _ => (s.die d).failed && (s.die d).zone = 2

/-- A line bypasses its cluster's L2 slice while the half that it maps to is out of service. -/
def l2Bypass (s : State) (cl a : Nat) : Bool :=
  (halfAway s (2 * (cl / 64)) && !Config.l2Crown a) || (halfAway s (2 * (cl / 64) + 1) && Config.l2Crown a)

/-- Room in an L2 slice for a line that comes in: a full half gives up a line, freely chosen among those whose home can take it
(log entry 3). -/
def l2Room (s : State) (cl a : Nat) : State :=
  let ls := (s.cluster cl).l2
  if (findLine ls a).isSome ∨ ls.length < l2Lines then s
  else
    let half := ls.filter (fun l => Config.l2Crown l.addr = Config.l2Crown a)
    if half.length < l2Lines then s
    else
      let free := half.filter (fun l => l.dirty = 0 || !homeBlocked s cl l.addr)
      let may := if free.isEmpty then half else free
      match may[Config.freeNat s.tick % may.length]? with
      | some l => (l2ToHome s.ticked cl l.addr).modCluster cl (fun c => { c with l2 := dropLine c.l2 l.addr })
      | none => s

/-- Recall of every owned copy of a line but that of cluster `but` (R266): written back and dropped. -/
def recallOwned (s : State) (a : Nat) (but : Option Nat) : State :=
  ((s.clusters.map (·.1)).filter (fun k => some k ≠ but)).foldl
    (fun s k => match findLine (s.cluster k).l2 a with
      | some l => if l.owned then (l2ToHome s k a).modCluster k (fun c => { c with l2 := dropLine c.l2 a }) else s
      | none => s) s

/-- The line in a cluster's L2 slice, filled from its home if absent; a line that bypasses the slice is not placed. -/
def l2Fetch (s : State) (cl a : Nat) : State × Line :=
  match findLine (s.cluster cl).l2 a with
  | some l => (s, l)
  | none =>
    let s := metaCheck (recallOwned s a (some cl)) a
    let away := l2Bypass s cl a
    let s := if away then s else l2Room s cl a
    let l := { homeLine s a with dirty := 0, scope := 5, keep := false, owned := false }
    (if away then s else s.modCluster cl (fun c => { c with l2 := putLine c.l2 l }), l)

/-- A copy that the slice does not own is dropped: another party may have written the line since (R261). -/
def l2Forget (s : State) (cl a : Nat) : State :=
  s.modCluster cl (fun c => { c with l2 := c.l2.filter (fun l => l.owned || l.addr ≠ a) })

/-- The line as the slice that owns it or comes to own it holds it: as the home has it (R261). -/
def l2Take (s : State) (cl a : Nat) : State × Line := l2Fetch (l2Forget (recallOwned s a (some cl)) cl a) cl a

/-- A write into a cluster's L2 slice, which takes ownership of the line (R261, R267); of a line that bypasses the slice, a write
at its home. -/
def l2Write (s : State) (cl a data mask poison scope : Nat) (ctx : Option (BitVec 16)) : State :=
  if l2Bypass s cl a && (findLine (s.cluster cl).l2 a).isNone then homeWrite (recallOwned s a none) a data mask poison ctx else
  let (s, l) := l2Take s cl a
  let sec := (List.range 8).foldl (fun acc i => if mask / 2 ^ (16 * i) % 2 ^ 16 ≠ 0 then acc ||| 2 ^ i else acc) 0
  let l' := { l with data := BitVec.ofNat 1024 (mergeBytes l.data.toNat data mask), dirty := l.dirty ||| BitVec.ofNat 8 sec,
                     poison := BitVec.ofNat 128 ((l.poison.toNat &&& ((2 ^ 128 - 1) ^^^ mask)) ||| (poison &&& mask)),
                     scope := scope, owned := true, ctx := ctx }
  s.modCluster cl (fun c => { c with l2 := putLine c.l2 l' })

/-! ## L1 caches -/

/-- Write-back of the dirty sectors of a core's L1 line into its cluster's L2 slice (R264, R267): whole sectors. -/
def l1ToL2 (s : State) (n a : Nat) : State :=
  match findLine (s.core n).l1 a with
  | none => s
  | some l =>
    if l.dirty = 0 then s
    else
      let s := l2Write s (clusterOf n) a l.data.toNat (sectorBytes l.dirty.toNat) l.poison.toNat 3 l.ctx
      s.modCore n (fun c => { c with l1 := swapLine c.l1 { l with dirty := 0, scope := 3 } })

def l1Drop (s : State) (n a : Nat) : State := s.modCore n (fun c => { c with l1 := dropLine c.l1 a })

/-- Set of a line in an L1 of 128 sets (R18). -/
def l1Set (a : Nat) : Nat := a / 128 % 128

/-- The line that leaves a full set of 8 ways (R189): a line without keep, freely chosen, before every line with keep;
when all have keep, the least recently used. -/
def l1Victim (tick : Nat) (ls : List Line) (a : Nat) : Option Nat :=
  let inSet := ls.filter (fun l => l1Set l.addr = l1Set a && l.addr ≠ a)
  if inSet.length < 8 then none
  else
    let plain := inSet.filter (fun l => !l.keep)
    if plain.isEmpty then (inSet.getLast?).map (·.addr)
    else (plain[Config.freeNat tick % plain.length]?).map (·.addr)

/-- A line placed in a core's L1, evicting one when its set is full. -/
def l1Place (s : State) (n : Nat) (l : Line) : State :=
  let s := match l1Victim s.tick (s.core n).l1 l.addr with
    | none => s
    | some v => { l1Drop (l1ToL2 s n v) n v with tick := s.tick + 1 }
  s.modCore n (fun c => { c with l1 := putLine c.l1 l })

/-- The sectors of `need` made valid in a core's L1 line. -/
def l1Fill (s : State) (n a need : Nat) (keep : Bool) : State × Line :=
  let old := findLine (s.core n).l1 a
  let valid := match old with | some l => l.valid.toNat | none => 0
  if need &&& valid = need then
    match old with
    | some l =>
      let l := { l with keep := l.keep || keep }
      (s.modCore n (fun c => { c with l1 := putLine c.l1 l }), l)
    | none => (s, { addr := a, data := 0, valid := 0, dirty := 0, poison := 0, scope := 1, keep := keep, owned := false, ctx := none })
  else
    let (s, l2) := l2Fetch s (clusterOf n) a
    let take := sectorBytes (need &&& (0xFF ^^^ valid))
    let base : Line := match old with
      | some l => l
      | none => { addr := a, data := 0, valid := 0, dirty := 0, poison := 0, scope := 5, keep := keep, owned := false, ctx := none }
    let l := { base with data := BitVec.ofNat 1024 (mergeBytes base.data.toNat l2.data.toNat take),
                         valid := base.valid ||| BitVec.ofNat 8 need,
                         poison := BitVec.ofNat 128 ((base.poison.toNat &&& ((2 ^ 128 - 1) ^^^ take)) ||| (l2.poison.toNat &&& take)),
                         keep := base.keep || keep, ctx := if base.dirty = 0 then l2.ctx else base.ctx }
    (l1Place s n l, l)

/-- Load of `size` bytes at offset `off` of a cacheable line under a policy (R189): value and poison of the bytes. -/
def cacheLoad (s : State) (n a off size pol : Nat) : State × Nat × Nat :=
  let cl := clusterOf n
  let pick (l : Line) : Nat × Nat := (bitsAt l.data.toNat (8 * off) (8 * size), bitsAt l.poison.toNat off size)
  if pol = 3 then
    let s := recallOwned (l1ToL2 s n a) a none
    let s := metaCheck ((l1Drop s n a).modCluster cl (fun c => { c with l2 := dropLine c.l2 a })) a
    (s, pick (homeLine s a))
  else
    let need := spanSectors off size
    let hit := match findLine (s.core n).l1 a with | some l => need &&& l.valid.toNat = need | none => false
    if pol = 1 ∧ hit = false then
      let s := l1ToL2 s n a
      let (s, l) := l2Fetch s cl a
      (s, pick l)
    else
      let (s, l) := l1Fill s n a need (pol = 2)
      (s, pick l)

/-- Store of `size` bytes (R189, R190): `scope` is the record of the line, CORE for a plain store. A full write clears
poison for its bytes only. -/
def cacheStore (s : State) (n a off size v pol : Nat) (poison : Nat) (ctx : BitVec 16) : State :=
  let cl := clusterOf n
  let mask := spanMask off size
  let data := v % 2 ^ (8 * size) * 2 ^ (8 * off)
  let p := poison * 2 ^ off
  if pol = 3 then
    let s := recallOwned (l1ToL2 s n a) a none
    let s := (l1Drop s n a).modCluster cl (fun c => { c with l2 := dropLine c.l2 a })
    homeWrite s a data mask p (some ctx)
  else if pol = 1 then
    let s := l1ToL2 s n a
    let s := l2Write s cl a data mask p 3 (some ctx)
    match findLine (s.core n).l1 a with
    | none => s
    | some l =>
      let l := { l with data := BitVec.ofNat 1024 (mergeBytes l.data.toNat data mask),
                        poison := BitVec.ofNat 128 ((l.poison.toNat &&& ((2 ^ 128 - 1) ^^^ mask)) ||| (p &&& mask)), ctx := some ctx }
      s.modCore n (fun c => { c with l1 := putLine c.l1 l })
  else
    let need := spanSectors off size
    let (s, l) := l1Fill s n a need (pol = 2)
    let l := { l with data := BitVec.ofNat 1024 (mergeBytes l.data.toNat data mask), dirty := l.dirty ||| BitVec.ofNat 8 need,
                      poison := BitVec.ofNat 128 ((l.poison.toNat &&& ((2 ^ 128 - 1) ^^^ mask)) ||| (p &&& mask)),
                      scope := 1, ctx := some ctx }
    s.modCore n (fun c => { c with l1 := putLine c.l1 l })

/-- The line brought to the level that an operation at the home needs: the core's dirty sectors written back, its L1
copy dropped, owned copies recalled, the cluster's non-owned copy dropped (R189, R197, R201). -/
def toHome (s : State) (n a : Nat) : State :=
  let s := recallOwned (l1ToL2 s n a) a none
  (l1Drop s n a).modCluster (clusterOf n) (fun c => { c with l2 := dropLine c.l2 a })

/-! ## Release and acquire (R264, R265) -/

/-- Write-back of every L1 line of a core recorded CORE into the L2 slice. -/
def releaseL1 (s : State) (n : Nat) : State :=
  ((s.core n).l1.map (·.addr)).foldl (fun s a => l1ToL2 s n a) s

/-- Write-back of every L2 line of a cluster recorded PAIR or CLUSTER to its home. -/
def releaseL2 (s : State) (cl : Nat) : State :=
  (((s.cluster cl).l2.filter (fun l => l.scope < 4)).map (·.addr)).foldl (fun s a => l2ToHome s cl a) s

/-- Records of a core's L1 lines and of its cluster's L2 lines that are narrower than a scope become that scope. -/
def widenRecords (s : State) (n sc : Nat) : State :=
  let widen (ls : List Line) : List Line := ls.map (fun l => { l with scope := max l.scope sc })
  (s.modCore n (fun c => { c with l1 := widen c.l1 })).modCluster (clusterOf n) (fun c => { c with l2 := widen c.l2 })

/-- The work of a release at scope `sc` by core `n` on this device's caches. The stores to other devices are awaited before
it (`putsOut`, R276). -/
def release (s : State) (n sc : Nat) : State :=
  if sc ≤ 1 then s
  else
    let s := releaseL1 s n
    if sc ≤ 3 then s else widenRecords (releaseL2 s (clusterOf n)) n (if sc ≤ 5 then 5 else 6)

/-- A clean sector discarded; dirty sectors and the bytes filled beside them stay (R265). -/
def discardClean (l : Line) : Line := { l with valid := l.valid &&& l.dirty }

/-- The work of an acquire at scope `sc` by core `n`. -/
def acquire (s : State) (n sc : Nat) : State :=
  if sc ≤ 1 then s
  else
    let s := s.modCore n (fun c => { c with l1 := (c.l1.map discardClean).filter (fun l => l.valid ≠ 0) })
    if sc ≤ 3 then s
    else s.modCluster (clusterOf n) (fun c => { c with l2 := c.l2.filter (fun l => l.owned) })

/-! ## Coherent accesses of engines, walkers and objects at the home -/

/-- Little-endian read of `n` bytes at home or pool addresses, line by line is not needed: `n` bytes within a line. -/
def homeReadLE (s : State) (a n : Nat) : Nat × Nat :=
  let l := homeLine s (lineBase a)
  (bitsAt l.data.toNat (8 * (a % 128)) (8 * n), bitsAt l.poison.toNat (a % 128) n)

def homeWriteLE (s : State) (a n v : Nat) (poison : Nat) (ctx : Option (BitVec 16)) : State :=
  let off := a % 128
  homeWrite s (lineBase a) (v % 2 ^ (8 * n) * 2 ^ (8 * off)) (spanMask off n) (poison * 2 ^ off) ctx

end Sys2Proof.Machine
end

