-- ==== Sys2Proof/Machine/Operands.lean ====
section
/-! DEFINITION. Machine/Operands.lean: names of the register map (R58 to R67): packing, places, values, and fitting to
the declared width (R64). -/

namespace Sys2Proof.Machine

/-! ## Codes -/

def Kind.code : Kind → Nat
  | .unsigned => 0 | .signed => 1 | .flag => 2 | .float32 => 3 | .bfloat16 => 4 | .float16 => 5 | .float64 => 6

def Kind.ofCode : Nat → Option Kind
  | 0 => some .unsigned | 1 => some .signed | 2 => some .flag | 3 => some .float32 | 4 => some .bfloat16
  | 5 => some .float16 | 6 => some .float64 | _ => none

def Mode.code : Mode → Nat
  | .wrap => 0 | .sat => 1 | .trap => 2

def Mode.ofCode : Nat → Option Mode
  | 0 => some .wrap | 1 => some .sat | 2 => some .trap | _ => none

def Region.code : Region → Nat
  | .priv => 0 | .shared => 1 | .pair => 2

def Region.ofCode : Nat → Option Region
  | 0 => some .priv | 1 => some .shared | 2 => some .pair | _ => none

/-- Rows of a region (R62). -/
def Region.rows : Region → Nat
  | .priv => 32 | .shared => 16 | .pair => 8

def Kind.isFloat : Kind → Bool
  | .unsigned | .signed | .flag => false
  | .float32 | .bfloat16 | .float16 | .float64 => true

def Kind.isInt (k : Kind) : Bool := !k.isFloat
def Kind.isF32 (k : Kind) : Bool := k == .float32
def Kind.any (_ : Kind) : Bool := true

/-- The width a kind fixes (R58). -/
def Kind.fixedWidth : Kind → Option Nat
  | .unsigned | .signed => none
  | .flag => some 1 | .float32 => some 32 | .bfloat16 => some 16 | .float16 => some 16 | .float64 => some 64

def Cause.code : Cause → Nat
  | .illegal => 0x01 | .priv => 0x02 | .width => 0x03 | .divzero => 0x04 | .slipshort => 0x05 | .misalign => 0x06
  | .pfload => 0x07 | .pfstore => 0x08 | .pffetch => 0x09 | .protect => 0x0A | .poison => 0x0B | .heirless => 0x0C
  | .licence => 0x0D | .pool => 0x0E | .brk => 0x0F | .syscall => 0x10 | .kind => 0x11 | .maperr => 0x12
  | .borrow => 0x13 | .mismatch => 0x14 | .float => 0x15 | .preempt => 0x16 | .killed => 0x17 | .buserr => 0x18
  | .partial_ => 0x19

def Wait.code : Wait → Nat
  | .none => 0 | .recv => 1 | .send => 2 | .waitany => 3 | .waitall => 4 | .waitb => 5 | .waitch => 6 | .awaitp => 7
  | .licw => 8 | .callat => 9

/-! ## Packing (R62) -/

/-- The lowest row with room for `w` bits: its bit offset in the region, and the new fills. -/
def placeIn : List Nat → (k w : Nat) → Option (Nat × List Nat)
  | [], _, _ => none
  | f :: r, k, w =>
    if f + w ≤ 128 then some (128 * k + f, (f + w) :: r)
    else match placeIn r (k + 1) w with
      | none => none
      | some (o, r') => some (o, f :: r')

/-- The bit offsets of a region's names in declaration order, or the position of the first that finds no row. -/
def packFrom : (fills widths : List Nat) → (pos : Nat) → Except Nat (List Nat)
  | _, [], _ => .ok []
  | fills, w :: ws, pos =>
    match placeIn fills 0 w with
    | none => .error pos
    | some (o, fills') => match packFrom fills' ws (pos + 1) with
      | .ok os => .ok (o :: os)
      | .error e => .error e

def pack (rows : Nat) (widths : List Nat) : Except Nat (List Nat) := packFrom (List.replicate rows 0) widths 0

/-- Offset of the `j`-th name of a region whose current widths are given. -/
def packOffset (rows : Nat) (widths : List Nat) (j : Nat) : Nat :=
  match pack rows widths with
  | .ok os => os.getD j 0
  | .error _ => 0

/-! ## Name lookup -/

/-- A name as an instruction meets it: current width, kind, current mode, region, bit offset in its region. -/
structure Info where
  width  : Nat
  kind   : Kind
  mode   : Mode
  region : Region
  off    : Nat
  deriving DecidableEq, Repr

/-- Names of one region of a map, in declaration order. -/
def regionNames (m : List NameD) (g : Region) : List NameD := m.filter (fun n => n.region = g)

/-- Position of name `n` among the names of its region. -/
def regionPos (m : List NameD) (n : Nat) (g : Region) : Nat := (regionNames (m.take n) g).length

/-- The names of a region with the current widths and modes in force for a core. -/
def currentNames (s : State) (core : Nat) (m : List NameD) : Region → List NameD
  | .priv => regionNames m .priv
  | .shared => (s.core core).sig
  | .pair => (s.pair (pairOf core)).sig

/-- Rows that a slot's map may use in a region (R62, R68). -/
def rowsFor (slot : Nat) (g : Region) : Nat := if slot = 7 ∧ g = .priv then 16 else g.rows

/-- Name `n` of a slot's map; none for ZERO and for an undeclared index. -/
def nameInfo (s : State) (core slot n : Nat) : Option Info :=
  let m := (s.slot core slot).map
  match m[n]? with
  | none => none
  | some d =>
    let cur := currentNames s core m d.region
    let j := regionPos m n d.region
    match cur[j]? with
    | none => none
    | some c => some { width := c.width, kind := c.kind, mode := c.mode, region := d.region,
                       off := packOffset (rowsFor slot d.region) (cur.map (·.width)) j }

/-- ZERO (R58). -/
def zeroInfo : Info := { width := 64, kind := .unsigned, mode := .wrap, region := .priv, off := 0 }

/-- A declared name or ZERO. -/
def infoOf (s : State) (core slot n : Nat) : Option Info := if n = 63 then some zeroInfo else nameInfo s core slot n

/-- The bits of a region register. -/
def regionBits (s : State) (core slot : Nat) (g : Region) (lo w : Nat) : Nat :=
  match g with
  | .priv => wideGet (s.slot core slot).rows lo w
  | .shared => wideGet (s.core core).sharedRows lo w
  | .pair => wideGet (s.pair (pairOf core)).rows lo w

/-- The pattern of a name's bits (R118); of ZERO, zero. -/
def nameBits (s : State) (core slot n : Nat) : Nat :=
  if n = 63 then 0
  else match nameInfo s core slot n with
    | none => 0
    | some i => regionBits s core slot i.region i.off i.width

/-- The bits of a name written at its place; a private row becomes dirty (R70). -/
def writeBits (s : State) (core slot n v : Nat) : State :=
  if n = 63 then s
  else match nameInfo s core slot n with
    | none => s
    | some i => match i.region with
      | .priv => s.modSlot core slot (fun x => { x with rows := wideSet x.rows i.off i.width v,
                                                        dirty := x.dirty ||| BitVec.ofNat 32 (2 ^ (i.off / 128)) })
      | .shared => s.modCore core (fun c => { c with sharedRows := wideSet c.sharedRows i.off i.width v })
      | .pair => s.modPair (pairOf core) (fun p => { p with rows := wideSet p.rows i.off i.width v })

/-- Row `k` of a slot's private region, and its replacement. -/
def rowGet (x : Slot) (k : Nat) : BitVec 128 := BitVec.ofNat 128 (wideGet x.rows (128 * k) 128)
def rowSet (x : Slot) (k : Nat) (v : BitVec 128) : Slot :=
  { x with rows := wideSet x.rows (128 * k) 128 v.toNat, dirty := x.dirty ||| BitVec.ofNat 32 (2 ^ k) }

/-- The row that a private name starts (R171): its place begins at bit 0 of the row. -/
def startsRow (s : State) (core slot n : Nat) : Option Nat :=
  match nameInfo s core slot n with
  | some i => if i.region = .priv ∧ i.off % 128 = 0 then some (i.off / 128) else none
  | none => none

/-! ## Values and fitting (R64, R118) -/

/-- A `w`-bit pattern read in a kind: the exact integer of an integer kind, the encoding of a float kind. -/
def readPat (k : Kind) (w p : Nat) : Int := if k = .signed then toSigned w p else (p % 2 ^ w : Nat)

/-- The range of an integer kind at a width. -/
def rangeLo (k : Kind) (w : Nat) : Int := if k = .signed then -(2 ^ (w - 1) : Nat) else 0
def rangeHi (k : Kind) (w : Nat) : Int := if k = .signed then (2 ^ (w - 1) : Nat) - 1 else (2 ^ w : Nat) - 1

def representable (k : Kind) (w : Nat) (x : Int) : Bool := decide (rangeLo k w ≤ x) && decide (x ≤ rangeHi k w)

/-- fit(x, n) for integer kinds (R64): none where the mode is trap and the value does not fit. -/
def fitInt (k : Kind) (w : Nat) (m : Mode) (x : Int) : Option Int :=
  if representable k w x then some x
  else match m with
    | .wrap => some (readPat k w (modPow x w))
    | .sat => some (if x < rangeLo k w then rangeLo k w else rangeHi k w)
    | .trap => none

/-- TRVAL of cause WIDTH (R64, R115). -/
def widthVal (x : Int) (n : Nat) : Word := BitVec.ofNat 64 (modPow x 58 * 64 + n % 64)

/-- Container of a width, in bytes (R186). -/
def containerOf (w : Nat) : Nat := if w ≤ 8 then 1 else if w ≤ 16 then 2 else if w ≤ 32 then 4 else 8

/-- A value as a window read extends it to 64 bits (R79). -/
def extend64 (k : Kind) (w bits : Nat) : Word := wordOf (readPat k w bits)

end Sys2Proof.Machine
end

