-- ==== Sys2Proof/Machine/Access.lean ====
section
/-! DEFINITION. Machine/Access.lean: coherent accesses by physical address, the walk of the tables (R343 to R345), the TLBs
(R346, R347), the rights, and the cacheable accesses of a thread. -/

namespace Sys2Proof.Machine

/-! ## Physical accesses at the home -/

/-- The address under which caches and storage key a byte: the home address for both views (R341). -/
def canonPa (s : State) (pa : Nat) : Nat := match placeOf s pa with | .home a => a | _ => pa

/-- A line as a coherent reader finds it: an owned L2 copy, else the LLC home (R266). -/
def coherentLine (s : State) (a : Nat) : Line :=
  match s.clusters.findSome? (fun c => (findLine c.2.l2 a).filter (·.owned)) with
  | some l => l
  | none => homeLine s a

/-- Little-endian value and poison mask of `n` bytes within one line, read coherently at their home or in a
scratchpad; other places read 0. -/
def physRead (s : State) (pa n : Nat) : Nat × Nat :=
  match placeOf s pa with
  | .home a | .pool a =>
    let l := coherentLine s (lineBase a)
    (bitsAt l.data.toNat (8 * (a % 128)) (8 * n), bitsAt l.poison.toNat (a % 128) n)
  | .window _ off => if off + n ≤ 0x200000 then (memReadLE s.mem pa n, poisonRead s.memPoison pa n) else (0, 0)
  | _ => (0, 0)

/-- Write of `n` bytes within one line at their home, or in a scratchpad. -/
def physWrite (s : State) (pa n v poison : Nat) (ctx : Option (BitVec 16)) : State :=
  match placeOf s pa with
  | .home a | .pool a => homeWriteLE (recallOwned s (lineBase a) none) a n v poison ctx
  | .window _ off =>
    if off + n ≤ 0x200000 then
      { s with mem := memWriteLE s.mem pa n v, memPoison := poisonWrite s.memPoison pa n (2 ^ n - 1) poison }
    else s
  | _ => s

/-- `k` consecutive 8-byte words by physical address. -/
def physWords (s : State) (pa : Nat) : Nat → List Word
  | 0 => []
  | k + 1 => BitVec.ofNat 64 (physRead s pa 8).1 :: physWords s (pa + 8) k

def physWriteWords (s : State) (pa : Nat) (ctx : Option (BitVec 16)) : List Word → State
  | [] => s
  | w :: r => physWriteWords (physWrite s pa 8 w.toNat 0 ctx) (pa + 8) ctx r

/-! ## What is held on its way (R24, R354, R378, R385) -/

/-- The tower whose channel or core an address reaches. -/
def placeTower (p : Place) : Option Nat :=
  match p with
  | .home a | .pool a => some (sliceOf a / 64)
  | .window n _ => some (towerOf n)
  | _ => none

/-- An owned copy of a line would be recalled across the join. -/
def ownerApart (s : State) (a : Nat) : Bool :=
  s.clusters.any (fun c => decide (c.1 / 64 ≠ sliceOf a / 64) && ((findLine c.2.l2 a).any (·.owned)))

/-- An access of core `n` is held: at the join while nothing crosses it, or at a home whose set has no way for a line that neither
the core nor its cluster holds. -/
def heldAtJoin (s : State) (n : Nat) (p : Place) : Bool :=
  (joinDown s && (match placeTower p with | some t => t ≠ towerOf n | none => false))
    || (match p with
      | .home a | .pool a =>
        (joinDown s && ownerApart s (lineBase a))
          || (llcPinned s (lineBase a) && (findLine (s.core n).l1 (lineBase a)).isNone && (findLine (s.cluster (clusterOf n)).l2 (lineBase a)).isNone)
      | _ => false)

/-- What core `n` sends to core `m` is held at the join. -/
def coresApart (s : State) (n m : Nat) : Bool := joinDown s && decide (towerOf n ≠ towerOf m)

/-- A line that a release at scope `sc` writes back is held on its way to its home. -/
def releaseHeld (s : State) (n sc : Nat) : Bool :=
  let cl := clusterOf n
  let l2 := (s.cluster cl).l2
  (decide (2 ≤ sc) && (s.core n).l1.any (fun l => l.dirty ≠ 0 && (decide (4 ≤ sc) || !(findLine l2 l.addr).any (·.owned)) && homeBlocked s cl l.addr))
    || (decide (4 ≤ sc) && l2.any (fun l => l.dirty ≠ 0 && decide (l.scope < 4) && homeBlocked s cl l.addr))

/-! ## The walk (R345) -/

inductive Walk where
  | fault
  | bus (pa : Nat)
  | poison (pa : Nat)
  | leaf (entry : Nat) (log : Nat)
  deriving DecidableEq, Repr

/-- Bits of the index and the page size of a level. -/
def levelLow (level : Nat) : Nat := match level with | 0 => 39 | 1 => 30 | 2 => 21 | _ => 16
def levelBits (level : Nat) : Nat := match level with | 0 => 17 | 1 => 9 | 2 => 9 | _ => 5

def inPool (pa : Nat) : Bool := Config.poolBase ≤ pa && pa < Config.poolBase + 0x8000000000

/-- A leaf that R345 accepts: reserved bits zero, alignment, WR with RD, pool attribute and pool pages. -/
def leafOk (s : State) (e log : Nat) : Bool :=
  let pa := bitsAt e 16 40 * 65536
  bitsAt e 8 8 = 0 && bitsAt e 56 8 = 0 && pa % 2 ^ log = 0 && !(bitsAt e 3 1 = 1 && bitsAt e 2 1 = 0)
    && decide ((bitsAt e 6 2 = 3) ↔ (inPool pa = true))
    && (!inPool pa || ((pa - Config.poolBase) % 0x4000000000 + 2 ^ log ≤ bitsAt (poolWord s (poolTower pa) 3).toNat 28 22 * 65536))

/-- A table pointer that R345 accepts at a level: reserved bits zero, WR with RD, the next table aligned. The rights of a
pointer have no meaning (R344). -/
def tableOk (e level : Nat) : Bool :=
  let next := bitsAt e 8 48 * 256
  bitsAt e 6 2 = 0 && !(bitsAt e 3 1 = 1 && bitsAt e 2 1 = 0) && bitsAt e 56 8 = 0 && next % (8 * 2 ^ levelBits (level + 1)) = 0

/-- An entry as the walker reads it; in the memory of another device it is free (log entry 10). The control space, a register
window and an address outside every range hold none: BUSERR (R340). -/
def entryRead (s : State) (pa : Nat) : Option (Nat × Nat) :=
  match placeOf s pa with
  | .home _ | .pool _ => some (physRead s pa 8)
  | .window _ off => if off + 8 ≤ 0x200000 then some (physRead s pa 8) else none
  | .remote _ _ => some (Config.freeBits s.tick pa 64 % 2 ^ 64, 0)
  | .ctrl _ | .hole => none

def walk (s : State) (va : Nat) : (fuel level table : Nat) → Walk
  | 0, _, _ => .fault
  | f + 1, level, table =>
    let pa := table + 8 * bitsAt va (levelLow level) (levelBits level)
    match entryRead s pa with
    | none => .bus pa
    | some (e, p) =>
      if p ≠ 0 then .poison pa
      else if bitsAt e 0 1 = 0 then .fault
      else if bitsAt e 1 1 = 1 then
        if level < 3 ∧ tableOk e level then walk s va f (level + 1) (bitsAt e 8 48 * 256) else .fault
      else if level = 0 ∨ leafOk s e (levelLow level) = false then .fault
      else .leaf e (levelLow level)

/-- Addresses of the entries that a walk reads. -/
def walkReads (s : State) (va : Nat) : (fuel level table : Nat) → List Nat
  | 0, _, _ => []
  | f + 1, level, table =>
    let pa := table + 8 * bitsAt va (levelLow level) (levelBits level)
    pa :: (match entryRead s pa with
      | some (e, p) => if p = 0 ∧ bitsAt e 0 2 = 3 ∧ level < 3 ∧ tableOk e level then walkReads s va f (level + 1) (bitsAt e 8 48 * 256) else []
      | none => [])

/-- What an access needs of a leaf (R345). -/
inductive Need where
  | load | store | update | fetch
  deriving DecidableEq, Repr

def Need.allowed (n : Need) (e : Nat) (user : Bool) : Bool :=
  let rd := bitsAt e 2 1 = 1
  let wr := bitsAt e 3 1 = 1
  (match n with | .load => rd | .store => wr | .update => rd && wr | .fetch => bitsAt e 4 1 = 1 && bitsAt e 6 2 % 3 = 0)
    && (!user || bitsAt e 5 1 = 1)

/-- The trap of a translation fault (R115). -/
def Need.cause : Need → Cause
  | .load => .pfload | .store => .pfstore | .update => .pfstore | .fetch => .pffetch

/-- Translation as an access meets it. -/
inductive Xlat where
  | ok (s : State) (pa attr : Nat)
  | trap (c : Cause) (v : Word)
  deriving DecidableEq, Repr

def tlbFind (es : List TlbEntry) (ctx : BitVec 16) (va : Nat) : Option TlbEntry :=
  es.find? (fun e => e.ctx = ctx && va / 2 ^ e.log * 2 ^ e.log = e.va)

def ctxOf (s : State) (n : Nat) : BitVec 16 := BitVec.ofNat 16 (s.core n).ctxId.toNat

/-- A leaf entered in the core's and its cluster's TLB, which hold 64 and 2,048 entries (R346). -/
def tlbEnter (s : State) (n : Nat) (e : TlbEntry) : State :=
  let keep (es : List TlbEntry) (k : Nat) := (e :: es.filter (fun x => !(x.ctx = e.ctx && x.va = e.va && x.log = e.log))).take k
  (s.modCore n (fun c => { c with tlb := keep c.tlb 64 })).modCluster (clusterOf n) (fun c => { c with tlb := keep c.tlb 2048 })

/-- The attribute under identity translation (R294). -/
def identityAttr (s : State) (pa : Nat) : Nat :=
  match placeOf s pa with | .home _ => 0 | .pool _ => 3 | _ => 2

/-- The rights and the physical address of a leaf. -/
def useLeaf (s : State) (need : Need) (user : Bool) (va e log : Nat) : Xlat :=
  if need.allowed e user then .ok s (bitsAt e 16 40 * 65536 / 2 ^ log * 2 ^ log + va % 2 ^ log) (bitsAt e 6 2)
  else .trap .protect (BitVec.ofNat 64 va)

/-- A walk that core `n` would make for an address is held at the join. -/
def walkHeld (s : State) (n va : Nat) : Bool :=
  let root := bitsAt (s.core n).ptBase.toNat 20 36 * 1048576
  joinDown s && root ≠ 0 && decide (va < 2 ^ 56) && (tlbFind (s.core n).tlb (ctxOf s n) va).isNone
    && (tlbFind (s.cluster (clusterOf n)).tlb (ctxOf s n) va).isNone
    && (walkReads s va 4 0 root).any (fun pa => match placeTower (placeOf s pa) with | some t => t ≠ towerOf n | none => false)

/-- Translation of a virtual address for core `n` (R186, R294, R345 to R347). A held translation that the tables no
longer give may be used or not: free. -/
def translate (s : State) (n : Nat) (user : Bool) (need : Need) (va : Nat) : Xlat :=
  let bad : Xlat := .trap need.cause (BitVec.ofNat 64 va)
  let c := s.core n
  let root := bitsAt c.ptBase.toNat 20 36 * 1048576
  if 2 ^ 56 ≤ va then bad
  else if root = 0 then (if user then bad else .ok s va (identityAttr s va))
  else
    let ctx := ctxOf s n
    let held := match tlbFind c.tlb ctx va with
      | some e => some e
      | none => tlbFind (s.cluster (clusterOf n)).tlb ctx va
    let fresh := walk s va 4 0 root
    let old := match held with
      | some e => match fresh with
        | .leaf w _ => decide (w ≠ e.entry.toNat) && Config.freeNat s.tick % 2 = 0
        | _ => Config.freeNat s.tick % 2 = 0
      | none => false
    match held, old with
    | some e, true => useLeaf s.ticked need user va e.entry.toNat e.log
    | _, _ => match fresh with
      | .fault => bad
      | .bus pa => .trap .buserr (BitVec.ofNat 64 pa)
      | .poison pa => .trap .poison (BitVec.ofNat 64 pa)
      | .leaf e log =>
        let s := if held.isSome then s.ticked else s
        useLeaf (tlbEnter s n { ctx := ctx, va := va / 2 ^ log * 2 ^ log, log := log, pa := bitsAt e 16 40 * 65536,
                                entry := BitVec.ofNat 64 e }) need user va e log

/-! ## Pools at an access (R353, R354) -/

/-- What would dirty a pool line is refused while the reserve is full for its set. -/
def poolRefused (s : State) (a : Nat) : Bool := inPool a && reserveFull s (lineBase a)

/-- Cycles of a cluster's clock: the most that one of its cores has had. -/
def clusterCycle (s : State) (cl : Nat) : Nat := (List.range 8).foldl (fun m i => max m (s.core (8 * cl + i)).cycle) 0

/-- An atomic marks a pool line hot (R353). -/
def markHot (s : State) (a : Nat) : State :=
  if inPool a then
    s.modTower (poolTower a) (fun t => { t with hot := (lineBase a, clusterCycle s (poolCluster a)) :: t.hot.filter (fun h => h.1 ≠ lineBase a) })
  else s

/-! ## Cacheable accesses of a core by page attribute (R189, R348) -/

/-- The policy in force: an uncacheable or device page is performed at the home. -/
def polOf (attr pol : Nat) : Nat := if attr = 1 ∨ attr = 2 then 3 else pol

/-! ## Lines that an engine owns (R266) -/

/-- An engine writes the line and has not finished with it. -/
def engineOwns (s : State) (a : Nat) : Bool := s.cores.any (fun c => c.2.cmds.any (fun d => d.own.contains (lineBase a)))

/-- A thread's access to a line that an engine owns waits, unless the core's own L1 copy serves it. -/
def ownedWait (s : State) (n a size attr pol : Nat) : Bool :=
  engineOwns s a && !(polOf attr pol ≠ 3 && (match findLine (s.core n).l1 (lineBase a) with
    | some l => spanSectors (a % 128) size &&& l.valid.toNat = spanSectors (a % 128) size
    | none => false))

/-- Load of `size` bytes within a line of the home view or of pool space: state, value, poison mask. -/
def lineLoad (s : State) (n a size attr pol : Nat) : State × Nat × Nat :=
  cacheLoad s n (lineBase a) (a % 128) size (polOf attr pol)

def lineStore (s : State) (n a size v attr pol poison : Nat) : State :=
  cacheStore s n (lineBase a) (a % 128) size v (polOf attr pol) poison (ctxOf s n)

/-- The copies of a line in a core's L1 and in its cluster's L2 slice record a scope. -/
def recordScope (s : State) (n a sc : Nat) : State :=
  let mark (ls : List Line) : List Line := ls.map (fun l => if l.addr = a then { l with scope := sc } else l)
  (s.modCore n (fun c => { c with l1 := mark c.l1 })).modCluster (clusterOf n) (fun c => { c with l2 := mark c.l2 })

/-- A store released at a scope is written through to the level that serves it, and the line records it (R190). -/
def storeThrough (s : State) (n a sc : Nat) : State :=
  if sc ≤ 1 then s
  else
    let s := l1ToL2 s n (lineBase a)
    recordScope (if sc ≤ 3 then s else l2ToHome s (clusterOf n) (lineBase a)) n (lineBase a) sc

/-- Where an atomic of a scope on a page is performed (R197, R348): 0 L1, 1 L2, 2 LLC. -/
def atomicPlace (attr sc : Nat) : Nat := if attr ≠ 0 then 2 else if sc ≤ 1 then 0 else if sc ≤ 3 then 1 else 2

/-- An indivisible read and write of `size` bytes of a line at its place: `f` gives the new value from the old. -/
def lineAtomic (s : State) (n a size attr sc : Nat) (f : Nat → Nat) : State × Nat × Nat :=
  let base := lineBase a
  let off := a % 128
  match atomicPlace attr sc with
  | 0 =>
    let (s, v, p) := cacheLoad s n base off size 0
    if p ≠ 0 then (s, v, p) else (cacheStore s n base off size (f v) 0 0 (ctxOf s n), v, 0)
  | 1 =>
    let s := l1Drop (l1ToL2 s n base) n base
    let (s, l) := l2Take s (clusterOf n) base
    let v := bitsAt l.data.toNat (8 * off) (8 * size)
    let p := bitsAt l.poison.toNat off size
    if p ≠ 0 then (s, v, p)
    else (l2Write s (clusterOf n) base (f v % 2 ^ (8 * size) * 2 ^ (8 * off)) (spanMask off size) 0 3 (some (ctxOf s n)), v, 0)
  | _ =>
    let s := metaCheck (toHome s n base) base
    let l := homeLine s base
    let v := bitsAt l.data.toNat (8 * off) (8 * size)
    let p := bitsAt l.poison.toNat off size
    if p ≠ 0 then (s, v, p)
    else (markHot (homeWrite s base (f v % 2 ^ (8 * size) * 2 ^ (8 * off)) (spanMask off size) 0 (some (ctxOf s n))) a, v, 0)

end Sys2Proof.Machine
end

