-- ==== Sys2Proof/Machine/Platform.lean ====
section
/-! DEFINITION. Machine/Platform.lean: identities of partitions and contexts (R375, R384), the inbox (R302 to R304), trace
entries (R314), machine-check records (R356), raw accesses by virtual address, map records (R59 to R61, R66, R67) and the
thread image (R28, R301). -/

namespace Sys2Proof.Machine

/-! ## Partitions and contexts -/

def State.placeWord (s : State) (n : Nat) : Word := s.ctrlWord (0x1000 * n + 0x30) 0
/-- Logical core number of a site (R32, R384). -/
def logicalOf (s : State) (n : Nat) : Nat := fld (s.placeWord n) 0 10

/-- Word `i` of a context's entry in the context table (R375). -/
def ctxWord (s : State) (ctx i : Nat) : Word :=
  BitVec.ofNat 64 (physRead s ((s.ctrlWord 0x408688 0).toNat + 32 * ctx + 8 * i) 8).1
def ctxValid (s : State) (ctx : Nat) : Bool := fld (ctxWord s ctx 0) 8 1 = 1
def ctxPart (s : State) (ctx : Nat) : Nat := fld (ctxWord s ctx 0) 0 4

/-- Device numbers of a context's domain table (R375). -/
def domainOf (s : State) (ctx : Nat) : List Nat :=
  let p := (ctxWord s ctx 1).toNat
  (List.range (min 512 (physRead s p 8).1)).map (fun i => (physRead s (p + 8 + 2 * i) 2).1)

/-- Sites of an open partition in ascending logical order (R384). -/
def partSites (s : State) (part : Nat) : List Nat :=
  (List.range 1024).filterMap (fun l => (s.places.find? (fun p => p.2.1 = part && p.2.2 = l)).map (·.1))

/-- The partition a site belongs to while it is open (R384). -/
def partOf (s : State) (n : Nat) : Option Nat := (s.places.find? (fun p => p.1 = n)).map (·.2.1)

def siteOfLogical (s : State) (part l : Nat) : Option Nat :=
  (s.places.find? (fun p => p.2.1 = part && p.2.2 = l)).map (·.1)

def bit (b : Bool) : Nat := if b then 1 else 0

/-! ## Packets (R373 to R375) -/

/-- The fabric carries nothing while the device has no number, while an alarm has stopped the ports and while every port
is down (R374, R375, R382). -/
def fabricOpen (s : State) : Bool := s.devValid && !s.fabricStopped && s.portUp != 0

/-- The ports take packets and host commands in (R24, R374). -/
def portsOpen (s : State) : Bool := !s.fabricStopped && s.portUp != 0

/-- Key of a flow (R275): source, destination, order bit, and the own flow of a slot's puts (R276). -/
def flowKey (src dst ddev : Nat) (unord : Bool) (own : Nat) : Nat :=
  src + dst * 2 ^ 10 + ddev * 2 ^ 20 + bit unord * 2 ^ 29 + own * 2 ^ 30

/-- The first port at or above `start`, counted modulo 32, that is up. -/
def nextUp (s : State) (start : Nat) : Option Nat := ((List.range 32).map (fun i => (start + i) % 32)).find? (fun q => s.portUp.getLsbD q)

/-- Packets of a packet's collective that have left the device from its core (R377, log entry 77). -/
def collSent (s : State) (p : Packet) : Nat :=
  (s.fabricOut.filter (fun x => x.2.kind = 6 && x.2.src = p.src && wideGet x.2.coll 56 32 = wideGet p.coll 56 32)).length

/-- The plane on which a packet travels: that of its flow, that of its place in its collective, or for an unordered flow any,
and the next one above whose port is up (R374, R377). -/
def planeOf (s : State) (p : Packet) : Option Nat :=
  if p.kind = 6 then nextUp s (wideGet p.coll 56 32 + collSent s p)
  else if p.flags.getLsbD 0 then nextUp s (Config.freeNat s.tick)
  else nextUp s (p.sdev.toNat + p.ddev.toNat + p.src.toNat + p.dst.toNat % 1024)

/-- A packet leaves by the port of its plane. -/
def packetLeaves (s : State) (p : Packet) : State := { s.ticked with fabricOut := s.fabricOut ++ [((planeOf s p).getD 0, p)] }

/-- A packet given to its flow; a closed fabric holds it at its source. -/
def sendPacket (s : State) (kind flags src dst ddev own : Nat) (coll : BitVec 120) (payload : List Byte) : State :=
  let key := flowKey src (dst % 1024) ddev (flags % 2 = 1) own
  let seq := s.flowSend.get key 0
  let p : Packet := { kind := BitVec.ofNat 8 kind, flags := BitVec.ofNat 8 flags, src := BitVec.ofNat 16 src, dst := BitVec.ofNat 16 dst,
                      sdev := BitVec.ofNat 16 s.devId, ddev := BitVec.ofNat 9 ddev, seq := BitVec.ofNat 32 seq,
                      stamp := s.time.setWidth 40, coll := coll, payload := payload }
  let s := { s with flowSend := s.flowSend.set key ((seq + 1) % 2 ^ 32) }
  if fabricOpen s ∧ s.fabricHeld = [] then packetLeaves s p else { s with fabricHeld := s.fabricHeld ++ [p] }

/-- A write to another device awaits the answer of its home under a number of its own (R264, R276; log entry 9). -/
def farWrite (s : State) (n k : Nat) (cmd : Option Nat) (dev off size : Nat) (atom : Bool) : State :=
  { s with nextRemote := s.nextRemote + 1
           farWrites := s.farWrites ++ [{ id := s.nextRemote, core := n, slot := k, cmd := cmd, dev := dev, off := off, size := size, atom := atom }] }

/-- A put of bytes to another device's memory: number, address, poison mask, then data (log entry 9). -/
def sendPut (s : State) (n k : Nat) (cmd : Option Nat) (dev off size v poison : Nat) : State :=
  sendPacket (farWrite s n k cmd dev off size false) 2 1 (logicalOf s n) 0 dev (1 + k) 0
    (leBytes 8 s.nextRemote ++ leBytes 8 off ++ leBytes 2 poison ++ leBytes size v)

/-- The home address that an offset of another device names in either view (R342). -/
def farOff (off : Nat) : Nat := if off < Config.spreadBase then off else spreadHome off

/-- A store to another device waits for the slot's earlier stores to the same bytes and for its atomic operations there
(R260, R276). -/
def farClash (s : State) (n k dev off size : Nat) : Bool :=
  s.farWrites.any (fun w => w.core = n && w.slot = k && w.cmd.isNone && w.dev = dev
    && (w.atom || (decide (farOff w.off < farOff off + size) && decide (farOff off < farOff w.off + w.size))))

/-- Any other access to the device waits for every earlier write of the slot to it (R260). -/
def farBusy (s : State) (n k dev : Nat) : Bool :=
  s.farWrites.any (fun w => w.core = n && w.slot = k && w.cmd.isNone && w.dev = dev)

/-- A write of a party stands before a full inbox: a slot of core `n`, or with 16 more the commands of that slot (R302). -/
def inboxPending (s : State) (n k : Nat) : Bool := s.cores.any (fun c => c.2.inboxWait.any (fun e => e.2 = some (n, k)))

/-- Writes of a slot, or of the hardware for its core, that are not yet performed at their home, and dirty lines that a release at
the scope cannot write back yet; at DOMAIN and wider writes of the slot's engine commands too (R24, R264). -/
def putsHeld (s : State) (n k sc : Nat) : Bool :=
  s.farWrites.any (fun w => w.core = n && (w.slot = k || w.slot = 15) && (w.cmd.isNone || decide (6 ≤ sc)))
    || inboxPending s n k || (decide (6 ≤ sc) && inboxPending s n (16 + k)) || releaseHeld s n sc

/-- Such writes of any party of a core. -/
def putsOut (s : State) (n : Nat) : Bool := s.farWrites.any (fun w => w.core = n)

/-! ## Requesters of a licence (R245, R246) -/

/-- The same requester: a thread by its image, the system slot of a core by the core. -/
def sameReq (a b : LicReq) : Bool := a.img = b.img && (a.img ≠ 0 || a.core = b.core)

/-- The party in a slot as a requester. -/
def slotReq (s : State) (n k : Nat) : LicReq := { core := n, slot := k, img := (s.slot n k).img, handle := (s.slot n k).handle }

def holdsLic (s : State) (p : Nat) (r : LicReq) : Bool := match (s.pair p).holder with | some h => sameReq h r | none => false
def waitsLic (s : State) (p : Nat) (r : LicReq) : Bool := (s.pair p).fifo.any (sameReq r)

/-- The licence state of a slot's thread (R246). -/
def licstOf (s : State) (n k : Nat) : Nat :=
  let x := s.slot n k
  let p := s.pair (pairOf n)
  let me := slotReq s n k
  let holds := holdsLic s (pairOf n) me
  let waits := waitsLic s (pairOf n) me
  let state := if holds then (if p.lic = .due then 3 else 2) else if waits then 1 else 0
  state + fld x.licst 2 1 * 4 + fld x.licst 4 4 * 16
    + (if waits then min 255 (p.fifo.takeWhile (fun r => !sameReq me r)).length else 0) * 256
    + (if holds then min 256 p.termN else 0) * 65536

/-! ## The join of the towers (R24, R378, R385) -/

/-! ## Records to system software -/

/-- One trace entry in the core's ring (R314). -/
def traceWrite (s : State) (n kind slot : Nat) (handle pc value : Word) : State :=
  let r := s.ctrlWord (0x1000 * n + 0x10) 0
  if fld r 4 1 = 1 then
    let size := 2 ^ (fld r 0 4 + 7)
    let pa := fld r 12 44 * 4096 + 32 * ((s.core n).traceNext % size)
    let s := physWriteWords (toHome s n (lineBase (canonPa s pa))) pa (some (ctxOf s n))
      [s.time, BitVec.ofNat 64 (kind + slot * 2 ^ 8 + n * 2 ^ 11 + handle.toNat % 2 ^ 32 * 2 ^ 32), pc, value]
    s.modCore n (fun c => { c with traceNext := (c.traceNext + 1) % size })
  else s

/-- A trace entry that the hardware writes when its AUTO bit is set: AUTOSYS for kinds 16 to 19 and 23, AUTOFLOW for
kinds 20 to 22 of user slots. -/
def traceAuto (s : State) (n kind slot : Nat) (handle pc value : Word) : State :=
  let r := s.ctrlWord (0x1000 * n + 0x10) 0
  let flow := 20 ≤ kind ∧ kind ≤ 22
  if (flow ∧ fld r 6 1 = 1 ∧ slot < 7) ∨ (¬ flow ∧ fld r 5 1 = 1) then traceWrite s n kind slot handle pc value else s

/-- A window of an offline core, or of a core of another partition, refuses every access (R366, R384). -/
def windowShut (s : State) (n c : Nat) : Bool := (s.core c).offline || decide (partOf s n ≠ partOf s c)

/-! ## Raw accesses by virtual address, for records that the hardware reads and writes on behalf of a thread -/

inductive Raw where
  | ok (s : State) (v : Nat) (poison : Nat) (pa : Nat)
  | trap (c : Cause) (v : Word)
  deriving DecidableEq, Repr

/-- A load of `size` bytes; the memory of another device gives a free value (log entry 3). -/
def loadRaw (s : State) (n : Nat) (user : Bool) (va size : Nat) : Raw :=
  match translate s n user .load va with
  | .trap c v => .trap c v
  | .ok s pa attr =>
    match placeOf s pa with
    | .home a | .pool a => let (s, v, p) := lineLoad s n a size attr 0; .ok s v p pa
    | .window c off =>
      if off + size ≤ 0x200000 ∧ windowShut s n c = false then .ok s (memReadLE s.mem pa size) (poisonRead s.memPoison pa size) pa
      else .trap .buserr (BitVec.ofNat 64 pa)
    | .remote _ _ => .ok s.ticked (Config.freeBits s.tick pa (8 * size) % 2 ^ (8 * size)) 0 pa
    | .ctrl _ => if user then .trap .protect (BitVec.ofNat 64 va) else .trap .buserr (BitVec.ofNat 64 pa)
    | .hole => .trap .buserr (BitVec.ofNat 64 pa)

def storeRaw (s : State) (n : Nat) (user : Bool) (va size v : Nat) : Raw :=
  match translate s n user .store va with
  | .trap c w => .trap c w
  | .ok s pa attr =>
    match placeOf s pa with
    | .home a | .pool a =>
      if poolRefused s a then .trap .pool (BitVec.ofNat 64 va) else .ok (lineStore s n a size v attr 0 0) v 0 pa
    | .window c off =>
      if off + size ≤ 0x200000 ∧ windowShut s n c = false then .ok (physWrite s pa size v 0 none) v 0 pa else .trap .buserr (BitVec.ofNat 64 pa)
    | .remote dev off => .ok (sendPut s n 15 none dev off size v 0) v 0 pa
    | .ctrl _ => if user then .trap .protect (BitVec.ofNat 64 va) else .trap .buserr (BitVec.ofNat 64 pa)
    | .hole => .trap .buserr (BitVec.ofNat 64 pa)

/-- `k` consecutive units of `size` bytes: value, poison and physical address of each. -/
def loadRawAll (s : State) (n : Nat) (user : Bool) (va size : Nat) : Nat → State × Except (Cause × Word) (List (Nat × Nat × Nat))
  | 0 => (s, .ok [])
  | k + 1 =>
    match loadRaw s n user va size with
    | .trap c v => (s, .error (c, v))
    | .ok s v p pa => match loadRawAll s n user (va + size) size k with
      | (s, .ok vs) => (s, .ok ((v, p, pa) :: vs))
      | (s, .error e) => (s, .error e)

/-- The values of `k` units: every access is translated before poison traps POISON with the line's physical address
(R113). -/
def loadRawList (s : State) (n : Nat) (user : Bool) (va size k : Nat) : State × Except (Cause × Word) (List Nat) :=
  match loadRawAll s n user va size k with
  | (s, .error e) => (s, .error e)
  | (s, .ok us) => match us.find? (fun u => u.2.1 ≠ 0) with
    | some u => (s, .error (.poison, BitVec.ofNat 64 (lineBase u.2.2)))
    | none => (s, .ok (us.map (·.1)))

/-! ## Map records (R59, R60) -/

def mapErr (reason name : Nat) : Word := BitVec.ofNat 64 (reason + name * 256)

/-- The width and mode a kind admits (R58). -/
def kindAdmits (k : Kind) (w : Nat) (m : Mode) : Bool :=
  decide (1 ≤ w) && decide (w ≤ 64) && (match k.fixedWidth with | some f => w = f | none => true) && (!k.isFloat || m == .wrap)

/-- A descriptor, or none where R60's reason 1 applies; `resume` takes the current width and mode of R61. CURV is kept in
either case: a save writes such a descriptor again. -/
def decodeDesc (resume : Bool) (d : Nat) : Option NameD :=
  match Kind.ofCode (bitsAt d 7 3), Mode.ofCode (bitsAt d 10 2), Region.ofCode (bitsAt d 12 2) with
  | some k, some m, some g =>
    let w := bitsAt d 0 7
    if kindAdmits k w m = false ∨ bitsAt d 14 2 ≠ 0 ∨ bitsAt d 26 6 ≠ 0 then none
    else if resume && bitsAt d 25 1 = 1 && g == .priv then
      match Mode.ofCode (bitsAt d 23 2) with
      | some cm =>
        if kindAdmits k (bitsAt d 16 7) cm then
          some { width := bitsAt d 16 7, kind := k, mode := cm, region := g, declWidth := w, declMode := m, curv := true }
        else none
      | none => none
    else some { width := w, kind := k, mode := m, region := g, declWidth := w, declMode := m, curv := bitsAt d 25 1 = 1 }
  | _, _, _ => none

def decodeDescs (resume : Bool) : Nat → List Nat → Except Word (List NameD)
  | _, [] => .ok []
  | i, d :: r => match decodeDesc resume d with
    | none => .error (mapErr 1 i)
    | some n => match decodeDescs resume (i + 1) r with
      | .ok ns => .ok (n :: ns)
      | .error e => .error e

/-- Packing of all regions in declaration order (R60 step 3): `system` allows 16 private rows. -/
def packAll (system : Bool) : (fp fs fq : List Nat) → Nat → List NameD → Except Word Unit
  | _, _, _, _, [] => .ok ()
  | fp, fs, fq, i, d :: r =>
    match d.region with
    | .priv => match placeIn fp 0 d.width with
      | none => .error (mapErr (if system then 5 else 2) i)
      | some (_, f) => packAll system f fs fq (i + 1) r
    | .shared => match placeIn fs 0 d.width with
      | none => .error (mapErr 2 i)
      | some (_, f) => packAll system fp f fq (i + 1) r
    | .pair => match placeIn fq 0 d.width with
      | none => .error (mapErr 2 i)
      | some (_, f) => packAll system fp fs f (i + 1) r

/-- Indices of a region's names. -/
def regionIdx (m : List NameD) (g : Region) : List Nat :=
  (List.range m.length).filter (fun i => match m[i]? with | some d => d.region = g | none => false)

def sameDecl (a b : NameD) : Bool := a.declWidth = b.declWidth && a.kind == b.kind && a.declMode == b.declMode

/-- Position of the first declaration that differs from the signature, if any (R66). -/
def sigDiff : List NameD → List NameD → Nat → Option Nat
  | a :: r, b :: q, i => if sameDecl a b then sigDiff r q (i + 1) else some i
  | _, _, _ => none

/-- NAME of a mismatch with a held signature, or none when the declarations are equal (R66). -/
def sigMismatch (m sig : List NameD) (g : Region) : Option Nat :=
  let mine := regionNames m g
  let idx := regionIdx m g
  match sigDiff mine sig 0 with
  | some j => some (idx.getD j 0)
  | none =>
    if mine.length = sig.length then none
    else if mine.length < sig.length then some (idx.getD (mine.length - 1) 0)
    else some (idx.getD sig.length 0)

/-- A user slot of a core, other than `but`, holds a thread whose map declares names of a region (R66, R67). -/
def holdsRegion (s : State) (n : Nat) (g : Region) (but : Option Nat) : Bool :=
  (s.core n).slots.any (fun x => x.1 < 7 && some x.1 ≠ but && x.2.phase != .free && !(regionNames x.2.map g).isEmpty)

/-- The signature after a map with these declarations is accepted, or the offending NAME. -/
def claimRegion (m sig : List NameD) (g : Region) (held : Bool) : Except Nat (List NameD) :=
  let mine := regionNames m g
  if mine.isEmpty then .ok sig
  else match sigMismatch m sig g with
    | none => .ok sig
    | some j => if held then .error j else .ok mine

/-- The checks of R60 and what a successful load does: the slot's map and the claimed signatures. -/
def mapInstall (s : State) (n k : Nat) (resume : Bool) (count : Nat) (descs : List Nat) : Except Word State :=
  if 63 < bitsAt count 0 8 ∨ count / 256 ≠ 0 then .error (mapErr 1 0)
  else match decodeDescs resume 0 descs with
    | .error e => .error e
    | .ok m =>
      match (if k = 7 then (List.range m.length).find? (fun i => match m[i]? with | some d => d.region != .priv | none => false) else none) with
      | some i => .error (mapErr 5 i)
      | none =>
        match packAll (k = 7) (List.replicate (if k = 7 then 16 else 32) 0) (List.replicate 16 0) (List.replicate 8 0) 0 m with
        | .error e => .error e
        | .ok _ =>
          match claimRegion m (s.core n).sig .shared (holdsRegion s n .shared (some k)) with
          | .error j => .error (mapErr 3 j)
          | .ok sig =>
            match claimRegion m (s.pair (pairOf n)).sig .pair
                (holdsRegion s n .pair (some k) || holdsRegion s (twinOf n) .pair none) with
            | .error j => .error (mapErr 4 j)
            | .ok psig =>
              .ok (((s.modCore n (fun c => { c with sig := sig })).modPair (pairOf n) (fun p => { p with sig := psig })).modSlot n k
                (fun x => { x with map := m }))

/-- A map record read through a thread's translation: COUNT and the descriptors. Of a COUNT above 63 the first 63 descriptors are read,
with their PFLOAD or POISON, before MAPERR (log entry 78). -/
def readMapRecord (s : State) (n : Nat) (user : Bool) (va : Nat) : State × Except (Cause × Word) (Nat × List Nat) :=
  match loadRaw s n user va 8 with
  | .trap c v => (s, .error (c, v))
  | .ok s count p pa =>
    if p ≠ 0 then (s, .error (.poison, BitVec.ofNat 64 (lineBase pa)))
    else match loadRawList s n user (va + 8) 4 (min 63 (bitsAt count 0 8)) with
      | (s, .ok ds) => (s, .ok (count, ds))
      | (s, .error e) => (s, .error e)

/-- An access to a map record is held on its way, or waits for an engine that owns a line of it (R24, R266, R354, R385). -/
def recordHeld (s : State) (n va : Nat) : Bool :=
  (joinDown s || decide (llcWays ≤ s.llc.length) || s.cores.any (fun c => c.2.cmds.any (fun d => !d.own.isEmpty)))
    && [va, va + 128, va + 259].any (fun a => walkHeld s n a || match translate s n true .load a with
      | .ok s pa attr => heldAtJoin s n (placeOf s pa) || (match placeOf s pa with
        | .home b | .pool b => ownedWait s n b 1 attr 0
        | _ => false)
      | .trap _ _ => false)

/-- A save of a slot's thread would write its image or its map record across the join. -/
def saveHeld (s : State) (n k : Nat) : Bool :=
  recordHeld s n (s.slot n k).mapPtr.toNat || heldAtJoin s n (placeOf s (s.slot n k).img)

/-- Physical address of sector `r` of a borrowed slot's backing area. -/
def backPa (b : Borrow) (r : Nat) : Nat := if r < b.split then b.backing + 16 * r else b.backing2 + 16 * (r - b.split)

/-- Bits of each row that a name of the slot's map occupies (R62). -/
def rowMask (s : State) (n k row : Nat) : Nat :=
  let names := (s.slot n k).map
  (List.range names.length).foldl (fun acc i =>
    match nameInfo s n k i with
    | some x => if x.region = .priv ∧ x.off / 128 = row then acc ||| ((2 ^ x.width - 1) * 2 ^ (x.off % 128)) else acc
    | none => acc) 0

/-- A whole row as a transfer reads it: bits that hold no name read as zero (R62). -/
def rowRead (s : State) (n k row : Nat) : BitVec 128 := rowGet (s.slot n k) row &&& BitVec.ofNat 128 (rowMask s n k row)

/-- A whole row written by a transfer: bits that hold no name discard the write (R62). -/
def rowWrite (s : State) (n k row : Nat) (v : BitVec 128) : State :=
  let m := BitVec.ofNat 128 (rowMask s n k row)
  s.modSlot n k (fun x => rowSet x row ((rowGet x row &&& ~~~m) ||| (v &&& m)))

/-! ## Images (R28) -/

/-- STATUS of the image header (R29). -/
def statusWord (state wait prio : Nat) (aged dual : Bool) : Nat :=
  state + wait * 16 + prio * 256 + (if aged then 1024 else 0) + (if dual then 2048 else 0)

def imageAddr (s : State) (n : Nat) (handle : BitVec 32) : Nat := (s.core n).imgBase.toNat + handle.toNat * 0x400

/-- A field of an image written at its home; the core keeps no older copy of the line. -/
def imageWrite (s : State) (n pa size v : Nat) : State := physWrite (toHome s n (lineBase (canonPa s pa))) pa size v 0 (some (ctxOf s n))

/-- STATE, WAIT and priority of a thread written into its image and its record. -/
def setThreadState (s : State) (n img state wait : Nat) : State :=
  let s := s.modThread img (fun t => { t with state := state })
  let t := s.thread img
  imageWrite s n (img + 0x14) 4 (statusWord state wait t.prio t.aged (t.copy = some 1))

/-- A deferred place as the trap record holds it (R301). -/
def deferWords (d : Option Deferred) : List Nat :=
  match d with
  | none => [0, 0]
  | some d => [d.name.toNat + 64 + d.req.toNat * 128, d.data.toNat]

def deferOf (w d : Nat) : Option Deferred :=
  if bitsAt w 6 1 = 1 then some { name := BitVec.ofNat 6 w, req := BitVec.ofNat 10 (w / 128), data := BitVec.ofNat 64 d } else none

/-- BRWST (R73). -/
def brwst (x : Slot) : Nat := match x.borrow with | none => 0 | some b => 1 + b.slot * 2 + b.map.length * 16

/-- Writes of a list of 8-byte fields of an image. -/
def imageWords (s : State) (n pa : Nat) : List Nat → State
  | [] => s
  | w :: r => imageWords (imageWrite s n pa 8 w) n (pa + 8) r

/-- The trap record of an image (R301). -/
def trapRecord (s : State) (n img : Nat) (cause value pc time : Nat) (d0 d1 : Option Deferred) : State :=
  imageWords s n (img + 0x2C0) ([cause, value, pc, time] ++ deferWords d0 ++ deferWords d1)

/-- What a save writes beside the map record and the rows (R311): header, extension registers, special registers. -/
def saveImage (s : State) (n k : Nat) (state wait : Nat) (pc : Word) : State :=
  let x := s.slot n k
  let img := x.img
  let gen := (physRead s (img + 0x10) 4).1
  let s := imageWords s n img [pc.toNat, x.mapPtr.toNat]
  let s := imageWrite s n (img + 0x10) 4 ((s.core n).mapGen.toNat + (gen / 65536 + 1) % 65536 * 65536)
  let s := setThreadState s n img state wait
  let s := imageWrite s n (img + 0x38) 8 (if wait = 0 then 0 else x.waitArg.toNat)
  let s := imageWords s n (img + 0x240) ((List.range 8).map (fun i => wideGet x.ox (64 * i) 64))
  imageWords s n (img + 0x280) [x.amode.toNat, x.rmode.toNat, x.fxf.toNat, x.seed.toNat, licstOf s n k, brwst x,
    (s.thread img).defHeir.toNat]

/-- The estate written to its table: the place of each entry is free, one entry a place (R198; log entry 3). -/
def writeEstate (s : State) (n img : Nat) (base : Word) : State :=
  let t := s.thread img
  let shift := Config.freeNat s.tick
  let s := s.ticked
  let s := imageWords s n base.toNat (List.replicate 256 0)
  (List.range t.estate.length).foldl (fun s i =>
    match t.estate[i]? with
    | some e => imageWords s n (base.toNat + 32 * ((i + shift) % 64))
        [e.object.toNat, e.kind + e.heirKind * 2 ^ 8 + e.seq.toNat * 2 ^ 16 + e.level * 2 ^ 32, e.heir.toNat, e.time.toNat]
    | none => s) s

/-- Rows of a slot's thread that stay resident and evictable after it left (R71). -/
def evictRows (s : State) (n k : Nat) : State :=
  let x := s.slot n k
  s.modCore n (fun c => { c with former := { slot := k, img := x.img, rows := x.rows, mask := x.resident, dirty := x.dirty, poison := x.poisoned &&& x.resident }
                                            :: c.former.filter (fun f => f.img ≠ x.img) })

/-- Poison of the 16 bytes of a row that is written back (R70). -/
def rowPoison (p : BitVec 32) (k : Nat) : Nat := if p.getLsbD k then 0xFFFF else 0

/-- The dirty rows of a former thread would be written back across the join. -/
def formerHeld (s : State) (n : Nat) : Bool := (s.core n).former.any (fun f => f.dirty ≠ 0 && heldAtJoin s n (placeOf s f.img))

/-- Write-back of one former thread's dirty rows through L1 (R69, R70). -/
def writeRows (s : State) (n : Nat) (f : FormerRows) : State :=
  let s := (List.range 32).foldl (fun s k =>
    if f.dirty.getLsbD k && f.mask.getLsbD k then
      lineStore s n (canonPa s (f.img + 0x40 + 16 * k)) 16 (wideGet f.rows (128 * k) 128) 0 0 (rowPoison f.poison k)
    else s) s
  s.modCore n (fun c => { c with former := c.former.map (fun g => if g.img = f.img then { g with dirty := 0 } else g) })

/-- The map record's current widths and modes written at a save (R61, R397): the words to write, by name. -/
def curDescs (m : List NameD) : List (Nat × Nat) :=
  (List.range m.length).filterMap (fun i =>
    match m[i]? with
    | some d => if d.region = .priv ∧ (d.curv ∨ d.width ≠ d.declWidth ∨ d.mode ≠ d.declMode) then
        some (i, d.declWidth + d.kind.code * 2 ^ 7 + d.declMode.code * 2 ^ 10 + d.region.code * 2 ^ 12 + d.width * 2 ^ 16
          + d.mode.code * 2 ^ 23 + 2 ^ 25)
      else none
    | none => none)

/-- Every store of a list is possible: first the checks, so that a failing write writes nothing (R397). -/
def mapWriteCheck (s : State) (n : Nat) (va : Nat) : List (Nat × Nat) → Option (Cause × Word)
  | [] => none
  | (i, w) :: r =>
    match loadRaw s n true (va + 8 + 4 * i) 4, storeRaw s n true (va + 8 + 4 * i) 4 w with
    | .ok _ _ p pa, .ok .. => if p ≠ 0 then some (.poison, BitVec.ofNat 64 (lineBase pa)) else mapWriteCheck s n va r
    | _, .trap c v => some (c, v)
    | .trap c v, _ => some (c, v)

def mapWriteGo (s : State) (n : Nat) (va : Nat) : List (Nat × Nat) → State
  | [] => s
  | (i, w) :: r => match storeRaw s n true (va + 8 + 4 * i) 4 w with
    | .ok s _ _ _ => mapWriteGo s n va r
    | .trap _ _ => mapWriteGo s n va r

/-- The record write of a save (R397). -/
def writeMapRecord (s : State) (n k : Nat) : Except (Cause × Word) State :=
  let x := s.slot n k
  let ws := curDescs x.map
  match mapWriteCheck s n x.mapPtr.toNat ws with
  | some e => .error e
  | none => .ok (mapWriteGo s n x.mapPtr.toNat ws)

end Sys2Proof.Machine
end

