-- ==== Sys2Proof/Machine/Fabric.lean ====
section
/-! DEFINITION. Machine/Fabric.lean: the packets that leave the device (R373 to R375), and the group entries and headers of
collectives (R376, R377). -/

namespace Sys2Proof.Machine

/-! ## Packets held at their source (R264, R374) -/

/-- Packets held at their source leave once the fabric is open. -/
def flushHeld (s : State) : State :=
  if fabricOpen s then
    let s := (s.fabricHeld.map (fun p => { p with sdev := BitVec.ofNat 16 s.devId })).foldl packetLeaves { s with fabricHeld := [] }
    { s.ticked with
      replies := s.replies ++ s.repliesHeld.map (fun r => { r with plane := (nextUp s (Config.freeNat s.tick)).getD 0 })
      repliesHeld := [] }
  else s

/-! ## ATOM packets: the payload is that of log entry 9 -/

/-- Number of an operation that awaits no reply. -/
def noReply : Nat := 2 ^ 64 - 1

def atomBytes (id off op size shape a b guard : Nat) : List Byte :=
  leBytes 8 id ++ leBytes 8 off ++ leBytes 1 op ++ leBytes 1 size ++ leBytes 1 shape ++ leBytes 16 a ++ leBytes 8 b ++ leBytes 2 guard

/-- An operation on another device's memory: `guard` says which results the home may perform it for. -/
def sendAtom (s : State) (n dev id off op size shape a b guard : Nat) : State :=
  sendPacket s 4 0 (logicalOf s n) 0 dev 0 0 (atomBytes id off op size shape a b guard)

/-- Asking for the place of a message, and giving it back (R171; log entry 48). -/
def opPlace : Nat := 26
def opPlaceBack : Nat := 27

/-- The party of an operation that no one awaits any more. -/
def orphan : Nat := 1026

def givePlaceBack (s : State) (n : Nat) (r : RemoteOp) : State :=
  match r.place with
  | some (dev, off) => sendAtom s n dev noReply off opPlaceBack 0 0 r.id 0 0
  | none => s

/-- The guard of a result that must fit an integer name (R8): 0 for none. -/
def guardOf (i : Info) : Nat := if i.kind.isInt ∧ i.mode = .trap then i.width + i.kind.code * 128 + 1024 else 0

def guardFits (g r : Nat) : Bool :=
  g = 0 || representable ((Kind.ofCode (g / 128 % 8)).getD .unsigned) (g % 128) (r : Nat)

/-! ## Groups (R376) -/

/-- Physical address of a group entry. -/
def groupAddr (s : State) (ctx : BitVec 16) (e : Nat) : Nat := (ctxWord s ctx.toNat 2).toNat + 0x800 * e
def groupCount (s : State) (ctx : BitVec 16) : Nat := fld (ctxWord s ctx.toNat 3) 0 16
def groupHdr (s : State) (ctx : BitVec 16) (e : Nat) : Nat := (physRead s (groupAddr s ctx e) 8).1
def groupMembers (s : State) (ctx : BitVec 16) (e : Nat) : List Nat :=
  (List.range (min 512 (bitsAt (groupHdr s ctx e) 0 10))).map (fun m => (physRead s (groupAddr s ctx e + 16 + 2 * m) 2).1)

/-- Position of an element in a list. -/
def posOf (x : Nat) : List Nat → Option Nat
  | [] => none
  | y :: r => if x = y then some 0 else (posOf x r).map (· + 1)

/-! ## Collective commands and headers (R230, R377) -/

def collOp (b : BitVec 512) : Nat := wideGet b 0 8
def collRed (b : BitVec 512) : Nat := wideGet b 8 8
def collFmt (b : BitVec 512) : Nat := wideGet b 16 8
def collChunks (b : BitVec 512) : Nat := wideGet b 24 8
def collGroup (b : BitVec 512) : Nat := wideGet b 32 16
def collRoot (b : BitVec 512) : Nat := wideGet b 48 8
def collSrc (b : BitVec 512) : Nat := wideGet b 64 64
def collDst (b : BitVec 512) : Nat := wideGet b 128 64
def collCount (b : BitVec 512) : Nat := wideGet b 192 64
def collBar (b : BitVec 512) : Nat := wideGet b 256 64
def collSeq (b : BitVec 512) : Nat := wideGet b 320 64
def collNfmt (b : BitVec 512) : Nat := wideGet b 448 64

/-- Header bytes +0x11 to +0x1F. -/
def collHeader (b : BitVec 512) (abort : Bool) (chunk sgid member off : Nat) : BitVec 120 :=
  BitVec.ofNat 120 (collOp b % 8 + collRed b % 4 * 2 ^ 3 + collFmt b % 4 * 2 ^ 5 + bit abort * 2 ^ 7 + chunk % 64 * 2 ^ 8
    + (collChunks b - 1) % 64 * 2 ^ 16 + sgid % 2 ^ 16 * 2 ^ 24 + member % 2 ^ 16 * 2 ^ 40 + collSeq b % 2 ^ 32 * 2 ^ 56
    + off % 2 ^ 32 * 2 ^ 88)

def hdrAbort (p : Packet) : Bool := p.coll.getLsbD 7
def hdrSgid (p : Packet) : Nat := wideGet p.coll 24 16
def hdrMember (p : Packet) : Nat := wideGet p.coll 40 16
def hdrSeq (p : Packet) : Nat := wideGet p.coll 56 32
def hdrOff (p : Packet) : Nat := wideGet p.coll 88 32

/-- ABORT packets to every other member (R231 step 4). -/
def sendAborts (s : State) (n : Nat) (ctx : BitVec 16) (b : BitVec 512) : State :=
  let ms := groupMembers s ctx (collGroup b)
  let me := (posOf s.devId ms).getD 0
  (ms.filter (· ≠ s.devId)).foldl (fun s d => sendPacket s 6 1 (logicalOf s n) 0 d 0 (collHeader b true 0 0 me 0) []) s

end Sys2Proof.Machine
end

