-- ==== Sys2Proof/Machine/Float.lean ====
section
/-! DEFINITION. Machine/Float.lean: exact float values, rounding (R82, R92), and the float kinds (R81). A finite value is
kept exactly as a fraction times a power of two; every result is rounded once into its destination. -/

namespace Sys2Proof.Machine

/-- An exact real or a special value (R64): a NaN with its signalling mark, an infinity, or
(−1)^neg × num / den × 2^e. -/
inductive FVal where
  | nan (signalling : Bool)
  | inf (neg : Bool)
  | fin (neg : Bool) (num den : Nat) (e : Int)
  deriving DecidableEq, Repr

/-- Rounding modes: those of RMODE (R82), the selector `rna` (R152), and those of a bank (R92). -/
inductive Rnd where
  | rne | rtz | rup | rdn | rna | odd | stoch (random : Nat)
  deriving DecidableEq, Repr

def Rnd.ofRmode (v : Nat) : Rnd := match v % 4 with | 0 => .rne | 1 => .rtz | 2 => .rup | _ => .rdn

def Rnd.ofSelector (rmode v : Nat) : Rnd :=
  match v with | 0 => Rnd.ofRmode rmode | 1 => .rne | 2 => .rtz | 3 => .rup | 4 => .rdn | _ => .rna

/-- Power of two with a negative exponent clipped to 1. -/
def pow2 (e : Int) : Nat := 2 ^ e.toNat

/-- num / den × 2^e as a plain fraction. -/
def fracUp (num den : Nat) (e : Int) : Nat × Nat := (num * pow2 e, den * pow2 (-e))

/-- Whether the magnitude q + r / den goes up to q + 1 (R92). `p` is the number of kept bits. An RNE tie of a format that keeps
one bit, where both neighbours have that bit 1, goes up (log entry 75). -/
def roundsUp (mode : Rnd) (neg : Bool) (p q r den : Nat) : Bool :=
  if r = 0 then false
  else match mode with
    | .rne => decide (den < 2 * r) || (decide (2 * r = den) && q % 2 = 1)
    | .rtz => false
    | .rup => !neg
    | .rdn => neg
    | .rna => decide (den ≤ 2 * r)
    | .odd => q % 2 = 0
    | .stoch rand => decide (rand % 2 ^ (32 - p) < r * 2 ^ (32 - p) / den)

/-- num / den × 2^e rounded to a multiple of 2^g: the multiple, and whether it is inexact. -/
def quantize (mode : Rnd) (neg : Bool) (p num den : Nat) (e g : Int) : Nat × Bool :=
  let (n, d) := fracUp num den (e - g)
  let q := n / d
  let r := n % d
  (if roundsUp mode neg p q r d then q + 1 else q, r ≠ 0)

/-- floor(log2(num / den × 2^e)) of a non-zero value. -/
def floorLog2 (num den : Nat) (e : Int) : Int :=
  let k : Int := (Nat.log2 num : Int) - (Nat.log2 den : Int)
  let (n, d) := fracUp num den (-k)
  if n < d then k - 1 + e else if 2 * d ≤ n then k + 1 + e else k + e

/-- Rounding to `p` significant bits at unbounded exponent range: the value is the first times 2 to the second. -/
def roundSig (mode : Rnd) (neg : Bool) (p num den : Nat) (e : Int) : Nat × Int × Bool :=
  let g := floorLog2 num den e - (p - 1 : Int)
  let (m, x) := quantize mode neg p num den e g
  (m, g, x)

/-- Integer square root by halving the search interval; `fuel` bits of result. -/
def isqrtGo : (fuel n root : Nat) → Nat
  | 0, _, root => root
  | f + 1, n, root => isqrtGo f n (if (root + 2 ^ f) * (root + 2 ^ f) ≤ n then root + 2 ^ f else root)

def isqrt (n : Nat) : Nat := isqrtGo (Nat.log2 n / 2 + 1) n 0

/-! ## The float kinds (R81) -/

/-- Exponent and fraction bits. -/
def Kind.ebits : Kind → Nat
  | .float64 => 11 | .float32 => 8 | .float16 => 5 | .bfloat16 => 8 | _ => 8
def Kind.fbits : Kind → Nat
  | .float64 => 52 | .float32 => 23 | .float16 => 10 | .bfloat16 => 7 | _ => 23
def Kind.fbias (k : Kind) : Int := 2 ^ (k.ebits - 1) - 1

/-- The value an encoding stands for. -/
def decodeF (k : Kind) (bits : Nat) : FVal :=
  let m := bits % 2 ^ k.fbits
  let x := bits / 2 ^ k.fbits % 2 ^ k.ebits
  let neg := bits / 2 ^ (k.fbits + k.ebits) % 2 = 1
  if x = 2 ^ k.ebits - 1 then (if m = 0 then .inf neg else .nan (m / 2 ^ (k.fbits - 1) % 2 = 0))
  else if x = 0 then .fin neg m 1 (1 - k.fbias - k.fbits)
  else .fin neg (2 ^ k.fbits + m) 1 (x - k.fbias - k.fbits)

def signBit (k : Kind) (neg : Bool) : Nat := if neg then 2 ^ (k.fbits + k.ebits) else 0
def infF (k : Kind) (neg : Bool) : Nat := signBit k neg + (2 ^ k.ebits - 1) * 2 ^ k.fbits
def maxF (k : Kind) (neg : Bool) : Nat := infF k neg - 1
/-- The canonical quiet NaN (R81). -/
def nanF (k : Kind) : Nat := infF k false + 2 ^ (k.fbits - 1)
def oneF (k : Kind) : Nat := (2 ^ (k.ebits - 1) - 1) * 2 ^ k.fbits

/-- Flags of FXF (R83). -/
def flagNV : Nat := 1
def flagDZ : Nat := 2
def flagOF : Nat := 4
def flagUF : Nat := 8
def flagNX : Nat := 16

/-- Encoding of the exact magnitude m × 2^g that is normal in the kind and has at most the kind's precision. -/
def encodeNormal (k : Kind) (neg : Bool) (m : Nat) (g : Int) : Nat :=
  let l := Nat.log2 m
  let x : Int := l + g + k.fbias
  let frac := if l ≤ k.fbits then m * 2 ^ (k.fbits - l) else m / 2 ^ (l - k.fbits)
  signBit k neg + x.toNat * 2 ^ k.fbits + (frac - 2 ^ k.fbits)

/-- What overflow gives under a mode (R82). -/
def overflowF (k : Kind) (mode : Rnd) (neg : Bool) : Nat :=
  match mode with
  | .rtz => maxF k neg
  | .rup => if neg then maxF k neg else infF k neg
  | .rdn => if neg then infF k neg else maxF k neg
  | _ => infF k neg

/-- fit(x, n) for a float kind (R82): encoding and flags OF, UF, NX. -/
def fitF (k : Kind) (mode : Rnd) (v : FVal) : Nat × Nat :=
  match v with
  | .nan _ => (nanF k, 0)
  | .inf neg => (infF k neg, 0)
  | .fin neg num den e =>
    if num = 0 then (signBit k neg, 0)
    else
      let (m, g, x) := roundSig mode neg (k.fbits + 1) num den e
      let l : Int := Nat.log2 m + g
      let emin : Int := 1 - k.fbias
      if l < emin then
        let (m2, x2) := quantize mode neg (k.fbits + 1) m 1 g (emin - k.fbits)
        (signBit k neg + m2, if x || x2 then flagUF + flagNX else 0)
      else if k.fbias < l then (overflowF k mode neg, flagOF + flagNX)
      else (encodeNormal k neg m g, if x then flagNX else 0)

/-! ## Exact operations -/

def FVal.isNan : FVal → Bool | .nan _ => true | _ => false
def FVal.isSnan : FVal → Bool | .nan s => s | _ => false
def FVal.neg? : FVal → Bool | .nan _ => false | .inf n => n | .fin n _ _ _ => n
def FVal.isZero : FVal → Bool | .fin _ n _ _ => n = 0 | _ => false
def FVal.isInf : FVal → Bool | .inf _ => true | _ => false
def FVal.withSign (s : Bool) : FVal → FVal
  | .nan x => .nan x | .inf _ => .inf s | .fin _ n d e => .fin s n d e
def FVal.negate (v : FVal) : FVal := v.withSign (!v.neg?)
def FVal.ofInt (x : Int) : FVal := .fin (decide (x < 0)) x.natAbs 1 0

/-- NV when a NaN operand is signalling. -/
def nanFlags (a b : FVal) : Nat := if a.isSnan || b.isSnan then flagNV else 0

/-- Signed numerator over a common exponent and denominator. -/
def signedNum (neg : Bool) (n : Nat) : Int := if neg then -(n : Int) else (n : Int)

/-- Exact sum of finite values; `rdn` says that an exact zero from opposite signs is −0 (R82). -/
def addFin (rdn : Bool) (n1 : Bool) (a1 d1 : Nat) (e1 : Int) (n2 : Bool) (a2 d2 : Nat) (e2 : Int) : FVal :=
  let e := min e1 e2
  let x := signedNum n1 (a1 * d2 * pow2 (e1 - e)) + signedNum n2 (a2 * d1 * pow2 (e2 - e))
  if x = 0 then .fin (if n1 = n2 then n1 else rdn) 0 1 0
  else .fin (decide (x < 0)) x.natAbs (d1 * d2) e

def addV (rdn : Bool) (a b : FVal) : FVal × Nat :=
  match a, b with
  | .nan _, _ | _, .nan _ => (.nan false, nanFlags a b)
  | .inf x, .inf y => if x = y then (.inf x, 0) else (.nan false, flagNV)
  | .inf x, .fin .. => (.inf x, 0)
  | .fin .., .inf y => (.inf y, 0)
  | .fin n1 a1 d1 e1, .fin n2 a2 d2 e2 => (addFin rdn n1 a1 d1 e1 n2 a2 d2 e2, 0)

def mulV (a b : FVal) : FVal × Nat :=
  match a, b with
  | .nan _, _ | _, .nan _ => (.nan false, nanFlags a b)
  | .inf x, .inf y => (.inf (x != y), 0)
  | .inf x, .fin y n _ _ => if n = 0 then (.nan false, flagNV) else (.inf (x != y), 0)
  | .fin x n _ _, .inf y => if n = 0 then (.nan false, flagNV) else (.inf (x != y), 0)
  | .fin x n1 d1 e1, .fin y n2 d2 e2 => (.fin (x != y) (n1 * n2) (d1 * d2) (e1 + e2), 0)

def divV (a b : FVal) : FVal × Nat :=
  match a, b with
  | .nan _, _ | _, .nan _ => (.nan false, nanFlags a b)
  | .inf _, .inf _ => (.nan false, flagNV)
  | .inf x, .fin y _ _ _ => (.inf (x != y), 0)
  | .fin x _ _ _, .inf y => (.fin (x != y) 0 1 0, 0)
  | .fin x n1 d1 e1, .fin y n2 d2 e2 =>
    if n2 = 0 then (if n1 = 0 then (.nan false, flagNV) else (.inf (x != y), flagDZ))
    else (.fin (x != y) (n1 * d2) (d1 * n2) (e1 - e2), 0)

/-- Square root with a sticky bit below 130 bits of result (R152). -/
def sqrtV (a : FVal) : FVal × Nat :=
  match a with
  | .nan s => (.nan false, if s then flagNV else 0)
  | .inf n => if n then (.nan false, flagNV) else (.inf false, 0)
  | .fin neg num den e =>
    if num = 0 then (a, 0)
    else if neg then (.nan false, flagNV)
    else
      let n := if e % 2 = 0 then num else 2 * num
      let h := e / 2
      let big := n * 4 ^ 130 / den
      let r := isqrt big
      let exact := r * r = big ∧ n * 4 ^ 130 % den = 0
      if exact then (.fin false r 1 (h - 130), 0) else (.fin false (2 * r + 1) 1 (h - 131), 0)

/-- Order of two values that are no NaN: −1, 0 or 1; −0 = +0. -/
def cmpV (a b : FVal) : Int :=
  match a, b with
  | .inf x, .inf y => if x = y then 0 else if x then -1 else 1
  | .inf x, _ => if x then -1 else 1
  | _, .inf y => if y then 1 else -1
  | .fin n1 a1 d1 e1, .fin n2 a2 d2 e2 =>
    let e := min e1 e2
    let x := signedNum n1 (a1 * d2 * pow2 (e1 - e)) - signedNum n2 (a2 * d1 * pow2 (e2 - e))
    if x < 0 then -1 else if x = 0 then 0 else 1
  | _, _ => 0

/-- FMIN (R150): −0 below +0, one NaN gives the other operand. -/
def minV (a b : FVal) : FVal × Nat :=
  if a.isNan then (if b.isNan then .nan false else b, nanFlags a b)
  else if b.isNan then (a, nanFlags a b)
  else if cmpV a b < 0 then (a, 0) else if cmpV a b = 0 then (if a.neg? then a else b, 0) else (b, 0)

/-- FMAX (R150). -/
def maxV (a b : FVal) : FVal × Nat :=
  if a.isNan then (if b.isNan then .nan false else b, nanFlags a b)
  else if b.isNan then (a, nanFlags a b)
  else if cmpV b a < 0 then (a, 0) else if cmpV a b = 0 then (if a.neg? then b else a, 0) else (b, 0)

/-- A value rounded to an integral value (R152): a zero keeps the sign. -/
def roundInt (mode : Rnd) (v : FVal) : FVal :=
  match v with
  | .fin neg num den e => .fin neg (quantize mode neg 64 num den e 0).1 1 0
  | v => v

/-- The class of an encoding (R152). -/
def classF (k : Kind) (bits : Nat) : Nat :=
  let x := bits / 2 ^ k.fbits % 2 ^ k.ebits
  match decodeF k bits with
  | .nan s => if s then 8 else 9
  | .inf n => if n then 0 else 7
  | .fin n m _ _ =>
    if m = 0 then (if n then 3 else 4) else if x = 0 then (if n then 2 else 5) else (if n then 1 else 6)

/-! ## Approximations (R96, R97) -/

/-- rne12 of an exact positive value, as m × 2^g. -/
def rne12 (num den : Nat) (e : Int) : Nat × Int := let (m, g, _) := roundSig .rne false 12 num den e; (m, g)

/-- Fitting of an approximation to FP32 (R96): encoding and flags. -/
def fitApprox (neg : Bool) (m : Nat) (g : Int) : Nat × Nat :=
  if m = 0 then (signBit .float32 neg, 0)
  else
    let l : Int := Nat.log2 m + g
    if 128 ≤ l then (infF .float32 neg, flagOF)
    else if l < -126 then (signBit .float32 neg + (quantize .rne neg 24 m 1 g (-149)).1, flagUF)
    else (encodeNormal .float32 neg m g, 0)

/-- Sign, exponent and the fraction scaled to 23 bits of a finite non-zero FP32 encoding, subnormals normalised. -/
def normal32 (bits : Nat) : Int × Nat :=
  let m : Nat := bitsAt bits 0 23
  let x : Nat := bitsAt bits 23 8
  if x = 0 then
    let l : Nat := Nat.log2 m
    ((l : Int) - 149, m * 2 ^ (23 - l) - 2 ^ 23)
  else ((x : Int) - 127, m)

def rcpa (bits : Nat) : Nat × Nat :=
  match decodeF .float32 bits with
  | .nan s => (nanF .float32, if s then flagNV else 0)
  | .inf n => (signBit .float32 n, 0)
  | .fin n m _ _ =>
    if m = 0 then (infF .float32 n, flagDZ)
    else
      let (x, f) := normal32 bits
      let (t, g) := rne12 512 (513 + 2 * (f / 2 ^ 15)) 0
      fitApprox n t (g - x)

def rsqa (bits : Nat) : Nat × Nat :=
  match decodeF .float32 bits with
  | .nan s => (nanF .float32, if s then flagNV else 0)
  | .inf n => if n then (nanF .float32, flagNV) else (0, 0)
  | .fin n m _ _ =>
    if m = 0 then (infF .float32 n, flagDZ)
    else if n then (nanF .float32, flagNV)
    else
      let (x, f) := normal32 bits
      let q := x / 2
      let v := (257 + 2 * (f / 2 ^ 16)) * pow2 (x - 2 * q)
      let r := isqrt (256 * 4 ^ 100 / v)
      let (t, g) := rne12 (2 * r + 1) 1 (-101)
      fitApprox false t (g - q)

/-- 2 to the fraction 0.b of `n` bits, in units of 2^(−k), by repeated square roots of 2. -/
def exp2Go : (n k f root acc : Nat) → Nat
  | 0, _, _, _, acc => acc
  | n + 1, k, f, root, acc =>
    let root := isqrt (root * 2 ^ k)
    exp2Go n k (f % 2 ^ n) root (if 2 ^ n ≤ f then acc * root / 2 ^ k else acc)

/-- Signed floor of num × 2^e, and the fraction in units of 2^(−60) (exact for |x| ≥ 2^(−36)). -/
def exp2a (bits : Nat) : Nat × Nat :=
  match decodeF .float32 bits with
  | .nan s => (nanF .float32, if s then flagNV else 0)
  | .inf n => if n then (0, 0) else (infF .float32 false, 0)
  | .fin n m _ e =>
    if m = 0 then (oneF .float32, 0)
    else if 8 ≤ (Nat.log2 m : Int) + e then (if n then (0, flagUF) else (infF .float32 false, flagOF))
    else if (Nat.log2 m : Int) + e < -36 then (oneF .float32, 0)
    else
      let scaled := signedNum n (m * pow2 (e + 60))
      let i := scaled / 2 ^ 60
      let f := (scaled % 2 ^ 60).toNat
      if f = 0 then fitApprox false 1 i
      else
        let v := exp2Go 60 240 f (2 * 2 ^ 240) (2 ^ 240)
        let (t, g) := rne12 (2 * v + 1) 1 (-241)
        fitApprox false t (g + i)

/-- `n` fraction bits of log2 of y × 2^(−k), 1 ≤ y × 2^(−k) < 2, by repeated squaring. -/
def log2Go : (n k y acc : Nat) → Nat
  | 0, _, _, acc => acc
  | n + 1, k, y, acc =>
    let y := y * y / 2 ^ k
    if 2 * 2 ^ k ≤ y then log2Go n k (y / 2) (2 * acc + 1) else log2Go n k y (2 * acc)

def log2a (bits : Nat) : Nat × Nat :=
  match decodeF .float32 bits with
  | .nan s => (nanF .float32, if s then flagNV else 0)
  | .inf n => if n then (nanF .float32, flagNV) else (infF .float32 false, 0)
  | .fin n m _ _ =>
    if m = 0 then (infF .float32 true, flagDZ)
    else if n then (nanF .float32, flagNV)
    else
      let (x, f) := normal32 bits
      if f = 0 then
        (if x = 0 then (0, 0) else let (t, g) := rne12 x.natAbs 1 0; fitApprox (decide (x < 0)) t g)
      else
        let frac := log2Go 120 320 ((2 ^ 23 + f) * 2 ^ 297) 0
        let v : Int := 2 * (x * 2 ^ 120 + frac) + 1
        let (t, g) := rne12 v.natAbs 1 (-121)
        fitApprox (decide (v < 0)) t g

/-- Taylor sum of e^r − 1 with r in units of 2^(−k): term, index and remaining number of terms. -/
def expGo : (n k r i term acc : Nat) → Nat
  | 0, _, _, _, _, acc => acc
  | n + 1, k, r, i, term, acc =>
    let term := term * r / 2 ^ k / i
    expGo n k r (i + 1) term (acc + term)

/-- Repeated squaring of a fixed-point number. -/
def squareGo : (n k v : Nat) → Nat
  | 0, _, v => v
  | n + 1, k, v => squareGo n k (v * v / 2 ^ k)

/-- e^y in units of 2^(−480) for y = num × 2^e below 2^9. -/
def expFix (num : Nat) (e : Int) : Nat :=
  let (a, b) := fracUp num 1 (e + 480 - 16)
  squareGo 16 480 (2 ^ 480 + expGo 60 480 (a / b) 1 (2 ^ 480) 0)

def siga (bits : Nat) : Nat × Nat :=
  match decodeF .float32 bits with
  | .nan s => (nanF .float32, if s then flagNV else 0)
  | .inf n => if n then (0, 0) else (oneF .float32, 0)
  | .fin n m _ e =>
    if m = 0 then (oneF .float32 - 2 ^ 23, 0)
    else if 8 ≤ (Nat.log2 m : Int) + e then (if n then (0, flagUF) else (oneF .float32, 0))
    else
      let x := expFix m e
      -- n: 1 / (1 + e^|x|); otherwise e^|x| / (1 + e^|x|)
      let v := (if n then 2 ^ 480 else x) * 2 ^ 480 / (2 ^ 480 + x)
      let (t, g) := rne12 (2 * v + 1) 1 (-481)
      fitApprox false t g

def tanha (bits : Nat) : Nat × Nat :=
  match decodeF .float32 bits with
  | .nan s => (nanF .float32, if s then flagNV else 0)
  | .inf n => (signBit .float32 n + oneF .float32, 0)
  | .fin n m _ e =>
    if m = 0 then (signBit .float32 n, 0)
    else if 8 ≤ (Nat.log2 m : Int) + e then (signBit .float32 n + oneF .float32, 0)
    else if (Nat.log2 m : Int) + e < -40 then
      let (t, g) := rne12 (m * 2 ^ 200 - 1) 1 (e - 200)
      fitApprox n t g
    else
      let x := expFix m (e + 1)
      let v := (x - 2 ^ 480) * 2 ^ 480 / (x + 2 ^ 480)
      let (t, g) := rne12 (2 * v + 1) 1 (-481)
      fitApprox n t g

end Sys2Proof.Machine
end

