-- ==== Sys2Proof/Machine/Ops.lean ====
section
/-! DEFINITION. Machine/Ops.lean: what every instruction shares. The readiness, kind and row checks before an instruction acts
(R70, R77, R108, R113, R117), its operands and results (R64, R107), taking a trap (R295, R299) and the ways an instruction
ends. -/

namespace Sys2Proof.Machine

/-! ## Effects -/

/-- How an instruction's operation ends. -/
inductive Eff where
  /-- complete; the next instruction follows. -/
  | done (s : State)
  /-- complete; the next instruction is at `pc`. -/
  | jump (s : State) (pc : Word)
  /-- trap with nothing changed (R8). -/
  | trap (c : Cause) (v : Word)
  /-- trap with TRVAL the instruction word. -/
  | trapWord (c : Cause)
  /-- trap after a partial effect that the entry defines (R8, R192), or after an access that changed caches only. -/
  | trapIn (s : State) (c : Cause) (v : Word)
  /-- block with a wait and its operand (R48). -/
  | block (s : State) (w : Wait) (arg : Word)
  /-- stall: the instruction is tried again at the slot's next turn (R48). -/
  | stall (s : State)
  /-- complete; the slot no longer runs the thread, or the operation has set the slot itself. -/
  | leave (s : State)
  deriving DecidableEq, Repr

/-! ## Taking a trap (R295, R299) -/

/-- A call of the slot to another device is given up: an answer that comes later finds no one (R8). The place of a message that
was asked for is given back, at once or when it is granted. -/
def dropCall (s : State) (n k : Nat) : State :=
  let mine (r : RemoteOp) : Bool := r.core = n && r.slot = k
  let back := s.remoteOps.filter (fun r => mine r && r.place.isSome && r.reply.isSome)
  let stay := s.remoteOps.filter (fun r => !mine r || (r.place.isSome && r.reply.isNone))
  let s := { s with remoteOps := stay.map (fun r => if mine r then { r with core := orphan } else r) }
  back.foldl (fun s r => givePlaceBack s n r) s

/-- An instruction that traps stands in no queue of senders or callers any more. -/
def dropQueues (s : State) (n k : Nat) : State :=
  let waits (c : Core) : Bool := c.callQ.contains (n, k) || c.sendQ.any (fun w => w.2 = (n, k))
  let leave (c : Core) : Core := { c with callQ := c.callQ.filter (fun w => w ≠ (n, k)), sendQ := c.sendQ.filter (fun w => w.2 ≠ (n, k)) }
  { s with cores := s.cores.map (fun (c : Nat × Core) => (c.1, if waits c.2 then leave c.2 else c.2)) }

/-- A trap of a user slot: held, with the trap registers written, the thread TRAPPED and a TRAP event pending. -/
def trapUser (s : State) (n k : Nat) (len32 : Bool) (c : Cause) (v pc : Word) : State :=
  let x := s.slot n k
  let cause := BitVec.ofNat 64 (c.code + if len32 then 256 else 0)
  let s := dropQueues (dropCall s n k) n k
  let s := s.modSlot n k (fun x => { x with phase := .held, wait := .none, woken := false, stalled := false, latch := [], issued := false, demand := none,
                                            trCause := cause, trVal := v, trPc := pc, trTime := s.time })
  let s := s.modThread x.img (fun t => { t with state := 4 })
  let s := s.modCore n (fun c => { c with trapPend := c.trapPend ||| BitVec.ofNat 7 (2 ^ k) })
  traceAuto s n 16 k (BitVec.zeroExtend 64 x.handle) pc cause

/-- A trap of the system slot stops it and sends a machine-check record (R295). -/
def trapSystem (s : State) (n : Nat) (len32 : Bool) (c : Cause) (v pc : Word) : State :=
  let cause := BitVec.ofNat 64 (c.code + if len32 then 256 else 0)
  let s := dropQueues (dropCall s n 7) n 7
  let s := s.modSlot n 7 (fun x => { x with phase := .held, wait := .none, woken := false, stalled := false, latch := [], issued := false, killing := none,
                                            trCause := cause, trVal := v, trPc := pc, trTime := s.time })
  let s := s.modCore n (fun c => { c with stopped := true })
  traceAuto (machineCheck s 3 0 0 (some (ctxOf s n)) n) n 16 7 0 pc cause

/-- Taking a trap of cause `c` at address `pc` in slot `k` of core `n`. -/
def takeTrap (s : State) (n k : Nat) (len32 : Bool) (c : Cause) (v pc : Word) : State :=
  if k = 7 then trapSystem s n len32 c v pc else trapUser s n k len32 c v pc

/-! ## Ending an instruction -/

/-- The slot after its instruction completed: pc, slip (R106), nothing latched. -/
def advance (s : State) (pc : Word) (sl : Nat) : State :=
  s.modMe (fun x => { x with pc := pc, nextTurn := x.turn + 1 + sl, latch := [], issued := false, woken := false, stalled := false,
                             wait := .none, pptWait := false })

/-- The state after an instruction of length `len` with slip `sl` and word `word` ended with an effect. -/
def finish (s : State) (len sl : Nat) (word : Nat) (e : Eff) : State :=
  let (n, k) := s.cur
  let pc := s.me.pc
  match e with
  | .done t => advance t (pc + BitVec.ofNat 64 len) sl
  | .jump t p => advance t p sl
  | .trap c v => takeTrap s n k (len = 4) c v pc
  | .trapWord c => takeTrap s n k (len = 4) c (BitVec.ofNat 64 word) pc
  | .trapIn t c v => takeTrap t n k (len = 4) c v pc
  | .block t w a =>
    (t.modMe (fun x => { x with phase := .blocked, wait := w, waitArg := a, woken := false,
                                waitSince := if x.wait = w then x.waitSince else (t.core n).cycle })).modThread t.me.img
      (fun h => { h with state := 3 })
  | .stall t => t
  | .leave t => t

/-- The slot runs a thread or the system slot is in an event: the condition under which an instruction may issue. -/
def State.running (s : State) : Bool := s.me.phase == .running

/-- Run of an instruction's operation: an instruction with a forbidden field traps ILLEGAL (R112). -/
def run (i : Instr) (len sl : Nat) (body : State → Eff) (s : State) : Host.Outcome State Fault Refusal :=
  if s.running then
    .next (finish s len sl (encode i) (if i.wf then body s else .trapWord .illegal))
  else .fault .noThread

/-- A 32-bit instruction with its slip. -/
def run32 (i : Instr) (sl : BitVec 2) (body : State → Eff) (s : State) : Host.Outcome State Fault Refusal :=
  run i 4 sl.toNat body s

/-- A compact instruction: slip 0 (R105). -/
def run16 (i : Instr) (body : State → Eff) (s : State) : Host.Outcome State Fault Refusal := run i 2 0 body s

/-- A system instruction: in a user slot every function of R308's table traps PRIV first (R308; log entry 73). -/
def runSys (i : Instr) (sl : BitVec 2) (body : State → Eff) (s : State) : Host.Outcome State Fault Refusal :=
  if s.running ∧ s.cur.2 ≠ 7 then .next (finish s 4 sl.toNat (encode i) (.trapWord .priv)) else run i 4 sl.toNat body s

/-! ## Operands -/

/-- A name of the current slot's map, or ZERO. -/
def info (s : State) (n : Nat) : Info := (infoOf s s.cur.1 s.cur.2 n).getD zeroInfo
def declared (s : State) (n : Nat) : Bool := (infoOf s s.cur.1 s.cur.2 n).isSome

/-- An operand as an instruction that waits has read it (R108). -/
def latched (s : State) (n : Nat) : Option Latched := s.me.latch.find? (fun p => p.name = n)

/-- The bits of an operand: as read by an instruction that waits (R108), else as they stand. -/
def opBits (s : State) (n : Nat) : Nat :=
  match latched s n with
  | some p => p.bits.toNat
  | none => nameBits s s.cur.1 s.cur.2 n

/-- The width with which an operand is read: that of its bits (R108). -/
def opWidth (s : State) (n : Nat) : Nat :=
  match latched s n with
  | some p => p.width
  | none => (info s n).width

/-- val(n) of an integer name (R9). -/
def valI (s : State) (n : Nat) : Int := readPat (info s n).kind (opWidth s n) (opBits s n)
/-- val(n) of a float name. -/
def valF (s : State) (n : Nat) : FVal := decodeF (info s n).kind (opBits s n)
/-- val(n) mod 2^64. -/
def valW (s : State) (n : Nat) : Word := wordOf (valI s n)

/-! ## Checks before an instruction acts -/

/-- Result of a check: pass, or the way the instruction ends. -/
abbrev Check := Option Eff

/-- Readiness of one name that is read (R107, R108): the result issued last decides. An early consumer that reads the value
before it waits for a variable-latency result that will be that value. -/
def readyName (s : State) (n : Nat) : Check :=
  let mine := s.me.pending.filter (fun p => p.name = n)
  match mine.getLast? with
  | none => none
  | some p => match p.due with
    | none => some (.stall s)
    | some _ =>
      if p.turn ≤ s.me.turn then none
      else if s.me.amode.getLsbD 5 then some (.trap .slipshort (BitVec.ofNat 64 (n + (p.turn - s.me.turn) * 64)))
      else if mine.any (fun q => q.due.isNone) then some (.stall s)
      else none

def firstOf {α : Type} (f : α → Check) : List α → Check
  | [] => none
  | x :: r => match f x with | some e => some e | none => firstOf f r

/-- A kind requirement on a name: declared and accepted (R65, R117). -/
abbrev KindReq := Nat × (Info → Bool)

def kindName (s : State) (q : KindReq) : Check :=
  match infoOf s s.cur.1 s.cur.2 q.1 with
  | some i => if q.2 i then none else some (.trap .kind (BitVec.ofNat 64 q.1))
  | none => some (.trap .kind (BitVec.ofNat 64 q.1))

def anyK (_ : Info) : Bool := true
def intK (i : Info) : Bool := i.kind.isInt
def floatK (i : Info) : Bool := i.kind.isFloat
def f32K (i : Info) : Bool := i.kind == .float32
def kindIs (k : Kind) (i : Info) : Bool := i.kind == k

/-- Raw-row address of a row in the per-core window (R80), for POISON. -/
def rawRowAddr (n k : Nat) (g : Region) (row : Nat) : Word :=
  BitVec.ofNat 64 (Config.windowBase + n * Config.windowSize + 0x380000 +
    (match g with | .priv => k * 0x200 + row * 16 | .shared => 0x1000 + row * 16 | .pair => 0x1100 + row * 16))

def rowPoisoned (s : State) (n k : Nat) (g : Region) (row : Nat) : Bool :=
  match g with
  | .priv => (s.slot n k).poisoned.getLsbD row
  | .shared => (s.core n).sharedPoison.getLsbD row
  | .pair => (s.pair (pairOf n)).poison.getLsbD row

/-- A slot has a repack of a region under way. -/
def Slot.repacks (x : Slot) (g : Region) : Bool := match x.repack with | some r => r.region == g | none => false

/-- Some slot of a core has a repack of a region under way. -/
def coreRepacks (s : State) (n : Nat) (g : Region) : Bool := (s.core n).slots.any (fun x => x.2.repacks g)

/-- A region whose rows, as slot `k` names it, a repack of the slot, of the core or of the twin freezes (R77). -/
def frozen (s : State) (n k : Nat) (g : Region) : Bool :=
  match g with
  | .priv => (s.slot n k).repacks .priv
  | .shared => coreRepacks s n .shared
  | .pair => coreRepacks s n .pair || coreRepacks s (twinOf n) .pair

/-- A map declares names in a region that is frozen. -/
def mapFrozen (s : State) (n k : Nat) (m : List NameD) : Bool := m.any (fun d => frozen s n k d.region)

/-- The row of a name that is touched: filled on demand, frozen by a repack, and poisoned when it is read (R70, R77). -/
def touchName (s : State) (read : Bool) (n : Nat) : Check :=
  if n = 63 then none
  else
    let (c, k) := s.cur
    let i := info s n
    let row := i.off / 128
    if i.region = .priv ∧ k < 7 ∧ s.me.resident.getLsbD row = false then some (.stall (s.modMe (fun x => { x with demand := some row })))
    else if k < 7 ∧ frozen s c k i.region then some (.stall s)
    else if read && rowPoisoned s c k i.region row then some (.trap .poison (rawRowAddr c k i.region row))
    else none

/-- The order of R113: readiness of the names read, kinds in the order given, then the rows of the names read and
written. -/
def pre (s : State) (reads writes : List Nat) (kinds : List KindReq) (body : Eff) : Eff :=
  match firstOf (readyName s) reads with
  | some e => e
  | none => match firstOf (kindName s) kinds with
    | some e => e
    | none => match firstOf (touchName s true) reads with
      | some e => e
      | none => match firstOf (touchName s false) writes with
        | some e => e
        | none => body

/-- The operands of an instruction as it reads them. -/
def latchOf (s : State) (reads : List Nat) : List Latched :=
  reads.map (fun n => { name := n, bits := BitVec.ofNat 64 (opBits s n), width := opWidth s n })

/-- The operand values of an instruction that waits are kept as it read them in the cycle after its issue (R108). -/
def latchOn (s t : State) (reads : List Nat) : State :=
  t.modMe (fun x => { x with latch := if x.latch = [] then latchOf s reads else x.latch, issued := false })

/-- An instruction that blocks or stalls goes on later with the operand values it has read. -/
def holdLatch (s : State) (reads : List Nat) : Eff → Eff
  | .block t w a => .block (latchOn s t reads) w a
  | .stall t => .stall (latchOn s t reads)
  | .done t => .done t
  | .jump t p => .jump t p
  | .trap c v => .trap c v
  | .trapWord c => .trapWord c
  | .trapIn t c v => .trapIn t c v
  | .leave t => .leave t

/-- An effect outside the slot's names waits until everything the slot issued has committed, with the operand values
read first (R108, R109). -/
def settle (s : State) (reads : List Nat) (body : Eff) : Eff :=
  if s.me.pending = [] then holdLatch s reads body else .stall ((latchOn s s reads).modMe (fun x => { x with issued := true }))

/-! ## Results (R107) -/

/-- A result that the slot will write, behind those it issued before (R107). -/
def push (s : State) (d bits : Nat) (due : Option Nat) (turn : Nat) : State :=
  s.modMe (fun x => { x with pending := x.pending ++
    [{ name := d, bits := BitVec.ofNat 64 bits, due := due, turn := turn, born := (s.core s.cur.1).cycle }] })

/-- Result bits of a fixed-latency instruction of latency `l`. -/
def putBits (s : State) (d l bits : Nat) : State :=
  if d = 63 then s else push s d bits (some ((s.core s.cur.1).cycle + 8 * (l - 1) + 3)) (s.me.turn + l)

/-- put(d, x) for an integer destination (R9, R64). -/
def putI (s : State) (d l : Nat) (x : Int) : Eff :=
  if d = 63 then .done s
  else
    let i := info s d
    match fitInt i.kind i.width i.mode x with
    | none => .trap .width (widthVal x d)
    | some y => .done (putBits s d l (modPow y i.width))

/-- A variable-latency result: it is written when it arrives (R107). -/
def putLate (s : State) (d bits : Nat) : State := if d = 63 then s else push s d bits none s.me.turn

def putILate (s : State) (d : Nat) (x : Int) : Eff :=
  if d = 63 then .done s
  else
    let i := info s d
    match fitInt i.kind i.width i.mode x with
    | none => .trap .width (widthVal x d)
    | some y => .done (putLate s d (modPow y i.width))

/-- put(d, x) with the fit made on the state in force before the effect, then the effect. -/
def putThen (s : State) (d : Nat) (x : Int) (effect : State → State) : Eff :=
  match putILate s d x with
  | .done _ => match putILate (effect s) d x with
    | .done t => .done t
    | e => e
  | e => e

/-- Result of a scalar float operation: flags trap under FTRAP (R84), else they are set and the value is written. -/
def putF (s : State) (d l : Nat) (r : Nat × Nat) : Eff :=
  if r.2 ≠ 0 ∧ s.me.amode.getLsbD 6 then .trap .float (BitVec.ofNat 64 (r.2 + d * 32))
  else .done ((putBits s d l r.1).modMe (fun x => { x with fxf := x.fxf ||| BitVec.ofNat 64 r.2 }))

/-! ## Tags (R141, R177) -/

/-- Tags cleared; one that a completion sets in the same cycle stays set (R141, R177). -/
def clearTags (s : State) (v : Word) : State := s.modMyCore (fun c => { c with tags := (c.tags &&& ~~~v) ||| c.tagsNow })

/-! ## Commits (R75, R107) -/

/-- The first pending result whose cycle has come. -/
def dueNow (c : Nat) (p : Pending) : Bool := match p.due with | some d => d ≤ c | none => false

/-- Every due result of a slot written, in issue order. -/
def commitList (s : State) (n k : Nat) : List Pending → State
  | [] => s
  | p :: r => commitList (if dueNow (s.core n).cycle p then writeBits s n k p.name p.bits.toNat else s) n k r

/-- The results that stay pending when those that `gone` names end: each ends those of its name that were issued before it,
since the later value is the one that remains (R108). -/
def withoutPending (gone : Pending → Bool) : List Pending → List Pending
  | [] => []
  | p :: r => if gone p || r.any (fun q => q.name = p.name && gone q) then withoutPending gone r else p :: withoutPending gone r

/-- The results that stay pending once the due ones are written. -/
def stillPending (c : Nat) (l : List Pending) : List Pending := withoutPending (dueNow c) l

def commitSlot (s : State) (n k : Nat) : State :=
  let x := s.slot n k
  if x.pending.any (dueNow (s.core n).cycle) then
    (commitList s n k x.pending).modSlot n k (fun x => { x with pending := stillPending (s.core n).cycle x.pending })
  else s

def commitCore (s : State) (n : Nat) : State := (List.range 8).foldl (fun s k => commitSlot s n k) s

/-! ## Widths and repacks (R76 to R78) -/

/-- Names of a region with their current widths and bit offsets, as one slot's map or a signature gives them. -/
def regionLayout (s : State) (n k : Nat) (g : Region) : List (Nat × Nat) :=
  let ws := (currentNames s n (s.slot n k).map g).map (·.width)
  match pack (rowsFor k g) ws with
  | .ok os => os.zip ws
  | .error _ => []

/-- Rows touched by a change from one layout to another: a name there has a different place or width (R77). -/
def touchedRows (old new : List (Nat × Nat)) : List Nat :=
  (List.range (old.length)).foldl (fun acc i =>
    match old[i]?, new[i]? with
    | some (o, w), some (p, v) => if o = p ∧ w = v then acc else insertNat (p / 128) (insertNat (o / 128) acc)
    | _, _ => acc) []

/-- The bits of a list of rows. -/
def rowsMask (rows : List Nat) : Nat := rows.foldl (fun m r => m ||| (2 ^ 128 - 1) * 2 ^ (128 * r)) 0

/-- The region's bits moved from one layout to another; `bits` replaces the value of the resized name. -/
def moveBits (rows : Nat) (old new : List (Nat × Nat)) (j bits : Nat) : Nat :=
  (List.range old.length).foldl (fun acc i =>
    match old[i]?, new[i]? with
    | some (o, w), some (p, v) => acc + (if i = j then bits else bitsAt rows o w) % 2 ^ v * 2 ^ p
    | _, _ => acc) 0

/-- Rows that receive a name of a poisoned row. -/
def movePoison (poison : Nat) (old new : List (Nat × Nat)) : Nat :=
  (List.range old.length).foldl (fun acc i =>
    match old[i]?, new[i]? with
    | some (o, _), some (p, _) => if bitsAt poison (o / 128) 1 = 1 then acc ||| 2 ^ (p / 128) else acc
    | _, _ => acc) 0

/-- A name's current width or mode changed in the slot's map or in the signature that holds it (R129, R130). -/
def modifyAt {α : Type} (f : α → α) : List α → Nat → List α
  | [], _ => []
  | x :: r, 0 => f x :: r
  | x :: r, i + 1 => x :: modifyAt f r i

def modifyName (s : State) (n k name : Nat) (f : NameD → NameD) : State :=
  match (s.slot n k).map[name]? with
  | none => s
  | some d =>
    let j := regionPos (s.slot n k).map name d.region
    match d.region with
    | .priv => s.modSlot n k (fun x => { x with map := modifyAt f x.map name })
    | .shared => s.modCore n (fun c => { c with sig := modifyAt f c.sig j })
    | .pair => s.modPair (pairOf n) (fun p => { p with sig := modifyAt f p.sig j })

/-- Pending writes of other slots to names of a region that a repack must let land first (R77): latest cycle, and
whether one has no cycle yet. -/
def inFlight (s : State) (n k : Nat) (g : Region) : List Pending :=
  let ofCore (m : Nat) := (s.core m).slots.flatMap (fun x =>
    if m = n ∧ x.1 = k then [] else x.2.pending.filter (fun p => match nameInfo s m x.1 p.name with | some i => i.region = g | none => false))
  match g with | .priv => [] | .shared => ofCore n | .pair => ofCore n ++ ofCore (twinOf n)

end Sys2Proof.Machine
end

