-- ==== Sys2Proof/Machine/Tasks.lean ====
section
/-! DEFINITION. Machine/Tasks.lean: what the dispatcher, the estates and kills share: wakes, messages to channels, run lists
(R43, R328), images (R30, R31), launch records and counters (R37, R39, R40, R395), completion (R42, R330), kills (R306) and
the conveyance of one estate entry (R205 to R208). -/

namespace Sys2Proof.Machine

/-! ## Wakes (R48, R49) -/

/-- Every listed core, tower, thread or task changed alike. -/
def State.mapCores (s : State) (f : Core → Core) : State := { s with cores := s.cores.map (fun (c : Nat × Core) => (c.1, f c.2)) }
def State.mapTowers (s : State) (f : Tower → Tower) : State := { s with towers := s.towers.map (fun (t : Nat × Tower) => (t.1, f t.2)) }
def State.mapThreads (s : State) (f : Thread → Thread) : State := { s with threads := s.threads.map (fun (t : Nat × Thread) => (t.1, f t.2)) }
def State.mapTasks (s : State) (f : Task → Task) : State := { s with tasks := s.tasks.map (fun (t : Nat × Task) => (t.1, f t.2)) }

/-- Every slot of a core that waits as `f` says is woken; a wake is a hint. -/
def wakeCore (s : State) (n : Nat) (f : Slot → Bool) : State :=
  s.modCore n (fun c => { c with slots := c.slots.map (fun x => (x.1, if x.2.phase == .blocked && f x.2 then { x.2 with woken := true } else x.2)) })

def wakeAll (s : State) (w : Wait) : State :=
  (s.cores.map (·.1)).foldl (fun s n => wakeCore s n (fun x => x.wait == w)) s

/-- The slot that has waited longest in RECV on a channel is woken; a message that has woken a slot which has had no turn since
wakes no other (R51). -/
def wakeRecv (s : State) (n ch : Nat) : State :=
  let all := (s.core n).slots.filter (fun x => x.2.phase == .blocked && x.2.wait == .recv && x.2.waitArg.toNat = ch)
  let ws := all.filter (fun x => !x.2.woken)
  let c := (s.core n).chan ch
  if c.ready.length + (c.travel.filter (·.headed)).length ≤ (all.filter (·.2.woken)).length then s
  else match ws.foldl (fun best x => match best with
      | none => some x
      | some b => if x.2.waitSince < b.2.waitSince then some x else some b) none with
  | none => s
  | some (k, _) => s.modSlot n k (fun x => { x with woken := true })

/-! ## Channels (R170, R174) -/

def chanCount (s : State) (n ch : Nat) : Nat := ((s.core n).chan ch).ready.length + ((s.core n).chan ch).travel.length

/-- A message whose place is reserved and whose flits travel. -/
def reserveMsg (s : State) (n ch : Nat) (m : Msg) : State :=
  s.modCore n (fun c => c.setChan ch { c.chan ch with travel := (c.chan ch).travel ++ [m] })

/-- The slot that blocked first on a place that has come free is woken. -/
def wakeOf (s : State) (n k : Nat) (w : Wait) : State :=
  s.modSlot n k (fun x => if x.phase = .blocked ∧ x.wait = w then { x with woken := true } else x)

/-- A place of a channel can be taken by a sender: there is room, and no other sender waits before it (R56). -/
def placeFree (s : State) (m ch n k : Nat) : Bool :=
  decide (chanCount s m ch < 4) &&
    (match (s.core m).sendQ.find? (fun w => w.1 = ch) with | none => true | some w => w.2 = (n, k))

/-- A sender that waits is noted once, in order. A slot stands under its core; the dispatcher with a USER message of a thread
under 1024, with the reply of a callee under 1025 and with a USER message of a dying thread under 1026, each with the thread's image; a sender on another device with the
number of its request under 2048 and its device and core. -/
def noteSender (s : State) (m ch n k : Nat) : State :=
  s.modCore m (fun c => if c.sendQ.contains (ch, n, k) then c else { c with sendQ := c.sendQ ++ [(ch, n, k)] })

def dropSender (s : State) (m ch n k : Nat) : State :=
  s.modCore m (fun c => { c with sendQ := c.sendQ.filter (fun w => w ≠ (ch, n, k)) })

/-- The held USER message of a thread stands whole in channel 15 of its core (R205). -/
def giveUser (s : State) (img : Nat) : State :=
  let t := s.thread img
  match t.userMsgs with
  | [] => s
  | m :: r =>
    let msg : Msg := { flits := [m.1], info := m.2.1, rel := some m.2.2, fromCore := t.lastCore, fromSlot := 7, headed := true }
    wakeRecv ((s.modCore t.lastCore (fun c => c.setChan 15 { c.chan 15 with ready := (c.chan 15).ready ++ [msg] })).modThread img
      (fun t => { t with userMsgs := r })) t.lastCore 15

/-- The party of a message from another device. -/
def farParty (dev src : Nat) : Nat := 1024 * (dev + 1) + src

/-- A place reserved for a message of another device, and the answer to its sender (R171). -/
def grantPlace (s : State) (n ch dev src id : Nat) : State :=
  sendPacket (reserveMsg s n ch { flits := [], info := 0, rel := none, fromCore := farParty dev src, fromSlot := id })
    5 0 (logicalOf s n) src dev 0 0 (leBytes 8 id ++ leBytes 16 1 ++ leBytes 1 0)

/-- The senders that wait for a channel are served in order while it has room: a slot is woken, a USER message takes its
place, a sender on another device gets one, and the reply of a callee goes when its thread is conveyed on (R56). -/
def serveSenders (s : State) (n ch : Nat) : (fuel : Nat) → State
  | 0 => s
  | f + 1 =>
    if 4 ≤ chanCount s n ch then s
    else match (s.core n).sendQ.find? (fun w => w.1 = ch) with
      | none => s
      | some (_, m, k) =>
        if m = 1024 then
          let s := s.modCore n (fun c => { c with sendQ := c.sendQ.erase (ch, m, k) })
          serveSenders (giveUser s k) n ch f
        else if 2048 ≤ m then
          let s := s.modCore n (fun c => { c with sendQ := c.sendQ.erase (ch, m, k) })
          serveSenders (grantPlace s n ch ((m - 2048) / 1024) (m % 1024) k) n ch f
        else if m < 1024 then wakeOf s m k .send
        else s

def wakeSender (s : State) (n ch : Nat) : State := serveSenders s n ch (s.core n).sendQ.length

/-- A place in the task queue can be taken by a caller: there is room, and no other caller waits before it (R56). -/
def callFree (s : State) (m n k : Nat) : Bool :=
  decide ((s.core m).taskQ.length < 16) && (match (s.core m).callQ with | [] => true | w :: _ => w = (n, k))

def noteCaller (s : State) (m n k : Nat) : State :=
  s.modCore m (fun c => if c.callQ.contains (n, k) then c else { c with callQ := c.callQ ++ [(n, k)] })

/-- The caller that has waited longest is woken when a place frees. -/
def wakeCaller (s : State) (m : Nat) : State :=
  match (s.core m).callQ with
  | [] => s
  | (n, k) :: _ => if (s.core m).taskQ.length < 16 then wakeOf s n k .callat else s

/-- Information word of a message (R172). -/
def msgInfo (flits slot : Nat) (remote : Bool) (core dev : Nat) (reply : Bool) : Word :=
  BitVec.ofNat 64 ((flits - 1) + slot * 4 + (if remote then 32 else 0) + core * 64 + dev * 2 ^ 16 + (if reply then 2 ^ 25 else 0) + 2 ^ 31)

/-! ## Run lists (R43, R327, R328) -/

def runRoom (s : State) (n : Nat) : Bool := (s.core n).runList.length < 256

/-- A list with an entry that reaches it in this cycle: behind those of its own source and of the sources before it, and before
the first of a later source at its priority (R327, log entry 77). -/
def insertRun (l : List RunEntry) (e : RunEntry) : List RunEntry :=
  let first := l.takeWhile (fun x => !(x.prio = e.prio && x.since = e.since && decide (e.cls < x.cls)))
  first ++ e :: l.drop first.length

/-- A core's run list has room, and nothing waits in the overflow queue to enter it (R328). -/
def runOpen (s : State) (n : Nat) : Bool := runRoom s n && (s.tower (towerOf n)).overflow.all (fun x => x.1 ≠ n)

/-- The overflow queue of a core's tower has no place left (R328). -/
def overflowFull (s : State) (n : Nat) : Bool := decide (4096 ≤ (s.tower (towerOf n)).overflow.length)

/-- A thread entry for a core's run list would have to wait at its source (R56, R328). -/
def runBlocked (s : State) (n : Nat) : Bool := !runOpen s n && overflowFull s n

/-- An entry that reaches a core's run list; a thread entry that finds the list full enters the tower's overflow queue. -/
def enterRun (s : State) (n : Nat) (e : RunEntry) : State :=
  if runOpen s n then s.modCore n (fun c => { c with runList := insertRun c.runList e })
  else s.modTower (towerOf n) (fun t => { t with overflow := t.overflow ++ [(n, e)] })

/-- A thread enters a core's run list at its effective priority. -/
def enterThread (s : State) (n img : Nat) : State :=
  let t := s.thread img
  enterRun s n { what := .thread img, prio := t.prio, aged := t.aged, since := (s.core n).cycle }

/-- The head of the highest non-empty priority (R44). -/
def runHead (es : List RunEntry) : Option RunEntry :=
  (es.find? (fun e => e.prio = 3)).or ((es.find? (fun e => e.prio = 2)).or ((es.find? (fun e => e.prio = 1)).or (es.find? (fun e => e.prio = 0))))

/-- An entry removed wherever it stands. -/
def removeEntry (s : State) (w : EntryKind) : State :=
  (s.mapCores (fun c => { c with runList := c.runList.filter (fun e => e.what ≠ w) })).mapTowers
    (fun t => { t with overflow := t.overflow.filter (fun e => e.2.what ≠ w) })

def removeRun (s : State) (n : Nat) (w : EntryKind) : State :=
  s.modCore n (fun c => { c with runList := c.runList.filter (fun e => e.what ≠ w) })

/-- A thread's entry removed from every run list and overflow queue (R306). -/
def removeThreadEntry (s : State) (img : Nat) : State := removeEntry s (.thread img)

/-! ## Images (R30, R31) -/

/-- The image at FREEHEAD taken, one indivisible step at the header's home. -/
def takeImage (s : State) (n : Nat) : Option (State × BitVec 32) :=
  let base := (s.core n).imgBase.toNat
  let h := (physRead s base 4).1
  if h = 0 then none
  else
    let next := (physRead s (base + h * 0x400 + 0x20) 4).1
    let cnt := (physRead s (base + 4) 4).1
    some (imageWrite (imageWrite s n base 4 next) n (base + 4) 4 (cnt + 2 ^ 32 - 1), BitVec.ofNat 32 h)

def takeImages (s : State) (n : Nat) : Nat → Option (State × List (BitVec 32))
  | 0 => some (s, [])
  | k + 1 => match takeImage s n with
    | none => none
    | some (s, h) => match takeImages s n k with
      | none => none
      | some (s, hs) => some (s, h :: hs)

/-- IMGBASE of the context of a thread's image (R28). -/
def imageBase (img : Nat) (h : BitVec 32) : Nat := img - 0x400 * h.toNat

/-- The image of an exited or killed thread returned to the head of the list: only PARENT is rewritten. -/
def returnImage (s : State) (n img : Nat) (h : BitVec 32) : State :=
  let base := imageBase img h
  let head := (physRead s base 4).1
  let cnt := (physRead s (base + 4) 4).1
  imageWrite (imageWrite (imageWrite s n (base + h.toNat * 0x400 + 0x20) 4 head) n base 4 h.toNat) n (base + 4) 4 (cnt + 1)

/-- The header of an image that the dispatcher takes for a new thread (R30), and the thread's record; `base` is the IMGBASE of
its context. -/
def newThread (s : State) (n base : Nat) (h : BitVec 32) (pc mapPtr launch : Word) (parent : BitVec 32) (t : Thread) : State :=
  let img := base + h.toNat * 0x400
  let est := (physRead s (base + 0x10) 8).1 + 0x800 * h.toNat
  let s := imageWords s n img [pc.toNat, mapPtr.toNat]
  let s := imageWrite s n (img + 0x10) 4 0
  let s := imageWrite s n (img + 0x14) 4 (statusWord 1 0 t.prio t.aged (t.copy = some 1))
  let s := imageWrite s n (img + 0x20) 4 parent.toNat
  let s := imageWords s n (img + 0x28) [launch.toNat, est, 0]
  let s := imageWrite s n (img + 0x2B0) 8 t.defHeir.toNat
  let s := imageWords s n est (List.replicate 256 0)
  s.setThread img { t with handle := h, state := 1, lastCore := n }

/-! ## Launch records (R34 to R37) -/

/-- Fields of the 128 bytes of a record. -/
def recCtl (r : BitVec 1024) : Nat := wideGet r 128 32
def recLevel (r : BitVec 1024) : Nat := wideGet r 128 3
def recPrio (r : BitVec 1024) : Nat := wideGet r 132 2
def recDual (r : BitVec 1024) : Bool := r.getLsbD 134
def recCkpt (r : BitVec 1024) : Bool := r.getLsbD 135
def recIndirect (r : BitVec 1024) : Bool := r.getLsbD 136
def recTokScope (r : BitVec 1024) : Nat := wideGet r 137 3
def recArgRows (r : BitVec 1024) : Nat := wideGet r 176 3
def recSuccN (r : BitVec 1024) : Nat := wideGet r 160 16
def recCount (r : BitVec 1024) : Nat := wideGet r 192 64
def recHeir (r : BitVec 1024) : Word := BitVec.ofNat 64 (wideGet r 256 64)
def recSucc (r : BitVec 1024) : Nat := wideGet r 320 64
def recDeps (r : BitVec 1024) : Nat := wideGet r 384 32

/-- A record of 128 bytes at its home, with its poison. -/
def readRecord (s : State) (pa : Nat) : BitVec 1024 × Bool :=
  let l := coherentLine s (lineBase (canonPa s pa))
  (l.data, l.poison ≠ 0)

/-- The record as a core sees it: the sectors that it has written in its L1 over what the home has. -/
def ownRecord (s : State) (n pa : Nat) : BitVec 1024 :=
  let r := (readRecord s pa).1
  match findLine (s.core n).l1 (lineBase (canonPa s pa)) with
  | some l => BitVec.ofNat 1024 (mergeBytes r.toNat l.data.toNat (sectorBytes l.dirty.toNat))
  | none => r

/-- A record field written by the dispatcher. -/
def writeRecord (s : State) (pa off v : Nat) (ctx : BitVec 16) : State := physWrite s (pa + off) 4 v 0 (some ctx)

def taskCode : TaskState → Nat
  | .pending => 0 | .ready => 1 | .dealt => 2 | .done => 3 | .killed => 4 | .discarded => 5 | .refused => 6

/-- STATUS of a task written into its record (R36). -/
def writeStatus (s : State) (id : Nat) : State :=
  let t := s.task id
  writeRecord s t.recordPa 0x34 (taskCode t.state + (if t.bereaved then 16 else 0) + (if t.excess then 32 else 0)) t.ctx

/-- Units of a level in a partition, each with its sites in ascending logical order (R33, R41, R384). -/
def unitsOf (s : State) (part level : Nat) : List (List Nat) :=
  let sites := partSites s part
  let key (n : Nat) : Nat := match level with | 0 | 1 => n | 2 => pairOf n | 3 => clusterOf n | 4 => towerOf n | _ => 0
  ((sites.map key).eraseDups).map (fun k => sites.filter (fun n => key n = k))

/-- CTRAREA of a core: offset and number of 4-byte places (R395). -/
def ctrArea (s : State) (n : Nat) : Nat × Nat :=
  let w := s.ctrlWord (0x1000 * n + 0x40) 0
  (fld w 12 9 * 4096, fld w 21 9 * 1024)

/-- The queue a task of a thread belongs to (R331). -/
def queueOfThread (s : State) (img : Nat) : Option Nat :=
  match (s.thread img).task with | some id => (s.task id).queue | none => none

/-- The checks of R37 with those of R332, R375 and R384: the record is refused. A heir kind above 4 (R199) counts as a
reserved value of the field (log entry 74). `pa` is the record's translation. -/
def recordRefused (s : State) (va pa : Nat) (ctx : BitVec 16) (queue : Option Nat) : Bool :=
  let r := (readRecord s pa).1
  let part := ctxPart s ctx.toNat
  va % 128 ≠ 0 || recLevel r = 7 || decide (4 < recArgRows r) || decide (4 < wideGet r 256 8) || wideGet r 131 1 ≠ 0 || wideGet r 140 20 ≠ 0 || wideGet r 179 13 ≠ 0
    || (!recIndirect r && wideGet r 224 32 ≠ 0) || wideGet r 267 21 ≠ 0 || wideGet r 480 32 ≠ 0
    || (recIndirect r && recCount r % 4 ≠ 0)
    || (match homeCore s pa with | none => true | some n => (ctrArea s n).2 = 0)
    || (recDual r && (decide (3 < recLevel r) || decide ((unitsOf s part 3).length < 2)))
    || !ctxValid s ctx.toNat || !s.partOpen.getLsbD part
    || (match queue with | some q => (s.hostQueue q).state ≠ .open_ | none => false)

/-- A free counter place of a core's area, freely chosen among the free ones (R395). -/
def freePlace (s : State) (n : Nat) : Option Nat :=
  let (base, k) := ctrArea s n
  let start := if k = 0 then 0 else Config.freeNat s.tick % k
  ((List.range k).find? (fun i => !(s.core n).places.contains (base + 4 * ((start + i) % k)))).map (fun i => base + 4 * ((start + i) % k))

def entryTask (s : State) (id : Nat) : RunEntry :=
  let t := s.task id
  { what := .task id, prio := t.prio, aged := false, since := (s.core t.home).cycle }

def freeCounter (s : State) (id : Nat) : State :=
  let t := s.task id
  match t.ctr with
  | none => s
  | some c => (s.modCore t.home (fun x => { x with places := x.places.filter (· ≠ c) })).modTask id (fun t => { t with ctr := none })

/-- A reply of a task that a host submitted (R325). -/
def replyBytes (s : State) (kind : Nat) (tag : BitVec 32) (addr : Word) (lstatus : Nat) (c1 c2 c3 : Nat) : BitVec 512 :=
  BitVec.ofNat 512 (kind + tag.toNat * 2 ^ 32 + addr.toNat * 2 ^ 64 + lstatus * 2 ^ 128 + c1 % 2 ^ 32 * 2 ^ 160 + c2 % 2 ^ 32 * 2 ^ 192
    + c3 % 2 ^ 32 * 2 ^ 224 + s.time.toNat * 2 ^ 448)

/-- Status word of an endpoint. -/
def endpointWord (s : State) (e : Nat) : Word :=
  BitVec.ofNat 64 (physRead s ((s.ctrlWord 0x408698 0).toNat + 8 * e) 8).1

def queueWord (s : State) (q : Nat) : Word := s.ctrlWord (0x400000 + 8 * q) 0
def queueCtx (s : State) (q : Nat) : BitVec 16 := BitVec.ofNat 16 (fld (queueWord s q) 0 16)
def queueEndpoint (s : State) (q : Nat) : Nat := fld (queueWord s q) 32 12

/-- A reply on its queue's ordered flow. It leaves by a port that is up, freely chosen, or is held as other packets are (R374,
R375, log entry 3); for an endpoint that was revoked it is dropped (R379). -/
def sendReply (s : State) (q : Nat) (b : BitVec 512) : State :=
  if fld (endpointWord s (queueEndpoint s q)) 1 1 = 1 then s
  else
    let r : Reply := { queue := q, bytes := b, seq := (s.hostQueue q).seq, stamp := s.time.setWidth 40 }
    let s := s.modQueue q (fun h => { h with seq := h.seq + 1 })
    if fabricOpen s && s.repliesHeld.isEmpty then
      { s.ticked with replies := s.replies ++ [{ r with plane := (nextUp s (Config.freeNat s.tick)).getD 0 }] }
    else { s with repliesHeld := s.repliesHeld ++ [r] }

def statusOf (s : State) (id : Nat) : Nat :=
  let t := s.task id
  taskCode t.state + (if t.bereaved then 16 else 0) + (if t.excess then 32 else 0)

/-- The reply of a task. It waits until the writes to other devices of the cores that ran the task are performed, which its release
at SYSTEM takes in (R264, R324), and while its queue tears down for the end of that (R331 step 5). -/
def taskReply (s : State) (id kind : Nat) : State :=
  let t := s.task id
  match t.queue with
  | some q =>
    if !t.byHost then s
    else if (s.hostQueue q).state = .tearing ∨ t.ran.any (putsOut s) then s.modTask id (fun t => { t with reply := some kind })
    else sendReply s q (replyBytes s kind t.tag t.record (statusOf s id) 0 0 0)
  | none => s

/-- The replies that waited for such writes. -/
def lateReplies (s : State) : State :=
  s.tasks.foldl (fun s x => match x.2.reply, x.2.queue with
    | some kind, some q =>
      if (s.hostQueue q).state = .tearing ∨ x.2.ran.any (putsOut s) then s
      else taskReply (s.modTask x.1 (fun t => { t with reply := none })) x.1 kind
    | _, _ => s) s

def countTask (s : State) (id : Nat) : State :=
  let t := s.task id
  match t.queue with
  | none => s
  | some q => s.modQueue q (fun h => match t.state with
    | .done => { h with done := h.done + 1 }
    | .killed => { h with killed := h.killed + 1 }
    | .discarded => { h with discarded := h.discarded + 1 }
    | _ => h)

/-- A core whose context is `ctx`: the home core when it is, else the first. -/
def coreOfCtx (s : State) (home : Nat) (ctx : BitVec 16) : Option Nat :=
  if ctxOf s home = ctx then some home else (s.cores.find? (fun c => BitVec.ofNat 16 c.2.ctxId.toNat = ctx)).map (·.1)

/-- Physical address of a dispatcher's access in a context, none on a fault. -/
def ctxTranslate (s : State) (home : Nat) (ctx : BitVec 16) (va : Nat) : Option Nat :=
  match coreOfCtx s home ctx with
  | none => none
  | some n => match translate s n true .load va with
    | .ok _ pa _ => some pa
    | .trap _ _ => none

/-- A dispatcher's read of an aligned word in a context: its value and poison, none on a fault (R330, R340). A word in the
memory of another device is free (log entry 10). -/
def ctxRead (s : State) (home : Nat) (ctx : BitVec 16) (va size : Nat) : Option (Nat × Nat) :=
  match ctxTranslate s home ctx va with
  | none => none
  | some pa => match placeOf s pa with
    | .home _ | .pool _ => some (physRead s pa size)
    | .window w off => if 0x200000 < off + size ∨ windowShut s home w then none else some (physRead s pa size)
    | .remote _ _ => some (Config.freeBits s.tick va (8 * size) % 2 ^ (8 * size), 0)
    | .ctrl _ | .hole => none

/-- The successors of a task: physical addresses of their records. The spec says nothing of a SUCCPTR word or a record address
that does not translate, whose successor is left out, nor of a poisoned word, which counts as it stands (log entry 78). -/
def successors (s : State) (id : Nat) : List Nat :=
  let t := s.task id
  (List.range (recSuccN t.snap)).filterMap (fun i =>
    match ctxRead s t.home t.ctx (recSucc t.snap + 8 * i) 8 with
    | none => none
    | some w => (ctxTranslate s t.home t.ctx w.1).map (canonPa s))

/-- Threads of a level-6 task of a domain of several devices are placed on other devices too (R33, R277). -/
def placedFar (s : State) (id : Nat) : Bool :=
  recLevel (s.task id).snap = 6 && !(domainOf s (s.task id).ctx.toNat).all (· = s.devId)

/-- A predecessor is noted in a pending task (R278). -/
def notePred (s : State) (pa : Nat) (p : Pred) : State :=
  s.mapTasks (fun t => if t.recordPa = pa && t.state == .pending then { t with owes := t.owes ++ [p] } else t)

/-- The end of a task (R42, R330): its STATUS, its place, its successors' decrements, its count and reply. -/
def endTask (s : State) (id : Nat) (st : TaskState) (kind : Nat) : State :=
  let s := s.modTask id (fun t => { t with state := st })
  let s := writeStatus s id
  let succ := successors s id
  let s := { s with decrements := s.decrements ++ succ.map (fun p => ⟨p, decide (st ≠ TaskState.done), (s.task id).home⟩), tick := s.tick + 1 }
  let pred : Pred := { placed := (s.task id).cores, ran := (s.task id).ran, far := placedFar s id }
  let s := if (s.task id).byHost then pred.ran.foldl (fun s n => release s n 7) s else s
  let s := succ.foldl (fun s pa => notePred s pa pred) s
  taskReply (countTask (freeCounter s id) id) id kind

/-- A task that is discarded: the record is read for its successors when it was not read before. -/
def discardTask (s : State) (id : Nat) (kind : Nat) : State :=
  let t := s.task id
  let s := if t.state == .pending then s.modTask id (fun t => { t with snap := (readRecord s t.recordPa).1 }) else s
  endTask ((removeEntry s (.task id)).modTask id (fun t => { t with waits := false })) id .discarded kind

/-- DISPATCH: the record or the count could not be read (R330). -/
def dispatchFault (s : State) (id : Nat) (data : Word) : State :=
  let t := s.task id
  discardTask (inboxSend s t.home (inboxHead 0x24 0 0 0) data t.record) id 6

/-- A task's queue tears down. -/
def taskTearing (s : State) (id : Nat) : Bool :=
  match (s.task id).queue with | some q => (s.hostQueue q).state = .tearing | none => false

/-- A READY task enters its home core's run list, or waits at its source while that has no room: task entries take no place of
the overflow queue (R56, R328). -/
def enterTask (s : State) (id : Nat) : State :=
  let t := s.task id
  if runOpen s t.home then enterRun (s.modTask id (fun t => { t with waits := false })) t.home (entryTask s id)
  else s.modTask id (fun t => { t with waits := true })

/-- The record of a task as the dispatcher reads it, none when its address does not translate. The core that translates is one
that holds the task's context; while none does, the address stands as it was translated at the submission. -/
def recordAt (s : State) (id : Nat) : Option Nat :=
  let t := s.task id
  if (coreOfCtx s t.home t.ctx).isNone then some t.recordPa else ctxTranslate s t.home t.ctx t.record.toNat

/-- A record without the words that the dispatcher alone writes, STATUS and CTRLOC (R34). -/
def givenPart (r : BitVec 1024) : BitVec 1024 := wideSet r (8 * 0x34) 64 0

/-- Bits of a record that changed since its submission are free (R7, R34; log entry 76). -/
def heldRecord (s : State) (id : Nat) (r : BitVec 1024) : BitVec 1024 :=
  let diff := givenPart r ^^^ (s.task id).given
  if diff = 0 then r else (r &&& ~~~diff) ||| (BitVec.ofNat 1024 (Config.freeBits s.tick (s.task id).recordPa 1024) &&& diff)

/-- A counter at 0 makes the task ready: the record is read once and the count resolved, with the acquire of an indirect
count at TOKSCOPE (R40). -/
def taskReady (s : State) (id : Nat) : State :=
  let t := s.task id
  match taskTearing s id, recordAt s id with
  | true, _ => discardTask s id 5
  | false, none => dispatchFault s id t.record
  | false, some pa =>
    let (r, bad) := readRecord s pa
    let r := heldRecord s id r
    if bad then dispatchFault s id t.record
    else
      let count : Option Nat :=
        if recIndirect r then
          (if recCount r % 4 ≠ 0 then none
           else match ctxRead s t.home t.ctx (recCount r) 4 with
             | none => none
             | some (v, p) => if p ≠ 0 then none else some v)
        else some (recCount r % 2 ^ 32)
      match count with
      | none => dispatchFault (s.modTask id (fun t => { t with snap := r })) id (BitVec.ofNat 64 (recCount r))
      | some c =>
        let s := if recIndirect r then acquire s t.home (recTokScope r) else s
        let s := s.ticked.modTask id (fun t => { t with snap := r, count := c, prio := recPrio r })
        if c = 0 then endTask s id .done 2
        else
          enterTask (writeStatus (s.modTask id (fun t => { t with state := .ready })) id) id

/-- Acceptance of a record (R37): the counter place, CTRLOC, the counter and STATUS; at once ready when DEPS is 0. The
task's start acquires at a scope that takes in the cores of `preds`, the spawner's (R263). -/
def acceptTask (s : State) (record : Word) (pa : Nat) (ctx : BitVec 16) (home : Nat) (parent : BitVec 32) (queue : Option Nat)
    (byHost : Bool) (tag : BitVec 32) (place : Nat) (preds : List Pred) : State :=
  let id := s.nextTask
  let deps := recDeps (readRecord s pa).1
  let s := { s with nextTask := id + 1, tick := s.tick + 1 }
  let s := s.setTask id { record := record, recordPa := pa, ctx := ctx, home := home, ctr := some place, parent := parent,
                          queue := queue, byHost := byHost, tag := tag, owes := preds, given := givenPart (readRecord s pa).1 }
  let s := s.modCore home (fun c => { c with places := place :: c.places })
  let s := writeRecord s pa 0x38 place ctx
  let s := physWrite s (spadAddr home place) 4 deps 0 (some ctx)
  let s := writeStatus s id
  if deps = 0 then taskReady s id else s

/-- A refused record shows REFUSED (R37). -/
def refuseRecord (s : State) (pa : Nat) (ctx : BitVec 16) : State := writeRecord s pa 0x34 6 ctx

/-- The task with a record at `pa`: the newest. -/
def taskOfRecord (s : State) (pa : Nat) : Option Nat :=
  ((s.tasks.filter (fun t => t.2.recordPa = pa)).getLast?).map (·.1)

/-- One decrement performed at a counter (R39, R395, R330); one that reaches a counter of a queue that tears down is dropped
(R331 step 4). -/
def decrementTask (s : State) (pa : Nat) (bereaved : Bool) : State :=
  match taskOfRecord s pa with
  | none => s
  | some id =>
    let t := s.task id
    if taskTearing s id then s
    else match t.ctr with
    | none =>
      let st := (physRead s (pa + 0x34) 4).1 % 16
      if st = 3 ∨ st = 4 then writeStatus (s.modTask id (fun t => { t with excess := true })) id else s
    | some place =>
      let a := spadAddr t.home place
      let c := (physRead s a 4).1
      if c = 0 then writeStatus (s.modTask id (fun t => { t with excess := true })) id
      else
        let s := physWrite s a 4 (c - 1) 0 (some t.ctx)
        let s := if bereaved then writeStatus (s.modTask id (fun t => { t with bereaved := true })) id else s
        if c = 1 then taskReady s id else s

/-- The narrowest scope that encloses a list of cores (R262, R277). -/
def scopeOf : List Nat → Nat
  | [] => 0
  | n :: r => r.foldl (fun m x => max m (if x = n then 1 else enclosing n 0 x 0)) 1

/-! ## Placement (R41, R277, R332) -/

/-- A member of a group: its core, its index, and the copy of a redundant task. -/
structure Member where
  core : Nat
  idx  : Nat
  copy : Option Nat
  deriving DecidableEq, Repr

/-- User slots that a core's SLOTEN enables. -/
def slotCount (s : State) (n : Nat) : Nat := ((List.range 7).filter (fun k => (s.core n).slotEn.getLsbD k)).length

/-- The members that a unit's cores give. -/
def unitMembers (s : State) (level : Nat) (unit_ : List Nat) (copy : Option Nat) : List Member :=
  match level with
  | 0 => (unit_.take 1).map (fun n => ⟨n, 0, copy⟩)
  | 1 => unit_.flatMap (fun n => (List.range (slotCount s n)).map (fun i => ⟨n, i, copy⟩))
  | _ => (unit_.zip (List.range unit_.length)).map (fun x => ⟨x.1, x.2, copy⟩)

/-- The unit of copy 1 (R332). -/
def copyUnit (s : State) (part level : Nat) (unit_ : List Nat) : List Nat :=
  let clusters := unitsOf s part 3
  let nc := clusters.length
  let cl := clusterOf (unit_.headD 0)
  let c := (posOf cl (clusters.map (fun u => clusterOf (u.headD 0)))).getD 0
  let there := clusters.getD ((c + (nc + 1) / 2) % nc) []
  let units := unitsOf s part level
  let inCl (us : List Nat) : List (List Nat) := units.filter (fun u => us.contains (u.headD 0))
  let p := (posOf unit_ (inCl (clusters.getD c []))).getD 0
  let us := inCl there
  us.getD (p % us.length) []
where
  posOf {α : Type} [DecidableEq α] (x : α) : List α → Option Nat
  | [] => none
  | y :: r => if x = y then some 0 else (posOf x r).map (· + 1)

/-- The members of group `g` of a task, with the size of one copy. -/
def groupMembersOf (s : State) (id g : Nat) : List Member × Nat :=
  let t := s.task id
  let part := ctxPart s t.ctx.toNat
  let level := recLevel t.snap
  let units := unitsOf s part level
  let unit_ := units.getD (g % units.length) []
  if recDual t.snap then
    let a := unitMembers s level unit_ (some 0)
    (a ++ unitMembers s level (copyUnit s part level unit_) (some 1), a.length)
  else
    let a := unitMembers s level unit_ none
    (a, a.length)

/-- The cores of a task's placement: those that its threads have been dealt to, and those of the groups that a held deal has still
to enter; groups beyond the first of each unit meet no further core (R277, R326). -/
def placement (s : State) (id : Nat) : List Nat :=
  let t := s.task id
  match (s.towers.flatMap (fun w => w.2.deals)).find? (fun d => d.task = id) with
  | none => t.cores
  | some d =>
    let units := (unitsOf s (ctxPart s t.ctx.toNat) (recLevel t.snap)).length
    let rest := (List.range (min (t.count - d.group) units)).flatMap (fun i => (groupMembersOf s id (d.group + i)).1.map (·.core))
    t.cores ++ (rest.filter (fun n => !t.cores.contains n)).eraseDups

/-! ## A thread leaves (R42, R164, R306) -/

/-- A slot without a thread: what belongs to the slot stays. -/
def emptySlot (x : Slot) : Slot :=
  { x with phase := .free, wait := .none, waitArg := 0, woken := false, img := 0, handle := 0, map := [], rows := 0, resident := 0,
           dirty := 0, poisoned := 0, demand := none, pending := [], latch := [], issued := false, repack := none, borrow := none, stalled := false, preTimer := false,
           preTerm := false, defer0 := none, defer1 := none, farWait := false, waitPa := 0, pptWait := false, restore := false }

/-- Rows of a thread that no longer runs are dropped from its last core (R71). -/
def dropRows (s : State) (img : Nat) : State :=
  s.mapCores (fun c => { c with former := c.former.filter (fun f => f.img ≠ img) })

/-- One thread of a task has left its slot; the last one ends the task (R42, R330). -/
def threadLeft (s : State) (id : Nat) (killed : Bool) : State :=
  let s := s.modTask id (fun t => { t with live := t.live - 1, anyKilled := t.anyKilled || killed })
  let t := s.task id
  let held := s.towers.any (fun w => w.2.deals.any (fun d => d.task = id))
  if t.live = 0 ∧ held = false ∧ t.state = .dealt then
    (if t.anyKilled then endTask s id .killed 4 else endTask s id .done 2)
  else s

/-- STATE EXITED, or KILLED with the WAIT and WAITARG of a thread that waited (R52), the slot and the handle freed, the task
accounted (R164 step 5, R306 step 5). -/
def threadGone (s : State) (img : Nat) : State :=
  let t := s.thread img
  let killed := t.killVal.isSome
  let s := match t.killVal with
    | some (v, time) =>
      let pc := if t.inSlot then (s.slot t.lastCore t.lastSlot).pc.toNat else (physRead s img 8).1
      trapRecord s t.lastCore img 0x17 v.toNat pc time.toNat none none
    | none => s
  let x := s.slot t.lastCore t.lastSlot
  let wait := if !killed then 0 else if t.inSlot then x.wait.code else bitsAt (physRead s (img + 0x14) 4).1 4 4
  let s := setThreadState s t.lastCore img (if killed then 7 else 6) wait
  let s := if killed && t.inSlot then imageWrite s t.lastCore (img + 0x38) 8 (if wait = 0 then 0 else x.waitArg.toNat) else s
  let s := if t.inSlot then s.modSlot t.lastCore t.lastSlot emptySlot else s
  let s := returnImage (dropRows s img) t.lastCore img t.handle
  let s := { s.modThread img (fun t => { t with inSlot := false, dying := false, stopping := none, estate := [], reserved := 0, callee := none }) with
             dying := s.dying.filter (· ≠ img) }
  match t.task with
  | some id => threadLeft s id killed
  | none => s

/-! ## Estates (R198 to R200) -/

def estateFull (t : Thread) : Bool := decide (64 ≤ t.estate.length + t.reserved)

/-- The table in memory is exact while the thread is out of a slot (R198). -/
def estateSync (s : State) (img : Nat) : State :=
  let t := s.thread img
  if img ≠ 0 ∧ !t.inSlot ∧ 1 ≤ t.state ∧ t.state ≤ 5 then
    writeEstate s t.lastCore img (BitVec.ofNat 64 (physRead s (img + 0x30) 8).1)
  else s

/-- A new holding with the thread's next acquisition sequence; the system slot (image 0) has no estate. -/
def estateAdd (s : State) (img : Nat) (object : Word) (kind : Nat) (heirWord : Word) : State :=
  if img = 0 then s
  else estateSync (s.modThread img (fun t =>
    { t with
      estate := { object := object, kind := kind, heirKind := fld heirWord 0 8, level := fld heirWord 8 3,
                  heir := BitVec.ofNat 32 (fld heirWord 32 32), seq := t.estSeq, time := s.time } :: t.estate
      estSeq := t.estSeq + 1 })) img

/-- An automatic entry takes the thread's default heir (R199). -/
def estateAuto (s : State) (img : Nat) (object : Word) (kind : Nat) : State := estateAdd s img object kind (s.thread img).defHeir

/-- The most recent entry that satisfies `f` leaves: entries stand most recent first. -/
def dropFirst {α : Type} (f : α → Bool) : List α → List α
  | [] => []
  | x :: r => if f x then r else x :: dropFirst f r

def estateDrop (s : State) (img : Nat) (f : EstEntry → Bool) : State :=
  estateSync (s.modThread img (fun t => { t with estate := dropFirst f t.estate })) img

def liveThread (s : State) (img : Nat) : Bool :=
  let t := s.thread img
  decide (1 ≤ t.state) && decide (t.state ≤ 5) && !t.dying && !estateFull t

/-! ## Matrix commands in a core's queue (R242, R248) -/

def isMatrix : CmdOp → Bool
  | .mma .. | .topk .. | .aclr .. | .drain .. | .asave .. | .arst .. | .restore .. | .marker => true
  | _ => false

def matrixCount (s : State) (n : Nat) : Nat := ((s.core n).cmds.filter (fun c => isMatrix c.op)).length

/-- A command that names a tile. -/
def cmdTile (c : CmdOp) (t : Nat) : Bool :=
  match c with
  | .mma _ u .. => u = t
  | .topk u .. => u = t
  | .drain u _ => u = t
  | .aclr m => m.getLsbD t
  | .asave m _ => m.getLsbD t
  | .arst m _ => m.getLsbD t
  | .restore m _ => m.getLsbD t
  | _ => false

/-- The 4 KiB pieces of the four tiles at an address that needs no translation. -/
def tilePages (base : Nat) : List Nat := (List.range 16).map (fun i => base + 0x1000 * i)

/-- The restore of the SAVED tiles of the thread in a slot, from its image's save area. -/
def restoreCmd (s : State) (n k : Nat) : Cmd :=
  let x := s.slot n k
  { op := .restore (BitVec.ofNat 4 (fld x.licst 4 4)) (tilePages (physRead s (x.img + 0x18) 8).1), slot := k, img := x.img, handle := x.handle,
    ctx := (s.thread x.img).ctx, seq := (s.core n).cmdSeq, user := true, rd := [], wr := [], tag := none, barrier := none, barPa := none,
    chunk := none, released := false, started := false, startAt := (s.core n).cycle, doneAt := 0, seed := 0, fmts := (s.core n).bfmtNext, faulted := none, park := none,
    est := none, contrib := [], landed := 0, inswitch := false, waits := false, mcast := false }

/-- A restore that is due enters the queue once it has a place. At the tiles that it restores it stands after every command
accepted before it, and before those of the thread that wait for it (R248). -/
def tryRestore (s : State) (n k : Nat) : State :=
  let x := s.slot n k
  let r := restoreCmd s n k
  let wait (d : Cmd) : Cmd := if d.waits && d.img = x.img then { d with behind := some r.seq } else d
  if x.restore && decide (matrixCount s n < 8) then
    (s.modCore n (fun c => { c with cmds := c.cmds.map wait ++ [r], cmdSeq := c.cmdSeq + 1 })).modSlot n k (fun x => { x with restore := false })
  else s

def tryRestores (s : State) (n : Nat) : State := (List.range 7).foldl (fun s k => tryRestore s n k) s

/-- Commands that waited for a thread's licence wait no more. -/
def clearWaits (s : State) (img : Nat) : State :=
  s.mapCores (fun c => { c with cmds := c.cmds.map (fun d => if d.img = img then { d with waits := false, owed := 0, behind := none } else d) })

/-! ## Licences (R245 to R248) -/

/-- The slot in which a requester is now: a thread may have moved since its request. -/
def reqSlot (s : State) (r : LicReq) : Option (Nat × Nat) :=
  if r.img = 0 then some (r.core, r.slot)
  else if (s.thread r.img).inSlot then some ((s.thread r.img).lastCore, (s.thread r.img).lastSlot)
  else none

def modReq (s : State) (r : LicReq) (f : Slot → Slot) : State :=
  match reqSlot s r with
  | some (n, k) => s.modSlot n k f
  | none => s

/-- The holder that stops holding the licence, or is not due any more, loses the request that the term's end made (R247). -/
def undue (s : State) (p : Nat) : State :=
  match (s.pair p).holder with
  | some h => modReq s h (fun y => { y with preTerm := false })
  | none => s

/-- The tiles of a core that the next grant of a thread finds unpredictable: those that were not saved (R256; log entry 3). -/
def loseTiles (s : State) (n saved : Nat) : State :=
  let one (c : Core) (t : Nat) : Core :=
    if saved.testBit t then c
    else { c with tiles := wideSet c.tiles (131072 * t) 131072 (Config.freeBits s.tick t 131072 % 2 ^ 131072)
                  tilePoison := wideSet c.tilePoison (4096 * t) 4096 0 }
  (s.modCore n (fun c => (List.range 4).foldl one c)).ticked

/-- A grant: the term starts, the LICENCE entry takes its place, OWED clears, a LICW or MMA that waits is woken, and the
SAVED tiles of a thread that owed the request are restored; its others are unpredictable. -/
def licGrant (s : State) (p : Nat) (r : LicReq) : State :=
  let s := undue s p
  let x := match reqSlot s r with | some (n, k) => s.slot n k | none => {}
  let s := match reqSlot s r with | some (n, _) => if fld x.licst 2 1 = 1 then loseTiles s n (fld x.licst 4 4) else s | none => s
  let due := fld x.licst 2 1 = 1 && fld x.licst 4 4 ≠ 0
  let s := s.modPair p (fun x => { x with lic := .held, holder := some r, grantee := none, termN := 0, granted := (s.core r.core).cycle,
                                          fifo := x.fifo.filter (fun q => !sameReq q r) })
  let s := modReq s r (fun x =>
      { x with licst := setFld x.licst 2 1 0, restore := x.restore || due,
               woken := x.woken || (x.phase == .blocked && x.wait == .licw) })
  let s := if r.img = 0 then s else s.modThread r.img (fun t => { t with reserved := t.reserved - 1 })
  let s := estateAuto s r.img (BitVec.ofNat 64 p) 3
  if due then (match reqSlot s r with | some (n, k) => tryRestore s n k | none => s) else clearWaits s r.img

/-- The licence stops being held: DRAINING until the former holder's MMA and MMAD commands complete. A request that came
only from the term's end is withdrawn. -/
def licRelease (s : State) (p : Nat) (grantee : Option LicReq) : State :=
  match (s.pair p).holder with
  | none => s
  | some h => (undue s p).modPair p (fun x => { x with lic := .draining, holder := none, grantee := grantee, drains := some h })

/-- A request leaves the FIFO. DUE returns to HELD when the last waiter has withdrawn. -/
def licWithdrawReq (s : State) (p : Nat) (r : LicReq) : State :=
  let s := s.modPair p (fun x => { x with fifo := x.fifo.filter (fun q => !sameReq q r) })
  let x := s.pair p
  if x.lic = .due ∧ x.fifo = [] ∧ x.holder.isSome then undue (s.modPair p (fun x => { x with lic := .held })) p else s

def licWithdraw (s : State) (p img : Nat) : State := licWithdrawReq s p { core := 0, slot := 0, img := img, handle := 0 }

/-- A request enters at the tail of the FIFO. -/
def licEnter (s : State) (p : Nat) (r : LicReq) : State := s.modPair p (fun x => { x with fifo := x.fifo ++ [r] })

/-- The LICENCE entry of a thread is dropped. -/
def licDrop (s : State) (img : Nat) : State := if img = 0 then s else estateDrop s img (fun e => e.kind = 3)

/-- A holder gives the licence up and is owed it: its entry's place stays reserved (R245, R247). -/
def licOwe (s : State) (p : Nat) (r : LicReq) (grantee : Option LicReq) : State :=
  let s := licRelease (licDrop s r.img) p grantee
  let s := modReq s r (fun x => { x with licst := setFld x.licst 2 1 1, restore := false })
  s.modThread r.img (fun t => { t with reserved := t.reserved + 1 })

/-- A thread is in the same unit of a level as a core. -/
def sameUnit (level n m : Nat) : Bool :=
  match level with
  | 0 | 1 => n = m | 2 => pairOf n = pairOf m | 3 => clusterOf n = clusterOf m | 4 => towerOf n = towerOf m | _ => true

/-- What one heir names, relative to the thread at `img` (R200). -/
def heirOne (s : State) (img kind level : Nat) (h : BitVec 32) : Heir :=
  let t := s.thread img
  let base := imageBase img t.handle
  let thr (h : Nat) : Heir := if h = 0 then .none else .thread (base + h * 0x400)
  match kind with
  | 1 => thr h.toNat
  | 2 => thr (physRead s (img + 0x20) 4).1
  | 3 =>
    let ms := s.threads.filter (fun x => x.2.task = t.task && t.task.isSome && x.2.group = t.group && sameUnit level x.2.lastCore t.lastCore
      && liveThread s x.1)
    match ms.foldl (fun best x => match best with
        | none => some x
        | some b => if x.2.member < b.2.member then some x else some b) Option.none with
    | some x => .thread x.1
    | Option.none => .none
  | 4 => .system t.lastCore
  | _ => .none

/-- The heir followed through default heirs: none after four steps without a live heir (R200). -/
def resolveHeir (s : State) (self : Nat) : (fuel at_ kind level : Nat) → BitVec 32 → Heir
  | 0, _, _, _, _ => .none
  | f + 1, at_, kind, level, h =>
    match heirOne s at_ kind level h with
    | .none => .none
    | .system n => .system n
    | .thread i =>
      if i = self then .none
      else if liveThread s i then .thread i
      else
        let d := (s.thread i).defHeir
        resolveHeir s self f i (fld d 0 8) (fld d 8 3) (BitVec.ofNat 32 (fld d 32 32))

/-- +8 word of an estate entry (R198). -/
def entryWord (e : EstEntry) : Word :=
  BitVec.ofNat 64 (e.kind + e.heirKind * 2 ^ 8 + e.seq.toNat * 2 ^ 16 + e.level * 2 ^ 32)

/-- The object of a conveyance found with the dying thread's rights: its physical address, or the cause (R208). The core's own
copy of the line is written back and dropped (R201). -/
def conveyTarget (s : State) (n : Nat) (e : EstEntry) (size : Nat) : Except (Cause × Word) (State × Nat) :=
  if e.object.toNat % (if e.kind = 4 then 128 else if e.kind = 5 then 32 else size) ≠ 0 then .error (.misalign, e.object)
  else match translate s n true (if e.kind = 4 then .load else .update) e.object.toNat with
    | .trap c v => .error (if c = .pfload then .pfstore else c, v)
    | .ok s pa _ =>
      match placeOf s pa with
      | .home _ | .pool _ =>
        let s := toHome s n (lineBase (canonPa s pa))
        if (physRead s pa size).2 ≠ 0 then .error (.poison, BitVec.ofNat 64 (lineBase pa)) else .ok (s, pa)
      | .window c off =>
        if 0x200000 < off + size ∨ windowShut s n c then .error (.buserr, BitVec.ofNat 64 pa)
        else if (physRead s pa size).2 ≠ 0 then .error (.poison, BitVec.ofNat 64 (lineBase pa)) else .ok (s, pa)
      | .ctrl _ => .error (.protect, e.object)
      | .remote _ _ => if e.kind = 4 then .error (.buserr, BitVec.ofNat 64 pa) else .ok (s, pa)
      | .hole => .error (.buserr, BitVec.ofNat 64 pa)

/-! ## Operations at other devices (R342, R373): the codes are those of log entry 9 -/

def opArrive : Nat := 22
/-- The conditional writes of R206. -/
def opConveyLock : Nat := 23
def opConveyPromise : Nat := 24
/-- TORN set in a barrier object. -/
def opTorn : Nat := 25

/-- A physical address in the memory of another device. -/
def isFar (s : State) (pa : Nat) : Bool := match placeOf s pa with | .remote _ _ => true | _ => false

/-- The operation of a party that awaits its reply. -/
def pendingCall (s : State) (n k : Nat) : Option RemoteOp := s.remoteOps.find? (fun r => r.core = n && r.slot = k)

/-- An operation at another device sent for a party, which awaits the reply. -/
def sendCall (s : State) (n : Nat) (key : Nat × Nat) (dev off op size shape a b guard : Nat) (heir : Heir) : State :=
  let id := s.nextRemote
  let s := { s with nextRemote := id + 1, remoteOps := s.remoteOps ++ [{ id := id, core := key.1, slot := key.2, reply := none, heir := heir }] }
  sendAtom s n dev id off op size shape a b guard

/-- An operation at a physical address of another device that awaits no reply. -/
def tellFar (s : State) (n pa op size shape a b : Nat) : State :=
  match placeOf s pa with
  | .remote dev off => sendAtom s n dev noReply off op size shape a b 0
  | _ => s

/-- One arrival at a barrier object (R181): the phase before, and the object updated. -/
def barrierArrive (s : State) (pa : Nat) (bereaved : Bool) (ctx : Option (BitVec 16)) : State × Nat :=
  let expected := (physRead s pa 4).1
  let arrived := ((physRead s (pa + 4) 4).1 + 1) % 2 ^ 32
  let phase := (physRead s (pa + 8) 4).1
  let flags := (physRead s (pa + 12) 4).1
  let pass := expected ≤ arrived
  let s := physWrite s (pa + 4) 4 (if pass then 0 else arrived) 0 ctx
  let s := if pass then physWrite s (pa + 8) 4 ((phase + 1) % 2 ^ 32) 0 ctx else s
  let s := if bereaved then physWrite s (pa + 12) 4 (flags ||| 1) 0 ctx else s
  (if pass then wakeAll s .waitb else s, phase)

/-- TORN set in a barrier object (R178). -/
def barrierTorn (s : State) (pa : Nat) (ctx : Option (BitVec 16)) : State :=
  physWrite s (pa + 12) 4 ((physRead s (pa + 12) 4).1 ||| 2) 0 ctx

/-- An engine's TORN, arrival or chunk bits at a barrier object, on this device or another (R178, R228, R232). -/
def tornAt (s : State) (n pa : Nat) (ctx : Option (BitVec 16)) : State :=
  if isFar s pa then tellFar s n pa opTorn 32 0 0 0 else barrierTorn s pa ctx

def arriveAt (s : State) (n pa : Nat) (torn : Bool) (ctx : Option (BitVec 16)) : State :=
  if isFar s pa then tellFar s n pa opArrive 32 0 0 (if torn then 2 else 0)
  else (barrierArrive (if torn then barrierTorn s pa ctx else s) pa false ctx).1

def chunksAt (s : State) (n pa mask : Nat) (ctx : Option (BitVec 16)) : State :=
  if isFar s pa then tellFar s n (pa + 16) 2 8 (16 * 8) mask 0
  else wakeAll (physWrite s (pa + 16) 8 ((physRead s (pa + 16) 8).1 ||| mask) 0 ctx) .waitch

/-- The senders that `gone` picks wait for no channel any more, and who waited behind is served. -/
def quitSenders (s : State) (gone : Nat × Nat × Nat → Bool) : State :=
  let sends := s.cores.flatMap (fun c => (c.2.sendQ.filter gone).map (fun w => (c.1, w.1)))
  let s := s.mapCores (fun c => { c with sendQ := c.sendQ.filter (fun w => !gone w) })
  sends.foldl (fun s x => wakeSender s x.1 x.2) s

/-- Result of conveying an entry: the state, whether the object no longer named the thread, a fault of the object operation
(R208), or a reply of another device that is awaited. -/
inductive Convey where
  | ok (s : State)
  | stale (s : State)
  | fault (c : Cause) (v : Word)
  | wait (s : State)
  deriving DecidableEq, Repr

/-- A USER message for a heir, which carries a release at the scope of its conveyance: it takes its place in channel 15, for which the conveyance waits behind the senders before it
as the sender `from_`, or it is held while the heir is out of a slot (R56, R205, R316; log entry 77). -/
def userMessage (s : State) (from_ : Nat × Nat) (heir : Nat) (e : EstEntry) (dead : BitVec 32) (fromCore fromSlot scope : Nat) : Convey :=
  let flit := BitVec.ofNat 128 (e.object.toNat + dead.toNat * 2 ^ 64 + e.seq.toNat * 2 ^ 96 + 7 * 2 ^ 112)
  let info := msgInfo 1 fromSlot false (logicalOf s fromCore) s.devId false
  let t := s.thread heir
  let mine (w : Nat × Nat × Nat) : Bool := w.2 = from_
  if !t.inSlot then .ok ((quitSenders s mine).modThread heir (fun t => { t with userMsgs := t.userMsgs ++ [(flit, info, scope)] }))
  else if placeFree s t.lastCore 15 from_.1 from_.2 ∧ t.userMsgs = [] then
    .ok (reserveMsg (quitSenders s mine) t.lastCore 15
      { flits := [flit], info := info, rel := some scope, fromCore := fromCore, fromSlot := fromSlot })
  else if (s.core t.lastCore).sendQ.contains (15, from_) then .wait s
  else .wait (noteSender (quitSenders s mine) t.lastCore 15 from_.1 from_.2)

/-- Records of a conveyance, with which its party waits before a full inbox (R303). -/
def heirlessRecord (s : State) (n : Nat) (key : Nat × Nat) (t : Thread) (e : EstEntry) : State :=
  inboxSendBy s n (some key) (inboxHead 0x0C 0 0 t.handle.toNat) e.object (entryWord e)
def conveyRecord (s : State) (n : Nat) (key : Nat × Nat) (t : Thread) (e : EstEntry) : State :=
  inboxSendBy s n (some key) (inboxHead 0x21 0 0 t.handle.toNat) e.object (entryWord e)

/-- The PC of a thread, in its slot or in its image. -/
def threadPc (s : State) (img : Nat) : Word :=
  let t := s.thread img
  if t.inSlot then (s.slot t.lastCore t.lastSlot).pc else BitVec.ofNat 64 (physRead s img 8).1

/-- The trace entry of a conveyance (R314). -/
def conveyTrace (s : State) (img : Nat) : State :=
  let t := s.thread img
  traceAuto s t.lastCore 23 t.lastSlot (BitVec.zeroExtend 64 t.handle) (threadPc s img) 0
def convFault (s : State) (n : Nat) (key : Nat × Nat) (t : Thread) (e : EstEntry) (cause : Nat) : State :=
  inboxSendBy s n (some key) (inboxHead 0x27 0 0 t.handle.toNat) e.object (BitVec.ofNat 64 (cause + e.kind * 256))

/-- The scope of a conveyance's release (R279): a heir that is a thread of this model runs on the dying thread's device
(log entry 10). -/
def conveyScope (s : State) (t : Thread) (heir : Heir) : Nat :=
  match heir with
  | .thread _ => 5
  | _ => if (domainOf s t.ctx.toNat).all (· = s.devId) then 5 else 6

def Convey.andThen (f : State → State) : Convey → Convey
  | .ok s => .ok (f s)
  | .stale s => .stale s
  | .fault c v => .fault c v
  | .wait s => .wait s

/-- The object operation of a conveyance at another device: sent once, and judged by the home's answer (R206, R208). -/
def conveyFar (s : State) (n : Nat) (key : Nat × Nat) (pa op size a b : Nat) (heir : Heir) (named : Nat → Bool) : Convey :=
  match placeOf s pa with
  | .remote dev off =>
    (match pendingCall s key.1 key.2 with
     | none => .wait (sendCall s n key dev off op size 0 a b 0 heir)
     | some r => match r.reply with
       | none => .wait s
       | some v =>
         if 2 ^ 128 ≤ v.toNat then .fault .poison (BitVec.ofNat 64 (lineBase pa))
         else if named v.toNat then .ok (dropCall s key.1 key.2) else .stale (dropCall s key.1 key.2))
  | _ => .stale s

/-- A lock word written only while it names the dying thread (R206). -/
def conveyLock (s : State) (key : Nat × Nat) (heir : Heir) (t : Thread) (pa owner flags : Nat) : Convey :=
  let named (w : Nat) : Bool := w % 2 ^ 32 = t.handle.toNat
  if isFar s pa then conveyFar s t.lastCore key pa opConveyLock 8 (owner + flags * 2 ^ 32) t.handle.toNat heir named
  else if named (physRead s pa 4).1 then .ok (physWrite s pa 8 (owner + flags * 2 ^ 32) 0 (some t.ctx)) else .stale s

/-- A promise, only while EMPTY and held by the dying thread. -/
def conveyPromise (s : State) (key : Nat × Nat) (heir : Heir) (t : Thread) (pa holder st : Nat) : Convey :=
  let named (w : Nat) : Bool := w % 4 = 0 && bitsAt w 32 32 = t.handle.toNat
  if isFar s pa then conveyFar s t.lastCore key pa opConveyPromise 8 (st + 4 + holder * 2 ^ 32) t.handle.toNat heir named
  else if named (physRead s pa 8).1 then
    .ok (wakeAll (physWrite s pa 8 (st + 4 + holder * 2 ^ 32) 0 (some t.ctx)) (if st = 2 then .awaitp else .none))
  else .stale s

/-- The heir of a conveyance: as resolved when its operation was sent to another device, else as it resolves now. -/
def conveyHeir (s : State) (key : Nat × Nat) (img : Nat) (e : EstEntry) : Heir :=
  match pendingCall s key.1 key.2 with
  | some r => r.heir
  | none => resolveHeir s img 5 img e.heirKind e.level e.heir

/-- MMA or MMAD commands of a thread are left on either core of a pair. -/
def mmaLeft (s : State) (p img : Nat) : Bool :=
  [2 * p, 2 * p + 1].any (fun n => (s.core n).cmds.any (fun c => c.img = img && (match c.op with | .mma .. => true | _ => false)))

/-- A bereaved decrement that a conveyance makes, performed at its counter; it waits while the join to the counter is down (R24,
R316). -/
def conveyDecrement (s : State) (n pa : Nat) (far : Bool) (told : State → State) : Convey :=
  match taskOfRecord s pa with
  | none => .ok (told s)
  | some id =>
    if coresApart s n (s.task id).home then .wait s
    else .ok (told (decrementTask (notePred s pa { placed := [n], ran := [], far := far }) pa true))

/-- Conveyance of one entry of the thread at `img` from its last core (R205 to R208). The entry itself is removed by the
caller. A licence passes to a heir once the thread's own MMA and MMAD commands are complete, so that no two arrays of a pair run
together (R19; log entry 3). -/
def conveyEntry (s0 : State) (key : Nat × Nat) (img : Nat) (e : EstEntry) : Convey :=
  let t := s0.thread img
  let n := t.lastCore
  let heir := conveyHeir s0 key img e
  let s := release s0 n (conveyScope s0 t heir)
  let heirHandle (i : Nat) := (s.thread i).handle.toNat
  let told (x : State) : State :=
    match heir with
    | .system m => conveyRecord x m key t e
    | _ => heirlessRecord x n key t e
  match e.kind with
  | 1 => match conveyTarget s n e 8 with
    | .error (c, v) => .fault c v
    | .ok (s, pa) => match heir with
      | .thread i => (conveyLock s key heir t pa (heirHandle i) 1).andThen (fun x => estateAuto x i e.object 1)
      | .system _ => (conveyLock s key heir t pa 0 1).andThen told
      | .none => (conveyLock s key heir t pa 0 3).andThen told
  | 2 => match conveyTarget s n e 16 with
    | .error (c, v) => .fault c v
    | .ok (s, pa) => match heir with
      | .thread i => (conveyPromise s key heir t pa (heirHandle i) 0).andThen (fun x => estateAuto x i e.object 2)
      | .system _ => (conveyPromise s key heir t pa 0 0).andThen told
      | .none => (conveyPromise s key heir t pa t.handle.toNat 2).andThen told
  | 3 =>
    let p := e.object.toNat % 512
    match heir with
    | .thread i =>
      let h := s.thread i
      if h.inSlot ∧ pairOf h.lastCore = p ∧ mmaLeft s p img then .wait s
      else if h.inSlot ∧ pairOf h.lastCore = p then
        .ok (licGrant s p { core := h.lastCore, slot := h.lastSlot, img := i, handle := h.handle })
      else .ok (licRelease s p none)
    | _ => .ok (told (licRelease s p none))
  | 4 => match heir with
    | .thread i => .ok (estateAuto s i e.object 4)
    | _ => match conveyTarget s n e 128 with
      | .error (c, v) => .fault c v
      | .ok (s, pa) => conveyDecrement s n (canonPa s pa) (decide (6 ≤ conveyScope s0 t heir)) told
  | 5 => match heir with
    | .thread i => .ok (estateAuto s i e.object 5)
    | _ => match conveyTarget s n e 32 with
      | .error (c, v) => .fault c v
      | .ok (s, pa) =>
        (if isFar s pa then conveyFar s n key pa opArrive 32 0 1 heir (fun _ => true)
         else .ok (barrierArrive s pa true (some t.ctx)).1).andThen told
  | 6 => match heir with
    | .thread i => .ok (estateAuto s i e.object 6)
    | _ => .ok (told s)
  | _ => match heir with
    | .thread i => userMessage s (if key.1 = 1024 then (1026, img) else key) i e t.handle n t.lastSlot (conveyScope s0 t heir)
    | _ => .ok (told (quitSenders s (fun w => w.2 = if key.1 = 1024 then (1026, img) else key)))

/-- The object of a conveyance is held on its way (R24). -/
def objectHeld (s : State) (n : Nat) (e : EstEntry) : Bool :=
  decide (e.kind = 1 ∨ e.kind = 2 ∨ e.kind = 4 ∨ e.kind = 5)
    && (walkHeld s n e.object.toNat || match translate s n true .update e.object.toNat with
      | .ok s pa _ => heldAtJoin s n (placeOf s pa)
      | .trap _ _ => false)

/-- A conveyance with its trace entry. -/
def conveyOne (s : State) (key : Nat × Nat) (img : Nat) (e : EstEntry) : Convey :=
  if joinDown s && objectHeld s (s.thread img).lastCore e then .wait s else
  (conveyEntry s key img e).andThen (fun t => conveyTrace t img)

/-! ## Kills (R306) -/

/-- Pending WRITE entries of a thread leave the inbox (R305). -/
def dropWrites (s : State) (n k : Nat) (h : BitVec 32) : State :=
  let stays (e : InboxEntry) : Bool := !(fld e.head 0 8 = 0x20 && fld e.head 8 3 = k && fld e.head 32 32 = h.toNat)
  s.modCore n (fun c => { c with inbox := c.inbox.filter stays, inboxWait := c.inboxWait.filter (fun e => stays e.1) })

/-- A command leaves its core, and its ENGINE entry the estate of its thread. -/
def dropCmd (s : State) (n : Nat) (c : Cmd) : State :=
  let s := s.modCore n (fun x => { x with cmds := x.cmds.filter (fun y => y.seq ≠ c.seq) })
  let s := if isMatrix c.op then tryRestores s n else s
  match c.est with
  | some q => estateDrop s c.img (fun e => e.kind = 6 && e.seq = q)
  | none => s

/-- The core whose tables translate for a command: its own while it holds the command's context, else one that does. -/
def cmdCore (s : State) (n : Nat) (c : Cmd) : Nat := (coreOfCtx s n c.ctx).getD n

/-- The barrier object of a command: a drain's is found at issue, another's as a kill or an abort finds it (R228, R231). -/
def cmdBarrier (s : State) (n : Nat) (c : Cmd) : Option Nat :=
  match c.barPa, c.barrier with
  | some pa, _ => some pa
  | none, none => none
  | none, some va => match translate s (cmdCore s n c) c.user .store va.toNat with
    | .ok s pa _ => (match placeOf s pa with
      | .home _ | .pool _ | .remote _ _ => some pa
      | .window _ off => if off + 32 ≤ 0x200000 then some pa else none
      | _ => none)
    | .trap _ _ => none

/-- A killed command leaves TORN in the barrier object it names (R228, R253). -/
def killTorn (s : State) (n : Nat) (c : Cmd) : State :=
  match cmdBarrier s n c with
  | some pa => tornAt s n pa (some c.ctx)
  | none => s

/-- The abort of a member's collective command (R231 steps 1 to 4): TORN, every chunk bit, the final arrival, and ABORT
packets to the other members. -/
def collAbort (s : State) (n : Nat) (c : Cmd) : State :=
  let s := match cmdBarrier s n c with
    | some pa => arriveAt (chunksAt (tornAt s n pa (some c.ctx)) n pa (2 ^ 64 - 1) (some c.ctx)) n pa false (some c.ctx)
    | none => s
  match c.op with
  | .coll b => sendAborts s n c.ctx b
  | _ => s

/-- Commands of a killed thread on one core: held ones are discarded, and a hard kill aborts copy, collective and transform
commands and drains with a barrier object, with TORN in their objects (R227, R231, R253, R258, R306). The ENGINE entries of
aborted commands stay, to be conveyed (R205). -/
def killCmdsAt (img : Nat) (hard : Bool) (s : State) (n : Nat) : State :=
  let mine (c : Cmd) : Bool := c.img = img
  let heldMat (c : Cmd) : Bool := c.chunk.isSome && !c.released && !c.started
  let engine (c : Cmd) : Bool := match c.op with
    | .copy _ | .coll _ | .xform .. => true
    | .drain .. => c.barrier.isSome
    | _ => false
  let gone (c : Cmd) : Bool := mine c && (heldMat c || (hard && engine c))
  let torn := (s.core n).cmds.filter (fun c => gone c && engine c)
  let s := torn.foldl (fun s c => match c.op with
    | .coll _ => collAbort s n c
    | _ => killTorn s n c) s
  tryRestores (s.modCore n (fun c => { c with cmds := c.cmds.filter (fun x => !gone x) })) n

/-- The commands of a killed thread on every core where it ran. -/
def killCmds (s : State) (img : Nat) (hard : Bool) : State := (s.cores.map (·.1)).foldl (killCmdsAt img hard) s

/-- A borrowed slot given back at an exit or a kill (R73). -/
def dropBorrow (s : State) (img : Nat) : State :=
  let t := s.thread img
  match (if t.inSlot then (s.slot t.lastCore t.lastSlot).borrow else t.borrow) with
  | none => s
  | some b =>
    let s := s.modSlot t.lastCore b.slot (fun x => { x with lentTo := none })
    let s := if t.inSlot then s.modSlot t.lastCore t.lastSlot (fun x => { x with borrow := none }) else s
    s.modThread img (fun t => { t with borrow := none })

/-- Places that a slot's instruction holds in queues outside it are given up when its thread stops (R52), and who waited
behind is served. -/
def dropWaits (s : State) (n k : Nat) : State :=
  let img := (s.slot n k).img
  let mine (w : Nat × Nat × Nat) : Bool := (w.2.1 = n && w.2.2 = k) || (w.2.1 = 1024 && w.2.2 = img && img ≠ 0)
  let calls := (s.cores.filter (fun c => c.2.callQ.contains (n, k))).map (·.1)
  let s := { dropCall s n k with submissions := s.submissions.filter (fun q => match q.by_ with
                      | .thread c j _ _ => !(c = n && j = k)
                      | .host _ _ => true) }
  let s := s.mapCores (fun c => { c with callQ := c.callQ.filter (fun w => w ≠ (n, k)) })
  calls.foldl wakeCaller (quitSenders s mine)

/-- An instruction of the slot is under way: it waits for results before it, for another device or for the comparison of
copies. -/
def midInstr (s : State) (n k : Nat) : Bool :=
  (s.slot n k).issued || (pendingCall s n k).isSome || s.dual.any (fun e => e.core = n && e.slot = k)

/-- The slot stands at an instruction boundary: everything issued has committed, no repack of its own, and no instruction under
way but one that blocks (R48, R78, R109). -/
def atBoundary (s : State) (n k : Nat) : Bool :=
  let x := s.slot n k
  (x.phase == .running || x.phase == .blocked) && x.pending.isEmpty && x.repack.isNone && !inboxPending s n k
    && (x.phase == .blocked || !midInstr s n k)

/-- The thread stands where a kill stops it (R306 step 1). -/
def mayStop (s : State) (img : Nat) : Bool :=
  let t := s.thread img
  !t.inSlot || (s.slot t.lastCore t.lastSlot).phase == .held || atBoundary s t.lastCore t.lastSlot

/-- A killed thread stops: its commands and diverted writes are dealt with, its borrowed slot is given back, and its estate is to
be conveyed (R306 steps 1 to 3). -/
def killStop (s : State) (img : Nat) (hard : Bool) : State :=
  let t := s.thread img
  let x := s.slot t.lastCore t.lastSlot
  let pc := if !t.inSlot then BitVec.ofNat 64 (physRead s img 8).1 else if x.phase == .held then x.trPc else x.pc
  let s := if t.inSlot then
      let s := s.modSlot t.lastCore t.lastSlot (fun x =>
        { x with phase := .dying, pc := pc, woken := false, stalled := false, latch := [], issued := false, pending := [], repack := none,
                 demand := none, farWait := false, defer0 := none, defer1 := none })
      let s := s.modCore t.lastCore (fun c => { c with trapPend := c.trapPend &&& ~~~(BitVec.ofNat 7 (2 ^ t.lastSlot)) })
      dropWaits (dropWrites s t.lastCore t.lastSlot t.handle) t.lastCore t.lastSlot
    else removeThreadEntry s img
  let s := { s with dual := s.dual.filter (fun e => !(some e.task = t.task && e.group = t.group && e.member = t.member
                                                     && some e.copy = t.copy)) }
  let s := dropBorrow s img
  let s := clearWaits (killCmds s img hard) img
  let s := if t.copy = some 1 then s.modThread img (fun t => { t with estate := [] }) else s
  let s := licWithdraw s (pairOf t.lastCore) img
  let s := traceAuto s t.lastCore 18 t.lastSlot (BitVec.zeroExtend 64 t.handle) pc 0
  { s.modThread img (fun t => { t with stopping := none }) with dying := s.dying ++ [img] }

/-- A kill that has begun takes effect as soon as its thread stands where it can stop. -/
def killGo (s : State) (img : Nat) : State :=
  match (s.thread img).stopping with
  | some hard => if mayStop s img then killStop s img hard else s
  | none => s

/-- The thread is dying from here on; a second kill of it has no effect (R306). -/
def killMark (s : State) (img : Nat) (hard : Bool) (val : Word) : State :=
  if (s.thread img).dying then s
  else s.modThread img (fun t => { t with dying := true, killVal := some (val, s.time), stopping := some hard })

/-- A kill of a thread. -/
def killThread (s : State) (img : Nat) (hard : Bool) (val : Word) : State :=
  if (s.thread img).dying then s else killGo (killMark s img hard val) img

/-- The kill of a thread is past step 1 of R306. -/
def threadStopped (s : State) (img : Nat) : Bool := (s.thread img).stopping.isNone

/-- TRVAL of KILLED (R307). -/
def killWord (by_ : Nat) (hard : Bool) (reason : Nat) (extern : Bool) : Word :=
  BitVec.ofNat 64 (by_ + (if hard then 2 ^ 10 else 0) + reason * 2 ^ 11 + (if extern then 2 ^ 14 else 0))

end Sys2Proof.Machine
end

