-- ==== Sys2Proof/Machine/Ctrl.lean ====
section
/-! DEFINITION. Machine/Ctrl.lean: the privileged device control space (R321): what each word reads as, and what a write of a
system slot or of the Bexelone controller does. -/

namespace Sys2Proof.Machine

/-- The requester number that stands for the Bexelone controller; a smaller number is a core's system slot. -/
def bexelone : Nat := 1024

/-! ## The words -/

inductive CtrlReg where
  | sysvec (n : Nat) | dspage (n : Nat) | trring (n : Nat) | engpark (n : Nat) | cklog (n : Nat) | ecclog (n : Nat)
  | place (n : Nat) | sysmap (n : Nat) | ctrarea (n : Nat)
  | hqctl (q : Nat) | tlbshoot | rollback | pool (t i : Nat) | thermst (d : Nat) | fwdog | pwrreq (c : Nat)
  | harvest (d w : Nat) | partctl | ctxtab | devid | epbase | wrst (d : Nat) | almcfg | almst
  | unlisted
  deriving DecidableEq, Repr

/-- The word at an offset of the control space (R321). -/
def ctrlReg (off : Nat) : CtrlReg :=
  if off < 0x400000 then
    let n := off / 0x1000
    match off % 0x1000 with
    | 0x00 => .sysvec n | 0x08 => .dspage n | 0x10 => .trring n | 0x18 => .engpark n | 0x20 => .cklog n | 0x28 => .ecclog n
    | 0x30 => .place n | 0x38 => .sysmap n | 0x40 => .ctrarea n
    | _ => .unlisted
  else if off < 0x408000 then .hqctl ((off - 0x400000) / 8)
  else if off = 0x408000 then .tlbshoot
  else if off = 0x408008 then .rollback
  else if 0x408100 ≤ off ∧ off < 0x408180 then
    (if (off - 0x408100) % 0x40 / 8 ≤ 5 then .pool ((off - 0x408100) / 0x40) ((off - 0x408100) % 0x40 / 8) else .unlisted)
  else if 0x408180 ≤ off ∧ off < 0x4081A0 then .thermst ((off - 0x408180) / 8)
  else if off = 0x4081C0 then .fwdog
  else if 0x408200 ≤ off ∧ off < 0x408600 then .pwrreq ((off - 0x408200) / 8)
  else if 0x408600 ≤ off ∧ off < 0x408680 then .harvest ((off - 0x408600) / 32) ((off - 0x408600) % 32 / 8)
  else if off = 0x408680 then .partctl
  else if off = 0x408688 then .ctxtab
  else if off = 0x408690 then .devid
  else if off = 0x408698 then .epbase
  else if 0x4086A0 ≤ off ∧ off < 0x4086C0 then .wrst ((off - 0x4086A0) / 8)
  else if off = 0x4086C0 then .almcfg
  else if off = 0x4086C8 then .almst
  else .unlisted

/-- An access that is not 8 bytes long and 8-byte-aligned, or that meets a core block of a die in phase RESET, is refused
with BUSERR (R321, R385). -/
def ctrlRefused (s : State) (off size : Nat) : Bool :=
  size ≠ 8 || off % 8 ≠ 0 || (decide (off < 0x400000) && (s.die (dieOf (off / 0x1000))).phase == .reset)

/-- Park places in use (R349). -/
def parkedMask (s : State) (n : Nat) : Nat :=
  (s.core n).cmds.foldl (fun m c => match c.park with | some p => m ||| 2 ^ p | none => m) 0

def exhaust (s : State) (t : Nat) : Bool := !(s.tower t).reserve.isEmpty && decide (poolFree s t < 4)

def qstateCode : QState → Nat
  | .closed => 0 | .open_ => 1 | .tearing => 2

def warmCode : WarmPhase → Nat
  | .idle => 0 | .offline => 1 | .quiesce => 2 | .writeback => 3 | .reset => 4 | .retrain => 5 | .readmit => 6

/-- Reset values of the words that hold a value of their own (R45, R360, R368, R382, R383). -/
def ctrlReset : CtrlReg → Word
  | .dspage _ => 0x0000100010001000
  | .fwdog => 100000
  | .pwrreq _ => 0x0C800088
  | .harvest d w => harvestReset (0x408600 + 32 * d + 8 * w)
  | .almcfg => BitVec.ofNat 64 (2 + 2 * 4 + 1 * 16 + 3 * 64 + 1 * 256 + 3 * 1024)
  | _ => 0

/-- Value of a word of the control space. -/
def ctrlRead (s : State) (off : Nat) : Word :=
  let r := ctrlReg off
  let w := s.ctrlWord off (ctrlReset r)
  match r with
  | .engpark n => BitVec.ofNat 64 (parkedMask s n)
  | .cklog n => setFld w 56 1 (bit (s.logOvf.contains n))
  | .hqctl q => setFld w 16 2 (qstateCode (s.hostQueue q).state)
  | .tlbshoot => setFld w 2 1 (bit s.tlbBusy)
  | .rollback => setFld (setFld (setFld w 49 1 (bit s.rbBusy)) 50 1 (bit s.rbDone)) 51 1 (bit s.rbRefused)
  | .pool t 3 => setFld w 51 1 (bit (exhaust s t))
  | .pool _ 4 => 0
  | .pool _ 5 => 0
  | .thermst d => BitVec.ofNat 64 ((s.die d).temp % 256 + (s.die d).zone * 256 + bit (s.die d).cut * 1024)
  | .fwdog => setFld w 40 8 (min 255 s.fwRestarts)
  | .partctl => BitVec.ofNat 64 s.partOpen.toNat
  | .wrst d => BitVec.ofNat 64 (warmCode (s.die d).phase * 2 + bit (s.die d).refused * 16 + bit (s.die d).failed * 32)
  | .almst => BitVec.ofNat 64 s.almSt.toNat
  | .unlisted => 0
  | _ => w

/-- The fields [lo + w - 1 : lo] of a word taken from a written value, the others kept. -/
def takeFld (old new : Word) (lo w : Nat) : Word := setFld old lo w (fld new lo w)

/-! ## Steps of a cluster (R359 to R362) -/

/-- The supply ratio of a step: 0 for 2:1, 1 for 5:2, 2 for 3:1. -/
def stepRatio (k : Nat) : Nat := k / 3

/-- A ramp to `target` begins: 2 µs within one ratio, 20 µs across ratios. -/
def rampBegin (s : State) (c target : Nat) : State :=
  let x := s.cluster c
  let len := if stepRatio x.step = stepRatio target then 2000 else 20000
  s.setCluster c { x with target := target, ramp := true, rampEnd := s.time.toNat + len }

/-- A die of the cluster's tower is clamped at step 8 (R365). -/
def clampedCluster (s : State) (c : Nat) : Bool := (s.die (2 * (c / 64))).clamped || (s.die (2 * (c / 64) + 1)).clamped

/-- A GO acts (R361): the pending request is cleared; another step ramps. GRANT above 8 is reserved and starts nothing, and
nothing leaves step 8 while it is clamped. -/
def goActs (s : State) (c grant : Nat) : State :=
  let s := s.modCluster c (fun x => { x with pend := none, heldGo := none })
  if grant = (s.cluster c).step ∨ 8 < grant ∨ clampedCluster s c then s else rampBegin s c grant

/-- A write of STEP (R360, R361). -/
def stepWrite (s : State) (c : Nat) (v : Word) : State :=
  if 8 < fld v 0 4 then s
  else
    let off := 0x408200 + 8 * c
    let w := s.ctrlWord off (ctrlReset (.pwrreq c))
    (setCtrl s off (takeFld w v 0 4)).modCluster c (fun x => { x with pend := some (fld v 0 4) })

/-- A write of the Bexelone controller: GRANT, GO and ILIM. -/
def grantWrite (s : State) (c : Nat) (v : Word) : State :=
  let off := 0x408200 + 8 * c
  let w := s.ctrlWord off (ctrlReset (.pwrreq c))
  let s := setCtrl s off (takeFld (takeFld w v 4 4) v 16 16)
  if fld v 8 1 = 1 then
    (if (s.cluster c).ramp || (s.die (2 * (c / 64))).offBusy || (s.die (2 * (c / 64) + 1)).offBusy then s.modCluster c (fun x => { x with heldGo := some (fld v 4 4) }) else goActs s c (fld v 4 4))
  else s

/-! ## Host queues (R322, R331, R379) -/

/-- The endpoint lets the queue open (R379). -/
def endpointGood (s : State) (q : Nat) : Bool :=
  let w := endpointWord s (queueEndpoint s q)
  fld w 0 1 = 1 && fld w 1 1 = 0 && fld w 16 16 = (queueCtx s q).toNat

def openQueue (s : State) (q : Nat) : State :=
  s.modQueue q (fun h => { h with state := .open_, done := 0, killed := 0, discarded := 0 })

/-- Threads of a task. -/
def taskThreads (s : State) (id : Nat) : List Nat :=
  (s.threads.filter (fun t => t.2.task = some id && decide (1 ≤ t.2.state) && decide (t.2.state ≤ 5))).map (·.1)

/-- Steps 1 to 3 of a teardown (R331). -/
def teardown (s : State) (q : Nat) (hard reopen byCommand : Bool) (tag : BitVec 32) : State :=
  let s := s.modQueue q (fun h => { h with state := .tearing, hard := hard, reopen := reopen, byCommand := byCommand, closeTag := tag })
  let mine := (s.tasks.filter (fun t => t.2.queue = some q)).map (·.1)
  let s := mine.foldl (fun s id => if (s.task id).state == .pending || (s.task id).state == .ready then discardTask s id 5 else s) s
  mine.foldl (fun s id =>
    if (s.task id).state == .dealt then
      let s := s.mapTowers (fun t => { t with deals := t.deals.filter (fun d => d.task ≠ id) })
      if (s.task id).live = 0 then endTask s id .killed 4
      else (taskThreads s id).foldl (fun s img => killThread s img hard (killWord 0x3FF hard 1 true)) s
    else s) s

/-- A write of HQCTL. -/
def hqctlWrite (s : State) (q : Nat) (v : Word) : State :=
  let off := 0x400000 + 8 * q
  let w := queueWord s q
  let st := (s.hostQueue q).state
  let w := takeFld w v 18 2
  let w := if st = .closed then takeFld (takeFld w v 0 16) v 32 12 else w
  let s := setCtrl s off w
  match fld v 18 2, st with
  | 1, .closed => if endpointGood s q then openQueue s q else s
  | 2, .open_ => teardown s q false false false 0
  | 3, .open_ => teardown s q true false false 0
  | _, _ => s

/-- Every queue that `f` names and that is not closed is torn down hard; one that tears down already goes on so, and does not
reopen (R379, R382). -/
def teardownAll (s : State) (f : Nat → Bool) : State :=
  (s.queues.filter (fun x => x.2.state != .closed && f x.1)).foldl (fun s x =>
    teardown s x.1 true false (x.2.state == .tearing && x.2.byCommand) x.2.closeTag) s

/-! ## Translations (R347) -/

/-- Entries that a shootdown or TLBI names. -/
def tlbNamed (sel : Nat) (ctx : BitVec 16) (va : Nat) (e : TlbEntry) : Bool :=
  match sel with
  | 0 => e.ctx = ctx
  | 1 => e.ctx = ctx && va / 2 ^ e.log * 2 ^ e.log = e.va
  | _ => true

/-- The entries that `f` names leave every TLB of the device. -/
def dropTlbAll (s : State) (f : TlbEntry → Bool) : State :=
  let s := s.mapCores (fun c => { c with tlb := c.tlb.filter (fun e => !f e) })
  { s with clusters := s.clusters.map (fun (c : Nat × Cluster) => (c.1, { c.2 with tlb := c.2.tlb.filter (fun e => !f e) })) }

/-- A shootdown begins. Which of the named entries are gone before its completion is free (R347). -/
def tlbshootWrite (s : State) (v : Word) : State :=
  if s.tlbBusy ∨ fld v 0 2 = 3 then s
  else
    let s := { setCtrl s 0x408000 (BitVec.ofNat 64 (fld v 0 2 + fld v 4 16 * 16 + fld v 20 40 * 2 ^ 20)) with tlbBusy := true }
    if Config.freeNat s.tick % 2 = 0 then s.ticked
    else dropTlbAll s.ticked (tlbNamed (fld v 0 2) (BitVec.ofNat 16 (fld v 4 16)) (fld v 20 40 * 65536))

/-- A command keeps an address that was translated when it was accepted or when a part of it landed. -/
def holdsAddress (c : Cmd) : Bool :=
  match c.op with
  | .asave .. | .arst .. | .restore .. => true
  | .drain .. => c.barPa.isSome
  | .copy _ => false
  | _ => (c.chunk.isSome && !c.released) || c.plans.any (fun p => !p.2.isEmpty)

/-- An access translated with an entry of the named context, or of any, is still to be performed (R347): a command's, one at
another device, or one to the backing area of a borrowed slot, which BORROW translated (R135). -/
def shootWaits (s : State) : Bool :=
  let v := s.ctrlWord 0x408000 0
  let named (ctx : BitVec 16) : Bool := fld v 0 2 = 2 || ctx = BitVec.ofNat 16 (fld v 4 16)
  s.cores.any (fun x => x.2.cmds.any (fun c => named c.ctx && holdsAddress c))
    || s.cores.any (fun x => x.2.slots.any (fun k => k.2.borrow.isSome) && named (ctxOf s x.1))
    || s.threads.any (fun t => t.2.borrow.isSome && named t.2.ctx)
    || s.farWrites.any (fun w => named (ctxOf s w.core))
    || s.remoteOps.any (fun r => decide (r.core < 1024) && r.reply.isNone && r.place.isNone && named (ctxOf s r.core))

/-- The shootdown completes: every entry it names is gone. -/
def tlbshootDone (s : State) : State :=
  let v := s.ctrlWord 0x408000 0
  { dropTlbAll s (tlbNamed (fld v 0 2) (BitVec.ofNat 16 (fld v 4 16)) (fld v 20 40 * 65536)) with tlbBusy := false }

/-! ## Rollback and logs (R357, R358) -/

/-- A slot of the device holds a thread of a context. -/
def ctxInSlot (s : State) (ctx : BitVec 16) : Bool :=
  s.threads.any (fun t => t.2.inSlot && t.2.ctx = ctx)

def rollbackWrite (s : State) (v : Word) : State :=
  let w := BitVec.ofNat 64 (fld v 0 48)
  let s := setCtrl s 0x408008 w
  if fld v 48 1 = 0 ∨ s.rbBusy then s
  else
    if s.logOvf ≠ [] ∨ ctxInSlot s (BitVec.ofNat 16 (fld v 32 16)) then { s with rbRefused := true, rbDone := false }
    else { s with rbBusy := true, rbDone := false, rbRefused := false, rbWord := w }

def cklogWrite (s : State) (n : Nat) (v : Word) : State :=
  let s := setCtrl s (0x1000 * n + 0x20) (BitVec.ofNat 64 (fld v 0 12 + fld v 20 36 * 2 ^ 20))
  { s with logs := s.logs.set n [], logOvf := s.logOvf.filter (· ≠ n) }

/-! ## Pools (R350, R355) -/

/-- One line of a dropped page: its chunks pushed, its entry zeroed, its LLC copy invalidated. -/
def dropPoolLine (s : State) (a : Nat) : State :=
  let cs := metaChunks (poolMeta s a)
  let s := cs.foldl (fun s k => pushChunk s (poolTower a) k) s
  let s := chanWrite s (metaAddr s a) 16 0
  { s with llc := dropLine s.llc a }.modTower (poolTower a) (fun t => { t with hot := t.hot.filter (fun h => h.1 ≠ a), reserve := t.reserve.filter (· ≠ a), pinned := t.pinned.filter (· ≠ a) })

def poolDropPage (s : State) (a : Nat) : State :=
  if inPool a then (List.range 512).foldl (fun s i => dropPoolLine s (a + 128 * i)) s else s

/-- Addresses of the 8-byte words that may hold something: in storage, in the LLC or in an L2 slice. -/
def heldWords (s : State) : List Nat :=
  let ofLines (ls : List Line) : List Nat := ls.flatMap (fun l => (List.range 16).map (fun i => l.addr + 8 * i))
  s.mem.map (fun c => c.1 / 8 * 8) ++ ofLines s.llc ++ s.clusters.flatMap (fun c => ofLines c.2.l2)

/-- A leaf that the table at a level reaches maps pool space for which `f` holds. -/
def tableMaps (s : State) (f : Nat → Nat → Bool) (words : List Nat) : (fuel level table : Nat) → Bool
  | 0, _, _ => false
  | g + 1, level, table =>
    (words.filter (fun a => decide (canonPa s table ≤ a) && decide (a < canonPa s table + 8 * 2 ^ levelBits level))).any (fun a =>
      match entryRead s a with
      | none => false
      | some (e, _) =>
        if bitsAt e 0 1 = 0 then false
        else if bitsAt e 1 1 = 1 then level < 3 && tableMaps s f words g (level + 1) (bitsAt e 8 48 * 256)
        else inPool (bitsAt e 16 40 * 65536) && f (bitsAt e 16 40 * 65536) (levelLow level))

/-- A page of pool space for which `f` holds is mapped: by a core's tables, or by a translation that a TLB holds. -/
def poolMapped (s : State) (f : Nat → Nat → Bool) : Bool :=
  let held (es : List TlbEntry) : Bool := es.any (fun e => inPool e.pa && f e.pa e.log)
  let root (c : Core) : Nat := bitsAt c.ptBase.toNat 20 36 * 1048576
  s.cores.any (fun c => held c.2.tlb) || s.clusters.any (fun c => held c.2.tlb)
    || s.cores.any (fun c => root c.2 ≠ 0 && tableMaps s f (heldWords s) 4 0 (root c.2))

/-- A page of pool space is mapped, or an L1 or an L2 holds a dirty copy of one of its lines: to drop it is a breach (R355). -/
def pageHeld (s : State) (a : Nat) : Bool :=
  let dirty (ls : List Line) : Bool := ls.any (fun l => l.dirty ≠ 0 && decide (a ≤ l.addr) && decide (l.addr < a + 65536))
  s.cores.any (fun c => dirty c.2.l1) || s.clusters.any (fun c => dirty c.2.l2)
    || poolMapped s (fun pa log => decide (pa < a + 65536) && decide (a < pa + 2 ^ log))

/-- What the dropped page's copies in the caches hold is free after a breach (R7; log entry 76). -/
def freeCopies (s : State) (a : Nat) : State :=
  let loosen (ls : List Line) : List Line := ls.map (fun l =>
    if a ≤ l.addr ∧ l.addr < a + 65536 then { l with data := BitVec.ofNat 1024 (Config.freeBits s.tick l.addr 1024) } else l)
  { s.ticked.mapCores (fun c => { c with l1 := loosen c.l1 }) with
    clusters := s.clusters.map (fun (c : Nat × Cluster) => (c.1, { c.2 with l2 := loosen c.2.l2 })) }

/-- A write of a pool word. META, CHUNK, FREE and PAGES get free values while a page of the tower is mapped, and so does what a
breaching DROP leaves in the caches (R7, R350, R355; log entry 76). Records that are in place are retired first. -/
def poolWrite (s : State) (t i : Nat) (v : Word) : State :=
  let s := s.modTower t (fun x => { x with shadows := [] })
  let breach := decide (i ≤ 3) && poolMapped s (fun pa _ => poolTower pa = t)
  let free := BitVec.ofNat 64 (Config.freeBits s.tick (poolOff t i) 64)
  let s := if breach then s.ticked else s
  let v := if !breach then v else if i = 3 then setFld v 28 22 (fld free 28 22) else free
  match i with
  | 0 | 1 | 2 => setCtrl s (poolOff t i) (BitVec.ofNat 64 (fld v 12 44 * 4096))
  | 3 =>
    let old := poolWord s t 3
    let w := takeFld (takeFld (takeFld old v 0 27) v 28 22) v 52 10
    setCtrl s (poolOff t 3) (if fld v 50 1 = 1 then setFld w 50 1 0 else w)
  | 4 => pushChunk s t (fld v 0 27)
  | _ =>
    let a := fld v 16 40 * 65536
    poolDropPage (if inPool a && pageHeld s a then freeCopies s a else s) a

/-! ## Park places (R349) -/

/-- A command is killed: the barrier object it names is left TORN and its ENGINE entry is released (R228, R253). -/
def killCmd (s : State) (n : Nat) (c : Cmd) : State :=
  dropCmd (killTorn s n c) n c

def parkedCmd (s : State) (n p : Nat) : Option Cmd := (s.core n).cmds.find? (fun c => c.park = some p)

/-- A parked command translates its faulting access again. It starts anew, to own its lines again (R266, R349); what it has still to
write stands in its plan. -/
def resumeParked (s : State) (n p : Nat) : State :=
  let again (c : Cmd) : Bool := match c.op with | .copy _ => true | .coll _ => true | .xform .. => true | _ => false
  s.modCore n (fun x => { x with cmds := x.cmds.map (fun c =>
    if c.park = some p then { c with park := none, faulted := none, started := c.started && !again c } else c) })

def engparkWrite (s : State) (n : Nat) (v : Word) : State :=
  match parkedCmd s n (fld v 0 4), fld v 4 2 with
  | some _, 1 => resumeParked s n (fld v 0 4)
  | some c, 2 => killCmd s n c
  | _, _ => s

/-! ## Partitions (R384) -/

def partMembers (s : State) (p : Nat) : List Nat :=
  (List.range 1024).filter (fun n => fld (s.placeWord n) 14 1 = 1 && fld (s.placeWord n) 10 4 = p)

/-- The PLACE words let a partition open. -/
def partGood (s : State) (p : Nat) : Bool :=
  let ms := partMembers s p
  ms.all (harvestBit s) && (List.range ms.length).all (fun l => ms.any (fun n => logicalOf s n = l))

/-- No thread of the partition's contexts in a slot, no unfinished task of theirs. -/
def partIdle (s : State) (p : Nat) : Bool :=
  let ours (c : BitVec 16) : Bool := ctxValid s c.toNat && ctxPart s c.toNat = p
  !s.threads.any (fun t => t.2.inSlot && ours t.2.ctx)
    && !s.tasks.any (fun t => (t.2.state == .pending || t.2.state == .ready || t.2.state == .dealt) && ours t.2.ctx)

def partOne (s : State) (v : Word) (p : Nat) : State :=
  if v.getLsbD p && !s.partOpen.getLsbD p then
    (if partGood s p then
      { s with partOpen := s.partOpen ||| BitVec.ofNat 16 (2 ^ p)
               places := s.places.filter (fun x => x.2.1 ≠ p) ++ (partMembers s p).map (fun n => (n, p, logicalOf s n)) }
    else s)
  else if !v.getLsbD p && s.partOpen.getLsbD p && partIdle s p then
    { s with partOpen := s.partOpen &&& ~~~(BitVec.ofNat 16 (2 ^ p)), places := s.places.filter (fun x => x.2.1 ≠ p) }
  else s

def partctlWrite (s : State) (v : Word) : State := (List.range 16).foldl (fun s p => partOne s v p) s

def placeWrite (s : State) (n : Nat) (v : Word) : State :=
  let w := s.placeWord n
  if fld w 14 1 = 1 ∧ s.partOpen.getLsbD (fld w 10 4) then s else setCtrl s (0x1000 * n + 0x30) (BitVec.ofNat 64 (fld v 0 15))

/-- CTRAREA: ignored when the area would pass the end of the scratchpad; while tasks have counters on the core the value is
free (R7, R395; log entry 76). -/
def ctrareaWrite (s : State) (n : Nat) (v : Word) : State :=
  let breach := (s.core n).places ≠ []
  let v := if breach then BitVec.ofNat 64 (Config.freeBits s.tick n 64) else v
  let s := if breach then s.ticked else s
  if 0x200000 < fld v 12 9 * 4096 + fld v 21 9 * 4096 then s
  else setCtrl s (0x1000 * n + 0x40) (BitVec.ofNat 64 (fld v 12 18 * 4096))

/-! ## Dies (R367, R385) -/

/-- A die is offline or in a warm reset. -/
def dieAway (x : Die) : Bool := x.zone = 2 || x.phase != .idle
def otherDie (d : Nat) : Nat := if d % 2 = 0 then d + 1 else d - 1

/-- GO of a warm reset. -/
def wrstWrite (s : State) (d : Nat) (v : Word) : State :=
  let x := s.die d
  if fld v 0 1 = 0 ∨ x.phase ≠ .idle then s
  else if dieAway (s.die (otherDie d)) ∨ x.zone = 2 then s.setDie d { x with refused := true }
  else s.setDie d { x with refused := false, failed := false, phase := .offline }

/-- The core site is served by its die. -/
def siteOffline (s : State) (n : Nat) : Bool := (s.core n).offline

/-- A core site as a die brings it up (R293, R367): a RESET event is pending. -/
def bringUp (s : State) (n : Nat) : State :=
  ({ s with mem := s.mem.filter (fun c => !(decide (spadAddr n 0 ≤ c.1) && decide (c.1 < spadAddr n 0x200000)))
            memPoison := s.memPoison.filter (fun a => !(decide (spadAddr n 0 ≤ a) && decide (a < spadAddr n 0x200000))) }).modCore n
    (fun c => { cycle := c.cycle, inbox := c.inbox, inboxWait := c.inboxWait, resetPend := true, runList := c.runList, taskQ := c.taskQ,
                chans := c.chans, sendQ := c.sendQ, callQ := c.callQ, places := c.places, cmdSeq := c.cmdSeq, imagesTold := c.imagesTold,
                cmds := c.cmds, mapGen := c.mapGen })

def dieSites (d : Nat) : List Nat := (List.range 1024).filter (fun n => dieOf n = d)
def diePairs (d : Nat) : List Nat := (List.range 512).filter (fun p => p / 256 = d / 2)

/-- The pair rows of a die that is reset are lost (R69): where a thread of the twin has names in them they read as free values
(log entry 3). -/
def losePairs (s : State) (d : Nat) : State :=
  (diePairs d).foldl (fun s p =>
    if holdsRegion s (2 * p) .pair none || holdsRegion s (2 * p + 1) .pair none then
      s.ticked.modPair p (fun x => { x with rows := BitVec.ofNat 1024 (Config.freeBits s.tick p 1024), poison := 0 })
    else s.modPair p (fun x => { x with rows := 0, poison := 0, sig := [] })) s

/-- The pair rows of a die that comes up are zero, also those that a thread of the twin uses (R366 step 5, R367). -/
def zeroPairs (s : State) (d : Nat) : State :=
  (diePairs d).foldl (fun s p =>
    let used := holdsRegion s (2 * p) .pair none || holdsRegion s (2 * p + 1) .pair none
    s.modPair p (fun x => { x with rows := 0, poison := 0, sig := if used then x.sig else [] })) s

/-- A die's core sites return: rows, tiles, scratchpads and formats at zero, RESET events (R367). -/
def bringUpDie (s : State) (d : Nat) : State := zeroPairs ((dieSites d).foldl bringUp s) d

/-- READMIT (R365, R367). -/
def readmit (s : State) (d : Nat) : State :=
  let x := s.die d
  if x.zone = 2 ∧ x.temp < 85 then
    (bringUpDie s d).modDie d (fun x => { x with zone := 0, cut := x.cut, offBusy := false, clamped := false })
  else s

/-- READMIT, which the firmware writes to a die whose offlining is over (R365, R368). -/
def thermstReadmit (s : State) (d : Nat) (v : Word) : State :=
  if s.fwUp ∧ fld v 11 1 = 1 ∧ (s.die d).phase = .idle ∧ !(s.die d).offBusy then readmit s d else s

/-! ## The write -/

/-- A write of 8 bytes by requester `by_` (R5, R321). -/
def ctrlWrite (s : State) (off : Nat) (v : Word) (by_ : Nat) : State :=
  let bex : Bool := by_ = bexelone
  match ctrlReg off with
  | .sysvec _ => setCtrl s off (BitVec.ofNat 64 (fld v 1 55 * 2))
  | .dspage _ => setCtrl s off (BitVec.ofNat 64 (fld v 0 48))
  | .trring _ => setCtrl s off (BitVec.ofNat 64 (fld v 0 7 + fld v 12 44 * 4096))
  | .engpark n => engparkWrite s n v
  | .cklog n => cklogWrite s n v
  | .ecclog _ => setCtrl s off (BitVec.ofNat 64 (fld v 0 36))
  | .place n => placeWrite s n v
  | .sysmap _ => setCtrl s off (BitVec.ofNat 64 (fld v 3 53 * 8))
  | .ctrarea n => ctrareaWrite s n v
  | .hqctl q => hqctlWrite s q v
  | .tlbshoot => tlbshootWrite s v
  | .rollback => rollbackWrite s v
  | .pool t i => poolWrite s t i v
  | .thermst d => if bex && fld v 11 1 = 1 then thermstReadmit s d v else s
  | .fwdog =>
    if bex then
      let s := setCtrl s off (BitVec.ofNat 64 (fld v 0 32))
      if fld v 32 1 = 1 then { s with fwKick := s.time.toNat } else s
    else s
  | .pwrreq c => if bex then grantWrite s c (if s.fwUp then v else setFld v 8 1 0) else stepWrite s c v
  | .harvest _ _ => s
  | .partctl => partctlWrite s v
  | .ctxtab => setCtrl s off v
  | .devid => flushHeld (setCtrl s off (BitVec.ofNat 64 (fld v 0 10)))
  | .epbase => setCtrl s off v
  | .wrst d => wrstWrite s d v
  | .almcfg => if bex then setCtrl s off (BitVec.ofNat 64 (fld v 0 12)) else s
  | .almst => { s with almSt := s.almSt &&& ~~~(BitVec.ofNat 6 v.toNat) }
  | .unlisted => s

end Sys2Proof.Machine
end

