-- ==== Sys2Proof/Machine/Windows.lean ====
section
/-! DEFINITION. Machine/Windows.lean: the per-core windows (R79, R80, R219, R244, R302), and the accesses of a thread to any place of the physical map (R186, R197, R260, R340). -/

namespace Sys2Proof.Machine

/-! ## Rows (R70) -/

/-- Set bits of a row mask. -/
def rowCount (m : BitVec 32) : Nat := ((List.range 32).filter (fun i => m.getLsbD i)).length

/-- Rows counted against the quota of a user slot: those of its thread, of threads that ran there before, and, while it is
borrowed, of the borrowed region (R71). -/
def quotaUsed (s : State) (n k : Nat) : Nat :=
  let x := s.slot n k
  let lent := match x.lentTo with
    | some j => (match (s.slot n j).borrow with | some b => if b.slot = k then rowCount b.resident else 0 | none => 0)
    | none => 0
  rowCount x.resident + lent + ((s.core n).former.filter (fun f => f.slot = k)).foldl (fun m f => m + rowCount f.mask) 0

/-- The rows of a former thread that a mask names leave the register cache: dirty ones are written back. -/
def evictFormer (s : State) (n : Nat) (f : FormerRows) (m : BitVec 32) : State :=
  let s := writeRows s n { f with mask := f.mask &&& m }
  s.modCore n (fun c => { c with former := (c.former.map (fun g =>
    if g.img = f.img then { g with mask := f.mask &&& ~~~m, dirty := f.dirty &&& ~~~m, poison := f.poison &&& ~~~m } else g)).filter (fun g => g.mask ≠ 0) })

/-- A miss in a slot that has used its quota first evicts a row of the former thread that ran there longest ago: which of
its rows was used longest ago is free (R71; log entry 3). -/
def roomForRow (s : State) (n k : Nat) : State :=
  if quotaUsed s n k < 32 then s
  else match ((s.core n).former.filter (fun f => f.slot = k)).getLast? with
    | none => s
    | some f =>
      let held := (List.range 32).filter (fun i => f.mask.getLsbD i)
      match held[Config.freeNat s.tick % held.length]? with
      | some i => evictFormer s.ticked n f (BitVec.ofNat 32 (2 ^ i))
      | none => s

/-- Every evictable row of a slot, but those of one thread, is evicted: the first rows of a thread that enters are 32. -/
def clearFormer (s : State) (n k img : Nat) : State :=
  ((s.core n).former.filter (fun f => f.slot = k && f.img ≠ img)).foldl (fun s f => evictFormer s n f (BitVec.allOnes 32)) s

/-- A private row filled from the thread's image through L1; `bad` poisons it. -/
def fillRow (s : State) (n k row : Nat) (bad : Bool) : State :=
  let s := roomForRow s n k
  let x := s.slot n k
  let (s, v, p) := lineLoad s n (canonPa s (x.img + 0x40 + 16 * row)) 16 0 0
  s.modSlot n k (fun x =>
    { x with
      rows := wideSet x.rows (128 * row) 128 v
      resident := x.resident ||| BitVec.ofNat 32 (2 ^ row)
      poisoned := if bad || p ≠ 0 then x.poisoned ||| BitVec.ofNat 32 (2 ^ row) else x.poisoned &&& ~~~(BitVec.ofNat 32 (2 ^ row))
      demand := if x.demand = some row then none else x.demand })

/-- A borrowed slot's row filled from the backing area. -/
def fillBorrow (s : State) (n k r : Nat) (bad : Bool) : State :=
  match (s.slot n k).borrow with
  | none => s.modSlot n k (fun x => { x with demand := none })
  | some b =>
    let (s, v, p) := lineLoad (roomForRow s n b.slot) n (canonPa s (backPa b r)) 16 0 0
    let m := BitVec.ofNat 32 (2 ^ r)
    s.modSlot n k (fun x =>
      { x with
        demand := none
        borrow := some { b with rows := wideSet b.rows (128 * r) 128 v, resident := b.resident ||| m,
                                poisoned := if bad || p ≠ 0 then b.poisoned ||| m else b.poisoned &&& ~~~m } })

/-- The slot that borrows a lent slot, with the borrowed rows (R73). -/
def lentBorrow (s : State) (n k : Nat) : Option (Nat × Borrow) :=
  match (s.slot n k).lentTo with
  | some j => (match (s.slot n j).borrow with | some b => if b.slot = k then some (j, b) else none | none => none)
  | none => none

/-- Layout of the signature's names in a region: width and bit offset of the i-th. -/
def sigPlace (rows : Nat) (sig : List NameD) (i : Nat) : Option (NameD × Nat) :=
  match sig[i]? with
  | some d => some (d, packOffset rows (sig.map (·.width)) i)
  | none => none

/-- Bits of a row of the shared or pair region that hold a name. -/
def sigRowMask (rows : Nat) (sig : List NameD) (row : Nat) : Nat :=
  (List.range sig.length).foldl (fun acc i => match sigPlace rows sig i with
    | some (d, o) => if o / 128 = row then acc ||| ((2 ^ d.width - 1) * 2 ^ (o % 128)) else acc
    | none => acc) 0

def regionSig (s : State) (n : Nat) : Region → List NameD
  | .priv => []
  | .shared => (s.core n).sig
  | .pair => (s.pair (pairOf n)).sig

/-- The bits of a raw row that hold a name; the private rows of a lent slot are those of the second map (R73). -/
def rawMask (s : State) (n k : Nat) (g : Region) (row : Nat) : Nat :=
  match g with
  | .priv => (match lentBorrow s n k with | some (_, b) => sigRowMask 32 b.map row | none => rowMask s n k row)
  | _ => sigRowMask g.rows (regionSig s n g) row

/-- A row of a slot that a window reaches is resident first (R80); one that holds no name is never filled (R70). -/
def needRow (s : State) (n k : Nat) (g : Region) (row : Nat) : State :=
  if g = .priv ∧ k < 7 ∧ rawMask s n k g row ≠ 0 then
    match lentBorrow s n k with
    | some (j, b) => if b.resident.getLsbD row then s else fillBorrow s n j row false
    | none => if (s.slot n k).resident.getLsbD row || (s.slot n k).img = 0 then s else fillRow s n k row false
  else s

/-! ## Requesters -/

/-- Who makes an access: the core it acts at, the slot for a thread's access, and whether that is the system slot. -/
structure Req where
  core : Nat
  slot : Option Nat
  /-- an engine's access: the number of its command. -/
  seq  : Option Nat := none
  deriving DecidableEq, Repr

def Req.isUser (q : Req) : Bool := match q.slot with | some k => decide (k < 7) | none => false
def Req.isSystem (q : Req) : Bool := q.slot = some 7

/-- How an access ends: its value with poison, a wait, a refusal or fault, or the memory of another device. -/
inductive Access where
  | ok (s : State) (v poison pa : Nat)
  | wait (s : State)
  | trap (c : Cause) (v : Word)
  | remote (s : State) (dev off : Nat)
  deriving DecidableEq, Repr

def busErr (pa : Nat) : Access := .trap .buserr (BitVec.ofNat 64 pa)

/-! ## Names by window (R79, R302) -/

/-- The 64 bits of a window entry fitted to a name: none when a trap-mode name does not take it. -/
def windowFit (k : Kind) (w : Nat) (m : Mode) (v : Word) : Option Nat :=
  if k.isFloat then some (v.toNat % 2 ^ w)
  else (fitInt k w m (if k = .signed then v.toInt else v.toNat)).map (fun y => modPow y w)

/-- The party of a requester that waits with an entry that finds an inbox full; a system slot never waits on its own inbox (R303). -/
def Req.party (q : Req) (s : State) (n : Nat) : Option (Nat × Nat) :=
  match q.slot, q.seq with
  | some k, _ => if k = 7 ∧ q.core = n then none else some (q.core, k)
  | none, some i => ((s.core q.core).cmds.find? (fun c => c.seq = i)).map (fun c => (q.core, 16 + c.slot))
  | none, none => none

def widthEntry (s : State) (n slot name handle : Nat) (v : Word) (q : Req) (region : Nat) : State :=
  inboxSendBy s n (q.party s n) (inboxHead 0x03 slot name handle) v (BitVec.ofNat 64 (q.core % 1024 + region * 1024))

/-- A window write performed at name `i` of slot `k` (R79). -/
def slotNameWrite (s : State) (n k i : Nat) (v : Word) (q : Req) : State :=
  match nameInfo s n k i with
  | none => s
  | some d =>
    let s := needRow s n k d.region (d.off / 128)
    match windowFit d.kind d.width d.mode v with
    | some b => writeBits s n k i b
    | none => widthEntry s n k i (s.slot n k).handle.toNat v q 0

/-- A slot that holds a thread: windows reach no other. -/
def holdsThread (s : State) (n k : Nat) : Bool := decide (k < 7) && (s.slot n k).phase != .free

def windowRegion (off : Nat) : Option Region :=
  if 0x301000 ≤ off ∧ off < 0x302000 then some .shared else if 0x302000 ≤ off ∧ off < 0x303000 then some .pair else none

/-- Write of a name window entry. A write to any name of a held slot is diverted, declared or not: R302 makes no difference
where R79 discards (log entry 75). -/
def nameWrite (s : State) (n off : Nat) (v : Word) (q : Req) : Option State :=
  if off < 0x301000 then
    let k := (off - 0x300000) / 512
    let i := (off - 0x300000) % 512 / 8
    if holdsThread s n k = false then some s
    else if (s.slot n k).phase = Phase.held then
      some (inboxSendBy s n (q.party s n) (inboxHead 0x20 k i (s.slot n k).handle.toNat) v (BitVec.ofNat 64 (q.core % 1024)))
    else if (match nameInfo s n k i with | some d => frozen s n k d.region | none => false) then none
    else some (slotNameWrite s n k i v q)
  else match windowRegion off with
    | none => some s
    | some g =>
      let i := (off % 0x1000) / 8
      if frozen s n 0 g then none
      else match sigPlace g.rows (regionSig s n g) i with
        | none => some s
        | some (d, o) => match windowFit d.kind d.width d.mode v with
          | none => some (widthEntry s n 0 i 0 v q g.code)
          | some b => some (match g with
            | .shared => s.modCore n (fun c => { c with sharedRows := wideSet c.sharedRows o d.width b })
            | _ => s.modPair (pairOf n) (fun p => { p with rows := wideSet p.rows o d.width b }))

/-- Read of a name window entry: the value extended to 64 bits, and the raw-row address of its row when it is poisoned. -/
def nameRead (s : State) (n off : Nat) : Option (State × Word × Option Word) :=
  if off < 0x301000 then
    let k := (off - 0x300000) / 512
    let i := (off - 0x300000) % 512 / 8
    if holdsThread s n k = false then some (s, 0, none)
    else match nameInfo s n k i with
      | none => some (s, 0, none)
      | some d =>
        if frozen s n k d.region then none
        else
          let s := needRow s n k d.region (d.off / 128)
          some (s, extend64 d.kind d.width (nameBits s n k i),
            if rowPoisoned s n k d.region (d.off / 128) then some (rawRowAddr n k d.region (d.off / 128)) else none)
  else match windowRegion off with
    | none => some (s, 0, none)
    | some g =>
      let i := (off % 0x1000) / 8
      if frozen s n 0 g then none
      else match sigPlace g.rows (regionSig s n g) i with
        | none => some (s, 0, none)
        | some (d, o) => some (s, extend64 d.kind d.width (regionBits s n 0 g o d.width),
            if rowPoisoned s n 0 g (o / 128) then some (rawRowAddr n 0 g (o / 128)) else none)

/-! ## Raw rows (R62, R80) -/

/-- Region, slot and row of a raw-row offset. -/
def rawRow (off : Nat) : Option (Region × Nat × Nat) :=
  let o := off - 0x380000
  if o < 0x1000 then some (.priv, o / 0x200, o % 0x200 / 16)
  else if o < 0x1100 then some (.shared, 0, (o - 0x1000) / 16)
  else if o < 0x1180 then some (.pair, 0, (o - 0x1100) / 16)
  else none

def rawBits (s : State) (n k : Nat) (g : Region) (row : Nat) : Nat :=
  match g, lentBorrow s n k with
  | .priv, some (_, b) => wideGet b.rows (128 * row) 128
  | _, _ => regionBits s n k g (128 * row) 128

def rawRead (s : State) (n k : Nat) (g : Region) (row : Nat) : Nat := rawBits s n k g row &&& rawMask s n k g row

def rawPoisoned (s : State) (n k : Nat) (g : Region) (row : Nat) : Bool :=
  match g, lentBorrow s n k with
  | .priv, some (_, b) => b.poisoned.getLsbD row
  | _, _ => rowPoisoned s n k g row

def rawWrite (s : State) (n k : Nat) (g : Region) (row v : Nat) : State :=
  let m := rawMask s n k g row
  let w := (rawBits s n k g row &&& ((2 ^ 128 - 1) ^^^ m)) ||| (v &&& m)
  if m = 0 then s
  else match g with
  | .priv => match lentBorrow s n k with
    | some (j, b) =>
      let b := { b with rows := wideSet b.rows (128 * row) 128 w, dirty := b.dirty ||| BitVec.ofNat 32 (2 ^ row) }
      s.modSlot n j (fun x => { x with borrow := some b })
    | none => s.modSlot n k (fun x => rowSet x row (BitVec.ofNat 128 w))
  | .shared => s.modCore n (fun c => { c with sharedRows := wideSet c.sharedRows (128 * row) 128 w })
  | .pair => s.modPair (pairOf n) (fun p => { p with rows := wideSet p.rows (128 * row) 128 w })

/-! ## Tiles by window (R244) -/

/-- A requester's access to a tile, as it arrives now. -/
def accWaitOf (s : State) (q : Req) (n t : Nat) : AccWait :=
  let x := match q.slot with | some k => s.slot q.core k | none => {}
  { core := q.core, slot := q.slot, seq := q.seq, pc := x.pc, handle := x.handle, turn := x.turn, tile := t, mark := (s.core n).cmdSeq }

/-- Two tries of one access. -/
def accSame (a b : AccWait) : Bool :=
  a.core = b.core && a.slot = b.slot && a.seq = b.seq && a.pc = b.pc && a.handle = b.handle && a.tile = b.tile

/-- An access that still waits: its slot stands at the instruction since its latest turn, or its command is at work. -/
def accLive (s : State) (a : AccWait) : Bool :=
  match a.slot, a.seq with
  | some k, _ =>
    let x := s.slot a.core k
    x.phase == .running && x.pc = a.pc && x.handle = a.handle && decide (x.turn ≤ a.turn + 1)
  | none, some q => (s.core a.core).cmds.any (fun c => c.seq = q && c.faulted.isNone)
  | none, none => false

/-- An access to a tile: it is performed, or it waits for the commands naming the tile that the core accepted before it
arrived (R244). Later commands that name the tile wait for it (R242). -/
def tileAccess (s : State) (q : Req) (n t : Nat) (perform : State → Access) : Access :=
  let live := (s.core n).accWait.filter (accLive s)
  let a := accWaitOf s q n t
  let a := match live.find? (accSame a) with | some b => { a with mark := b.mark } | none => a
  let others := live.filter (fun b => !accSame a b)
  let keeps (l : List AccWait) : State := s.modCore n (fun c => { c with accWait := l })
  if (s.core n).cmds.any (fun c => c.seq < a.mark && cmdTile c.op t) then
    .wait (if a.slot.isNone && a.seq.isNone then s else keeps (others ++ [a]))
  else perform (if (s.core n).accWait = others then s else keeps others)

/-- The access waits for a command that itself waits for the restore `c` (R248). -/
def behindRestore (s : State) (n : Nat) (c : Cmd) (a : AccWait) : Bool :=
  (s.core n).cmds.any (fun d => d.behind = some c.seq && decide (d.seq < a.mark) && cmdTile d.op a.tile)

/-- A waiting access that arrived before a command was accepted stands before it at its tiles. -/
def tileTaken (s : State) (n : Nat) (c : Cmd) : Bool :=
  (s.core n).accWait.any (fun a => decide (a.mark ≤ c.seq) && cmdTile c.op a.tile && accLive s a && !behindRestore s n c a)

/-! ## The window -/

def overlaps (lo hi : Nat) (r : Nat × Nat) : Bool := decide (lo < r.2) && decide (r.1 < hi)

/-- A thread's access to its own core's scratchpad waits for the commands that the scoreboard orders before it (R219). -/
def scoreWait (s : State) (q : Req) (n off size : Nat) (write : Bool) : Bool :=
  q.core = n && q.slot.isSome &&
    (s.core n).cmds.any (fun c => c.wr.any (overlaps off (off + size)) || (write && c.rd.any (overlaps off (off + size))))

/-- An access meets the counter area of a core: a breach of R395, whose values are free (R7; log entry 76). -/
def inCtrArea (s : State) (n off size : Nat) : Bool :=
  decide (off < (ctrArea s n).1 + 4 * (ctrArea s n).2) && decide ((ctrArea s n).1 < off + size)

def windowRead (s : State) (q : Req) (n off size pa : Nat) (va : Word) : Access :=
  if windowShut s q.core n then busErr pa
  else if off < 0x200000 then
    (if scoreWait s q n off size false then .wait s
     else if inCtrArea s n off size then .ok s.ticked (Config.freeBits s.tick pa (8 * size) % 2 ^ (8 * size)) 0 pa
     else .ok s (memReadLE s.mem (spadAddr n off) size) (poisonRead s.memPoison (spadAddr n off) size) pa)
  else if off < 0x210000 then
    let t := (off - 0x200000) / 0x4000
    let e := (off - 0x200000) / 4
    if (size ≠ 4 ∧ size ≠ 8) ∨ off % size ≠ 0 then busErr pa
    else tileAccess s q n t (fun s => .ok s (wideGet (s.core n).tiles (32 * e) (8 * size)) (wideGet (s.core n).tilePoison e (size / 4)) pa)
  else if 0x300000 ≤ off ∧ off < 0x303000 then
    (if size ≠ 8 ∨ off % 8 ≠ 0 then busErr pa
     else match nameRead s n off with
       | none => .wait s
       | some (s, v, none) => .ok s v.toNat 0 pa
       | some (s, v, some bad) => .ok s v.toNat 1 bad.toNat)
  else if 0x380000 ≤ off ∧ off < 0x381180 then
    (if q.isSystem && q.core = n then
      match rawRow off with
      | none => busErr pa
      | some (g, k, row) =>
        if frozen s n k g then .wait s
        else
          let s := needRow s n k g row
          .ok s (bitsAt (rawRead s n k g row) (8 * (off % 16)) (8 * size)) (bit (rawPoisoned s n k g row))
            (if rawPoisoned s n k g row then (rawRowAddr n k g row).toNat else pa)
     else if q.slot.isSome then .trap .protect va else busErr pa)
  else busErr pa

def windowWrite (s : State) (q : Req) (n off size v poison pa : Nat) (va : Word) : Access :=
  if windowShut s q.core n then busErr pa
  else if off < 0x200000 then
    (if scoreWait s q n off size true then .wait s
     else
      let breach := inCtrArea s n off size
      let v := if breach then Config.freeBits s.tick pa (8 * size) % 2 ^ (8 * size) else v
      let s := if breach then s.ticked else s
      let a := spadAddr n off
      .ok { s with mem := memWriteLE s.mem a size v, memPoison := poisonWrite s.memPoison a size (2 ^ size - 1) poison } v 0 pa)
  else if off < 0x210000 then
    let t := (off - 0x200000) / 0x4000
    let e := (off - 0x200000) / 4
    if (size ≠ 4 ∧ size ≠ 8) ∨ off % size ≠ 0 then busErr pa
    else tileAccess s q n t (fun s =>
      .ok (s.modCore n (fun c => { c with tiles := wideSet c.tiles (32 * e) (8 * size) v,
                                          tilePoison := wideSet c.tilePoison e (size / 4) 0 })) v 0 pa)
  else if 0x300000 ≤ off ∧ off < 0x303000 then
    (if size ≠ 8 ∨ off % 8 ≠ 0 then busErr pa
     else if (q.party s n).any (fun p => inboxPending s p.1 p.2) then .wait s
     else match nameWrite s n off (BitVec.ofNat 64 v) q with
       | none => .wait s
       | some t => .ok t v 0 pa)
  else if 0x380000 ≤ off ∧ off < 0x381180 then
    (if q.isSystem && q.core = n then
      match rawRow off with
      | none => busErr pa
      | some (g, k, row) =>
        if frozen s n k g then .wait s
        else
          let s := needRow s n k g row
          .ok (rawWrite s n k g row (setBits (rawRead s n k g row) (8 * (off % 16)) (8 * size) v)) v 0 pa
     else if q.slot.isSome then .trap .protect va else busErr pa)
  else busErr pa

/-! ## A thread's accesses -/

/-- A load of `size` bytes, at most 16 and within a line, under a policy (R189). -/
def threadLoad (s : State) (n k : Nat) (va size pol : Nat) : Access :=
  if walkHeld s n va then .wait s else
  match translate s n (decide (k < 7)) .load va with
  | .trap c v => .trap c v
  | .ok s pa attr =>
    let p := placeOf s pa
    if heldAtJoin s n p then .wait s
    else match p with
      | .home a | .pool a =>
        if ownedWait s n a size attr pol then .wait s
        else let (s, v, q) := lineLoad s n a size attr pol; .ok s v q pa
      | .window c off => windowRead s { core := n, slot := some k } c off size pa (BitVec.ofNat 64 va)
      | .ctrl off =>
        if k < 7 then .trap .protect (BitVec.ofNat 64 va)
        else if ctrlRefused s off size then busErr pa
        else .ok s (ctrlRead s off).toNat 0 pa
      | .remote dev off => .remote s dev off
      | .hole => busErr pa

/-- A store of `size` bytes; to another device it travels as a put, behind the slot's earlier stores to the same bytes (R276). -/
def threadStore (s : State) (n k : Nat) (va size v pol poison : Nat) : Access :=
  if walkHeld s n va then .wait s else
  match translate s n (decide (k < 7)) .store va with
  | .trap c w => .trap c w
  | .ok s pa attr =>
    let p := placeOf s pa
    if heldAtJoin s n p then .wait s
    else match p with
      | .home a | .pool a =>
        if poolRefused s a then .trap .pool (BitVec.ofNat 64 va)
        else if ownedWait s n a size attr pol then .wait s
        else .ok (lineStore s n a size v attr pol poison) v 0 pa
      | .window c off => windowWrite s { core := n, slot := some k } c off size v poison pa (BitVec.ofNat 64 va)
      | .ctrl off =>
        if k < 7 then .trap .protect (BitVec.ofNat 64 va)
        else if ctrlRefused s off size then busErr pa
        else .ok (ctrlWrite s off (BitVec.ofNat 64 v) n) v 0 pa
      | .remote dev off => if farClash s n k dev off size then .wait s else .ok (sendPut s n k none dev off size v poison) v 0 pa
      | .hole => busErr pa

/-- An atomic of `size` bytes: `f` gives the new memory value from the old; the access answers the old value (R197). -/
def threadAtomic (s : State) (n k : Nat) (va size sc : Nat) (f : Nat → Nat) : Access :=
  if walkHeld s n va then .wait s else
  match translate s n (decide (k < 7)) .update va with
  | .trap c w => .trap c w
  | .ok s pa attr =>
    let p := placeOf s pa
    if heldAtJoin s n p then .wait s
    else match p with
      | .home a | .pool a =>
        if attr = 2 then busErr pa
        else if ownedWait s n a size attr (if atomicPlace attr sc = 0 then 0 else 3) then .wait s
        else
          let (t, v, q) := lineAtomic s n a size attr sc f
          if q = 0 ∧ poolRefused s a then .trap .pool (BitVec.ofNat 64 va) else .ok t v q pa
      | .window c off =>
        if windowShut s n c ∨ 0x200000 ≤ off then busErr pa
        else if scoreWait s { core := n, slot := some k } c off size true then .wait s
        else
          let a := spadAddr c off
          let v := memReadLE s.mem a size
          let q := poisonRead s.memPoison a size
          if q ≠ 0 then .ok s v q pa
          else if inCtrArea s c off size then
            .ok { s.ticked with mem := memWriteLE s.mem a size (Config.freeBits s.tick pa 64) } (Config.freeBits s.tick (pa + 1) 64 % 2 ^ (8 * size)) 0 pa
          else .ok { s with mem := memWriteLE s.mem a size (f v) } v 0 pa
      | .ctrl _ => if k < 7 then .trap .protect (BitVec.ofNat 64 va) else busErr pa
      | .remote dev off => if attr = 2 then busErr pa else .remote s dev off
      | .hole => busErr pa

/-! ## Objects at their home (R179, R201) -/

/-- A translated object of `size` bytes on which an operation is performed indivisibly at its home: its physical address
and its words, or the trap. The core's own copy of the line is written back and dropped. -/
def objectAt (s : State) (n k : Nat) (need : Need) (va size : Nat) : Access :=
  if walkHeld s n va then .wait s else
  match translate s n (decide (k < 7)) need va with
  | .trap c w => .trap c w
  | .ok s pa _ =>
    let p := placeOf s pa
    if heldAtJoin s n p then .wait s
    else match p with
      | .home a | .pool a =>
        if engineOwns s a then .wait s
        else
          let t := metaCheck (toHome s n (lineBase a)) (lineBase a)
          let (v, q) := physRead t pa size
          if q = 0 ∧ need ≠ .load ∧ poolRefused s a then .trap .pool (BitVec.ofNat 64 va) else .ok t v q pa
      | .window c off =>
        if windowShut s n c ∨ 0x200000 < off + size then busErr pa
        else
          let (v, q) := physRead s pa size
          .ok s v q pa
      | .ctrl _ => if k < 7 then .trap .protect (BitVec.ofNat 64 va) else busErr pa
      | .remote dev off => .remote s dev off
      | .hole => busErr pa

/-- TRVAL of POISON: the physical address of the line, or the address of a register row in its per-core window (R115). -/
def poisonVal (pa : Nat) : Word :=
  if Config.windowBase ≤ pa ∧ pa < Config.windowBase + 1024 * Config.windowSize ∧ 0x380000 ≤ (pa - Config.windowBase) % Config.windowSize then
    BitVec.ofNat 64 pa
  else BitVec.ofNat 64 (lineBase pa)

end Sys2Proof.Machine
end

