-- ==== Sys2Proof/Machine/External.lean ====
section
/-! DEFINITION. Machine/External.lean: effects outside a slot's names. The comparison of redundant copies (R333, R334), the
operations on another device's memory (R342, R373), and what the atomics, locks, promises and barrier objects do to their
words (R181, R196, R202, R204), which instructions and fabric packets share. -/

namespace Sys2Proof.Machine

/-! ## Words of objects -/

/-- A clamp of an exact value to the range of an integer kind of `8c` bits. -/
def clampI (k : Kind) (w : Nat) (x : Int) : Int := max (rangeLo k w) (min (rangeHi k w) x)

/-- New memory pattern of an atomic on `c` bytes of kind `k` (R196): operand pattern `b`, expected pattern `e`
(for FAADD the kind code of the operand). -/
def atomNew (f : Nat) (k : Kind) (c b e m : Nat) : Nat :=
  let w := 8 * c
  match f with
  | 0 => (m + b) % 2 ^ w
  | 1 => m &&& b
  | 2 => m ||| b
  | 3 => m ^^^ b
  | 4 => if readPat k w b < readPat k w m then b else m
  | 5 => if readPat k w m < readPat k w b then b else m
  | 6 => b
  | 7 => if m = e then b else m
  | _ => (fitF k .rne (addV false (decodeF k m) (decodeF ((Kind.ofCode e).getD k) b)).1).1

/-- LOCK on a word: the word after and the status; 5 when a full estate keeps it from taking a free word (R202). -/
def lockStep (h : Nat) (full : Bool) (w : Nat) : Nat × Nat :=
  let owner := bitsAt w 0 32
  if owner = 0 then (if full then (w, 5) else (h, if bitsAt w 33 1 = 1 then 2 else 1))
  else if owner = h then (if bitsAt w 32 1 = 1 then (h, 4) else (w, 3))
  else (w, 0)

/-- UNLOCK on a word: 0 when the word is freed, 1 otherwise. -/
def unlockStep (h w : Nat) : Nat × Nat := if bitsAt w 0 32 = h then (0, 0) else (w, 1)

/-- KEEP on the 16 bytes of a promise: its bytes after and D (R204). -/
def keepStep (h v w : Nat) : Nat × Nat :=
  if bitsAt w 32 32 ≠ h then (w, 1)
  else if bitsAt w 0 2 ≠ 0 then (w, 2)
  else (setBits (setBits w 64 64 v) 0 2 1, 0)

/-! ## Operations at a home: op codes of the model's ATOM packets (log entry 9) -/

def opLoad : Nat := 16
def opLock : Nat := 17
def opUnlock : Nat := 18
def opPrmk : Nat := 19
def opKeep : Nat := 20
def opBari : Nat := 21
/-- All bytes of an object are read, 16 from an offset returned (R182). -/
def opPeek : Nat := 28

/-- A kind's code with the size of the container. -/
def atomShape (k : Kind) (c : Nat) : Nat := k.code + 16 * c

/-- A party of this device waits at a barrier object or promise: a thread is blocked on it, or a command has still to arrive or
set chunks there. To make the object again is then a breach (R180, R204). -/
def waitedOn (s : State) (pa : Nat) : Bool :=
  s.cores.any (fun c => c.2.cmds.any (fun d => (cmdBarrier s c.1 d).map (canonPa s) == some (canonPa s pa))
    || c.2.slots.any (fun x => x.2.phase == .blocked && x.2.waitPa = canonPa s pa))

/-- An object made at its home; one that a party waits at gets free contents (R7; log entry 76). -/
def makeObject (s : State) (pa size x : Nat) (ctx : Option (BitVec 16)) : State :=
  if waitedOn s pa then physWrite s.ticked pa size (Config.freeBits s.tick pa (8 * size) % 2 ^ (8 * size)) 0 ctx
  else physWrite s pa size x 0 ctx

/-- An operation performed at its home on this device: the state and the reply. -/
def homeOp (s : State) (pa op size a b shape : Nat) (ctx : Option (BitVec 16)) : State × Nat :=
  let w := (physRead s pa size).1
  let put (s : State) (x : Nat) := physWrite s pa size x 0 ctx
  if op ≤ 8 then
    (wakeAll (markHot (put s (atomNew op ((Kind.ofCode (shape % 16)).getD .unsigned) size a b w)) (canonPa s pa)) .waitch, w)
  else if op = opLock then let (x, r) := lockStep a (b = 1) w; (put s x, r)
  else if op = opUnlock then let (x, r) := unlockStep a w; (put s x, r)
  else if op = opPrmk then (makeObject s pa size (a * 2 ^ 32) ctx, 0)
  else if op = opKeep then let (x, r) := keepStep a b w; (wakeAll (put s x) .awaitp, r)
  else if op = opBari then (makeObject s pa size a ctx, 0)
  else if op = opArrive then barrierArrive (if b / 2 % 2 = 1 then barrierTorn s pa ctx else s) pa (b % 2 = 1) ctx
  else if op = opConveyLock then (if w % 2 ^ 32 = b then put s a else s, w)
  else if op = opConveyPromise then (if w % 4 = 0 ∧ bitsAt w 32 32 = b then wakeAll (put s a) .awaitp else s, w)
  else if op = opTorn then (barrierTorn s pa ctx, 0)
  else if op = opPeek then (s, bitsAt w (8 * a) 128)
  else (s, w)

/-! ## Calls to another device -/

/-- The operand values of an instruction that goes to another device stay as it read them (R108). -/
def latchReads (s : State) (n k : Nat) (reads : List Nat) : State :=
  let now (y : Nat) : Latched := { name := y, bits := BitVec.ofNat 64 (nameBits s n k y), width := (infoOf s n k y).elim 0 (·.width) }
  s.modSlot n k (fun x => if x.latch = [] then { x with latch := reads.map now } else x)

/-- An operation on another device's memory: it is sent once the slot's earlier writes there have been performed (R260), and the
instruction waits for the reply. -/
def remoteCall (s : State) (n k dev off op size a b shape guard : Nat) (reads : List Nat) : Access :=
  match pendingCall s n k with
  | some r => match r.reply with
    | some v => .ok (dropCall s n k) (v.toNat % 2 ^ 128) (v.toNat / 2 ^ 128) (Config.remoteBase + dev * 2 ^ 40 + off)
    | none => .wait s
  | none =>
    if farBusy s n k dev then .wait (latchReads s n k reads)
    else .wait (sendCall (latchReads s n k reads) n (n, k) dev off op size shape a b guard .none)

/-- An operation whose result no one takes: the instruction completes when it is sent (R181, R197). -/
def remoteSend (s : State) (n k dev off op size a b shape : Nat) (reads : List Nat) : Access :=
  if farBusy s n k dev then .wait (latchReads s n k reads)
  else .ok (sendAtom (farWrite s n k none dev off size true) n dev s.nextRemote off op size shape a b 0) 0 0
    (Config.remoteBase + dev * 2 ^ 40 + off)

/-- The call of an instruction with destination `d`. -/
def remoteTo (s : State) (d n k dev off op size a b shape : Nat) (reads : List Nat) : Access :=
  if d = 63 then remoteSend s n k dev off op size a b shape reads else remoteCall s n k dev off op size a b shape 0 reads

/-- An access that goes to another device becomes a call. -/
def viaRemote (a : Access) (call : State → Nat → Nat → Access) : Access :=
  match a with
  | .remote s dev off => call s dev off
  | x => x

/-! ## Redundant copies (R332 to R334) -/

def dualMine (t : Thread) (c : Nat) (e : DualEffect) : Bool :=
  some e.task = t.task && e.group = t.group && e.member = t.member && e.copy = c && e.k = t.effects

/-- An effect of a DUAL copy leaves the comparison; copy 1 receives copy 0's reply. -/
def dualDone (s : State) (img c : Nat) (v : Nat) : State :=
  let t := s.thread img
  let s := { s with dual := (s.dual.filter (fun e => !dualMine t c e)).map (fun e =>
    if c = 0 ∧ dualMine t 1 e then { e with stage := 2, reply := some (BitVec.ofNat 64 v) } else e) }
  s.modThread img (fun t => { t with effects := t.effects + 1 })

/-- An effect that is performed where it is. -/
def plainEffect (waits : State → Eff) (s : State) (perform : State → Access) (deliver : State → Nat → Eff) : Eff :=
  match perform s with
  | .ok s v p pa => if p ≠ 0 then .trapIn s .poison (poisonVal pa) else deliver s v
  | .wait s => waits s
  | .trap c v => .trap c v
  | .remote s _ _ => .stall s

/-- An effect outside the slot's names with its reply: `perform` does it at its destination, or the instruction waits as
`waits` says, and `deliver` completes the instruction. In a redundant copy it waits until the mesh router has compared it; copy 0
performs it, and both receive the reply. -/
def externalOr (waits : State → Eff) (s : State) (hash : List Nat) (perform : State → Access) (deliver : State → Nat → Eff) : Eff :=
  let img := s.me.img
  let t := s.thread img
  let go (s : State) (after : State → Nat → State) : Eff := plainEffect waits s perform (fun s v => deliver (after s v) v)
  match t.copy with
  | none => go s (fun s _ => s)
  | some c =>
    match s.dual.find? (dualMine t c) with
    | none =>
      let e : DualEffect := { task := t.task.getD 0, group := t.group, member := t.member, copy := c, k := t.effects, hash := Config.effectHash hash,
                              core := s.cur.1, slot := s.cur.2, since := (s.core s.cur.1).cycle, stage := 0, reply := none }
      .stall { s with dual := s.dual ++ [e] }
    | some e =>
      if e.stage = 0 then .stall s
      else if c = 0 then go s (fun s v => dualDone s img 0 v)
      else match e.reply with
        | some v => deliver (dualDone s img 1 v.toNat) v.toNat
        | none => .stall s

/-- An effect for which the instruction stalls. -/
def external (s : State) (hash : List Nat) (perform : State → Access) (deliver : State → Nat → Eff) : Eff :=
  externalOr .stall s hash perform deliver

/-- An effect without a reply. -/
def externalUnit (s : State) (hash : List Nat) (perform : State → Access) (deliver : State → Eff) : Eff :=
  external s hash perform (fun s _ => deliver s)

/-- A virtual address in the core's own scratchpad. -/
def ownSpad (s : State) (n k va : Nat) : Bool :=
  match translate s n (decide (k < 7)) .store va with
  | .ok s pa _ => match placeOf s pa with | .window c off => c = n && decide (off < 0x200000) | _ => false
  | .trap _ _ => false

/-- An effect at an address: a copy's work on its own scratchpad is not compared (R333). -/
def effectAt (s : State) (va : Nat) (hash : List Nat) (perform : State → Access) (deliver : State → Nat → Eff) : Eff :=
  if ownSpad s s.cur.1 s.cur.2 va then plainEffect .stall s perform deliver else external s hash perform deliver

def effectUnit (s : State) (va : Nat) (hash : List Nat) (perform : State → Access) (deliver : State → Eff) : Eff :=
  effectAt s va hash perform (fun s _ => deliver s)

/-- The state after an effect that cannot fail. -/
def always (f : State → State) (s : State) : Access := .ok (f s) 0 0 0

end Sys2Proof.Machine
end

