-- ==== Sys2Proof/Machine/MemoryOps.lean ====
section
/-! DEFINITION. Machine/MemoryOps.lean: loads and stores, row transfers, maintenance, counted stores and atomics (R186 to R197,
R209). -/

namespace Sys2Proof.Machine

/-! ## Containers (R186, R187) -/

def container (s : State) (n : Nat) : Nat := containerOf (opWidth s n)

/-- A container's value taken in a name's kind. -/
def taken (k : Kind) (c v : Nat) : Int := readPat k (8 * c) v

/-- A loaded container put into D: fitted, or as an encoding. -/
def putLoaded (s : State) (d c v : Nat) : Eff :=
  if (info s d).kind.isFloat then .done (putLate s d v) else putILate s d (taken (info s d).kind c v)

/-- val(D) extended to its container. -/
def storeBits (s : State) (d c : Nat) : Nat :=
  if (info s d).kind.isFloat then opBits s d else modPow (valI s d) (8 * c)

/-- Default cache policy and default scope (R114). -/
def apol (s : State) : Nat := fld s.me.amode 3 2
def ascope (s : State) : Nat := fld s.me.amode 0 3

/-- Effective address (R186). -/
def effAddr (s : State) (a : Nat) (off : Int) : Nat := modPow (valI s a + off) 64

/-! ## Loads and stores -/

def loadAt (s : State) (n k ea c pol : Nat) (reads : List Nat) : Access :=
  viaRemote (threadLoad s n k ea c pol) (fun s dev off => remoteCall s n k dev off opLoad c 0 0 (atomShape .unsigned c) 0 reads)

/-- A load; `sc` is the scope of LDA's acquire. -/
def loadOp (d : Nat) (reads : List Nat) (kinds : List KindReq) (addr : State → Nat) (pol : State → Nat) (sc : Nat) (s : State) : Eff :=
  pre s reads [d] kinds
    (settle s reads (
      let (n, k) := s.cur
      let c := container s d
      let ea := addr s
      if ea % c ≠ 0 then .trap .misalign (BitVec.ofNat 64 ea)
      else match loadAt s n k ea c (pol s) reads with
        | .ok t v p pa => if p ≠ 0 then .trapIn t .poison (poisonVal pa) else putLoaded (acquire t n sc) d c v
        | .wait t => .stall t
        | .trap x v => .trap x v
        | .remote t _ _ => .stall t))

/-- The store of STL reaches the level that serves its scope (R190). -/
def storeAt (s : State) (n k ea c v pol sc : Nat) : Access :=
  match threadStore s n k ea c v pol 0 with
  | .ok s x p pa => .ok (match placeOf s pa with
      | .home a | .pool a => storeThrough s n a sc
      | _ => s) x p pa
  | r => r

/-- A store. `rel` is the scope of STL's release, which waits for the slot's earlier stores to other devices (R264); ST makes
none. -/
def storeOp (d : Nat) (reads : List Nat) (kinds : List KindReq) (addr : State → Nat) (pol : State → Nat) (rel : Option Nat)
    (s : State) : Eff :=
  pre s (d :: reads) [] kinds
    (settle s (d :: reads) (
      let (n, k) := s.cur
      let c := container s d
      let ea := addr s
      let v := storeBits s d c
      if ea % c ≠ 0 then .trap .misalign (BitVec.ofNat 64 ea)
      else if (match rel with | some sc => putsHeld s n k sc | none => false) then .stall s
      else
        let sc := rel.getD 0
        effectUnit s ea [1, ea, c, v] (fun s => storeAt (release s n sc) n k ea c v (pol s) sc) .done))

/-- Offset and policy of LD and ST; offset and scope of LDA and STL (R188). -/
def offAddr (d a : Nat) (off : Int) (s : State) : Nat := effAddr s a (off * container s d)
def idxAddr (d a b : Nat) (s : State) : Nat := effAddr s a (valI s b * container s d)
def ldOff (i : BitVec 11) : Int := (i.extractLsb' 0 9).toInt
def ldaOff (i : BitVec 11) : Int := (i.extractLsb' 0 8).toInt
def ldPol (i : BitVec 11) (_ : State) : Nat := i.toNat / 512
def ldaScope (i : BitVec 11) : Nat := i.toNat / 256

def ldOp (d a : Nat) (i : BitVec 11) : State → Eff := loadOp d [a] [(d, anyK), (a, intK)] (offAddr d a (ldOff i)) (ldPol i) 0
def ldaOp (d a : Nat) (i : BitVec 11) : State → Eff := loadOp d [a] [(d, anyK), (a, intK)] (offAddr d a (ldaOff i)) apol (ldaScope i)
def ldxOp (d a b : Nat) : State → Eff := loadOp d [a, b] [(d, anyK), (a, intK), (b, intK)] (idxAddr d a b) apol 0
def stOp (d a : Nat) (i : BitVec 11) : State → Eff := storeOp d [a] [(d, anyK), (a, intK)] (offAddr d a (ldOff i)) (ldPol i) none
def stlOp (d a : Nat) (i : BitVec 11) : State → Eff := storeOp d [a] [(d, anyK), (a, intK)] (offAddr d a (ldaOff i)) apol (some (ldaScope i))
def stxOp (d a b : Nat) : State → Eff := storeOp d [a, b] [(d, anyK), (a, intK), (b, intK)] (idxAddr d a b) apol none
def ldCompactOp (d a : Nat) : State → Eff := loadOp d [a] [(d, anyK), (a, intK)] (offAddr d a 0) apol 0
def stCompactOp (d a : Nat) : State → Eff := storeOp d [a] [(d, anyK), (a, intK)] (offAddr d a 0) apol none

/-! ## SPILL and FILL (R192) -/

def setOx7 (s : State) (n k v : Nat) : State := s.modSlot n k (fun x => { x with ox := wideSet x.ox 448 64 v })

/-- A row that holds a name and is not resident. -/
def rowAbsent (s : State) (n k row : Nat) : Bool :=
  decide (k < 7) && rowMask s n k row ≠ 0 && !(s.slot n k).resident.getLsbD row

/-- One row moved; the sector's fault of any kind ends the transfer with PARTIAL. -/
def spillRow (s : State) (n k va row : Nat) : Access :=
  let bad := if rowPoisoned s n k .priv row then 0xFFFF else 0
  threadStore s n k va 16 (rowRead s n k row).toNat (fld (s.slot n k).amode 3 2) bad

def fillRowOp (s : State) (n k va row : Nat) (reads : List Nat) : Access :=
  match viaRemote (threadLoad s n k va 16 (fld (s.slot n k).amode 3 2))
      (fun s dev off => remoteCall s n k dev off opLoad 16 0 0 0 0 reads) with
  | .ok s v p _ =>
    let s := rowWrite s n k row (BitVec.ofNat 128 v)
    let m := BitVec.ofNat 32 (2 ^ row)
    .ok (s.modSlot n k (fun x => { x with poisoned := if p ≠ 0 then x.poisoned ||| m else x.poisoned &&& ~~~m })) v 0 0
  | r => r

/-- The sector of row `row + i`. -/
def sectorAt (va i : Nat) : Nat := (va + 16 * i) % 2 ^ 64

/-- Rows from the progress count on. -/
def moveRows (one : State → Nat → Nat → Access) (s : State) (n k va row : Nat) : (i left : Nat) → Eff
  | _, 0 => .done (setOx7 s n k 0)
  | i, m + 1 =>
    match one s (sectorAt va i) (row + i) with
    | .ok s _ _ _ => moveRows one s n k va row (i + 1) m
    | .wait s => .stall (setOx7 s n k i)
    | .trap _ _ => .trapIn (setOx7 s n k i) .partial_ (BitVec.ofNat 64 i)
    | .remote s _ _ => .stall (setOx7 s n k i)

/-- SPILL in a redundant copy: each sector, but for the copy's own scratchpad, is an effect that the mesh router compares
(R333); a fault reaches both copies. -/
def spillCopy (n k va row : Nat) : (left : Nat) → State → (i : Nat) → Eff
  | 0, s, _ => .done (setOx7 s n k 0)
  | m + 1, s, i =>
    let next (s : State) (fault : Nat) : Eff :=
      if fault = 1 then .trapIn (setOx7 s n k i) .partial_ (BitVec.ofNat 64 i) else spillCopy n k va row m s (i + 1)
    let act (s : State) : Access :=
      match spillRow s n k (sectorAt va i) (row + i) with
      | .ok s _ _ _ => .ok s 0 0 0
      | .trap _ _ => .ok s 1 0 0
      | r => r
    let s := setOx7 s n k i
    if ownSpad s n k (sectorAt va i) then
      match act s with
      | .ok s v _ _ => next s v
      | .wait s => .stall s
      | .remote s _ _ => .stall s
      | .trap c v => .trap c v
    else external s [4, sectorAt va i, 16, (rowRead s n k (row + i)).toNat] act next

/-- A private name that starts a row, from which `count` rows stand (R192). -/
def startsRows (d count : Nat) (i : Info) : Bool :=
  d ≠ 63 && i.region == .priv && i.off % 128 = 0 && decide (i.off / 128 + count ≤ 32)

/-- SPILL and FILL: D starts the rows (KIND), the address is aligned; then the rows, each resident first (R70). -/
def rowTransfer (fillForm : Bool) (d a count : Nat) (s : State) : Eff :=
  pre s [a] [] [(d, startsRows d count), (a, intK)]
    (let va := (valW s a).toNat
     let row := (info s d).off / 128
     if va % 16 ≠ 0 then .trap .misalign (BitVec.ofNat 64 va)
     else settle s [a] (
       let (n, k) := s.cur
       let c := wideGet s.me.ox 448 6
       match ((List.range (count - c)).map (fun i => row + c + i)).find? (rowAbsent s n k) with
       | some r => .stall (s.modMe (fun x => { x with demand := some r }))
       | none =>
         if fillForm then moveRows (fun s v r => fillRowOp s n k v r [a]) s n k va row c (count - c)
         else if (s.thread s.me.img).copy.isSome then spillCopy n k va row (count - c) s c
         else moveRows (fun s v r => spillRow s n k v r) s n k va row c (count - c)))

def spillOp (d a count : Nat) (s : State) : Eff := rowTransfer false d a count s
def fillOp (d a count : Nat) (s : State) : Eff := rowTransfer true d a count s

/-! ## PF, FLUSH, INV and FENCE (R193, R194) -/

/-- PF: a fault drops it, and so do uncacheable and device pages (R348) and a line that an engine owns. -/
def prefetch (s : State) (n k va level : Nat) : State :=
  if walkHeld s n va then s else
  match translate s n (decide (k < 7)) .load va with
  | .trap _ _ => s
  | .ok t pa attr =>
    match placeOf t pa with
    | .home a | .pool a =>
      if attr = 1 ∨ attr = 2 ∨ engineOwns t a ∨ heldAtJoin t n (placeOf t pa) then t
      else match level with
        | 0 => (lineLoad t n (lineBase a) 128 attr 0).1
        | 1 => (l2Fetch t (clusterOf n) (lineBase a)).1
        | _ => let l := homeLine t (lineBase a); let t := llcRoom (metaCheck t l.addr) l.addr; if llcPinned t l.addr then t else { t with llc := putLine t.llc l }
    | _ => t

def pfOp (a level : Nat) (s : State) : Eff :=
  pre s [a] [] [(a, intK)] (.done (prefetch s s.cur.1 s.cur.2 (valW s a).toNat level))

/-- The physical images of a virtual range, in pieces of 4 KiB, which are contiguous at home in either view (R341): start and
length; pages without the rights are skipped. Addresses wrap. -/
def rangePages (s : State) (n k va len : Nat) (exec : Bool) : List (Nat × Nat) :=
  let user := decide (k < 7)
  let first := va / 4096
  let count := if len = 0 then 0 else (va + len - 1) / 4096 + 1 - first
  (List.range count).filterMap (fun i =>
    let lo := max va ((first + i) * 4096)
    let hi := min (va + len) ((first + i + 1) * 4096)
    let v := lo % 2 ^ 64
    match translate s n user .load v, (if exec then translate s n user .fetch v else translate s n user .load v) with
    | .ok _ pa _, .ok _ _ _ => some (canonPa s pa, hi - lo)
    | _, _ => none)

/-- A line meets one of the ranges. -/
def lineIn (rs : List (Nat × Nat)) (a : Nat) : Bool := rs.any (fun r => decide (a < r.1 + r.2) && decide (r.1 < a + 128))

def foldLines (f : State → Nat → State) (s : State) (ls : List Line) (rs : List (Nat × Nat)) : State :=
  ((ls.filter (fun l => lineIn rs l.addr)).map (·.addr)).foldl f s

/-- Dirty sectors of the range written back to the level that serves a scope. -/
def flushRange (s : State) (n sc : Nat) (rs : List (Nat × Nat)) : State :=
  if sc ≤ 1 then s
  else
    let s := foldLines (fun s a => l1ToL2 s n a) s (s.core n).l1 rs
    if sc ≤ 3 then s
    else foldLines (fun s a => l2ToHome s (clusterOf n) a) s (s.cluster (clusterOf n)).l2 rs

/-- INV: written back, then the L1 copies and, above CLUSTER, the non-owned L2 copies invalidated. -/
def invRange (s : State) (n sc : Nat) (rs : List (Nat × Nat)) : State :=
  let s := flushRange s n (max 2 sc) rs
  let s := s.modCore n (fun c => { c with l1 := c.l1.filter (fun l => !lineIn rs l.addr) })
  if sc ≤ 3 then s
  else s.modCluster (clusterOf n) (fun c => { c with l2 := c.l2.filter (fun l => l.owned || !lineIn rs l.addr) })

def invIcache (s : State) (n : Nat) (rs : List (Nat × Nat)) : State :=
  s.modCore n (fun c => { c with icache := c.icache.filter (fun l => !lineIn rs l.addr) })

/-- A walk for a page of a range is held at the join (R378). -/
def rangeHeld (s : State) (n va len : Nat) : Bool :=
  joinDown s && (List.range ((va + len - 1) / 65536 + 1 - va / 65536)).any (fun i => walkHeld s n ((va / 65536 + i) * 65536 % 2 ^ 64))

def maintain (a b : Nat) (f : State → Nat → Nat → State) (s : State) : Eff :=
  pre s [a, b] [] [(a, intK), (b, intK)]
    (settle s [a, b] (
      if putsHeld s s.cur.1 s.cur.2 0 ∨ rangeHeld s s.cur.1 (valW s a).toNat (fld (valW s b) 0 32) then .stall s else .done (f s (valW s a).toNat (fld (valW s b) 0 32))))

def flushOp (sc a b : Nat) (s : State) : Eff :=
  maintain a b (fun s va len => flushRange s s.cur.1 sc (rangePages s s.cur.1 s.cur.2 va len false)) s

def invOp (sel a b : Nat) (s : State) : Eff :=
  maintain a b (fun s va len =>
    let (n, k) := s.cur
    if sel = 8 then invIcache s n (rangePages s n k va len true) else invRange s n sel (rangePages s n k va len false)) s

def fenceOp (sc kind : Nat) (s : State) : Eff :=
  settle s [] (
    let (n, k) := s.cur
    if putsHeld s n k (if kind = 2 then 0 else sc) then .stall s
    else
      let s := if kind = 2 then s else release s n sc
      .done (if kind = 1 then s else acquire s n sc))

/-! ## STC (R195) -/

/-- The store of STC performed at its home. -/
def homeStore (s : State) (n k va c v : Nat) : Access := threadStore s n k va c v 3 0

/-- A counted put: number, address, device and offset of the barrier object, data (log entry 9). -/
def sendCput (s : State) (n k dev off bdev boff c v : Nat) : State :=
  sendPacket (farWrite s n k none dev off c false) 3 1 (logicalOf s n) 0 dev 0 0
    (leBytes 8 s.nextRemote ++ leBytes 8 off ++ leBytes 2 bdev ++ leBytes 8 boff ++ leBytes c v)

/-- The store, then one arrival at the barrier object. A store to another device takes the arrival with it. -/
def stcAct (s : State) (n k va c v bar : Nat) : Access :=
  let ctx := some (ctxOf s n)
  match translate s n (decide (k < 7)) .store va with
  | .trap x w => .trap x w
  | .ok s0 pa0 _ =>
    match objectAt s n k .update bar 32 with
    | .trap x w => .trap x w
    | .wait s => .wait s
    | .remote s bdev boff =>
      (match placeOf s0 pa0 with
       | .remote dev off => if farClash s n k dev off c then .wait s else .ok (sendCput s n k dev off bdev boff c v) 0 0 0
       | _ => match homeStore s n k va c v with
         | .ok s x p pa => .ok (sendAtom s n bdev noReply boff opArrive 32 0 0 0 0) x p pa
         | r => r)
    | .ok s _ q bpa =>
      if q ≠ 0 then .ok s 0 q bpa
      else match placeOf s0 pa0 with
       | .remote dev off => if farClash s n k dev off c then .wait s else .ok (sendCput s n k dev off s.devId bpa c v) 0 0 0
       | _ => match homeStore s n k va c v with
         | .ok s x p pa => .ok (barrierArrive s bpa false ctx).1 x p pa
         | r => r

def stcOp (d a b : Nat) (s : State) : Eff :=
  pre s [d, a, b] [] [(d, anyK), (a, intK), (b, intK)]
    (settle s [d, a, b] (
      let (n, k) := s.cur
      let c := container s d
      let va := (valW s a).toNat
      let bar := (valW s b).toNat
      let v := storeBits s d c
      if va % c ≠ 0 then .trap .misalign (BitVec.ofNat 64 va)
      else if bar % 32 ≠ 0 then .trap .misalign (BitVec.ofNat 64 bar)
      else
        let act (s : State) : Access := stcAct s n k va c v bar
        if ownSpad s n k bar then effectUnit s va [2, va, c, v, bar] act .done else externalUnit s [2, va, c, v, bar] act .done))

/-! ## Atomics (R196, R197) -/

/-- D's width fills its container, or D is a float name or ZERO. -/
def atomD (floats : Bool) (i : Info) : Bool :=
  if floats then i.kind.isFloat else i.kind.isInt && (i.width = 8 || i.width = 16 || i.width = 32 || i.width = 64)

/-- The operand pattern: reduced, clamped for AMIN and AMAX, or rounded to D's float kind. -/
def atomOperand (f d b c : Nat) (s : State) : Nat :=
  let i := info s d
  if f = 8 then opBits s b
  else if f = 4 ∨ f = 5 then modPow (clampI i.kind (8 * c) (valI s b)) (8 * c)
  else modPow (valI s b) (8 * c)

/-- FAADD adds the exact val(B), whatever B's float kind. -/
def atomFn (f d b c : Nat) (s : State) (m : Nat) : Nat :=
  let k := (info s d).kind
  if f = 8 then (fitF k .rne (addV false (decodeF k m) (valF s b)).1).1
  else atomNew f k c (atomOperand f d b c s) (opBits s d) m

def atomOp (f d a b : Nat) (s : State) : Eff :=
  let reads := if f = 7 then [d, a, b] else [a, b]
  pre s reads [d] [(d, atomD (f = 8)), (a, intK), (b, if f = 8 then floatK else intK)]
    (settle s reads (
      let (n, k) := s.cur
      let c := container s d
      let va := (valW s a).toNat
      if va % c ≠ 0 then .trap .misalign (BitVec.ofNat 64 va)
      else
        let fn := atomFn f d b c s
        let arg := atomOperand f d b c s
        let exp := if f = 8 then (info s b).kind.code else opBits s d
        effectAt s va [3, f, va, c, arg, exp]
          (fun t => viaRemote (threadAtomic t n k va c (ascope t) fn)
            (fun t dev off => remoteTo t d n k dev off f c arg exp (atomShape (info t d).kind c) reads))
          (fun t m => .done (putLate t d m))))

/-! ## The instructions -/

def execLd (sl : BitVec 2) (d : BitVec 6) (a : BitVec 6) (i : BitVec 11) (s : State) : Host.Outcome State Fault Refusal := run32 (.ld sl d a i) sl (ldOp d.toNat a.toNat i) s
def execSt (sl : BitVec 2) (d : BitVec 6) (a : BitVec 6) (i : BitVec 11) (s : State) : Host.Outcome State Fault Refusal := run32 (.st sl d a i) sl (stOp d.toNat a.toNat i) s
def execLda (sl : BitVec 2) (d : BitVec 6) (a : BitVec 6) (i : BitVec 11) (s : State) : Host.Outcome State Fault Refusal := run32 (.lda sl d a i) sl (ldaOp d.toNat a.toNat i) s
def execStl (sl : BitVec 2) (d : BitVec 6) (a : BitVec 6) (i : BitVec 11) (s : State) : Host.Outcome State Fault Refusal := run32 (.stl sl d a i) sl (stlOp d.toNat a.toNat i) s
def execSpill (sl : BitVec 2) (d : BitVec 6) (a : BitVec 6) (b : BitVec 6) (s : State) : Host.Outcome State Fault Refusal := run32 (.spill sl d a b) sl (spillOp d.toNat a.toNat b.toNat) s
def execFill (sl : BitVec 2) (d : BitVec 6) (a : BitVec 6) (b : BitVec 6) (s : State) : Host.Outcome State Fault Refusal := run32 (.fill sl d a b) sl (fillOp d.toNat a.toNat b.toNat) s
def execPf (sl : BitVec 2) (a : BitVec 6) (b : BitVec 6) (s : State) : Host.Outcome State Fault Refusal := run32 (.pf sl a b) sl (pfOp a.toNat b.toNat) s
def execFlush (sl : BitVec 2) (d : BitVec 6) (a : BitVec 6) (b : BitVec 6) (s : State) : Host.Outcome State Fault Refusal := run32 (.flush sl d a b) sl (flushOp d.toNat a.toNat b.toNat) s
def execInv (sl : BitVec 2) (d : BitVec 6) (a : BitVec 6) (b : BitVec 6) (s : State) : Host.Outcome State Fault Refusal := run32 (.inv sl d a b) sl (invOp d.toNat a.toNat b.toNat) s
def execFence (sl : BitVec 2) (d : BitVec 6) (b : BitVec 6) (s : State) : Host.Outcome State Fault Refusal := run32 (.fence sl d b) sl (fenceOp d.toNat b.toNat) s
def execLdx (sl : BitVec 2) (d : BitVec 6) (a : BitVec 6) (b : BitVec 6) (s : State) : Host.Outcome State Fault Refusal := run32 (.ldx sl d a b) sl (ldxOp d.toNat a.toNat b.toNat) s
def execStx (sl : BitVec 2) (d : BitVec 6) (a : BitVec 6) (b : BitVec 6) (s : State) : Host.Outcome State Fault Refusal := run32 (.stx sl d a b) sl (stxOp d.toNat a.toNat b.toNat) s
def execStc (sl : BitVec 2) (d : BitVec 6) (a : BitVec 6) (b : BitVec 6) (s : State) : Host.Outcome State Fault Refusal := run32 (.stc sl d a b) sl (stcOp d.toNat a.toNat b.toNat) s
def execAadd (sl : BitVec 2) (d : BitVec 6) (a : BitVec 6) (b : BitVec 6) (s : State) : Host.Outcome State Fault Refusal := run32 (.aadd sl d a b) sl (atomOp 0 d.toNat a.toNat b.toNat) s
def execAand (sl : BitVec 2) (d : BitVec 6) (a : BitVec 6) (b : BitVec 6) (s : State) : Host.Outcome State Fault Refusal := run32 (.aand sl d a b) sl (atomOp 1 d.toNat a.toNat b.toNat) s
def execAor (sl : BitVec 2) (d : BitVec 6) (a : BitVec 6) (b : BitVec 6) (s : State) : Host.Outcome State Fault Refusal := run32 (.aor sl d a b) sl (atomOp 2 d.toNat a.toNat b.toNat) s
def execAxor (sl : BitVec 2) (d : BitVec 6) (a : BitVec 6) (b : BitVec 6) (s : State) : Host.Outcome State Fault Refusal := run32 (.axor sl d a b) sl (atomOp 3 d.toNat a.toNat b.toNat) s
def execAmin (sl : BitVec 2) (d : BitVec 6) (a : BitVec 6) (b : BitVec 6) (s : State) : Host.Outcome State Fault Refusal := run32 (.amin sl d a b) sl (atomOp 4 d.toNat a.toNat b.toNat) s
def execAmax (sl : BitVec 2) (d : BitVec 6) (a : BitVec 6) (b : BitVec 6) (s : State) : Host.Outcome State Fault Refusal := run32 (.amax sl d a b) sl (atomOp 5 d.toNat a.toNat b.toNat) s
def execAswp (sl : BitVec 2) (d : BitVec 6) (a : BitVec 6) (b : BitVec 6) (s : State) : Host.Outcome State Fault Refusal := run32 (.aswp sl d a b) sl (atomOp 6 d.toNat a.toNat b.toNat) s
def execAcas (sl : BitVec 2) (d : BitVec 6) (a : BitVec 6) (b : BitVec 6) (s : State) : Host.Outcome State Fault Refusal := run32 (.acas sl d a b) sl (atomOp 7 d.toNat a.toNat b.toNat) s
def execFaadd (sl : BitVec 2) (d : BitVec 6) (a : BitVec 6) (b : BitVec 6) (s : State) : Host.Outcome State Fault Refusal := run32 (.faadd sl d a b) sl (atomOp 8 d.toNat a.toNat b.toNat) s
def execLdCompact (d : BitVec 5) (a : BitVec 5) (s : State) : Host.Outcome State Fault Refusal := run16 (.ldCompact d a) (ldCompactOp d.toNat a.toNat) s
def execStCompact (d : BitVec 5) (a : BitVec 5) (s : State) : Host.Outcome State Fault Refusal := run16 (.stCompact d a) (stCompactOp d.toNat a.toNat) s

end Sys2Proof.Machine
end

