-- ==== Sys2Proof/Machine/EstateOps.lean ====
section
/-! DEFINITION. Machine/EstateOps.lean: locks, the estate and promises (R198 to R209). -/

namespace Sys2Proof.Machine

/-! ## Locks (R201, R202) -/

/-- A word of an object at its home with an operation performed on it: the reply. Another device performs it only for a result
that `guard` admits (R8). -/
def objectOp (s : State) (n k : Nat) (need : Need) (va size op a b guard : Nat) (reads : List Nat) : Access :=
  match objectAt s n k need va size with
  | .remote s dev off => remoteCall s n k dev off op size a b 0 guard reads
  | .ok s v p pa =>
    if p ≠ 0 then .ok s v p pa
    else
      let (t, r) := homeOp s pa op size a b 0 (some (ctxOf s n))
      .ok t r 0 pa
  | r => r

/-- LOCK's word, with the estate checked at the home before a free word is taken. -/
def lockOp (d a : Nat) (s : State) : Eff :=
  pre s [a] [d] [(d, intK), (a, intK)]
    (settle s [a] (
      let (n, k) := s.cur
      let va := (valW s a).toNat
      let h := s.me.handle.toNat
      let img := s.me.img
      let full := estateFull (s.thread img)
      if va % 8 ≠ 0 then .trap .misalign (BitVec.ofNat 64 va)
      else effectAt s va [4, va] (fun t => objectOp t n k .update va 8 opLock h (bit full) (guardOf (info t d)) [a])
        (fun t r =>
          if r = 5 then .trap .protect (BitVec.ofNat 64 va)
          else
            let t := if r = 1 ∨ r = 2 then estateAuto t img (BitVec.ofNat 64 va) 1 else t
            let t := if r = 1 then acquire t n (ascope t) else if r = 2 ∨ r = 4 then acquire t n 6 else t
            putILate t d r)))

/-- UNLOCK: a release, then the word freed and the most recent LOCK entry on it dropped. -/
def unlockOp (d a : Nat) (s : State) : Eff :=
  pre s [a] [d] [(d, intK), (a, intK)]
    (settle s [a] (
      let (n, k) := s.cur
      let va := (valW s a).toNat
      let h := s.me.handle.toNat
      let img := s.me.img
      if va % 8 ≠ 0 then .trap .misalign (BitVec.ofNat 64 va)
      else if putsHeld s n k (ascope s) then .stall s
      else effectAt s va [5, va] (fun t => objectOp (release t n (ascope t)) n k .update va 8 opUnlock h 0 (guardOf (info t d)) [a])
        (fun t r =>
          let t := if r = 0 then estateDrop t img (fun e => e.kind = 1 && e.object = BitVec.ofNat 64 va) else t
          putILate t d r)))

/-! ## HOLD, WILL, RELH, CONVEY, ESTQ (R199, R203) -/

/-- A well-formed heir word (R199). -/
def heirOk (w : Word) : Bool := fld w 11 21 = 0 && decide (fld w 0 8 ≤ 4)

/-- The most recent entry on an object. -/
def entryOn (t : Thread) (object : Word) : Option EstEntry := t.estate.find? (fun e => e.object = object)

/-- The heir word of a B field; 63 is the default heir. -/
def heirWordOf (b : Nat) (s : State) : Word := if b = 63 then (s.thread s.me.img).defHeir else valW s b

def holdOp (d a b : Nat) (s : State) : Eff :=
  let reads := if b = 63 then [a] else [a, b]
  pre s reads [d] [(d, intK), (a, intK), (b, intK)]
    (settle s reads (
      let img := s.me.img
      let w := heirWordOf b s
      let seq := (s.thread img).estSeq
      if b ≠ 63 ∧ heirOk w = false then .trap .protect w
      else if estateFull (s.thread img) then .trap .protect (valW s a)
      else putI (estateAdd s img (valW s a) 7 w) d 1 (seq.toNat : Int)))

/-- A new heir in an entry. -/
def setHeir (w : Word) (e : EstEntry) : EstEntry :=
  { e with heirKind := fld w 0 8, level := fld w 8 3, heir := BitVec.ofNat 32 (fld w 32 32) }

def willOp (d a b : Nat) (s : State) : Eff :=
  pre s [a, b] [d] [(d, intK), (a, intK), (b, intK)]
    (settle s [a, b] (
      let img := s.me.img
      let w := valW s b
      let o := valW s a
      let named (e : EstEntry) : Bool := o = 0 || e.object = o
      if heirOk w = false then .trap .protect w
      else putI (s.modThread img (fun t => { t with estate := t.estate.map (fun e => if named e then setHeir w e else e) })) d 1
        ((s.thread img).estate.filter named).length))

/-- An entry that RELH removes. -/
def relhKind (e : EstEntry) : Bool := e.kind = 1 || e.kind = 4 || e.kind = 5 || e.kind = 7

def relhOp (d a : Nat) (s : State) : Eff :=
  pre s [a] [d] [(d, intK), (a, intK)]
    (settle s [a] (
      let img := s.me.img
      let on (e : EstEntry) : Bool := relhKind e && e.object = valW s a
      match (s.thread img).estate.find? on with
      | none => putI s d 1 0
      | some e => putI (estateDrop s img on) d 1 e.kind))

/-- The engine command of an ENGINE entry is still accepted (R205). -/
def engineBusy (s : State) (img : Nat) (e : EstEntry) : Bool :=
  e.kind = 6 && s.cores.any (fun c => c.2.cmds.any (fun x => x.img = img && x.est = some e.seq))

/-- Conveyance of one entry for CONVEY by slot `k` of core `n`: the entry leaves, an object that no longer names the thread is
reported. Its release waits for the slot's writes to other devices (R264). -/
def conveyAct (s : State) (n k img : Nat) (e : EstEntry) : Access :=
  if putsHeld s n k (conveyScope s (s.thread img) (conveyHeir s (n, k) img e)) then .wait s
  else match conveyOne s (n, k) img e with
  | .fault c v => .trap c v
  | .wait t => .wait t
  | .stale t => .ok (estateDrop (convFault t (t.thread img).lastCore (n, k) (t.thread img) e 0) img (fun x => x.seq = e.seq)) e.kind 0 0
  | .ok t => .ok (estateDrop t img (fun x => x.seq = e.seq)) e.kind 0 0

/-- The ENGINE entry for whose command a CONVEY waits, by its SEQ: it stands with the operands that the instruction keeps. -/
def conveyWaits (s : State) : Option (BitVec 16) := (latched s 64).map (fun p => p.bits.setWidth 16)

/-- The entry that a CONVEY conveys: the one it waits for, else the most recent on the object. -/
def conveyed (s : State) (a : Nat) : Option EstEntry :=
  match conveyWaits s with
  | some q => (s.thread s.me.img).estate.find? (fun e => e.seq = q)
  | none => entryOn (s.thread s.me.img) (valW s a)

/-- The KIND that CONVEY puts fits its destination. -/
def conveyFits (s : State) (d : Nat) (e : EstEntry) : Bool := match putILate s d e.kind with | .done _ => true | _ => false

/-- The object operation of the entry goes to another device, which would have performed it before the KIND is put (R8, R209). -/
def conveyedFar (s : State) (n : Nat) (e : EstEntry) : Bool :=
  decide (e.kind = 1 ∨ e.kind = 2 ∨ e.kind = 5)
    && (match conveyTarget s n e (if e.kind = 1 then 8 else if e.kind = 2 then 16 else 32) with | .ok (t, pa) => isFar t pa | .error _ => false)

/-- CONVEY waits for the command of an ENGINE entry; one that completed meanwhile has taken its entry with it, which was then
conveyed to no one: D is its KIND (R203). -/
def conveyOp (d a : Nat) (s : State) : Eff :=
  pre s [a] [d] [(d, intK), (a, intK)]
    (settle s [a] (
      let (n, k) := s.cur
      let img := s.me.img
      match conveyed s a with
      | none => putILate s d (if (conveyWaits s).isSome then 6 else 0)
      | some e =>
        if engineBusy s img e then
          .stall ((latchOn s s [a]).modMe (fun x => { x with latch := x.latch.filter (fun p => p.name ≠ 64) ++ [⟨64, e.seq.setWidth 64, 16⟩] }))
        else if conveyFits s d e = false ∧ conveyedFar s n e then .trap .width (widthVal e.kind d)
        else external s [6, e.object.toNat, e.kind] (fun t => conveyAct t n k img e) (fun t r => putILate t d r)))

def estqOp (d a sel : Nat) (s : State) : Eff :=
  pre s [a] [d] [(d, intK), (a, intK)]
    (let t := s.thread s.me.img
     match sel, entryOn t (valW s a) with
     | 0, some e => putI s d 1 (fld (entryWord e) 0 35)
     | 0, none => putI s d 1 0
     | 1, _ => putI s d 1 t.estate.length
     | _, some e => putI s d 1 e.heir.toNat
     | _, none => putI s d 1 0)

/-! ## Promises (R204) -/

def prmkOp (a : Nat) (s : State) : Eff :=
  pre s [a] [] [(a, intK)]
    (settle s [a] (
      let (n, k) := s.cur
      let va := (valW s a).toNat
      let img := s.me.img
      let h := s.me.handle.toNat
      if estateFull (s.thread img) then .trap .protect (BitVec.ofNat 64 va)
      else if va % 16 ≠ 0 then .trap .misalign (BitVec.ofNat 64 va)
      else effectUnit s va [7, va] (fun t => objectOp t n k .update va 16 opPrmk h 0 0 [a])
        (fun t => .done (estateAuto t img (BitVec.ofNat 64 va) 2))))

/-- val(B) as a window read extends it (R79). -/
def windowValue (b : Nat) (s : State) : Nat := (extend64 (info s b).kind (opWidth s b) (opBits s b)).toNat

def keepOp (d a b : Nat) (s : State) : Eff :=
  pre s [a, b] [d] [(d, intK), (a, intK), (b, anyK)]
    (settle s [a, b] (
      let (n, k) := s.cur
      let va := (valW s a).toNat
      let img := s.me.img
      let h := s.me.handle.toNat
      let v := windowValue b s
      if va % 16 ≠ 0 then .trap .misalign (BitVec.ofNat 64 va)
      else if putsHeld s n k 5 then .stall s
      else effectAt s va [8, va, v] (fun t => objectOp (release t n 5) n k .update va 16 opKeep h v (guardOf (info t d)) [a, b])
        (fun t r =>
          let t := if r = 0 then estateDrop t img (fun e => e.kind = 2 && e.object = BitVec.ofNat 64 va) else t
          putILate t d r)))

/-- A slot that blocks on an object keeps where it stands (R48). -/
def noteWait (s : State) (pa : Nat) : State := s.modMe (fun x => { x with waitPa := canonPa s pa, farWait := isFar s pa })

/-- Word 0 of a promise, read at its home. -/
def promiseWord (s : State) (n k va : Nat) (reads : List Nat) : Access :=
  viaRemote (objectAt s n k .load va 8) (fun s dev off => remoteCall s n k dev off opLoad 8 0 0 0 0 reads)

def awaitpOp (d a : Nat) (s : State) : Eff :=
  pre s [a] [d] [(d, intK), (a, intK)]
    (settle s [a] (
      let (n, k) := s.cur
      let va := (valW s a).toNat
      if va % 16 ≠ 0 then .trap .misalign (BitVec.ofNat 64 va)
      else match promiseWord s n k va [a] with
        | .ok t w p pa =>
          if p ≠ 0 then .trapIn t .poison (poisonVal pa)
          else if w % 4 = 0 then .block (noteWait t pa) .awaitp (BitVec.ofNat 64 va)
          else putILate (acquire t n (if bitsAt w 2 1 = 1 then 6 else 5)) d w
        | .wait t => .stall t
        | .trap c v => .trap c v
        | .remote t _ _ => .stall t))

def prmqOp (d a : Nat) (s : State) : Eff :=
  pre s [a] [d] [(d, intK), (a, intK)]
    (settle s [a] (
      let (n, k) := s.cur
      let va := (valW s a).toNat
      if va % 16 ≠ 0 then .trap .misalign (BitVec.ofNat 64 va)
      else match promiseWord s n k va [a] with
        | .ok t w p pa => if p ≠ 0 then .trapIn t .poison (poisonVal pa) else putILate t d w
        | .wait t => .stall t
        | .trap c v => .trap c v
        | .remote t _ _ => .stall t))

/-! ## The instructions -/

def execLock (sl : BitVec 2) (d : BitVec 6) (a : BitVec 6) (s : State) : Host.Outcome State Fault Refusal :=
  run32 (.lock sl d a) sl (lockOp d.toNat a.toNat) s
def execUnlock (sl : BitVec 2) (d : BitVec 6) (a : BitVec 6) (s : State) : Host.Outcome State Fault Refusal :=
  run32 (.unlock sl d a) sl (unlockOp d.toNat a.toNat) s
def execHold (sl : BitVec 2) (d : BitVec 6) (a : BitVec 6) (b : BitVec 6) (s : State) : Host.Outcome State Fault Refusal :=
  run32 (.hold sl d a b) sl (holdOp d.toNat a.toNat b.toNat) s
def execWill (sl : BitVec 2) (d : BitVec 6) (a : BitVec 6) (b : BitVec 6) (s : State) : Host.Outcome State Fault Refusal :=
  run32 (.will sl d a b) sl (willOp d.toNat a.toNat b.toNat) s
def execRelh (sl : BitVec 2) (d : BitVec 6) (a : BitVec 6) (s : State) : Host.Outcome State Fault Refusal :=
  run32 (.relh sl d a) sl (relhOp d.toNat a.toNat) s
def execConvey (sl : BitVec 2) (d : BitVec 6) (a : BitVec 6) (s : State) : Host.Outcome State Fault Refusal :=
  run32 (.convey sl d a) sl (conveyOp d.toNat a.toNat) s
def execEstq (sl : BitVec 2) (d : BitVec 6) (a : BitVec 6) (b : BitVec 6) (s : State) : Host.Outcome State Fault Refusal :=
  run32 (.estq sl d a b) sl (estqOp d.toNat a.toNat b.toNat) s
def execPrmk (sl : BitVec 2) (a : BitVec 6) (s : State) : Host.Outcome State Fault Refusal := run32 (.prmk sl a) sl (prmkOp a.toNat) s
def execKeep (sl : BitVec 2) (d : BitVec 6) (a : BitVec 6) (b : BitVec 6) (s : State) : Host.Outcome State Fault Refusal :=
  run32 (.keep sl d a b) sl (keepOp d.toNat a.toNat b.toNat) s
def execAwaitp (sl : BitVec 2) (d : BitVec 6) (a : BitVec 6) (s : State) : Host.Outcome State Fault Refusal :=
  run32 (.awaitp sl d a) sl (awaitpOp d.toNat a.toNat) s
def execPrmq (sl : BitVec 2) (d : BitVec 6) (a : BitVec 6) (s : State) : Host.Outcome State Fault Refusal :=
  run32 (.prmq sl d a) sl (prmqOp d.toNat a.toNat) s

end Sys2Proof.Machine
end

