-- ==== Sys2Proof/Machine/Integer.lean ====
section
/-! DEFINITION. Machine/Integer.lean: the two-operand, immediate and unary integer instructions, SEL, BFX, BFI, MOVI and MOVK
(R117 to R127), and their compact forms (R105). -/

namespace Sys2Proof.Machine

/-! ## Operations on exact integers (R118, R121) -/

/-- Infinite two's complement is kept exactly on the 80 low bits: every operand has at most 65. -/
def bitwise2 (f : Nat → Nat → Nat) (x y : Int) : Int := toSigned 80 (f (modPow x 80) (modPow y 80))
def andI (x y : Int) : Int := bitwise2 (fun p q => p &&& q) x y
def orI (x y : Int) : Int := bitwise2 (fun p q => p ||| q) x y
def xorI (x y : Int) : Int := bitwise2 (fun p q => p ^^^ q) x y
def andnI (x y : Int) : Int := andI x (-y - 1)

/-- The shift count: b clamped to 0 to 127 (R121). -/
def shiftCount (b : Int) : Nat := (max 0 (min 127 b)).toNat
def shlI (a b : Int) : Int := a * (2 ^ shiftCount b : Nat)
def shrI (a b : Int) : Int := a / (2 ^ shiftCount b : Nat)
def mulhI (a b : Int) : Int := a * b / (2 ^ 64 : Nat)
def boolI (p : Bool) : Int := if p then 1 else 0
def absdI (a b : Int) : Int := (a - b).natAbs

/-- A `w`-bit pattern rotated left by `c` < w. -/
def rotl (w p c : Nat) : Nat := if w = 0 then 0 else (p * 2 ^ c + p / 2 ^ (w - c)) % 2 ^ w

/-- ROL by b mod w(A), ROR as ROL by −b (R121). -/
def rolI (i : Info) (p : Nat) (b : Int) : Int := readPat i.kind i.width (rotl i.width p (b % (i.width : Int)).toNat)

/-- `x` with the field of `len` bits at `pos` replaced by the low bits of `v` (R126). -/
def insertI (x : Int) (pos len : Nat) (v : Int) : Int :=
  x - (x / (2 ^ pos : Nat) % (2 ^ len : Nat)) * (2 ^ pos : Nat) + (v % (2 ^ len : Nat)) * (2 ^ pos : Nat)

/-- The unsigned field of `len` bits at `pos` (R126). -/
def extractI (x : Int) (pos len : Nat) : Int := x / (2 ^ pos : Nat) % (2 ^ len : Nat)

/-- Bits of a `w`-bit pattern in reverse order (R124). -/
def reverseBits : (w p : Nat) → Nat
  | 0, _ => 0
  | w + 1, p => p % 2 * 2 ^ w + reverseBits w (p / 2)

def popCount : (w p : Nat) → Nat
  | 0, _ => 0
  | w + 1, p => p % 2 + popCount w (p / 2)

/-- Leading zero bits of a `w`-bit pattern. -/
def leadZeros (w p : Nat) : Nat := if p % 2 ^ w = 0 then w else w - 1 - Nat.log2 (p % 2 ^ w)

def trailZeros : (w p : Nat) → Nat
  | 0, _ => 0
  | w + 1, p => if p % 2 = 1 then 0 else 1 + trailZeros w (p / 2)

/-! ## Operand forms -/

/-- Sign extension of an immediate (R103). -/
def imm {n : Nat} (v : BitVec n) : Int := v.toInt

/-- Two names and a destination, all of integer kind (R121). When several offend, TRVAL of KIND holds D's index, then A's, then
B's, as everywhere in the model where the spec gives no order (R117; log entry 75). -/
def bin (l : Nat) (f : Int → Int → Int) (d a b : Nat) (s : State) : Eff :=
  pre s [a, b] [d] [(d, intK), (a, intK), (b, intK)] (putI s d l (f (valI s a) (valI s b)))

/-- A division: DIVZERO before the fit, TRVAL the destination's index (R121, R122). -/
def divide (f : Int → Int → Int) (d a b : Nat) (s : State) : Eff :=
  pre s [a, b] [d] [(d, intK), (a, intK), (b, intK)]
    (if valI s b = 0 then .trap .divzero (BitVec.ofNat 64 d) else putI s d 6 (f (valI s a) (valI s b)))

/-- A rotation of A's pattern (R121). -/
def rotate (sign : Int) (d a b : Nat) (s : State) : Eff :=
  pre s [a, b] [d] [(d, intK), (a, intK), (b, intK)] (putI s d 1 (rolI (info s a) (opBits s a) (sign * valI s b)))

/-- A name and an immediate in place of b (R123). -/
def binImm (f : Int → Int → Int) (d a : Nat) (x : Int) (s : State) : Eff :=
  pre s [a] [d] [(d, intK), (a, intK)] (putI s d 1 (f (valI s a) x))

/-- One operand: the result from A's width, kind and pattern (R124). -/
def unary (f : Info → Nat → Int) (d a : Nat) (s : State) : Eff :=
  pre s [a] [d] [(d, intK), (a, intK)] (putI s d 1 (f (info s a) (opBits s a)))

/-- A property of A, whatever its kind; A's value is not read (R124, R144). -/
def property (f : Info → Int) (d a : Nat) (s : State) : Eff :=
  pre s [] [d] [(d, intK), (a, anyK)] (putI s d 1 (f (info s a)))

/-- The kind a moved value needs of its source: D's own float kind, or any integer kind (R119). -/
def moveK (s : State) (d : Nat) (i : Info) : Bool :=
  if (info s d).kind.isFloat then i.kind == (info s d).kind else i.kind.isInt

/-- Storing the value of name `a` in D: an integer is fitted, an encoding moves bit for bit (R119). -/
def putMove (s : State) (d l a : Nat) : Eff :=
  if (info s d).kind.isFloat then .done (putBits s d l (opBits s a)) else putI s d l (valI s a)

/-- ZERO as a source has kind unsigned (R58): MOV of ZERO into a float name traps KIND. -/
def moveOp (d a : Nat) (s : State) : Eff :=
  pre s [a] [d] [(d, anyK), (a, moveK s d)] (putMove s d 1 a)

/-- The predicate of SEL is non-zero. -/
def selOp (d a b p : Nat) (s : State) : Eff :=
  pre s [a, b, p] [d] [(d, anyK), (a, moveK s d), (b, moveK s d), (p, intK)] (putMove s d 1 (if valI s p ≠ 0 then a else b))

/-- FITS (R124). -/
def fitsOp (d a b : Nat) (s : State) : Eff :=
  pre s [a] [d] [(d, intK), (a, intK), (b, intK)]
    (putI s d 1 (boolI (representable (info s b).kind (info s b).width (valI s a))))

/-- BFI: D is source and destination (R126). -/
def bfiOp (d a pos len : Nat) (s : State) : Eff :=
  pre s [d, a] [d] [(d, intK), (a, intK)] (putI s d 1 (insertI (valI s d) pos len (valI s a)))

/-- MOVI (R127). -/
def moviOp (d : Nat) (x : Int) (s : State) : Eff := pre s [] [d] [(d, intK)] (putI s d 1 x)

/-- MOVK (R127). -/
def movkOp (d q v : Nat) (s : State) : Eff := pre s [d] [d] [(d, intK)] (putI s d 1 (insertI (valI s d) (16 * q) 16 v))

/-! ## The instructions -/

def execAdd (sl : BitVec 2) (d a b : BitVec 6) (s : State) : Host.Outcome State Fault Refusal :=
  run32 (.add sl d a b) sl (bin 1 (fun x y => x + y) d.toNat a.toNat b.toNat) s

def execSub (sl : BitVec 2) (d a b : BitVec 6) (s : State) : Host.Outcome State Fault Refusal :=
  run32 (.sub sl d a b) sl (bin 1 (fun x y => x - y) d.toNat a.toNat b.toNat) s

def execMul (sl : BitVec 2) (d a b : BitVec 6) (s : State) : Host.Outcome State Fault Refusal :=
  run32 (.mul sl d a b) sl (bin 1 (fun x y => x * y) d.toNat a.toNat b.toNat) s

def execMulh (sl : BitVec 2) (d a b : BitVec 6) (s : State) : Host.Outcome State Fault Refusal :=
  run32 (.mulh sl d a b) sl (bin 2 mulhI d.toNat a.toNat b.toNat) s

def execDiv (sl : BitVec 2) (d a b : BitVec 6) (s : State) : Host.Outcome State Fault Refusal :=
  run32 (.div sl d a b) sl (divide (fun x y => x.tdiv y) d.toNat a.toNat b.toNat) s

def execRem (sl : BitVec 2) (d a b : BitVec 6) (s : State) : Host.Outcome State Fault Refusal :=
  run32 (.rem sl d a b) sl (divide (fun x y => x - y * x.tdiv y) d.toNat a.toNat b.toNat) s

def execMin (sl : BitVec 2) (d a b : BitVec 6) (s : State) : Host.Outcome State Fault Refusal :=
  run32 (.min sl d a b) sl (bin 1 min d.toNat a.toNat b.toNat) s

def execMax (sl : BitVec 2) (d a b : BitVec 6) (s : State) : Host.Outcome State Fault Refusal :=
  run32 (.max sl d a b) sl (bin 1 max d.toNat a.toNat b.toNat) s

def execAnd (sl : BitVec 2) (d a b : BitVec 6) (s : State) : Host.Outcome State Fault Refusal :=
  run32 (.and sl d a b) sl (bin 1 andI d.toNat a.toNat b.toNat) s

def execOr (sl : BitVec 2) (d a b : BitVec 6) (s : State) : Host.Outcome State Fault Refusal :=
  run32 (.or sl d a b) sl (bin 1 orI d.toNat a.toNat b.toNat) s

def execXor (sl : BitVec 2) (d a b : BitVec 6) (s : State) : Host.Outcome State Fault Refusal :=
  run32 (.xor sl d a b) sl (bin 1 xorI d.toNat a.toNat b.toNat) s

def execAndn (sl : BitVec 2) (d a b : BitVec 6) (s : State) : Host.Outcome State Fault Refusal :=
  run32 (.andn sl d a b) sl (bin 1 andnI d.toNat a.toNat b.toNat) s

def execShl (sl : BitVec 2) (d a b : BitVec 6) (s : State) : Host.Outcome State Fault Refusal :=
  run32 (.shl sl d a b) sl (bin 1 shlI d.toNat a.toNat b.toNat) s

def execShr (sl : BitVec 2) (d a b : BitVec 6) (s : State) : Host.Outcome State Fault Refusal :=
  run32 (.shr sl d a b) sl (bin 1 shrI d.toNat a.toNat b.toNat) s

def execRol (sl : BitVec 2) (d a b : BitVec 6) (s : State) : Host.Outcome State Fault Refusal :=
  run32 (.rol sl d a b) sl (rotate 1 d.toNat a.toNat b.toNat) s

def execRor (sl : BitVec 2) (d a b : BitVec 6) (s : State) : Host.Outcome State Fault Refusal :=
  run32 (.ror sl d a b) sl (rotate (-1) d.toNat a.toNat b.toNat) s

def execSeteq (sl : BitVec 2) (d a b : BitVec 6) (s : State) : Host.Outcome State Fault Refusal :=
  run32 (.seteq sl d a b) sl (bin 1 (fun x y => boolI (decide (x = y))) d.toNat a.toNat b.toNat) s

def execSetne (sl : BitVec 2) (d a b : BitVec 6) (s : State) : Host.Outcome State Fault Refusal :=
  run32 (.setne sl d a b) sl (bin 1 (fun x y => boolI (decide (x ≠ y))) d.toNat a.toNat b.toNat) s

def execSetlt (sl : BitVec 2) (d a b : BitVec 6) (s : State) : Host.Outcome State Fault Refusal :=
  run32 (.setlt sl d a b) sl (bin 1 (fun x y => boolI (decide (x < y))) d.toNat a.toNat b.toNat) s

def execSetle (sl : BitVec 2) (d a b : BitVec 6) (s : State) : Host.Outcome State Fault Refusal :=
  run32 (.setle sl d a b) sl (bin 1 (fun x y => boolI (decide (x ≤ y))) d.toNat a.toNat b.toNat) s

def execAbsd (sl : BitVec 2) (d a b : BitVec 6) (s : State) : Host.Outcome State Fault Refusal :=
  run32 (.absd sl d a b) sl (bin 1 absdI d.toNat a.toNat b.toNat) s

def execMov (sl : BitVec 2) (d a : BitVec 6) (s : State) : Host.Outcome State Fault Refusal :=
  run32 (.mov sl d a) sl (moveOp d.toNat a.toNat) s

def execNeg (sl : BitVec 2) (d a : BitVec 6) (s : State) : Host.Outcome State Fault Refusal :=
  run32 (.neg sl d a) sl (unary (fun i p => -readPat i.kind i.width p) d.toNat a.toNat) s

def execAbs (sl : BitVec 2) (d a : BitVec 6) (s : State) : Host.Outcome State Fault Refusal :=
  run32 (.abs sl d a) sl (unary (fun i p => (readPat i.kind i.width p).natAbs) d.toNat a.toNat) s

def execNot (sl : BitVec 2) (d a : BitVec 6) (s : State) : Host.Outcome State Fault Refusal :=
  run32 (.not sl d a) sl (unary (fun i p => readPat i.kind i.width (2 ^ i.width - 1 - p)) d.toNat a.toNat) s

def execClz (sl : BitVec 2) (d a : BitVec 6) (s : State) : Host.Outcome State Fault Refusal :=
  run32 (.clz sl d a) sl (unary (fun i p => leadZeros i.width p) d.toNat a.toNat) s

def execCtz (sl : BitVec 2) (d a : BitVec 6) (s : State) : Host.Outcome State Fault Refusal :=
  run32 (.ctz sl d a) sl (unary (fun i p => trailZeros i.width p) d.toNat a.toNat) s

def execPopc (sl : BitVec 2) (d a : BitVec 6) (s : State) : Host.Outcome State Fault Refusal :=
  run32 (.popc sl d a) sl (unary (fun i p => popCount i.width p) d.toNat a.toNat) s

def execBrev (sl : BitVec 2) (d a : BitVec 6) (s : State) : Host.Outcome State Fault Refusal :=
  run32 (.brev sl d a) sl (unary (fun i p => readPat i.kind i.width (reverseBits i.width p)) d.toNat a.toNat) s

def execFits (sl : BitVec 2) (d a b : BitVec 6) (s : State) : Host.Outcome State Fault Refusal :=
  run32 (.fits sl d a b) sl (fitsOp d.toNat a.toNat b.toNat) s

def execGetw (sl : BitVec 2) (d a : BitVec 6) (s : State) : Host.Outcome State Fault Refusal :=
  run32 (.getw sl d a) sl (property (fun i => i.width) d.toNat a.toNat) s

def execGetm (sl : BitVec 2) (d a : BitVec 6) (s : State) : Host.Outcome State Fault Refusal :=
  run32 (.getm sl d a) sl (property (fun i => i.mode.code) d.toNat a.toNat) s

def execSel (sl : BitVec 2) (d a b : BitVec 6) (p : BitVec 5) (s : State) : Host.Outcome State Fault Refusal :=
  run32 (.sel sl d a b p) sl (selOp d.toNat a.toNat b.toNat p.toNat) s

def execBfx (sl : BitVec 2) (d a p : BitVec 6) (l : BitVec 5) (s : State) : Host.Outcome State Fault Refusal :=
  run32 (.bfx sl d a p l) sl (binImm (fun x _ => extractI x p.toNat (l.toNat + 1)) d.toNat a.toNat 0) s

def execBfi (sl : BitVec 2) (d a p : BitVec 6) (l : BitVec 5) (s : State) : Host.Outcome State Fault Refusal :=
  run32 (.bfi sl d a p l) sl (bfiOp d.toNat a.toNat p.toNat (l.toNat + 1)) s

def execAddi (sl : BitVec 2) (d a : BitVec 6) (i : BitVec 11) (s : State) : Host.Outcome State Fault Refusal :=
  run32 (.addi sl d a i) sl (binImm (fun x y => x + y) d.toNat a.toNat (imm i)) s

def execMuli (sl : BitVec 2) (d a : BitVec 6) (i : BitVec 11) (s : State) : Host.Outcome State Fault Refusal :=
  run32 (.muli sl d a i) sl (binImm (fun x y => x * y) d.toNat a.toNat (imm i)) s

def execAndi (sl : BitVec 2) (d a : BitVec 6) (i : BitVec 11) (s : State) : Host.Outcome State Fault Refusal :=
  run32 (.andi sl d a i) sl (binImm andI d.toNat a.toNat i.toNat) s

def execOri (sl : BitVec 2) (d a : BitVec 6) (i : BitVec 11) (s : State) : Host.Outcome State Fault Refusal :=
  run32 (.ori sl d a i) sl (binImm orI d.toNat a.toNat i.toNat) s

def execXori (sl : BitVec 2) (d a : BitVec 6) (i : BitVec 11) (s : State) : Host.Outcome State Fault Refusal :=
  run32 (.xori sl d a i) sl (binImm xorI d.toNat a.toNat i.toNat) s

def execSeteqi (sl : BitVec 2) (d a : BitVec 6) (i : BitVec 11) (s : State) : Host.Outcome State Fault Refusal :=
  run32 (.seteqi sl d a i) sl (binImm (fun x y => boolI (decide (x = y))) d.toNat a.toNat (imm i)) s

def execSetlti (sl : BitVec 2) (d a : BitVec 6) (i : BitVec 11) (s : State) : Host.Outcome State Fault Refusal :=
  run32 (.setlti sl d a i) sl (binImm (fun x y => boolI (decide (x < y))) d.toNat a.toNat (imm i)) s

def execShli (sl : BitVec 2) (d a i : BitVec 6) (s : State) : Host.Outcome State Fault Refusal :=
  run32 (.shli sl d a i) sl (binImm shlI d.toNat a.toNat i.toNat) s

def execShri (sl : BitVec 2) (d a i : BitVec 6) (s : State) : Host.Outcome State Fault Refusal :=
  run32 (.shri sl d a i) sl (binImm shrI d.toNat a.toNat i.toNat) s

def execMovi (sl : BitVec 2) (d : BitVec 6) (i : BitVec 17) (s : State) : Host.Outcome State Fault Refusal :=
  run32 (.movi sl d i) sl (moviOp d.toNat (imm i)) s

def execMovk (q sl : BitVec 2) (d : BitVec 6) (i : BitVec 16) (s : State) : Host.Outcome State Fault Refusal :=
  run32 (.movk q sl d i) sl (movkOp d.toNat q.toNat i.toNat) s

/-! ## Compact forms (R105) -/

def execAddCompact (d a : BitVec 5) (s : State) : Host.Outcome State Fault Refusal := run16 (.addCompact d a) (bin 1 (fun x y => x + y) d.toNat d.toNat a.toNat) s

def execSubCompact (d a : BitVec 5) (s : State) : Host.Outcome State Fault Refusal := run16 (.subCompact d a) (bin 1 (fun x y => x - y) d.toNat d.toNat a.toNat) s

def execAndCompact (d a : BitVec 5) (s : State) : Host.Outcome State Fault Refusal := run16 (.andCompact d a) (bin 1 andI d.toNat d.toNat a.toNat) s

def execOrCompact (d a : BitVec 5) (s : State) : Host.Outcome State Fault Refusal := run16 (.orCompact d a) (bin 1 orI d.toNat d.toNat a.toNat) s

def execXorCompact (d a : BitVec 5) (s : State) : Host.Outcome State Fault Refusal := run16 (.xorCompact d a) (bin 1 xorI d.toNat d.toNat a.toNat) s

def execMovCompact (d a : BitVec 5) (s : State) : Host.Outcome State Fault Refusal := run16 (.movCompact d a) (moveOp d.toNat a.toNat) s

def execAddiCompact (d i : BitVec 5) (s : State) : Host.Outcome State Fault Refusal := run16 (.addiCompact d i) (binImm (fun x y => x + y) d.toNat d.toNat (imm i)) s

def execShliCompact (d i : BitVec 5) (s : State) : Host.Outcome State Fault Refusal := run16 (.shliCompact d i) (binImm shlI d.toNat d.toNat i.toNat) s

def execShriCompact (d i : BitVec 5) (s : State) : Host.Outcome State Fault Refusal := run16 (.shriCompact d i) (binImm shrI d.toNat d.toNat i.toNat) s

def execSeteqCompact (d a : BitVec 5) (s : State) : Host.Outcome State Fault Refusal := run16 (.seteqCompact d a) (bin 1 (fun x y => boolI (decide (x = y))) d.toNat d.toNat a.toNat) s

def execSetltCompact (d a : BitVec 5) (s : State) : Host.Outcome State Fault Refusal := run16 (.setltCompact d a) (bin 1 (fun x y => boolI (decide (x < y))) d.toNat d.toNat a.toNat) s

end Sys2Proof.Machine
end

