-- ==== Sys2Proof/Machine/Control.lean ====
section
/-! DEFINITION. Machine/Control.lean: transfers, leaving the slot, calls, messages, tasks, tags and barrier objects
(R160 to R182, R185). -/

namespace Sys2Proof.Machine

/-! ## Transfers (R160 to R162) -/

/-- The tests of R104 on a name of any kind. -/
def brTest (test : Nat) (i : Info) (bits : Nat) : Bool :=
  let zero := if i.kind.isFloat then (decodeF i.kind bits).isZero else bits % 2 ^ i.width = 0
  let negative :=
    if i.kind.isFloat then
      (match decodeF i.kind bits with | .nan _ => false | .inf n => n | .fin n m _ _ => n && m ≠ 0)
    else decide (readPat i.kind i.width bits < 0)
  match test with | 0 => zero | 1 => !zero | 2 => negative | _ => true

/-- The address `off` halfwords from the instruction (R103). -/
def relTarget (s : State) (off : Int) : Word := s.me.pc + wordOf (2 * off)

def brOp (c test : Nat) (off : Int) (s : State) : Eff :=
  if test = 3 then .jump s (relTarget s off)
  else pre s [c] [] [(c, anyK)] (if brTest test (info s c) (opBits s c) then .jump s (relTarget s off) else .done s)

def loopOp (c : Nat) (off : Int) (s : State) : Eff :=
  pre s [c] [c] [(c, intK)]
    (let i := info s c
     match fitInt i.kind i.width i.mode (valI s c - 1) with
     | none => .trap .width (widthVal (valI s c - 1) c)
     | some y =>
       let t := putBits s c 1 (modPow y i.width)
       if y ≠ 0 then .jump t (relTarget s off) else .done t)

/-- A trace entry of a transfer (R314). -/
def traceFlow (s : State) (kind : Nat) (target : Word) : State :=
  traceAuto s s.cur.1 kind s.cur.2 (BitVec.zeroExtend 64 s.me.handle) s.me.pc target

/-- CALL and CALLR: the link is fitted before the transfer. -/
def linkTo (d : Nat) (target : Word) (s : State) : Eff :=
  match putI s d 1 ((s.me.pc + 4).toNat : Int) with
  | .done t => .jump (traceFlow t 20 target) target
  | e => e

def callOp (d : Nat) (off : Int) (s : State) : Eff := pre s [] [d] [(d, intK)] (linkTo d (relTarget s off) s)

def callrOp (d a : Nat) (s : State) : Eff :=
  pre s [a] [d] [(d, intK), (a, intK)]
    (let t := valW s a
     if t.toNat % 2 = 1 then .trap .misalign t else linkTo d t s)

/-- JMP and RET differ in the kind that the trace records. -/
def jumpOp (kind a : Nat) (s : State) : Eff :=
  pre s [a] [] [(a, intK)]
    (let t := valW s a
     if t.toNat % 2 = 1 then .trap .misalign t else .jump (traceFlow s kind t) t)

/-! ## Leaving the slot (R163, R164, R166) -/

/-- ILLEGAL in the system slot. -/
def userOnly (s : State) (body : Eff) : Eff := if s.cur.2 = 7 then .trapWord .illegal else body

/-- The thread of a slot leaves it: its rows become evictable, what belongs to the slot stays. -/
def vacate (s : State) (n k : Nat) : State :=
  let x := s.slot n k
  let s := (dropWaits (evictRows s n k) n k).modSlot n k emptySlot
  s.modThread x.img (fun t => { t with inSlot := false, lastCore := n, lastSlot := k, borrow := x.borrow,
                                       restore := x.restore && fld x.licst 2 1 = 0 })

/-- A request for the licence is withdrawn when its thread leaves the slot (R245, R248). The reservation stays with OWED. -/
def leaveWaiter (s : State) (n k : Nat) : State :=
  let p := pairOf n
  let r := slotReq s n k
  if waitsLic s p r then
    let owed := fld (s.slot n k).licst 2 1 = 1
    let s := licWithdrawReq s p r
    if owed then s else s.modThread r.img (fun t => { t with reserved := t.reserved - 1 })
  else s

/-- YIELD: the thread is saved READY at the following instruction and requeued (R163). No deferred place remains (R301). -/
def yieldOp (len : Nat) (s : State) : Eff :=
  userOnly s (settle s [] (
    let (n, k) := s.cur
    if mapFrozen s n k s.me.map ∨ saveHeld s n k ∨ runBlocked s n then .stall s
    else match writeMapRecord s n k with
      | .error (c, v) => .trap (if c = .pfload then .pfstore else c) v
      | .ok s =>
        let img := s.me.img
        let s := saveImage (leaveWaiter s n k) n k 1 0 (s.me.pc + BitVec.ofNat 64 len)
        let s := imageWords s n (img + 0x2E0) (deferWords s.me.defer0 ++ deferWords s.me.defer1)
        let s := writeEstate s n img s.me.estBase
        .leave (killGo (enterThread (vacate s n k) n img) img)))

/-- Scope of a task's placement: DOMAIN when it takes in other devices (R277). -/
def placementScope (s : State) (img : Nat) : Nat :=
  match (s.thread img).task with | some id => if placedFar s id then 6 else scopeOf (placement s id) | none => 1

/-- EXIT reaches conveyance: the thread is dying and its slot issues nothing more; its entries leave one by one
(R164, R277, R316). -/
def beginExit (s : State) (n k : Nat) (ret : Word) : State :=
  let img := (s.slot n k).img
  let s := release s n (placementScope s img)
  let s := dropBorrow s img
  let s := s.modSlot n k (fun x => { x with phase := .dying, wait := .none, woken := false, stalled := false, latch := [], issued := false, demand := none })
  let s := clearWaits (licWithdraw s (pairOf n) img) img
  { s.modThread img (fun t => { t with dying := true, killVal := none, stopping := none, retVal := ret,
                                       estate := if t.copy = some 1 then [] else t.estate }) with dying := s.dying ++ [img] }

/-- What the conveyances of a copy that exits consist of: the comparison of its EXIT takes them in (R333, R334; log entry 64). -/
def exitEffects (t : Thread) : List Nat :=
  t.estate.flatMap (fun e => [e.object.toNat, e.kind, e.heirKind, e.level, e.heir.toNat, e.seq.toNat])

def exitOp (a : Nat) (s : State) : Eff :=
  userOnly s (
    let callee := (s.thread s.me.img).task.isNone
    let leave (reads : List Nat) (ret : State → Word) : Eff :=
      settle s reads (
        let (n, k) := s.cur
        if putsHeld s n k (placementScope s s.me.img) then .stall s
        else externalUnit s (9 :: exitEffects (s.thread s.me.img)) (always (fun t => t)) (fun t => .leave (beginExit t n k (ret s))))
    if callee then pre s [a] [] [(a, intK)] (leave [a] (fun s => BitVec.ofNat 64 (windowValue a s)))
    else leave [] (fun _ => 0))

/-! ## CALLAT (R46, R167, R168) -/

/-- The site that a target word names, or the trap. -/
def callTarget (s : State) (n k : Nat) (w : Word) : Except (Cause × Word) (State × Nat) :=
  let part := ctxPart s (ctxOf s n).toNat
  if w.getLsbD 63 then
    match translate s n (decide (k < 7)) .load (fld w 0 56) with
    | .trap c v => .error (c, v)
    | .ok s pa _ => match homeCore s pa with
      | none => .error (.protect, w)
      | some m => if partOf s m = some part then .ok (s, m) else .error (.protect, w)
  else match siteOfLogical s part (fld w 0 10) with
    | none => .error (.protect, w)
    | some m => .ok (s, m)

def oxArgs (x : Slot) : BitVec 256 := BitVec.ofNat 256 (x.ox.toNat % 2 ^ 256)

/-- The call entry placed in the target's queue, with the release of R47; the caller behind it is served next. -/
def placeCall (s : State) (n k m : Nat) (pc : Word) (reply : Option Callee) : State :=
  let x := s.slot n k
  let t := s.thread x.img
  let e : CallEntry := { pc := pc, args := oxArgs x, mapPtr := x.mapPtr, prio := t.prio, defHeir := t.defHeir, ctx := t.ctx,
                         parent := x.handle, reply := reply, fromCore := n, task := none }
  let s := (release s n (enclosing n k m 8)).modCore m
    (fun c => { c with taskQ := c.taskQ ++ [e], callQ := c.callQ.filter (fun w => w ≠ (n, k)) })
  wakeCaller s m

/-- A call entry is placed once its caller is served (R56). -/
def callAct (n k m : Nat) (pc : Word) (reply : Option Callee) (s : State) : Access :=
  if callFree s m n k then .ok (placeCall s n k m pc reply) 0 0 0 else .wait (noteCaller s m n k)

/-- How an instruction that may wait for a place ends: it blocks while there is none (R48), in a redundant copy once the mesh
router has compared its effect (R333). -/
def placed (s : State) (hash : List Nat) (w : Wait) (arg : Word) (act : State → Access) : Eff :=
  externalOr (fun t => .block t w arg) s hash act (fun t _ => .done t)

/-- CALLAT. The image's WAITARG of its wait is the target word (log entry 75). -/
def callatOp (d a b : Nat) (s : State) : Eff :=
  pre s [a, b] [] [(a, intK), (b, intK)]
    (userOnly s (
     let (n, k) := s.cur
     let pc := valW s a
     let w := valW s b
     if pc.toNat % 2 = 1 then .trap .misalign pc
     else if w.getLsbD 63 && walkHeld s n (fld w 0 56) then .stall s
     else match callTarget s n k w with
       | .error (c, v) => .trap c v
       | .ok (s, m) => settle s [a, b] (
         let reply : Option Callee := if d < 16 then some ⟨n, d⟩ else none
         if coresApart s n m ∨ putsHeld s n k (enclosing n k m 8) then .stall s
         else placed s [10, pc.toNat, m, (oxArgs s.me).toNat] .callat w (callAct n k m pc reply))))

/-! ## Messages (R170 to R174) -/

/-- The rows of a slot as flits. -/
def rowFlits (s : State) (n k row count : Nat) : List (BitVec 128) := (List.range count).map (fun i => rowRead s n k (row + i))

/-- Rows that a transfer reads: resident, and not poisoned. -/
def rowsReady (s : State) (row count : Nat) (body : Eff) : Eff :=
  let (n, k) := s.cur
  let rs := (List.range count).map (row + ·)
  match rs.find? (rowAbsent s n k) with
  | some r => .stall (s.modMe (fun x => { x with demand := some r }))
  | none => match rs.find? (fun r => rowPoisoned s n k .priv r) with
    | some r => .trap .poison (rawRowAddr n k .priv r)
    | none => body

/-- A message of this device given a place; the sender behind it is served next. -/
def sendLocal (s : State) (n k m ch row count : Nat) (rel : Option Nat) : State :=
  let msg : Msg := { flits := rowFlits s n k row count, info := msgInfo count k false (logicalOf s n) s.devId false, rel := rel,
                     fromCore := n, fromSlot := k }
  wakeSender (reserveMsg (dropSender s m ch n k) m ch msg) m ch

/-- A MSG packet: flits, then the sender's slot and the number of the place (log entry 9). -/
def sendRemote (s : State) (n k dev core ch row count flags id : Nat) : State :=
  let bytes := (rowFlits s n k row count).flatMap (fun f => leBytes 16 f.toNat)
  sendPacket s 1 flags (logicalOf s n) (core + ch * 1024) dev 0 0 (bytes ++ leBytes 1 k ++ leBytes 8 id)

/-- A place in a channel of another device is asked for, and awaited (R171; log entry 48). -/
def askPlace (s : State) (n k dev off : Nat) : State :=
  let op : RemoteOp := { id := s.nextRemote, core := n, slot := k, reply := none, place := some (dev, off) }
  sendAtom { s with nextRemote := s.nextRemote + 1, remoteOps := s.remoteOps ++ [op] } n dev op.id off opPlace 0 0 0 0 0

/-- A message to another device: its place is asked for, and once it is granted the message goes. -/
def sendFar (s : State) (n k dev core ch row count flags : Nat) : Access :=
  match pendingCall s n k with
  | none => .wait (askPlace s n k dev (core + ch * 1024))
  | some r =>
    if r.reply.isNone then .wait s
    else .ok (sendRemote { s with remoteOps := s.remoteOps.filter (fun x => x.id ≠ r.id) } n k dev core ch row count flags r.id) 0 0 0

/-- DEV names another device. -/
def descFar (s : State) (desc : Word) : Bool := fld desc 31 1 = 1 && fld desc 22 9 ≠ s.devId

/-- A descriptor that PROTECT refuses (R170, R171); of a CORE on another device `farRefused` tells. -/
def descBad (s : State) (n : Nat) (desc : Word) : Bool :=
  let ctx := (ctxOf s n).toNat
  let remote := fld desc 31 1 = 1
  fld desc 11 1 ≠ 0 || fld desc 32 32 ≠ 0
    || (!descFar s desc && (siteOfLogical s (ctxPart s ctx) (fld desc 12 10)).isNone)
    || (remote && !(domainOf s ctx).contains (fld desc 22 9))

/-- A CORE that the sender's partition lacks: whether the partition on the other device has it is not this device's to know, so it
is a free choice before the place is asked for (log entry 75). -/
def farRefused (s : State) (n k : Nat) (desc : Word) : Bool :=
  descFar s desc && (siteOfLogical s (ctxPart s (ctxOf s n).toNat) (fld desc 12 10)).isNone && (pendingCall s n k).isNone
    && Config.freeNat s.tick % 2 = 0

def sendOp (a b : Nat) (s : State) : Eff :=
  pre s [b] [] [(a, intK), (b, intK)]
    (let (n, k) := s.cur
     let desc := valW s b
     let count := fld desc 4 2 + 1
     let ch := fld desc 0 4
     if descBad s n desc || farRefused s n k desc then .trap .protect desc
     else match startsRow s n k a with
       | none => .trap .kind (BitVec.ofNat 64 a)
       | some row =>
         if a = 63 ∨ 32 < row + count then .trap .kind (BitVec.ofNat 64 a)
         else settle s [b] (rowsReady s row count (
           let rel := if fld desc 6 1 = 1 then some (fld desc 8 3) else none
           let sc := rel.getD 0
           let hash := [11, desc.toNat] ++ (rowFlits s n k row count).map (·.toNat)
           let go (act : State → Access) : Eff := placed s hash .send (BitVec.ofNat 64 ch) (fun t => act (release t n sc))
           if rel.isSome ∧ putsHeld s n k sc then .stall s
           else if descFar s desc then
             go (fun t => sendFar t n k (fld desc 22 9) (fld desc 12 10) ch row count (fld desc 7 1 + fld desc 6 1 * 2 + fld desc 8 3 * 4))
           else match siteOfLogical s (ctxPart s (ctxOf s n).toNat) (fld desc 12 10) with
             | none => .trap .protect desc
             | some m =>
               if coresApart s n m then .stall s
               else go (fun t => if placeFree t m ch n k then .ok (sendLocal t n k m ch row count rel) 0 0 0 else .wait (noteSender t m ch n k)))))

/-- Flits written into resident rows from `row` on, bit for bit. -/
def flitRows (s : State) (n k row : Nat) : List (BitVec 128) → State
  | [] => s
  | f :: r =>
    let m := BitVec.ofNat 32 (2 ^ row)
    flitRows ((rowWrite s n k row f).modSlot n k (fun x => { x with poisoned := x.poisoned &&& ~~~m })) n k (row + 1) r

/-- RECV and TRYRECV: `empty` is what happens when the channel holds no complete message. -/
def receive (empty : State → Eff) (d a ch : Nat) (s : State) : Eff :=
  pre s [] [d] [(d, intK), (a, anyK)]
    (let (n, k) := s.cur
     match (if a = 63 then none else startsRow s n k a) with
     | none => .trap .kind (BitVec.ofNat 64 a)
     | some row => settle s [] (
       let c := (s.core n).chan ch
       match c.ready with
       | [] => empty s
       | m :: rest =>
         if 32 < row + m.flits.length then .trap .kind (BitVec.ofNat 64 a)
         else match ((List.range m.flits.length).map (row + ·)).find? (rowAbsent s n k) with
         | some r => .stall (s.modMe (fun x => { x with demand := some r }))
         | none =>
           let t := flitRows s n k row m.flits
           let t := t.modCore n (fun x => x.setChan ch { c with ready := rest })
           let t := match m.rel with | some sc => acquire t n sc | none => t
           putILate (wakeSender t n ch) d (m.info.toNat : Int)))

def recvOp (d a ch : Nat) (s : State) : Eff := receive (fun s => .block s .recv (BitVec.ofNat 64 ch)) d a ch s
def tryrecvOp (d a ch : Nat) (s : State) : Eff := receive (fun s => putILate s d 0) d a ch s

/-- A slot of the core is blocked in RECV on the channel. -/
def recvWaiter (s : State) (n ch : Nat) : Bool :=
  (s.core n).slots.any (fun x => x.2.phase == .blocked && x.2.wait == .recv && x.2.waitArg.toNat = ch)

def chstatOp (d ch : Nat) (s : State) : Eff :=
  pre s [] [d] [(d, intK)]
    (let n := s.cur.1
     let c := (s.core n).chan ch
     putI s d 1 ((c.ready.length + c.travel.length * 8 + bit (recvWaiter s n ch) * 64 : Nat) : Int))

/-! ## Tasks (R175, R176) -/

/-- The queue of R395: an earlier submission waits for a place of the same core. -/
def earlierWaits (s : State) (home n k : Nat) : Bool :=
  match s.submissions.find? (fun q => q.home = home) with
  | none => false
  | some q => match q.by_ with | .thread c j _ _ => !(c = n && j = k) | .host _ _ => true

/-- The outcome of an offered record: refused, not submitted, accepted, or no place yet. -/
def spawnAct (s : State) (n k : Nat) (va : Word) (pa : Nat) (duty : Bool) (name : Nat) : Access :=
  let x := s.slot n k
  let ctx := ctxOf s n
  let queue := queueOfThread s x.img
  let r := (readRecord s pa).1
  if recordRefused s va.toNat pa ctx queue then .ok (refuseRecord s pa ctx) 1 0 0
  else if duty && recDeps r = 0 then .ok s 2 0 0
  else match homeCore s pa with
    | none => .ok s 1 0 0
    | some home =>
      match (if earlierWaits s home n k then none else freePlace s home) with
      | none =>
        let q : Submission := { record := va, recordPa := canonPa s pa, ctx := ctx, home := home, deps := BitVec.ofNat 32 (recDeps r),
                                parent := x.handle, queue := queue, by_ := .thread n k name duty }
        let listed := s.submissions.any (fun q => match q.by_ with | .thread c j _ _ => c = n && j = k | .host _ _ => false)
        let s := if listed then s else { s with submissions := s.submissions ++ [q] }
        .wait (s.modSlot n k (fun x => { x with stalled := true }))
      | some place =>
        let s := { s with submissions := s.submissions.filter (fun q => match q.by_ with
          | .thread c j _ _ => !(c = n && j = k)
          | .host _ _ => true) }
        .ok (acceptTask s va (canonPa s pa) ctx home x.handle queue false 0 place [{ placed := [n], ran := [], far := false }]) 0 0 0

def spawnOp (d a : Nat) (duty : Bool) (s : State) : Eff :=
  pre s [a] [d] [(d, intK), (a, intK)]
    (userOnly s (
     let (n, k) := s.cur
     let va := valW s a
     if walkHeld s n va.toNat then .stall s else
     match translate s n (decide (k < 7)) .load va.toNat with
     | .trap c v => .trap c v
     | .ok s1 pa _ =>
       if duty && estateFull (s.thread s.me.img) then .trap .protect va
       else settle s1 [a] (
         let s := s1
         let img := s.me.img
         let sc := recTokScope (ownRecord s n pa)
         if putsHeld s n k sc ∨ heldAtJoin s n (placeOf s pa) then .stall s
         else external s [12, va.toNat, bit duty] (fun t => spawnAct (release t n sc) n k va pa duty d)
           (fun t r => putILate (if r = 0 ∧ duty then estateAuto t img va 4 else t) d r))))

/-- A decrement sent; the core owes the successor the deferred release of R278. -/
def depAct (s : State) (n pa : Nat) : State :=
  let s := notePred s pa { placed := [n], ran := [n], far := false }
  { s with decrements := s.decrements ++ [⟨pa, false, n⟩] }

def depOp (a : Nat) (s : State) : Eff :=
  pre s [a] [] [(a, intK)]
    (let (n, k) := s.cur
     let va := valW s a
     if va.toNat % 128 ≠ 0 then .trap .misalign va
     else if walkHeld s n va.toNat then .stall s
     else match translate s n (decide (k < 7)) .load va.toNat with
       | .trap c v => .trap c v
       | .ok s1 pa _ => settle s1 [a] (
         let s := s1
         let img := s.me.img
         let sc := recTokScope (ownRecord s n pa)
         if putsHeld s n k sc ∨ heldAtJoin s n (placeOf s pa) then .stall s
         else externalUnit s [13, va.toNat]
           (always (fun t => depAct (release t n sc) n (canonPa t pa)))
           (fun t => .done (estateDrop t img (fun e => e.kind = 4 && e.object = va)))))

/-! ## Copy tags (R177) -/

def waitTags (w : Wait) (ready : Word → Word → Bool) (d a : Nat) (s : State) : Eff :=
  pre s [a] [d] [(d, intK), (a, intK)]
    (let mask := valW s a
     let tags := s.myCore.tags
     holdLatch s [a] (if ready tags mask then putILate s d ((tags &&& mask).toNat : Int) else .block s w mask))

def waitanyOp (d a : Nat) (s : State) : Eff := waitTags .waitany (fun t m => t &&& m != 0) d a s
def waitallOp (d a : Nat) (s : State) : Eff := waitTags .waitall (fun t m => t &&& m == m) d a s

def ffrOp (d a : Nat) (s : State) : Eff :=
  pre s [a] [d] [(d, intK), (a, intK)] (putI s d 1 (trailZeros 64 (s.myCore.tags &&& valW s a).toNat : Nat))

def tagclrOp (a : Nat) (s : State) : Eff :=
  pre s [a] [] [(a, intK)] (settle s [a] (.done (clearTags s (valW s a))))

/-! ## Barrier objects (R178 to R182) -/

def bariInit (a b : Nat) (s : State) : Eff :=
  pre s [a, b] [] [(a, intK), (b, intK)]
    (settle s [a, b] (
      let (n, k) := s.cur
      let va := (valW s a).toNat
      let expected := fld (valW s b) 0 32
      if va % 32 ≠ 0 then .trap .misalign (BitVec.ofNat 64 va)
      else if putsHeld s n k 5 then .stall s
      else effectUnit s va [14, va, expected] (fun t => objectOp (release t n 5) n k .update va 32 opBari expected 0 0 [a, b]) .done))

/-- The whole of a barrier object read at its home: 16 bytes of it from an offset. -/
def barrierRead (s : State) (n k : Nat) (need : Need) (va off : Nat) (reads : List Nat) : Access :=
  match objectAt s n k need va 32 with
  | .remote s dev o => remoteCall s n k dev o opPeek 32 off 0 0 0 reads
  | .ok s v p pa => .ok s (bitsAt v (8 * off) 128) p pa
  | r => r

/-- BARI DUTY writes nothing to the object. It is translated and read all the same, for the PFSTORE and POISON that R179 and R185
give BARI, after MISALIGN and the PROTECT of a full estate (log entry 75). -/
def bariDuty (a : Nat) (s : State) : Eff :=
  pre s [a] [] [(a, intK)]
    (settle s [a] (
      let (n, k) := s.cur
      let va := valW s a
      let img := s.me.img
      if va.toNat % 32 ≠ 0 then .trap .misalign va
      else if estateFull (s.thread img) then .trap .protect va
      else match barrierRead s n k .update va.toNat 0 [a] with
        | .ok t _ p pa => if p ≠ 0 then .trapIn t .poison (poisonVal pa) else .done (estateAuto t img va 5)
        | .wait t => .stall t
        | .trap c v => .trap c v
        | .remote t _ _ => .stall t))

def bariOp (sel a b : Nat) (s : State) : Eff := if sel = 0 then bariInit a b s else bariDuty a s

/-- An arrival at an object wherever it is; with D = 63 the one at another device is not waited for (R181), and one that finds poison
there is lost without a trap (log entry 78). -/
def arriveAct (s : State) (n k va d : Nat) (reads : List Nat) : Access :=
  match (if d = 63 then objectAt s n k .update va 32 else .wait s) with
  | .remote s dev off => remoteSend s n k dev off opArrive 32 0 0 0 reads
  | _ => objectOp s n k .update va 32 opArrive 0 0 (guardOf (info s d)) reads

def arriveOp (d a sc : Nat) (s : State) : Eff :=
  pre s [a] [d] [(d, intK), (a, intK)]
    (settle s [a] (
      let (n, k) := s.cur
      let va := (valW s a).toNat
      let img := s.me.img
      if va % 32 ≠ 0 then .trap .misalign (BitVec.ofNat 64 va)
      else if putsHeld s n k sc then .stall s
      else effectAt s va [15, va] (fun t => arriveAct (release t n sc) n k va d [a])
        (fun t p => putILate (estateDrop t img (fun e => e.kind = 5 && e.object = BitVec.ofNat 64 va)) d p)))

/-- A wait on a barrier object: its WAITARG, the offset read, whether the value satisfies, D's value and the acquire's scope. -/
def barrierWait (w : Wait) (arg : Word) (off : Nat) (ready : Nat → Bool) (value : Nat → Nat) (sc : Nat) (d a : Nat) (reads : List Nat)
    (s : State) : Eff :=
  settle s reads (
    let (n, k) := s.cur
    let va := (valW s a).toNat
    if va % 32 ≠ 0 then .trap .misalign (BitVec.ofNat 64 va)
    else match barrierRead s n k .load va off reads with
      | .ok t v p pa =>
        if p ≠ 0 then .trapIn t .poison (poisonVal pa)
        else if ready v then putILate (acquire t n sc) d (value v : Nat)
        else .block (noteWait t pa) w arg
      | .wait t => .stall t
      | .trap c v => .trap c v
      | .remote t _ _ => .stall t)

/-- The phase has passed the awaited one (R182). -/
def phasePassed (p v : Nat) : Bool :=
  let diff := (bitsAt v 64 32 + 2 ^ 32 - p) % 2 ^ 32
  decide (1 ≤ diff) && decide (diff ≤ 2 ^ 31 - 1)

def waitbOp (d a b : Nat) (s : State) : Eff :=
  pre s [a, b] [d] [(d, intK), (a, intK), (b, intK)]
    (let w := valW s b
     barrierWait .waitb (valW s a) 0 (phasePassed (fld w 0 32)) (fun v => bitsAt v 64 32 + bitsAt v 96 2 * 2 ^ 32) (fld w 32 3) d a [a, b] s)

def waitchOp (d a b : Nat) (s : State) : Eff :=
  pre s [a, b] [d] [(d, intK), (a, intK), (b, intK)]
    (let c := fld (valW s b) 0 6
     barrierWait .waitch (BitVec.ofNat 64 c) 16 (fun v => bitsAt v c 1 = 1) (fun v => v % 2 ^ 64) 5 d a [a, b] s)

/-! ## The instructions -/

def execBr (sl : BitVec 2) (c : BitVec 6) (t : BitVec 2) (o : BitVec 15) (s : State) : Host.Outcome State Fault Refusal :=
  run32 (.br sl c t o) sl (brOp c.toNat t.toNat o.toInt) s
def execLoop (sl : BitVec 2) (c : BitVec 6) (o : BitVec 15) (s : State) : Host.Outcome State Fault Refusal :=
  run32 (.loop sl c o) sl (loopOp c.toNat o.toInt) s
def execBrz (d : BitVec 5) (o : BitVec 5) (s : State) : Host.Outcome State Fault Refusal := run16 (.brz d o) (brOp d.toNat 0 o.toInt) s
def execBrnz (d : BitVec 5) (o : BitVec 5) (s : State) : Host.Outcome State Fault Refusal := run16 (.brnz d o) (brOp d.toNat 1 o.toInt) s
def execCall (sl : BitVec 2) (d : BitVec 6) (i : BitVec 17) (s : State) : Host.Outcome State Fault Refusal :=
  run32 (.call sl d i) sl (callOp d.toNat i.toInt) s
def execCallr (sl : BitVec 2) (d : BitVec 6) (a : BitVec 6) (s : State) : Host.Outcome State Fault Refusal :=
  run32 (.callr sl d a) sl (callrOp d.toNat a.toNat) s
def execJmp (sl : BitVec 2) (a : BitVec 6) (s : State) : Host.Outcome State Fault Refusal := run32 (.jmp sl a) sl (jumpOp 22 a.toNat) s
def execRet (sl : BitVec 2) (a : BitVec 6) (s : State) : Host.Outcome State Fault Refusal := run32 (.ret sl a) sl (jumpOp 21 a.toNat) s
def execYield (sl : BitVec 2) (s : State) : Host.Outcome State Fault Refusal := run32 (.yield sl) sl (yieldOp 4) s
def execYieldCompact (s : State) : Host.Outcome State Fault Refusal := run16 (.yieldCompact) (yieldOp 2) s
def execExit (sl : BitVec 2) (a : BitVec 6) (s : State) : Host.Outcome State Fault Refusal := run32 (.exit sl a) sl (exitOp a.toNat) s
def execTrap (sl : BitVec 2) (b : BitVec 6) (s : State) : Host.Outcome State Fault Refusal :=
  run32 (.trap sl b) sl (fun _ => .trap .syscall (BitVec.ofNat 64 b.toNat)) s
def execBrk (sl : BitVec 2) (s : State) : Host.Outcome State Fault Refusal := run32 (.brk sl) sl (fun _ => .trap .brk 0) s
def execNop (sl : BitVec 2) (s : State) : Host.Outcome State Fault Refusal := run32 (.nop sl) sl (fun s => .done s) s
def execNopCompact (s : State) : Host.Outcome State Fault Refusal := run16 (.nopCompact) (fun s => .done s) s
def execCallat (sl : BitVec 2) (d : BitVec 6) (a : BitVec 6) (b : BitVec 6) (s : State) : Host.Outcome State Fault Refusal :=
  run32 (.callat sl d a b) sl (callatOp d.toNat a.toNat b.toNat) s
def execSend (sl : BitVec 2) (a : BitVec 6) (b : BitVec 6) (s : State) : Host.Outcome State Fault Refusal :=
  run32 (.send sl a b) sl (sendOp a.toNat b.toNat) s
def execRecv (sl : BitVec 2) (d : BitVec 6) (a : BitVec 6) (b : BitVec 6) (s : State) : Host.Outcome State Fault Refusal :=
  run32 (.recv sl d a b) sl (recvOp d.toNat a.toNat b.toNat) s
def execTryrecv (sl : BitVec 2) (d : BitVec 6) (a : BitVec 6) (b : BitVec 6) (s : State) : Host.Outcome State Fault Refusal :=
  run32 (.tryrecv sl d a b) sl (tryrecvOp d.toNat a.toNat b.toNat) s
def execChstat (sl : BitVec 2) (d : BitVec 6) (b : BitVec 6) (s : State) : Host.Outcome State Fault Refusal :=
  run32 (.chstat sl d b) sl (chstatOp d.toNat b.toNat) s
def execSpawn (sl : BitVec 2) (d : BitVec 6) (a : BitVec 6) (u : BitVec 1) (s : State) : Host.Outcome State Fault Refusal :=
  run32 (.spawn sl d a u) sl (spawnOp d.toNat a.toNat (u == 1)) s
def execDep (sl : BitVec 2) (a : BitVec 6) (s : State) : Host.Outcome State Fault Refusal := run32 (.dep sl a) sl (depOp a.toNat) s
def execWaitany (sl : BitVec 2) (d : BitVec 6) (a : BitVec 6) (s : State) : Host.Outcome State Fault Refusal :=
  run32 (.waitany sl d a) sl (waitanyOp d.toNat a.toNat) s
def execWaitall (sl : BitVec 2) (d : BitVec 6) (a : BitVec 6) (s : State) : Host.Outcome State Fault Refusal :=
  run32 (.waitall sl d a) sl (waitallOp d.toNat a.toNat) s
def execFfr (sl : BitVec 2) (d : BitVec 6) (a : BitVec 6) (s : State) : Host.Outcome State Fault Refusal :=
  run32 (.ffr sl d a) sl (ffrOp d.toNat a.toNat) s
def execTagclr (sl : BitVec 2) (a : BitVec 6) (s : State) : Host.Outcome State Fault Refusal := run32 (.tagclr sl a) sl (tagclrOp a.toNat) s
def execBari (sl : BitVec 2) (d : BitVec 6) (a : BitVec 6) (b : BitVec 6) (s : State) : Host.Outcome State Fault Refusal :=
  run32 (.bari sl d a b) sl (bariOp d.toNat a.toNat b.toNat) s
def execArrive (sl : BitVec 2) (d : BitVec 6) (a : BitVec 6) (b : BitVec 6) (s : State) : Host.Outcome State Fault Refusal :=
  run32 (.arrive sl d a b) sl (arriveOp d.toNat a.toNat b.toNat) s
def execWaitb (sl : BitVec 2) (d : BitVec 6) (a : BitVec 6) (b : BitVec 6) (s : State) : Host.Outcome State Fault Refusal :=
  run32 (.waitb sl d a b) sl (waitbOp d.toNat a.toNat b.toNat) s
def execWaitch (sl : BitVec 2) (d : BitVec 6) (a : BitVec 6) (b : BitVec 6) (s : State) : Host.Outcome State Fault Refusal :=
  run32 (.waitch sl d a b) sl (waitchOp d.toNat a.toNat b.toNat) s

end Sys2Proof.Machine
end

