-- ==== Sys2Proof/Machine/Formats.lean ====
section
/-! DEFINITION. Machine/Formats.lean: element formats (R85 to R94): the checks of a format value, decoding and encoding of an
element, scale blocks, placement in a bit stream, stochastic steps, and the block sums of the matrix array (R95). -/

namespace Sys2Proof.Machine

/-! ## Format values (R85, R86) -/

/-- The fields of a BFMT value. The IEEE widths read as SPECIALS 01, INT16 and INT32 as signed fixed point. -/
structure Fmt where
  code   : Nat
  w      : Nat
  sign   : Bool
  e      : Nat
  m      : Nat
  bias   : Int
  spec   : Nat
  scale  : Bool
  orient : Nat
  rnd    : Nat
  sat    : Bool
  rowLen : Nat
  deriving DecidableEq, Repr

/-- A format value read. -/
def fmtOf (v : Nat) : Fmt :=
  let code := bitsAt v 0 4
  let mk (w : Nat) (sign : Bool) (e m : Nat) (bias : Int) (spec : Nat) : Fmt :=
    { code := code, w := w, sign := sign, e := e, m := m, bias := bias, spec := spec, scale := bitsAt v 18 2 = 1, orient := bitsAt v 20 1,
      rnd := bitsAt v 21 2, sat := bitsAt v 23 1 = 1, rowLen := bitsAt v 32 16 }
  match code with
  | 0 => mk 8 false 0 8 0 0
  | 9 => mk 16 true 8 7 127 1
  | 10 => mk 16 true 5 10 15 1
  | 11 => mk 32 true 8 23 127 1
  | 12 => mk 16 true 0 15 0 0
  | 13 => mk 32 true 0 31 0 0
  | w => mk w (bitsAt v 4 1 = 1) (bitsAt v 5 3) (w - bitsAt v 4 1 - bitsAt v 5 3) (toSigned 8 (bitsAt v 8 8)) (bitsAt v 16 2)

def Fmt.raw (f : Fmt) : Bool := f.code = 0

/-- Bank format in force in a set of format registers. -/
def bankFmt (regs : BitVec 1024) (bank : Nat) : Fmt := fmtOf (wideGet regs (64 * bank) 64)

/-- Kept significand bits (R92). -/
def Fmt.p (f : Fmt) : Nat := if f.e = 0 then f.w - (if f.sign then 1 else 0) else f.m + 1

/-- Encoding of the largest finite value, without a sign (R88). -/
def Fmt.maxEnc (f : Fmt) : Nat :=
  if f.e = 0 then 2 ^ f.p - 1
  else match f.spec with
    | 1 => (2 ^ f.e - 1) * 2 ^ f.m - 1
    | 2 => 2 ^ (f.e + f.m) - 2
    | _ => 2 ^ (f.e + f.m) - 1

/-- The checks that SETF makes of a value (R86); with `row` false ROWLEN is ignored (R237). -/
def fmtGood (row : Bool) (v : Nat) : Bool :=
  let code := bitsAt v 0 4
  let narrow := decide (1 ≤ code) && decide (code ≤ 8)
  let sgn := bitsAt v 4 1
  let e := bitsAt v 5 3
  let spec := bitsAt v 16 2
  let scale := bitsAt v 18 2
  let rl := bitsAt v 32 16
  decide (code ≤ 13) && bitsAt v 24 8 = 0 && bitsAt v 48 16 = 0 && spec != 3 && decide (scale ≤ 1)
    && (if narrow then
          decide (sgn + e ≤ code) && !(spec = 1 && decide (e < 2)) && !(spec = 2 && decide (code - sgn < 2)) && !(spec != 0 && e = 0)
            && !(scale = 1 && (fmtOf v).maxEnc = 0)
        else bitsAt v 4 17 = 0 && bitsAt v 23 1 = 0)
    && (!row || (if code = 0 then rl = 0 else rl != 0 && rl % 16 = 0))

/-! ## Decoding (R88, R89) -/

/-- A value times a power of two. -/
def scaleV (v : FVal) (k : Int) : FVal :=
  match v with | .fin n a d e => .fin n a d (e + k) | x => x

/-- The value of an element's encoding. -/
def Fmt.decode (f : Fmt) (bits : Nat) : FVal :=
  if f.e = 0 then
    let x : Int := if f.sign then toSigned f.w bits else (bits % 2 ^ f.w : Nat)
    .fin (decide (x < 0)) x.natAbs 1 (-f.bias)
  else
    let neg := f.sign && bitsAt bits (f.w - 1) 1 = 1
    let x := bitsAt bits f.m f.e
    let m := bitsAt bits 0 f.m
    if f.spec = 1 ∧ x = 2 ^ f.e - 1 then (if m = 0 then .inf neg else .nan false)
    else if f.spec = 2 ∧ x = 2 ^ f.e - 1 ∧ m = 2 ^ f.m - 1 then .nan false
    else if x = 0 then .fin neg m 1 (1 - f.bias - f.m)
    else .fin neg (2 ^ f.m + m) 1 (x - f.bias - f.m)

/-- An element with its scale byte. -/
def Fmt.decodeScaled (f : Fmt) (bits sb : Nat) : FVal :=
  if f.scale then (if sb = 255 then .nan false else scaleV (f.decode bits) ((sb : Int) - 127)) else f.decode bits

/-! ## Encoding (R91, R92, R94) -/

def Fmt.mode (f : Fmt) (rand : Nat) : Rnd :=
  match f.rnd with | 0 => .rne | 1 => .rtz | 2 => .stoch rand | _ => .odd

def Fmt.hasNan (f : Fmt) : Bool := f.e ≠ 0 && ((f.spec = 1 && f.m ≠ 0) || f.spec = 2)

def Fmt.signed (f : Fmt) (neg : Bool) (x : Nat) : Nat := if neg then x + 2 ^ (f.w - 1) else x

def Fmt.nanEnc (f : Fmt) : Nat :=
  if f.hasNan = false then 0
  else if f.spec = 1 then (2 ^ f.e - 1) * 2 ^ f.m + 2 ^ (f.m - 1) else 2 ^ (f.e + f.m) - 1

/-- A fixed-point integer clamped to the format's range. -/
def Fmt.clampInt (f : Fmt) (neg : Bool) (k : Nat) : Nat :=
  if neg then modPow (-(min k (2 ^ (f.w - 1)) : Nat)) f.w else min k f.maxEnc

/-- An infinity. -/
def Fmt.infEnc (f : Fmt) (neg : Bool) : Nat :=
  if f.e = 0 then f.clampInt neg (2 ^ f.w)
  else match f.spec with
    | 1 => f.signed neg ((2 ^ f.e - 1) * 2 ^ f.m)
    | 2 => if f.sat then f.signed neg f.maxEnc else f.nanEnc
    | _ => f.signed neg f.maxEnc

/-- A finite magnitude above max. -/
def Fmt.overEnc (f : Fmt) (neg : Bool) : Nat := if f.sat then f.signed neg f.maxEnc else f.infEnc neg

/-- Encoding of a value, rounded once under the format's RND with the element's random value. -/
def Fmt.encode (f : Fmt) (v : FVal) (rand : Nat) : Nat :=
  match v with
  | .nan _ => f.nanEnc
  | .inf neg => if neg && !f.sign then 0 else f.infEnc neg
  | .fin neg num den e =>
    if neg && !f.sign then 0
    else if f.e = 0 then
      f.clampInt neg (quantize (f.mode rand) neg f.p num den e (-f.bias)).1
    else if num = 0 then f.signed neg 0
    else
      let (m, g, _) := roundSig (f.mode rand) neg f.p num den e
      let l : Int := Nat.log2 m + g
      if l < 1 - f.bias then f.signed neg (quantize (f.mode rand) neg f.p m 1 g (1 - f.bias - f.m)).1
      else
        let x := l + f.bias
        let frac := if Nat.log2 m ≤ f.m then m * 2 ^ (f.m - Nat.log2 m) else m / 2 ^ (Nat.log2 m - f.m)
        let enc := x.toNat * 2 ^ f.m + (frac - 2 ^ f.m)
        if (2 ^ f.e : Int) ≤ x ∨ f.maxEnc < enc then f.overEnc neg else f.signed neg enc

/-- Scale byte of a block of exact values. -/
def Fmt.scaleByte (f : Fmt) (vs : List FVal) : Nat :=
  if vs.any FVal.isNan && !f.hasNan then 255
  else
    let logs := vs.filterMap (fun v => match v with | .fin _ n d e => if n = 0 then none else some (floorLog2 n d e) | _ => none)
    match logs with
    | [] => 0
    | l :: r =>
      let emax : Int := match f.decode f.maxEnc with | .fin _ n d e => floorLog2 n d e | _ => 0
      (max (-127) (min 127 (r.foldl max l - emax)) + 127).toNat

/-- An element of a block with a scale byte. -/
def Fmt.encodeScaled (f : Fmt) (sb : Nat) (v : FVal) (rand : Nat) : Nat :=
  if f.scale then (if sb = 255 then 0 else f.encode (scaleV v (127 - (sb : Int))) rand) else f.encode v rand

/-! ## Stochastic steps (R93) -/

def lfsrStep (x : Nat) : Nat := if x % 2 = 1 then x / 2 ^^^ 0x80200003 else x / 2

/-! ## Placement (R90) -/

/-- Block index of linear index `i` with row length `l`. -/
def blockOf (orient l i : Nat) : Nat := if orient = 0 then i / 16 else i / l / 16 * l + i % l

/-- A conversion of a list of exact values at linear indices: encodings in ascending index, then scale bytes by block. A later
value of one index replaces an earlier one. -/
def encodeStep (f : Fmt) (l : Nat) (bytes : Table Nat) (acc : List (Nat × Nat) × Nat) (x : Nat × FVal) : List (Nat × Nat) × Nat :=
  let st := lfsrStep acc.2
  (acc.1 ++ [(x.1, f.encodeScaled (bytes.get (blockOf f.orient l x.1) 127) x.2 st)], st)

def blockBytes (f : Fmt) (l : Nat) (vs : List (Nat × FVal)) : Table Nat :=
  if f.scale then
    ((vs.map (fun x => blockOf f.orient l x.1)).eraseDups).foldl (fun t j =>
      t.set j (f.scaleByte ((vs.filter (fun x => blockOf f.orient l x.1 = j)).map (·.2)))) []
  else []

def encodeAll (f : Fmt) (l : Nat) (vs : List (Nat × FVal)) (seed : Nat) : List (Nat × Nat) × Table Nat :=
  let sorted : Table FVal := vs.foldl (fun t x => Table.set t x.1 x.2) []
  let bytes := blockBytes f l sorted
  ((sorted.foldl (encodeStep f l bytes) ([], seed)).1, bytes)

/-! ## FP32 steps (R95, R222, R223, R233) -/

/-- A value rounded once by RNE to FP32, as an encoding and as a value; no flag is recorded (R84). -/
def rne32 (v : FVal) : Nat := (fitF .float32 .rne v).1
def rne32V (v : FVal) : FVal := decodeF .float32 (rne32 v)

def exactAdd (a b : FVal) : FVal := (addV false a b).1
def exactMul (a b : FVal) : FVal := (mulV a b).1

/-- Exact sum of a list; an empty or an exact zero sum is +0 unless every term is −0. -/
def exactSum : List FVal → FVal
  | [] => .fin false 0 1 0
  | [x] => x
  | x :: r => exactAdd x (exactSum r)

/-- The larger, +0 above −0; a NaN operand gives NaN. -/
def maxNaN (a b : FVal) : FVal := if a.isNan || b.isNan then .nan false else (maxV a b).1
/-- The smaller, −0 below +0. -/
def minNaN (a b : FVal) : FVal := if a.isNan || b.isNan then .nan false else (minV a b).1

/-- One block added into an FP32 accumulator (R95): a NaN stays. -/
def accStep (acc : FVal) (terms : List FVal) : FVal := rne32V (exactAdd acc (exactSum terms))

end Sys2Proof.Machine
end

