-- ==== Sys2Proof/Machine/Tensor.lean ====
section
/-! DEFINITION. Machine/Tensor.lean: tensors in the banks of a scratchpad (R90, R215 to R217), the range-overlap scoreboard
(R219), issue, start and end of engine commands (R218, R220, R227). -/

namespace Sys2Proof.Machine

/-! ## Bank elements (R90) -/

def bankAddr (n bank : Nat) : Nat := spadAddr n (0x20000 * bank)

/-- An element's encoding; poisoned bytes give a free value (log entry 3). -/
def elemRead (s : State) (n bank : Nat) (f : Fmt) (i : Nat) : Nat :=
  let lo := f.w * i
  let a := bankAddr n bank + lo / 8
  let k := (lo % 8 + f.w + 7) / 8
  if poisonRead s.memPoison a k ≠ 0 then Config.freeBits s.tick a f.w % 2 ^ f.w
  else bitsAt (memReadLE s.mem a k) (lo % 8) f.w

def scaleAddr (n bank : Nat) (f : Fmt) (i : Nat) : Nat := bankAddr n bank + 0x1FFFF - blockOf f.orient f.rowLen i

def scaleRead (s : State) (n bank : Nat) (f : Fmt) (i : Nat) : Nat :=
  let a := scaleAddr n bank f i
  if poisonRead s.memPoison a 1 ≠ 0 then Config.freeBits s.tick a 8 % 256 else (memRead s.mem a).toNat

/-- An element's exact value with its block scale. -/
def elemValue (s : State) (n bank : Nat) (f : Fmt) (i : Nat) : FVal :=
  f.decodeScaled (elemRead s n bank f i) (if f.scale then scaleRead s n bank f i else 127)

/-- An element's encoding written; only bytes that it covers whole lose their poison. -/
def elemWrite (s : State) (n bank : Nat) (f : Fmt) (i bits : Nat) : State :=
  let lo := f.w * i
  let a := bankAddr n bank + lo / 8
  let k := (lo % 8 + f.w + 7) / 8
  let v := setBits (memReadLE s.mem a k) (lo % 8) f.w bits
  let whole := f.w % 8 = 0
  { s with mem := memWriteLE s.mem a k v, memPoison := if whole then poisonWrite s.memPoison a k (2 ^ k - 1) 0 else s.memPoison }

def byteWrite (s : State) (a v : Nat) : State :=
  { s with mem := memWriteLE s.mem a 1 v, memPoison := poisonWrite s.memPoison a 1 1 0 }

/-- Bank bytes that the element stream reaches, as far as the elements written go. -/
def streamEnd (f : Fmt) (els : List (Nat × Nat)) : Nat := els.foldl (fun m x => max m ((f.w * (x.1 + 1) + 7) / 8)) 0

/-- Encodings written in order, then the scale bytes (R91). Where the two overlap the bytes are free (R7, R90; log entry 76). -/
def putElems (s : State) (n bank : Nat) (f : Fmt) (els : List (Nat × Nat)) (bytes : Table Nat) : State :=
  let hi := streamEnd f els
  let val (x : Nat × Nat) : Nat := if 0x1FFFF - x.1 < hi then Config.freeBits s.tick (2 ^ 21 + x.1) 8 % 256 else x.2
  let t := els.foldl (fun s x => elemWrite s n bank f x.1 x.2) s
  bytes.foldl (fun s x => byteWrite s (bankAddr n bank + 0x1FFFF - x.1) (val x)) t

/-- Conversion of exact values into a bank (R91); raw bytes take the value modulo 2^8. -/
def convertInto (s : State) (n bank : Nat) (f : Fmt) (vs : List (Nat × FVal)) (seed : Nat) : State :=
  let r := encodeAll f f.rowLen vs seed
  putElems s n bank f r.1 r.2

/-- A destination that the spec leaves unpredictable (R7, R222, R225): free encodings and scale bytes (log entry 3). -/
def freeInto (s : State) (n bank : Nat) (f : Fmt) (is : List Nat) : State :=
  let els := is.map (fun i => (i, Config.freeBits s.tick i f.w % 2 ^ f.w))
  let bytes : Table Nat :=
    if f.scale then (is.map (fun i => blockOf f.orient f.rowLen i)).foldl (fun t j => Table.set t j (Config.freeBits s.tick (2 ^ 20 + j) 8 % 256)) []
    else []
  (putElems s n bank f els bytes).ticked

/-! ## Shape records (R215) -/

/-- The 32 bytes of a record, and whether a reserved bit is set. -/
def shapeOf (v : Nat) : Shape × Bool :=
  ({ index := bitsAt v 0 20, bank := bitsAt v 20 4,
     dims := (List.range 4).map (fun k => bitsAt v (32 + 16 * k) 16),
     strides := (List.range 4).map (fun k => toSigned 32 (bitsAt v (96 + 32 * k) 32)),
     bcast := bitsAt v 224 1 = 1 },
   bitsAt v 24 8 ≠ 0 || bitsAt v 225 31 ≠ 0)

def readShape (s : State) (n off : Nat) : Shape × Bool := shapeOf (memReadLE s.mem (spadAddr n off) 32)

def Shape.dim (h : Shape) (k : Nat) : Nat := h.dims.getD k 0
def Shape.stride (h : Shape) (k : Nat) : Int := h.strides.getD k 0

/-- Number of elements. -/
def Shape.total (h : Shape) : Nat := h.dim 0 * h.dim 1 * h.dim 2 * h.dim 3

/-- Linear index of an element. -/
def Shape.at4 (h : Shape) (i0 i1 i2 i3 : Nat) : Nat :=
  ((h.index : Int) + i0 * h.stride 0 + i1 * h.stride 1 + i2 * h.stride 2 + i3 * h.stride 3).toNat

/-- Coordinates of the `t`-th element of the order of a visit: ascending i0, then i1, i2, i3. -/
def Shape.coord (h : Shape) (t : Nat) : Nat × Nat × Nat × Nat :=
  (t % h.dim 0, t / h.dim 0 % h.dim 1, t / (h.dim 0 * h.dim 1) % h.dim 2, t / (h.dim 0 * h.dim 1 * h.dim 2))

/-- Linear index of the `t`-th element of a visit. -/
def Shape.idx (h : Shape) (t : Nat) : Nat :=
  let (i0, i1, i2, i3) := h.coord t
  h.at4 i0 i1 i2 i3

def Shape.indices (h : Shape) : List Nat := (List.range h.total).map h.idx

/-- Lowest and highest linear index of a non-empty tensor. -/
def Shape.bounds (h : Shape) : Int × Int :=
  let span (k : Nat) : Int := ((h.dim k : Int) - 1) * h.stride k
  let lo := (List.range 4).foldl (fun a k => a + min 0 (span k)) (h.index : Int)
  let hi := (List.range 4).foldl (fun a k => a + max 0 (span k)) (h.index : Int)
  (lo, hi)

/-- Last element of a bank (R216). -/
def Fmt.bankLast (f : Fmt) : Nat := 2 ^ 20 / f.w - 1

/-! ## Checks of a record (R216, R217) -/

/-- An element outside the bank, or a stride of 0 that is not allowed. -/
def shapeBad (f : Fmt) (h : Shape) (reserved dest : Bool) : Bool :=
  let (lo, hi) := h.bounds
  let still := (List.range 4).any (fun k => decide (1 < h.dim k) && h.stride k = 0)
  reserved || (h.total ≠ 0 && (decide (lo < 0) || decide ((f.bankLast : Int) < hi)))
    || (if dest then still || h.bcast else still && !h.bcast)

/-- A destination with scale blocks that would be written in part: the conditions of R217, and for the outer dimensions that
every line begins at a block. -/
def blockBad (f : Fmt) (h : Shape) : Bool :=
  f.scale && (if f.orient = 0 then h.stride 0 ≠ 1 || h.dim 0 % 16 ≠ 0 || h.index % f.rowLen % 16 ≠ 0
                || [1, 2, 3].any (fun k => decide (1 < h.dim k) && h.stride k % 16 ≠ 0)
              else h.stride 0 ≠ 1 || h.stride 1 ≠ (f.rowLen : Int) || h.index / f.rowLen % 16 ≠ 0
                || (List.range (h.dim 2)).any (fun i2 => (List.range (h.dim 3)).any (fun i3 => h.at4 0 0 i2 i3 / f.rowLen % 16 ≠ 0)))

def sourceBad (f : Fmt) (r : Shape × Bool) : Bool := shapeBad f r.1 r.2 false
def destBad (f : Fmt) (r : Shape × Bool) : Bool := shapeBad f r.1 r.2 true || blockBad f r.1

/-! ## Ranges and the scoreboard (R219) -/

/-- Scratchpad byte ranges of a tensor with its scale bytes. -/
def tensorRange (f : Fmt) (h : Shape) : List (Nat × Nat) :=
  if h.total = 0 then []
  else
    let lo := h.bounds.1.toNat
    let hi := h.bounds.2.toNat
    let b := 0x20000 * h.bank
    let els := (b + f.w * lo / 8, b + (f.w * (hi + 1) + 7) / 8)
    if f.scale then
      let js := if f.orient = 0 then [lo / 16, hi / 16] else h.indices.map (blockOf f.orient f.rowLen)
      [els, (b + 0x1FFFF - js.foldl max 0, b + 0x20000 - js.foldl min (2 ^ 20))]
    else [els]

def rangesMeet (a b : List (Nat × Nat)) : Bool := a.any (fun r => b.any (fun q => overlaps r.1 r.2 q))

/-- The earlier command `c` keeps `d` from starting. -/
def scoreBefore (c d : Cmd) : Bool := rangesMeet c.wr d.rd || rangesMeet c.wr d.wr || rangesMeet c.rd d.wr

/-- Accumulator tiles of a command. -/
def opTiles (c : CmdOp) : List Nat := (List.range 4).filter (cmdTile c)

def isStream : CmdOp → Bool
  | .chain .. | .reduce .. | .gather .. | .scatter .. | .cpyb .. | .fills .. => true
  | _ => false

def streamCount (s : State) (n : Nat) : Nat := ((s.core n).cmds.filter (fun c => isStream c.op)).length
def boardCount (s : State) (n : Nat) : Nat := ((s.core n).cmds.filter (fun c => c.rd ≠ [] || c.wr ≠ [])).length

/-- Pending writes of accepted commands to bytes of a record delay an issue. -/
def recordBusy (s : State) (n off len : Nat) : Bool := (s.core n).cmds.any (fun c => c.wr.any (overlaps off (off + len)))

/-! ## Issue -/

/-- The thread of a slot awaits its licence or the restore of its tiles (R248). -/
def awaits (s : State) (n k : Nat) : Bool :=
  let x := s.slot n k
  fld x.licst 2 1 = 1 || x.restore || (s.core n).cmds.any (fun c => c.img = x.img && (match c.op with | .restore .. => true | _ => false))

/-- A matrix command that waits as R248 states; those of a dying thread complete (R258). -/
def heldBack (s : State) (c : Cmd) : Bool := c.waits && !(s.thread c.img).dying

/-- A command of the current party, with the formats in force at its issue and a copy of its SEED. -/
def newCmd (s : State) (op : CmdOp) (rd wr : List (Nat × Nat)) (tag : Option Nat) : Cmd :=
  let x := s.me
  { op := op, slot := s.cur.2, img := x.img, handle := x.handle, ctx := ctxOf s s.cur.1, seq := s.myCore.cmdSeq, user := decide (s.cur.2 < 7),
    rd := rd, wr := wr, tag := tag, barrier := none, barPa := none, chunk := none, released := false, started := false,
    startAt := s.myCore.cycle, doneAt := 0,
    seed := x.seed.setWidth 32, fmts := s.myCore.bfmtNext, faulted := none, park := none, est := none, contrib := [], landed := 0,
    inswitch := false, waits := isMatrix op && awaits s s.cur.1 s.cur.2, mcast := false,
    owed := if isMatrix op && awaits s s.cur.1 s.cur.2 then BitVec.ofNat 4 (fld x.licst 4 4) else 0 }

def addCmd (s : State) (c : Cmd) : State := s.modMyCore (fun x => { x with cmds := x.cmds ++ [c], cmdSeq := x.cmdSeq + 1 })

/-- SEED advances one step at an issue (R93, R220). -/
def stepSeed (s : State) : State := s.modMe (fun x => { x with seed := BitVec.ofNat 64 (lfsrStep (fld x.seed 0 32)) })

/-- What cannot hold an object or piece of `size` bytes that an instruction names (R340). -/
def placeBad (s : State) (n : Nat) (user : Bool) (va : Word) (pa size : Nat) : Option (Cause × Word) :=
  match placeOf s pa with
  | .ctrl _ => some (if user then (.protect, va) else (.buserr, BitVec.ofNat 64 pa))
  | .hole => some (.buserr, BitVec.ofNat 64 pa)
  | .window w off => if 0x200000 < off + size ∨ windowShut s n w then some (.buserr, BitVec.ofNat 64 pa) else none
  | _ => none

/-- The barrier object that an instruction of slot `k` names, translated at issue. -/
def objectPa (s : State) (n k : Nat) (need : Need) (va : Word) : Except (Cause × Word) (State × Nat) :=
  match translate s n (decide (k < 7)) need va.toNat with
  | .trap c v => .error (c, v)
  | .ok s pa _ => match placeBad s n (decide (k < 7)) va pa 32 with
    | some e => .error e
    | none => .ok (s, pa)

/-- The chunk wait of ox6 (R227): translated barrier address and chunk. -/
def chunkWait (s : State) : Except (Cause × Word) (State × Option (Nat × Nat)) :=
  let o := wideGet s.me.ox 384 64
  if bitsAt o 7 1 = 0 then .ok (s, none)
  else if o / 256 % 32 ≠ 0 then .error (.misalign, BitVec.ofNat 64 (o / 256))
  else match objectPa s s.cur.1 s.cur.2 .load (BitVec.ofNat 64 (o / 256)) with
    | .error e => .error e
    | .ok (s, pa) => .ok (s, some (pa, bitsAt o 0 6))

/-- The walk for the object of a chunk wait is held at the join (R378). -/
def chunkHeld (s : State) : Bool :=
  let o := wideGet s.me.ox 384 64
  bitsAt o 7 1 == 1 && o / 256 % 32 == 0 && walkHeld s s.cur.1 (o / 256)

/-! ## Start and end -/

def cmdAt (s : State) (n i : Nat) : Option Cmd := (s.core n).cmds[i]?

def modCmd (s : State) (n seq : Nat) (f : Cmd → Cmd) : State :=
  s.modCore n (fun x => { x with cmds := x.cmds.map (fun c => if c.seq = seq then f c else c) })

def earlier (s : State) (n : Nat) (c : Cmd) : List Cmd := (s.core n).cmds.takeWhile (fun d => d.seq ≠ c.seq)

/-- A command's place in the order of a tile: that of its issue, but at a tile that is to be restored first one that waits for the
restore stands right behind it (R242, R248). -/
def tileOrd (s : State) (n : Nat) (c : Cmd) (t : Nat) : Nat × Nat :=
  if c.owed.getLsbD t then (c.behind.getD (s.core n).cmdSeq, c.seq + 1) else (c.seq, 0)

/-- `d` is performed before `c` at tile `t`. -/
def tileBefore (s : State) (n : Nat) (d c : Cmd) (t : Nat) : Bool :=
  let x := tileOrd s n d t
  let y := tileOrd s n c t
  decide (x.1 < y.1) || (decide (x.1 = y.1) && decide (x.2 < y.2))

/-- Another command of the core keeps `c` from starting, by ranges or tiles (R219, R242). -/
def keepsBack (s : State) (n : Nat) (c d : Cmd) : Bool :=
  (decide (d.seq < c.seq) && scoreBefore d c)
    || (d.seq ≠ c.seq && (opTiles d.op).any (fun t => (opTiles c.op).contains t && tileBefore s n d c t))

/-- A command may start: not parked, faulted or held back, its chunk acquired, and nothing in its way by ranges or tiles. -/
def mayStart (s : State) (n : Nat) (c : Cmd) : Bool :=
  !c.started && c.park.isNone && c.faulted.isNone && !heldBack s c && (c.chunk.isNone || c.released)
    && (s.core n).cmds.all (fun d => !keepsBack s n c d) && !tileTaken s n c

/-- A copy tag set at a completion, with release at CORE (R177). -/
def setTag (s : State) (n : Nat) (t : Option Nat) : State :=
  match t with
  | none => s
  | some t => wakeCore (s.modCore n (fun c =>
      { c with tags := c.tags ||| BitVec.ofNat 64 (2 ^ t), tagsNow := c.tagsNow ||| BitVec.ofNat 64 (2 ^ t) })) n
      (fun x => x.wait == .waitany || x.wait == .waitall)

/-- Completion without a barrier: the tag, and the command and its entry leave. -/
def endCmd (s : State) (n : Nat) (c : Cmd) : State := dropCmd (setTag s n c.tag) n c

/-- The poison that a command finds may be that of a pool line's metadata entry, which is recorded (R356). -/
def metaPoison (s : State) (n : Nat) (c : Cmd) (va : Word) : State :=
  match translate s (cmdCore s n c) c.user .load va.toNat with
  | .ok t pa _ => (match placeOf t pa with | .pool a => metaCheck s (lineBase a) | _ => s)
  | .trap _ _ => s

/-- A command fails at an access: it owns its lines no more, and the fault waits to be parked (R349). -/
def faultCmd (s : State) (n : Nat) (c : Cmd) (cause : Cause) (v : Word) : State :=
  modCmd (if cause = .poison then metaPoison s n c v else s) n c.seq (fun c => { c with faulted := some (cause, v), own := [] })

/-- Writes of the command to other devices are not yet performed at their homes (R273). -/
def writesOut (s : State) (n : Nat) (c : Cmd) : Bool := s.farWrites.any (fun w => w.core = n && w.cmd = some c.seq)

/-- A command's barrier object reached for its arrival or chunk bits once its writes are performed (R228, R273): `k` goes on
with its address; else the command waits, or takes the fault of the address. -/
def atBarrier (s : State) (n : Nat) (c : Cmd) (va : Word) (k : State → Nat → State) : State :=
  let bad (s : State) (pa : Nat) : Bool := (physRead s pa 32).2 ≠ 0
  if writesOut s n c ∨ walkHeld s (cmdCore s n c) va.toNat then s
  else match translate s (cmdCore s n c) c.user .store va.toNat with
    | .trap x _ => faultCmd s n c x va
    | .ok t pa _ =>
      if heldAtJoin t n (placeOf t pa) then s
      else match placeOf t pa with
        | .remote _ _ => k t pa
        | .home _ | .pool _ =>
          if poolRefused t pa then faultCmd t n c .pool va
          else if bad t pa then faultCmd t n c .poison va
          else k t pa
        | .window w off =>
          if 0x200000 < off + 32 ∨ windowShut t n w then faultCmd t n c .buserr va
          else if bad t pa then faultCmd t n c .poison va
          else k t pa
        | _ => faultCmd t n c .buserr va

/-- One arrival on the command's barrier object, with release at DEVICE (R181, R228), or the fault of its address. -/
def countArrival (s : State) (n : Nat) (c : Cmd) (torn : Bool) (k : State → State) : State :=
  match c.barrier with
  | none => if writesOut s n c then s else k s
  | some va => atBarrier s n c va (fun s pa => k (arriveAt s n pa torn (some c.ctx)))

/-! ## Lines that an engine owns (R266) -/

/-- Lines of this device's memory in a virtual range that the command writes. -/
def rangeLines (s : State) (n : Nat) (c : Cmd) (lo len : Nat) : List Nat :=
  if len = 0 then []
  else (List.range ((lo + len - 1) / 128 + 1 - lo / 128)).filterMap (fun i =>
    match translate s (cmdCore s n c) c.user .store ((lo / 128 + i) * 128 % 2 ^ 64) with
    | .ok s pa _ => (match placeOf s pa with | .home _ | .pool _ => some (lineBase (canonPa s pa)) | _ => none)
    | .trap _ _ => none)

/-- Another command owns the line. -/
def othersOwn (s : State) (n : Nat) (c : Cmd) (a : Nat) : Bool :=
  s.cores.any (fun x => x.2.cmds.any (fun d => !(x.1 = n && d.seq = c.seq) && d.own.contains (lineBase a)))

/-- Owned L2 copies of the lines come home, and no L2 slice keeps a copy. -/
def takeLines (s : State) (ls : List Nat) : State :=
  ls.foldl (fun s a =>
    let s := recallOwned s a none
    { s with clusters := s.clusters.map (fun (x : Nat × Cluster) => (x.1, { x.2 with l2 := x.2.l2.filter (fun l => l.addr ≠ a) })) }) s

/-! ## Parts of what a command writes (R91, R219, R261, R271)

The values of a command's destination are found group by group, at moments of their own, and its bytes land one unit after another: a
byte of a scratchpad, or all that the command writes of a line of memory. -/

/-- A byte that a command writes: its address; the group whose values are found at once (an element, elements that share a byte, or a
scale block); the scale blocks that it belongs to; whether it is a scale byte. -/
structure DestByte where
  addr   : Nat
  group  : Nat
  blocks : List Nat
  scale  : Bool
  deriving DecidableEq, Repr

/-- A byte of a scratchpad or of memory with its poison bit above it. -/
def cellAt (s : State) (a : Nat) : Nat := let r := physRead s a 1; r.1 + 256 * r.2

def planAt (c : Cmd) (part : Nat) : Option (List (Nat × Nat)) := (c.plans.find? (fun p => p.1 = part)).map (·.2)

def setPlan (s : State) (n : Nat) (c : Cmd) (part : Nat) (l : List (Nat × Nat)) : State :=
  modCmd s n c.seq (fun c => { c with plans := c.plans.set part l })

/-- Bytes whose values are found and that have not landed. -/
def pendingOf (c : Cmd) (part : Nat) : List (Nat × Nat) := (planAt c part).getD []

def decided (c : Cmd) (part : Nat) : List Nat := c.groups.get part []

/-- Bytes whose values are not yet found. -/
def openBytes (c : Cmd) (part : Nat) (lay : List DestByte) : List DestByte := lay.filter (fun d => !(decided c part).contains d.group)

def pickGroup (c : Cmd) (part u : Nat) (lay : List DestByte) : Option Nat :=
  let l := openBytes c part lay
  (l[u % l.length]?).map (·.group)

/-- The values of a group are found: its bytes are to land. -/
def decideGroup (s : State) (n : Nat) (c : Cmd) (part g : Nat) (bytes : List (Nat × Nat)) : State :=
  modCmd s.ticked n c.seq (fun c => { c with groups := c.groups.set part (g :: decided c part), plans := c.plans.set part (pendingOf c part ++ bytes) })

/-- A group's bytes as they stand in `t`, a state with the whole effect of the command. -/
def groupBytes (t : State) (lay : List DestByte) (g : Nat) : List (Nat × Nat) :=
  (lay.filter (fun d => d.group = g)).map (fun d => (d.addr, cellAt t d.addr))

def landBytes (s : State) (c : Cmd) (l : List (Nat × Nat)) : State :=
  l.foldl (fun s p => physWrite s p.1 1 (p.2 % 256) (p.2 / 256) (some c.ctx)) s

/-- A byte of this device's memory or scratchpads may be written now. -/
def mayLand (s : State) (n : Nat) (c : Cmd) (pa : Nat) : Bool :=
  match placeOf s pa with
  | .home a | .pool a => !heldAtJoin s n (placeOf s pa) && !poolRefused s a && !othersOwn s n c a
  | .window _ _ => !heldAtJoin s n (placeOf s pa)
  | _ => false

/-- Two bytes land together: those of one line of memory (R271). -/
def together (s : State) (place : Nat → Option Nat) (a b : Nat) : Bool :=
  a = b || (match place a, place b with
    | some x, some y => (match placeOf s x with | .window _ _ => false | _ => lineBase x = lineBase y)
    | _, _ => false)

/-- The unit that the `u`-th byte found belongs to: a line of memory once all of it is found, a scale byte once the elements of
its blocks have landed (R91, R99). -/
def unitOf (s : State) (n : Nat) (c : Cmd) (part u : Nat) (lay : List DestByte) (place : Nat → Option Nat) : List (Nat × Nat) :=
  let l := pendingOf c part
  match l[u % l.length]? with
  | none => []
  | some p =>
    let here (a : Nat) : Bool := together s place p.1 a
    let left := lay.filter (fun d => !(decided c part).contains d.group || l.any (fun q => q.1 = d.addr))
    let blocks := (lay.filter (fun d => d.scale && here d.addr)).flatMap (·.blocks)
    if (match place p.1 with | some pa => mayLand s n c pa | none => false)
        && left.all (fun d => !here d.addr || (decided c part).contains d.group)
        && left.all (fun d => d.scale || here d.addr || !d.blocks.any blocks.contains)
    then l.filter (fun q => here q.1) else []

/-- A unit lands, and the engine owns its line no more unless it is one of `keep` (R266). -/
def landPart (s : State) (n : Nat) (c : Cmd) (part u : Nat) (lay : List DestByte) (place : Nat → Option Nat) (keep : List Nat) : State :=
  match unitOf s n c part u lay place with
  | [] => s
  | now =>
    let cells := now.map (fun p => ((place p.1).getD 0, p.2))
    modCmd (landBytes s c cells).ticked n c.seq (fun c => { c with
      plans := c.plans.set part ((pendingOf c part).filter (fun p => now.all (fun q => q.1 ≠ p.1)))
      own := c.own.filter (fun a => keep.contains a || !cells.any (fun p => lineBase p.1 = a)) })

/-! ### Reads before the values are found (R219, R243, R261) -/

/-- Scratchpad bytes as a command has read them. -/
def overlay (s : State) (l : List (Nat × Nat)) : State :=
  l.foldl (fun s p => { s with mem := memWriteLE s.mem p.1 1 (p.2 % 256), memPoison := poisonWrite s.memPoison p.1 1 1 (p.2 / 256) }) s

/-- The `k`-th byte of a list of ranges. -/
def rangeByte : List (Nat × Nat) → Nat → Option Nat
  | [], _ => none
  | (a, b) :: r, k => if k < b - a then some (a + k) else rangeByte r (k - (b - a))

/-- A byte of the command's read ranges is read, once. -/
def readEarly (s : State) (n : Nat) (c : Cmd) (u : Nat) : State :=
  match rangeByte c.rd (u % (c.rd.foldl (fun a r => a + (r.2 - r.1)) 0)) with
  | none => s
  | some off =>
    let a := spadAddr n off
    modCmd s n c.seq (fun c =>
      let l := c.got.get 0 []
      if l.any (fun p => p.1 = a) then c else { c with got := c.got.set 0 ((a, cellAt s a) :: l) })

/-- The rest of a part lands: its whole effect, or what of it has not landed. -/
def landRest (s : State) (c : Cmd) (part : Nat) (lay : State → List DestByte) (whole : State → State) : State :=
  if (planAt c part).isNone && (c.got.get part []).isEmpty then whole s
  else
    let o := overlay s (c.got.get part [])
    let t := whole o
    landBytes s.ticked c (pendingOf c part ++ (openBytes c part (lay o)).map (fun d => (d.addr, cellAt t d.addr)))

/-- Nothing of a part is left to find or to land. -/
def closePart (s : State) (n : Nat) (c : Cmd) (part : Nat) (lay : List DestByte) : State :=
  modCmd s n c.seq (fun c => { c with groups := c.groups.set part (lay.map (·.group)).eraseDups, plans := c.plans.set part [] })

/-! ### Bytes of a bank (R90) -/

/-- The group of an element: its scale block, or itself, with the elements that share a byte with it. -/
def groupOf (f : Fmt) (l i : Nat) : Nat :=
  if f.scale then (if f.orient = 1 ∧ f.w % 8 ≠ 0 then i / l / 16 * l + i % l / 8 * 8 else blockOf f.orient l i)
  else if f.w % 8 = 0 then i
  else i / 8

/-- The elements, of `w` bits each, that byte `b` of a row of them belongs to. -/
def byteElems (w b : Nat) : List Nat := (List.range ((8 * b + 7) / w + 1 - 8 * b / w)).map (8 * b / w + ·)

/-- Bytes of the elements of a bank with linear indices `is`, then their scale bytes; `key` sets apart the destinations of one
command. -/
def bankLay (n bank : Nat) (f : Fmt) (key : Nat) (is : List Nat) : List DestByte :=
  let k := key * 2 ^ 24
  let els := is.flatMap (fun i => (List.range ((f.w * i % 8 + f.w + 7) / 8)).map (fun j =>
    let b := f.w * i / 8 + j
    ({ addr := bankAddr n bank + b, group := k + groupOf f f.rowLen i,
       blocks := (byteElems f.w b).map (fun e => k + blockOf f.orient f.rowLen e), scale := false } : DestByte)))
  let scales := if f.scale then is.map (fun i =>
      ({ addr := scaleAddr n bank f i, group := k + groupOf f f.rowLen i, blocks := [k + blockOf f.orient f.rowLen i], scale := true } : DestByte))
    else []
  (els ++ scales).eraseDups

end Sys2Proof.Machine
end

