-- ==== Sys2Proof/Machine/Width.lean ====
section
/-! DEFINITION. Machine/Width.lean: widths and modes of names, the borrowed slot, the twin exchange, maps, special registers and
extension registers (R76, R128 to R144). -/

namespace Sys2Proof.Machine

/-! ## RSZ and SETM -/

/-- The write of a slot that remains of those it has in flight to position `j` of a region: the one issued last (R108). -/
def lastWrite (s : State) (m k : Nat) (g : Region) (j : Nat) : Option Pending :=
  ((s.slot m k).pending.filter (fun p => match nameInfo s m k p.name with
    | some i => i.region = g && regionPos (s.slot m k).map p.name g = j
    | none => false)).getLast?

/-- Value of a name once the writes in flight of other slots have landed (R77): the one with the latest cycle remains, the crown
twin's of two in one cycle (R75), else the bits as they stand. -/
def landedBits (s : State) (d : Nat) : Nat :=
  let (n, k) := s.cur
  let g := (info s d).region
  let j := regionPos s.me.map d g
  let cores := match g with | .priv => [] | .shared => [n] | .pair => [2 * pairOf n, 2 * pairOf n + 1]
  let fl := cores.flatMap (fun m => (List.range 8).filterMap (fun i => if m = n ∧ i = k then none else lastWrite s m i g j))
  match fl.foldl (fun (best : Option Pending) p => match best with
      | none => some p
      | some b => if b.due.getD 0 ≤ p.due.getD 0 then some p else some b) none with
  | some p => p.bits.toNat % 2 ^ (info s d).width
  | none => nameBits s n k d

/-- RSZ (R76, R77, R128): the row of the name is filled first; the fit and the layout are decided at issue, the freeze lasts two cycles for each touched row
after the writes in flight, and the slot issues again after it. -/
def rszOp (d w : Nat) (s : State) : Eff :=
  if d = 63 then .done s
  else match kindName s (d, fun i => i.kind == .unsigned || i.kind == .signed) with
    | some e => e
    | none =>
      let (n, k) := s.cur
      let i := info s d
      let width := if w = 0 then 64 else w
      let fl := inFlight s n k i.region
      let own := s.me.pending.any (fun p => (info s p.name).region == i.region)
      let absent (r : Nat) : Bool := i.region == .priv && decide (k < 7) && !s.me.resident.getLsbD r
      if own ∨ frozen s n k i.region ∨ fl.any (fun p => p.due.isNone) then .stall s
      else if width = i.width then .done s
      else if absent (i.off / 128) then .stall (s.modMe (fun x => { x with demand := some (i.off / 128) }))
      else
        let bits := landedBits s d
        match fitInt i.kind width i.mode (readPat i.kind i.width bits) with
        | none => .trap .width (widthVal (readPat i.kind i.width bits) d)
        | some y =>
          let old := regionLayout s n k i.region
          let new := regionLayout (modifyName s n k d (fun x => { x with width := width })) n k i.region
          if new = [] then .trap .maperr (mapErr 2 d)
          else
            let rows := touchedRows old new
            let held := old.map (fun p => p.1 / 128)
            match rows.find? (fun r => held.contains r && absent r) with
            | some r => .stall (s.modMe (fun x => { x with demand := some r }))
            | none =>
              let c := (s.core n).cycle
              let start := fl.foldl (fun m p => max m (p.due.getD 0)) (c + 1)
              let r : Repack := ⟨i.region, d, width, BitVec.ofNat 64 (modPow y width), start + 2 * rows.length, 0⟩
              .done (s.modMe (fun x => { x with repack := some r }))

/-- SETM (R130). -/
def setmOp (d m : Nat) (s : State) : Eff :=
  pre s [] [] [(d, fun i => i.kind.isInt || m == 0)]
    (if d = 63 then .done s
     else match Mode.ofCode m with
       | some mode => .done (modifyName s s.cur.1 s.cur.2 d (fun x => if x.kind.isFloat then x else { x with mode := mode }))
       | none => .trapWord .illegal)

/-! ## The borrowed slot (R131 to R135) -/

def borrowTrap (reason : Nat) : Eff := .trap .borrow (BitVec.ofNat 64 reason)

/-- The lowest-numbered user slot that is free and enabled. -/
def freeSlot (s : State) (n : Nat) : Option Nat :=
  (List.range 7).find? (fun k => (s.core n).slotEn.getLsbD k && (s.slot n k).phase == .free && (s.slot n k).lentTo.isNone)

/-- Checks of a second map: a region other than private counts as reason 1 (R135). -/
def borrowMap (count : Nat) (descs : List Nat) : Except Word (List NameD) :=
  if 63 < bitsAt count 0 8 ∨ count / 256 ≠ 0 then .error (mapErr 1 0)
  else match decodeDescs false 0 (descs.map (fun d => if bitsAt d 12 2 = 0 then d else 0)) with
    | .error e => .error e
    | .ok m => match packAll false (List.replicate 32 0) [] [] 0 m with
      | .error e => .error e
      | .ok _ => .ok m

/-- The backing area translated at issue (R135): its sectors may lie in two pages. -/
def backingArea (s : State) (n va : Nat) : Except (Cause × Word) (State × Nat × Nat × Nat) :=
  let split := min 32 ((65536 - va % 65536) / 16)
  match translate s n true .load va with
  | .trap c v => .error (c, v)
  | .ok s pa _ =>
    if 32 ≤ split then .ok (s, pa, 32, pa)
    else match translate s n true .load (va + 16 * split) with
      | .trap c v => .error (c, v)
      | .ok s pa2 _ => .ok (s, pa, split, pa2)

/-- BORROW. Poison of the second map's record traps POISON before the backing area is translated (log entry 78). -/
def borrowOp (d a b : Nat) (s : State) : Eff :=
  pre s [a, b] [d] [(d, intK), (a, intK), (b, intK)]
    (let (n, k) := s.cur
     let va := valW s a
     let vb := valW s b
     if k = 7 then borrowTrap 3
     else if s.me.borrow.isSome then borrowTrap 1
     else match freeSlot s n with
       | none => borrowTrap 2
       | some t =>
         if va.toNat % 8 ≠ 0 then .trap .misalign va
         else if vb.toNat % 16 ≠ 0 then .trap .misalign vb
         else settle s [a, b] (if recordHeld s n va.toNat ∨ walkHeld s n (valW s b).toNat ∨ walkHeld s n ((valW s b).toNat + 511) then .stall s else match readMapRecord s n true va.toNat with
           | (_, .error (c, v)) => .trap c v
           | (s1, .ok (count, descs)) => match backingArea s1 n vb.toNat with
             | .error (c, v) => .trap c v
             | .ok (s2, pa, split, pa2) => match borrowMap count descs with
               | .error v => .trap .maperr v
               | .ok m => match putI s2 d 1 t with
                 | .done s3 =>
                   .done ((s3.modMe (fun x => { x with borrow := some { slot := t, map := m, rows := 0, resident := 0, dirty := 0, poisoned := 0, backing := pa, split := split, backing2 := pa2 } })).modSlot n t
                     (fun x => { x with lentTo := some k }))
                 | e => e))

/-- The borrowed slot given back: its rows are discarded and the slot is free (R73, R132). -/
def giveBack (s : State) (n k : Nat) : State :=
  match (s.slot n k).borrow with
  | none => s
  | some b => (s.modSlot n k (fun x => { x with borrow := none })).modSlot n b.slot (fun x => { x with lentTo := none })

def givebackOp (s : State) : Eff :=
  match s.me.borrow with
  | none => borrowTrap 4
  | some _ => settle s [] (.done (giveBack s s.cur.1 s.cur.2))

/-- Place of name `k` of a second map. -/
def borrowInfo (b : Borrow) (k : Nat) : Option Info :=
  match b.map[k]? with
  | none => none
  | some d => some { width := d.width, kind := d.kind, mode := d.mode, region := .priv, off := packOffset 32 (b.map.map (·.width)) k }

/-- A name of the second map that matches an own-map name in float kind (R119). -/
def borrowMatch (s : State) (k : Nat) (own : Info) : Bool :=
  match s.me.borrow.bind (borrowInfo · k) with
  | some i => !(i.kind.isFloat || own.kind.isFloat) || i.kind == own.kind
  | none => true

/-- The checks of XGET and XPUT after those of kinds: reasons 4 and 5, then the row, filled on demand, and its poison where it
is read (R70, R113). The own-map name's index is TRVAL of KIND (log entry 75). -/
def withBorrow (s : State) (read : Bool) (k : Nat) (body : Borrow → Info → Eff) : Eff :=
  match s.me.borrow with
  | none => borrowTrap 4
  | some b => match borrowInfo b k with
    | none => borrowTrap 5
    | some i =>
      if b.resident.getLsbD (i.off / 128) then
        (if read && b.poisoned.getLsbD (i.off / 128) then .trap .poison (rawRowAddr s.cur.1 b.slot .priv (i.off / 128)) else body b i)
      else .stall (s.modMe (fun x => { x with demand := some (32 + i.off / 128) }))

def xgetOp (d k : Nat) (s : State) : Eff :=
  pre s [] [d] [(d, borrowMatch s k)]
    (withBorrow s true k (fun b i =>
      let bits := wideGet b.rows i.off i.width
      if i.kind.isFloat then .done (putLate s d bits) else putILate s d (readPat i.kind i.width bits)))

def borrowWrite (s : State) (i : Info) (bits : Nat) : State :=
  s.modMe (fun x => { x with borrow := x.borrow.map (fun b =>
    { b with rows := wideSet b.rows i.off i.width bits, dirty := b.dirty ||| BitVec.ofNat 32 (2 ^ (i.off / 128)) }) })

def xputOp (k a : Nat) (s : State) : Eff :=
  pre s [a] [] [(a, borrowMatch s k)]
    (withBorrow s false k (fun _ i =>
      if i.kind.isFloat then .done (borrowWrite s i (opBits s a))
      else match fitInt i.kind i.width i.mode (valI s a) with
        | none => .trap .width (widthVal (valI s a) k)
        | some y => .done (borrowWrite s i (modPow y i.width))))

/-! ## TWXCH (R136, R137) -/

/-- A result written in the cycle in which the operands are read. -/
def putNow (s : State) (d bits : Nat) : State :=
  if d = 63 then s else push s d bits (some ((s.core s.cur.1).cycle + 1)) (s.me.turn + 1)

/-- A crown twin's exchange remains over a result that the brim twin's instruction of the same cycle writes to the pair name, and
so over those that this result supersedes (R75, R108, R137). -/
def overBrim (s : State) (a : Nat) : State :=
  let n := s.cur.1
  if n % 2 = 0 then s
  else
    let j := regionPos s.me.map a .pair
    let c := (s.core n).cycle
    let b := twinOf n
    let gone (k : Nat) (p : Pending) : Bool := p.born = c && p.due = some (c + 3) && (match nameInfo s b k p.name with
      | some i => i.region = .pair && regionPos (s.slot b k).map p.name .pair = j
      | none => false)
    (List.range 8).foldl (fun s k => s.modSlot b k (fun x => { x with pending := withoutPending (gone k) x.pending })) s

/-- TWXCH; when neither fits, the WIDTH trap is D's (log entry 75). -/
def twxchOp (d a : Nat) (s : State) : Eff :=
  pre s [d, a] [d, a] [(d, fun i => i.region != .pair), (a, fun i => i.region == .pair && (if i.kind.isFloat then i.kind == (info s d).kind else (info s d).kind.isInt))]
    (let ia := info s a
     let id := info s d
     if ia.kind.isFloat then .done (overBrim (putNow (putNow s d (opBits s a)) a (opBits s d)) a)
     else match (if d = 63 then some 0 else fitInt id.kind id.width id.mode (valI s a)), fitInt ia.kind ia.width ia.mode (valI s d) with
       | none, _ => .trap .width (widthVal (valI s a) d)
       | _, none => .trap .width (widthVal (valI s d) a)
       | some x, some y => .done (overBrim (putNow (putNow s d (modPow x id.width)) a (modPow y ia.width)) a))

/-! ## MAPLD and MAPQ (R138, R139) -/

def mapldOp (a : Nat) (s : State) : Eff :=
  pre s [a] [] [(a, intK)]
    (let va := valW s a
     let (n, k) := s.cur
     if va.toNat % 8 ≠ 0 then .trap .misalign va
     else settle s [a] (if recordHeld s n va.toNat then .stall s
       else match readMapRecord s n (decide (k < 7)) va.toNat with
         | (_, .error (c, v)) => .trap c v
         | (s1, .ok (count, descs)) => match mapInstall s1 n k false count descs with
           | .error v => .trap .maperr v
           | .ok t => if mapFrozen s n k t.me.map then .stall s else .done (t.modMe (fun x => { x with mapPtr := va }))))

/-- The layout of MAPQ's result. -/
def mapqWord (i : Info) (region : Nat) : Nat :=
  i.width + i.kind.code * 2 ^ 7 + i.mode.code * 2 ^ 10 + region * 2 ^ 12 + i.off % 128 * 2 ^ 14 + i.off / 128 * 2 ^ 21 + 2 ^ 26

def mapqOp (d a : Nat) (s : State) : Eff :=
  pre s [] [d] [(d, intK)]
    (putI s d 1 (if a = 63 then mapqWord zeroInfo 3
      else match infoOf s s.cur.1 s.cur.2 a with
        | some i => mapqWord i i.region.code
        | none => 0))

/-! ## Special registers (R114, R140, R141) -/

/-- WHO (R32). -/
def whoOf (s : State) (n k : Nat) : Nat :=
  n + k * 2 ^ 10 + logicalOf s n * 2 ^ 16 + (if k = 7 then 0 else (s.slot n k).handle.toNat) * 2 ^ 32

def specialReg (s : State) (r : Nat) : Word :=
  let (n, k) := s.cur
  let x := s.me
  match r with
  | 0 => x.pc
  | 1 => BitVec.ofNat 64 (whoOf s n k)
  | 2 => s.time
  | 3 => (s.core n).tags
  | 4 => x.amode
  | 5 => x.rmode
  | 6 => x.fxf
  | 7 => x.seed
  | 8 => BitVec.ofNat 64 (s.core n).mapGen.toNat
  | 9 => BitVec.ofNat 64 (licstOf s n k)
  | _ => BitVec.ofNat 64 (brwst x)

/-- A register's 64 bits read in a destination's kind (R140). -/
def regAs (s : State) (d : Nat) (v : Word) : Int := if (info s d).kind = .signed then v.toInt else v.toNat

def getsOp (d r : Nat) (s : State) : Eff :=
  pre s [] [d] [(d, intK)] (if r = 6 ∧ s.me.pending ≠ [] then .stall s else putI s d 1 (regAs s d (specialReg s r)))

/-- The stored form of a SEED (R93). -/
def seedOf (v : Word) : Word := if fld v 0 32 = 0 then 1 else BitVec.ofNat 64 (fld v 0 32)

def putsOp (a r : Nat) (s : State) : Eff :=
  pre s [a] [] [(a, intK)]
    (let v := valW s a
     match r with
     | 3 => settle s [a] (.done (clearTags s v))
     | 4 => .done (s.modMe (fun x => { x with amode := BitVec.ofNat 64 (fld v 0 7) }))
     | 5 => .done (s.modMe (fun x => { x with rmode := BitVec.ofNat 64 (fld v 0 2) }))
     | 6 => .done (s.modMe (fun x => { x with fxf := BitVec.ofNat 64 (fld v 0 5) }))
     | 7 => .done (s.modMe (fun x => { x with seed := seedOf v }))
     | _ => .done s)

/-! ## Extension registers (R142, R143) -/

def oxGet (x : Slot) (k : Nat) : Word := BitVec.ofNat 64 (wideGet x.ox (64 * k) 64)
def oxSet (s : State) (k : Nat) (v : Word) : State := s.modMe (fun x => { x with ox := wideSet x.ox (64 * k) 64 v.toNat })

def oxlOp (k a : Nat) (s : State) : Eff := pre s [a] [] [(a, intK)] (.done (oxSet s k (valW s a)))
def oxrOp (d k : Nat) (s : State) : Eff := pre s [] [d] [(d, intK)] (putI s d 1 (regAs s d (oxGet s.me k)))

def oxclrOp (all : Bool) (k : Nat) (s : State) : Eff :=
  .done (if all then s.modMe (fun x => { x with ox := 0 }) else oxSet s k 0)

def oxiOp (mode : Bool) (q k : Nat) (i : BitVec 17) (s : State) : Eff :=
  .done (if mode then oxSet s k (BitVec.signExtend 64 i) else oxSet s k (setFld (oxGet s.me k) (16 * q) 16 i.toNat))

/-! ## The instructions -/

def execRsz (sl : BitVec 2) (d w : BitVec 6) (s : State) : Host.Outcome State Fault Refusal :=
  run32 (.rsz sl d w) sl (rszOp d.toNat w.toNat) s
def execSetm (sl : BitVec 2) (d m : BitVec 6) (s : State) : Host.Outcome State Fault Refusal :=
  run32 (.setm sl d m) sl (setmOp d.toNat m.toNat) s
def execBorrow (sl : BitVec 2) (d a b : BitVec 6) (s : State) : Host.Outcome State Fault Refusal :=
  run32 (.borrow sl d a b) sl (borrowOp d.toNat a.toNat b.toNat) s
def execGiveback (sl : BitVec 2) (s : State) : Host.Outcome State Fault Refusal := run32 (.giveback sl) sl givebackOp s
def execXget (sl : BitVec 2) (d k : BitVec 6) (s : State) : Host.Outcome State Fault Refusal :=
  run32 (.xget sl d k) sl (xgetOp d.toNat k.toNat) s
def execXput (sl : BitVec 2) (k a : BitVec 6) (s : State) : Host.Outcome State Fault Refusal :=
  run32 (.xput sl k a) sl (xputOp k.toNat a.toNat) s
def execTwxch (sl : BitVec 2) (d a : BitVec 6) (s : State) : Host.Outcome State Fault Refusal :=
  run32 (.twxch sl d a) sl (twxchOp d.toNat a.toNat) s
def execMapld (sl : BitVec 2) (a : BitVec 6) (s : State) : Host.Outcome State Fault Refusal :=
  run32 (.mapld sl a) sl (mapldOp a.toNat) s
def execMapq (sl : BitVec 2) (d a : BitVec 6) (s : State) : Host.Outcome State Fault Refusal :=
  run32 (.mapq sl d a) sl (mapqOp d.toNat a.toNat) s
def execGets (sl : BitVec 2) (d r : BitVec 6) (s : State) : Host.Outcome State Fault Refusal :=
  run32 (.gets sl d r) sl (getsOp d.toNat r.toNat) s
def execPuts (sl : BitVec 2) (a r : BitVec 6) (s : State) : Host.Outcome State Fault Refusal :=
  run32 (.puts sl a r) sl (putsOp a.toNat r.toNat) s
def execOxl (sl : BitVec 2) (k : BitVec 3) (a : BitVec 6) (s : State) : Host.Outcome State Fault Refusal :=
  run32 (.oxl sl k a) sl (oxlOp k.toNat a.toNat) s
def execOxr (sl : BitVec 2) (d : BitVec 6) (k : BitVec 3) (s : State) : Host.Outcome State Fault Refusal :=
  run32 (.oxr sl d k) sl (oxrOp d.toNat k.toNat) s
def execOxclr (sl : BitVec 2) (m : BitVec 1) (k : BitVec 3) (s : State) : Host.Outcome State Fault Refusal :=
  run32 (.oxclr sl m k) sl (oxclrOp (m == 1) k.toNat) s
def execOxi (sl : BitVec 2) (m : BitVec 1) (q : BitVec 2) (k : BitVec 3) (i : BitVec 17) (s : State) : Host.Outcome State Fault Refusal :=
  run32 (.oxi sl m q k i) sl (oxiOp (m == 1) q.toNat k.toNat i) s

end Sys2Proof.Machine
end

