-- ==== Sys2Proof/Machine/Stream.lean ====
section
/-! DEFINITION. Machine/Stream.lean: the stream commands CHAIN, REDUCE, GATHER, SCATTER, CPYB and FILLS, and SETF, GETF and SRAND
(R218 to R227): their checks at issue and what a command does when it is performed. -/

namespace Sys2Proof.Machine

/-! ## Issue -/

/-- The control word of a stream command; REDOP belongs to REDUCE (R218, R223). -/
def ctlBad (w : Word) (reduce : Bool) : Bool :=
  fld w 7 1 ≠ 0 || fld w 10 54 ≠ 0 || (if reduce then fld w 8 2 = 3 else fld w 8 2 ≠ 0)

def ctlTag (w : Word) : Option Nat := if fld w 6 1 = 1 then some (fld w 0 6) else none

def spadSize : Nat := 0x200000

/-- The names that an instruction with an optional control word reads. -/
def ctlReads (d : Nat) (r : List Nat) : List Nat := if d = 63 then r else d :: r

/-- Acceptance into the stream queue, or the stall on a full queue or scoreboard (R219, R220). -/
def acceptStream (s : State) (op : CmdOp) (rd wr : List (Nat × Nat)) (tag : Option Nat) (chunk : Option (Nat × Nat)) : Eff :=
  if 16 ≤ streamCount s s.cur.1 ∨ 32 ≤ boardCount s s.cur.1 then .stall s
  else .done (stepSeed (addCmd s { newCmd s op rd wr tag with chunk := chunk }))

/-- Alignment, then reach, of shape record offsets, in order; then pending writes to their bytes. Where several records of a
command are bad, TRVAL names the first in the order of its operands, and where a raw bank meets another one, the raw bank's
record: the model's choice (log entry 75). -/
def recordsOk (s : State) (offs : List Nat) (body : Eff) : Eff :=
  match offs.find? (fun o => o % 32 ≠ 0) with
  | some o => .trap .misalign (BitVec.ofNat 64 o)
  | none => match offs.find? (fun o => spadSize ≤ o) with
    | some o => .trap .protect (BitVec.ofNat 64 o)
    | none => if offs.any (fun o => recordBusy s s.cur.1 o 32) then .stall s else body

def recRange (o len : Nat) : Nat × Nat := (o, o + len)

/-- Format in force for a record's bank at issue. -/
def fmtNext (s : State) (h : Shape) : Fmt := bankFmt s.myCore.bfmtNext h.bank

def sameDims (a b : Shape) : Bool := a.dims = b.dims

/-! ### CHAIN (R221, R222) -/

/-- Operands that an operation uses: A, B and C. -/
def opArity (opc : Nat) : Nat := match opc with | 1 | 2 | 3 | 5 | 6 => 2 | 4 | 10 => 3 | _ => 1

/-- A malformed operation word, given which sources are present. -/
def chainOpBad (has : Nat → Bool) (w : Nat) : Bool :=
  let opc := bitsAt w 0 5
  let n := opArity opc
  let fieldBad (i : Nat) : Bool :=
    let v := bitsAt w (8 + 3 * i) 3
    if i < n then decide (v ≤ 2) && !has v else v ≠ 0
  decide (15 ≤ opc) || decide (bitsAt w 5 3 < 4) || bitsAt w 17 15 ≠ 0 || fieldBad 0 || fieldBad 1 || fieldBad 2

/-- The operation words before the first END; none when a non-END follows it, or a field of an END, which uses none, is not
zero. -/
def chainOps : List Nat → Option (List Nat)
  | [] => some []
  | w :: r => if bitsAt w 0 5 = 0 then (if (w :: r).all (· = 0) then some [] else none) else (chainOps r).map (w :: ·)

def chainWords (v : Nat) : List Nat := (List.range 8).map (fun k => bitsAt v (128 + 32 * k) 32)
def chainSrcs (v : Nat) : List (Option Nat) :=
  (List.range 3).map (fun k => let o := bitsAt v (32 + 32 * k) 32; if o = 0xFFFFFFFF then none else some o)

def chainBad (v : Nat) : Bool :=
  bitsAt v 384 128 ≠ 0 || (match chainOps (chainWords v) with
    | none => true
    | some ops => ops.isEmpty || ops.any (chainOpBad (fun k => ((chainSrcs v).getD k none).isSome)))

def chainOp (d a b : Nat) (s : State) : Eff :=
  let reads := ctlReads d [a, b]
  pre s reads [] [(d, intK), (a, intK), (b, f32K)]
    (settle s reads (
      let n := s.cur.1
      let cw := valW s d
      let off := (valW s a).toNat
      if ctlBad cw false then .trapWord .illegal
      else if off % 64 ≠ 0 then .trap .misalign (BitVec.ofNat 64 off)
      else if spadSize ≤ off then .trap .protect (BitVec.ofNat 64 off)
      else if recordBusy s n off 64 then .stall s
      else
        let v := memReadLE s.mem (spadAddr n off) 64
        let dst := bitsAt v 0 32
        let srcs := chainSrcs v
        let offs := dst :: srcs.filterMap id
        match offs.find? (fun o => o % 32 ≠ 0) with
        | some o => .trap .misalign (BitVec.ofNat 64 o)
        | none =>
          if chainBad v then .trap .protect (BitVec.ofNat 64 off)
          else recordsOk s offs (
            let dr := readShape s n dst
            let df := fmtNext s dr.1
            let bad (o : Nat) : Bool :=
              let r := readShape s n o
              let f := fmtNext s r.1
              sourceBad f r || f.raw || !sameDims r.1 dr.1
            if destBad df dr || df.raw then .trap .protect (BitVec.ofNat 64 dst)
            else match (srcs.filterMap id).find? bad with
              | some o => .trap .protect (BitVec.ofNat 64 o)
              | none => if chunkHeld s then .stall s else match chunkWait s with
                | .error (c, x) => .trap c x
                | .ok (s, ch) =>
                  let shapes := srcs.map (fun o => o.map (fun o => (readShape s n o).1))
                  let rd := recRange off 64 :: offs.map (fun o => recRange o 32)
                    ++ (shapes.filterMap id).flatMap (fun h => tensorRange (fmtNext s h) h)
                  acceptStream s (.chain dr.1 shapes (((chainOps (chainWords v)).getD []).map (BitVec.ofNat 32)) (BitVec.ofNat 32 (opBits s b)))
                    rd (tensorRange df dr.1) (ctlTag cw) ch)))

/-! ### REDUCE, GATHER, SCATTER, CPYB, FILLS (R223 to R225) -/

/-- The checks that the commands of two records share. -/
def twoRecords (d a b : Nat) (reduce : Bool) (body : State → Word → Nat → Nat → Eff) (s : State) : Eff :=
  let reads := ctlReads d [a, b]
  pre s reads [] [(d, intK), (a, intK), (b, intK)]
    (settle s reads (
      let cw := valW s d
      if ctlBad cw reduce then .trapWord .illegal
      else
        let x := (valW s a).toNat
        let y := (valW s b).toNat
        recordsOk s [x, y] (body s cw x y)))

def reduceOp (d a b : Nat) (s : State) : Eff :=
  twoRecords d a b true (fun s cw x y =>
    let n := s.cur.1
    let sr := readShape s n x
    let dr := readShape s n y
    let sf := fmtNext s sr.1
    let df := fmtNext s dr.1
    let shape := dr.1.dim 0 = 1 && dr.1.dim 1 = sr.1.dim 1 && dr.1.dim 2 = sr.1.dim 2 && dr.1.dim 3 = sr.1.dim 3
    if sourceBad sf sr || sf.raw then .trap .protect (BitVec.ofNat 64 x)
    else if destBad df dr || df.raw || df.scale || !shape then .trap .protect (BitVec.ofNat 64 y)
    else acceptStream s (.reduce (fld cw 8 2) sr.1 dr.1) ([recRange x 32, recRange y 32] ++ tensorRange sf sr.1) (tensorRange df dr.1)
      (ctlTag cw) none) s

def cpybOp (d a b : Nat) (s : State) : Eff :=
  twoRecords d a b false (fun s cw x y =>
    let n := s.cur.1
    let sr := readShape s n x
    let dr := readShape s n y
    let sf := fmtNext s sr.1
    let df := fmtNext s dr.1
    if sourceBad sf sr || (sf.raw && !df.raw) then .trap .protect (BitVec.ofNat 64 x)
    else if destBad df dr || (df.raw && !sf.raw) || !sameDims sr.1 dr.1 then .trap .protect (BitVec.ofNat 64 y)
    else acceptStream s (.cpyb sr.1 dr.1) ([recRange x 32, recRange y 32] ++ tensorRange sf sr.1) (tensorRange df dr.1) (ctlTag cw) none) s

/-- An index bank: INT16, INT32, or narrow fixed point with bias 0 (R224). -/
def indexFmt (f : Fmt) : Bool := f.e = 0 && f.bias = 0 && !f.raw

/-- The three records of GATHER and SCATTER; `row` is the tensor whose rows the indices stand beside. A SCATTER whose rows end
within a scale block would write part of it (R216). An index bank of another format traps PROTECT with the index record's offset
(log entry 78). -/
def indexedOp (scatter : Bool) (d a b : Nat) (s : State) : Eff :=
  let reads := ctlReads d [a, b]
  pre s reads [] [(d, intK), (a, intK), (b, intK)]
    (settle s reads (
      let cw := valW s d
      if ctlBad cw false then .trapWord .illegal
      else
        let x := fld (valW s a) 0 32
        let y := fld (valW s a) 32 32
        let z := (valW s b).toNat
        recordsOk s [x, y, z] (
          let n := s.cur.1
          let dr := readShape s n x
          let sr := readShape s n y
          let jr := readShape s n z
          let df := fmtNext s dr.1
          let sf := fmtNext s sr.1
          let jf := fmtNext s jr.1
          let row := if scatter then sr.1 else dr.1
          let shape := jr.1.dim 0 = 1 && jr.1.dim 1 = row.dim 1 && jr.1.dim 2 = row.dim 2 && jr.1.dim 3 = row.dim 3
          let part := scatter && df.scale && min (sr.1.dim 0) (dr.1.dim 0) % 16 ≠ 0
          if destBad df dr || (df.scale && df.orient = 1) || (df.raw && !sf.raw) || part then .trap .protect (BitVec.ofNat 64 x)
          else if sourceBad sf sr || (sf.raw && !df.raw) then .trap .protect (BitVec.ofNat 64 y)
          else if sourceBad jf jr || !indexFmt jf || !shape then .trap .protect (BitVec.ofNat 64 z)
          else
            let rd := [recRange x 32, recRange y 32, recRange z 32] ++ tensorRange sf sr.1 ++ tensorRange jf jr.1
            acceptStream s (if scatter then .scatter dr.1 sr.1 jr.1 else .gather dr.1 sr.1 jr.1) rd (tensorRange df dr.1) (ctlTag cw) none)))

def gatherOp (d a b : Nat) (s : State) : Eff := indexedOp false d a b s
def scatterOp (d a b : Nat) (s : State) : Eff := indexedOp true d a b s

def fillsOp (d a b : Nat) (s : State) : Eff :=
  let reads := ctlReads d [a, b]
  pre s reads [] [(d, intK), (a, intK), (b, anyK)]
    (settle s reads (
      let n := s.cur.1
      let cw := valW s d
      let x := (valW s a).toNat
      let k := (info s b).kind
      let reads := k.isFloat ∧ x % 32 = 0 ∧ x < spadSize
      if reads ∧ recordBusy s n x 32 then .stall s
      else if reads ∧ (fmtNext s (readShape s n x).1).raw then .trap .kind (BitVec.ofNat 64 b)
      else if ctlBad cw false then .trapWord .illegal
      else recordsOk s [x] (
        let dr := readShape s n x
        let df := fmtNext s dr.1
        if destBad df dr then .trap .protect (BitVec.ofNat 64 x)
        else acceptStream s (.fills dr.1 k (if k.isFloat then (opBits s b : Int) else valI s b)) [recRange x 32] (tensorRange df dr.1)
          (ctlTag cw) none)))

/-! ### SETF, GETF, SRAND (R226) -/

def setfOp (a bank : Nat) (s : State) : Eff :=
  pre s [a] [] [(a, intK)]
    (settle s [a] (
      let v := valW s a
      if fmtGood true v.toNat = false then .trapWord .illegal
      else if 32 ≤ boardCount s s.cur.1 then .stall s
      else
        let lo := 0x20000 * bank
        let s := addCmd s (newCmd s (.setf bank v) [] [(lo, lo + 0x20000)] none)
        .done (s.modMyCore (fun c => { c with bfmtNext := wideSet c.bfmtNext (64 * bank) 64 v.toNat }))))

def getfOp (d bank : Nat) (s : State) : Eff :=
  pre s [] [d] [(d, intK)] (putI s d 1 (wideGet s.myCore.bfmtNext (64 * bank) 64 : Nat))

def srandOp (a : Nat) (s : State) : Eff :=
  pre s [a] [] [(a, intK)] (.done (s.modMe (fun x => { x with seed := seedOf (valW s a) })))

/-! ## Performing a command (R222 to R225) -/

/-- Result of one chain operation on values of FP32, before its rounding. -/
def chainValue (f : Fmt) (opc : Nat) (a b c sv : FVal) : FVal :=
  match opc with
  | 1 => exactAdd a b
  | 2 => exactAdd a b.negate
  | 3 => exactMul a b
  | 4 => exactAdd (exactMul a b) c
  | 5 => maxNaN a b
  | 6 => minNaN a b
  | 7 => a.withSign false
  | 8 => a.negate
  | 9 => exactMul a sv
  | 10 => if a.neg? then c else b
  | 11 => decodeF .float32 (exp2a (rne32 a)).1
  | 12 => decodeF .float32 (rcpa (rne32 a)).1
  | 13 => decodeF .float32 (rsqa (rne32 a)).1
  | _ => f.decode ({ f with rnd := 0, scale := false }.encode a 0)

/-- The operations of a chain on one element: `src` gives the source elements; the value last written. -/
def chainRun (f : Fmt) (src : Nat → FVal) (sv : FVal) : List Nat → List FVal → FVal → FVal
  | [], _, y => y
  | w :: r, ts, _ =>
    let arg (i : Nat) : FVal :=
      let v := bitsAt w (8 + 3 * i) 3
      if v ≤ 2 then rne32V (src v) else if v = 3 then sv else ts.getD (v - 4) (.fin false 0 1 0)
    let x := rne32V (chainValue f (bitsAt w 0 5) (arg 0) (arg 1) (arg 2) sv)
    chainRun f src sv r (ts.set (bitsAt w 5 3 - 4) x) x

/-- Two tensors share an element or a scale block. -/
def tensorsMeet (f : Fmt) (a b : Shape) : Bool :=
  a.bank = b.bank && a.indices.any (fun i => b.indices.any (fun j =>
    i = j || (f.scale && blockOf f.orient f.rowLen i = blockOf f.orient f.rowLen j)))

/-- Values converted into a destination, or a free destination when a source overlaps it. -/
def storeTensor (s : State) (n : Nat) (c : Cmd) (dst : Shape) (clash : Bool) (vs : List (Nat × FVal)) : State :=
  let f := bankFmt c.fmts dst.bank
  if clash then freeInto s n dst.bank f dst.indices else convertInto s n dst.bank f vs c.seed.toNat

/-- Encodings moved unchanged between raw banks. -/
def storeRawElems (s : State) (n : Nat) (c : Cmd) (dst : Shape) (clash : Bool) (vs : List (Nat × Nat)) : State :=
  let f := bankFmt c.fmts dst.bank
  if clash then freeInto s n dst.bank f dst.indices else putElems s n dst.bank f vs []

def valueAt (s : State) (n : Nat) (c : Cmd) (h : Shape) (i : Nat) : FVal := elemValue s n h.bank (bankFmt c.fmts h.bank) i
def rawAt (s : State) (n : Nat) (c : Cmd) (h : Shape) (i : Nat) : Nat := elemRead s n h.bank (bankFmt c.fmts h.bank) i

/-- An index as an exact integer; one that is none breaks a duty and is free (R7, R224; log entry 76). -/
def indexAt (s : State) (n : Nat) (c : Cmd) (h : Shape) (i : Nat) : Int :=
  let free : Int := Config.freeBits s.tick (2 ^ 23 + i) 32 % 2 ^ 32
  match valueAt s n c h i with
  | .fin neg m d e =>
    let (a, b) := fracUp m d e
    if a % b = 0 then signedNum neg (a / b) else free
  | _ => free

/-- What GATHER takes beside the source's DIM0, which the spec does not give (log entry 75). -/
def freeElem (s : State) (f : Fmt) (i : Nat) : Nat := Config.freeBits s.tick (2 ^ 22 + i) f.w % 2 ^ f.w

/-- The source index that a destination row of GATHER takes, none outside the source. -/
def rowOf (j : Int) (dim : Nat) : Option Nat := if 0 ≤ j ∧ j < dim then some j.toNat else none

/-- A line of REDUCE: SUM by groups of 16, MAX and MIN exact. -/
def sumGroups : (fuel : Nat) → FVal → List FVal → FVal
  | 0, acc, _ => acc
  | _ + 1, acc, [] => acc
  | f + 1, acc, vs => sumGroups f (accStep acc (vs.take 16)) (vs.drop 16)

def reduceLine (op : Nat) (vs : List FVal) : FVal :=
  match op with
  | 0 => sumGroups vs.length (.fin false 0 1 0) vs
  | 1 => match vs with | [] => .nan false | v :: r => r.foldl maxNaN v
  | _ => match vs with | [] => .nan false | v :: r => r.foldl minNaN v

def scatterClash (c : Cmd) (dst src idx : Shape) : Bool :=
  let f := bankFmt c.fmts dst.bank
  tensorsMeet f dst src || tensorsMeet f dst idx

/-- The elements that a SCATTER writes, in the source's order: place in the visit of the source, and linear index in the destination.
Source elements at or past the destination's DIM0 are not written (log entry 78). -/
def scatterRows (s : State) (n : Nat) (c : Cmd) (dst src idx : Shape) : List (Nat × Nat) :=
  if dst.total = 0 then []
  else (List.range src.total).filterMap (fun t =>
    let (i0, i1, i2, i3) := src.coord t
    if dst.dim 0 ≤ i0 then none
    else (rowOf (indexAt s n c idx (idx.at4 0 i1 i2 i3)) (dst.dim 1)).map (fun j => (t, dst.at4 i0 j 0 0)))

/-- What a stream command does to the banks. GATHER from a source whose DIM2 or DIM3 is 0 reads the bytes where the element would
stand (log entry 78). -/
def performStream (s : State) (n : Nat) (c : Cmd) : State :=
  match c.op with
  | .chain dst srcs ops sv =>
    let f := bankFmt c.fmts dst.bank
    let clash := (srcs.filterMap id).any (fun h => h ≠ dst && tensorsMeet f dst h)
    let vs := (List.range dst.total).map (fun t =>
      (dst.idx t, chainRun f (fun k => match srcs.getD k none with
          | some h => valueAt s n c h (h.idx t)
          | none => .fin false 0 1 0) (decodeF .float32 sv.toNat) (ops.map (·.toNat)) (List.replicate 4 (.fin false 0 1 0)) (.fin false 0 1 0)))
    storeTensor s n c dst clash vs
  | .reduce op src dst =>
    let clash := tensorsMeet (bankFmt c.fmts dst.bank) dst src
    let vs := if src.dim 0 = 0 then [] else (List.range dst.total).map (fun t =>
      let (_, i1, i2, i3) := dst.coord t
      (dst.idx t, reduceLine op ((List.range (src.dim 0)).map (fun i0 => valueAt s n c src (src.at4 i0 i1 i2 i3)))))
    if src.total = 0 then s else storeTensor s n c dst clash vs
  | .gather dst src idx =>
    let f := bankFmt c.fmts dst.bank
    let clash := tensorsMeet f dst src || tensorsMeet f dst idx
    let row (t : Nat) : Option Nat :=
      let (i0, i1, i2, i3) := dst.coord t
      (rowOf (indexAt s n c idx (idx.at4 0 i1 i2 i3)) (src.dim 1)).map (fun j => src.at4 i0 j 0 0)
    let beside (t : Nat) : Bool := decide (src.dim 0 ≤ (dst.coord t).1)
    (if f.raw then
      storeRawElems s n c dst clash ((List.range dst.total).map (fun t =>
        (dst.idx t, match row t with | some i => if beside t then freeElem s f t else rawAt s n c src i | none => 0)))
    else
      storeTensor s n c dst clash ((List.range dst.total).map (fun t =>
        (dst.idx t, match row t with
          | some i => if beside t then f.decode (freeElem s f t) else valueAt s n c src i
          | none => .fin false 0 1 0)))).ticked
  | .scatter dst src idx =>
    let f := bankFmt c.fmts dst.bank
    let clash := scatterClash c dst src idx
    let rows := scatterRows s n c dst src idx
    (if f.raw then storeRawElems s n c dst clash (rows.map (fun x => (x.2, rawAt s n c src (src.idx x.1))))
    else storeTensor s n c dst clash (rows.map (fun x => (x.2, valueAt s n c src (src.idx x.1))))).ticked
  | .cpyb src dst =>
    let f := bankFmt c.fmts dst.bank
    let clash := tensorsMeet f dst src
    if f.raw then storeRawElems s n c dst clash ((List.range dst.total).map (fun t => (dst.idx t, rawAt s n c src (src.idx t))))
    else storeTensor s n c dst clash ((List.range dst.total).map (fun t => (dst.idx t, valueAt s n c src (src.idx t))))
  | .fills dst k bits =>
    let f := bankFmt c.fmts dst.bank
    if f.raw then storeRawElems s n c dst false ((List.range dst.total).map (fun t => (dst.idx t, modPow bits 8)))
    else storeTensor s n c dst false ((List.range dst.total).map (fun t =>
      (dst.idx t, if k.isFloat then decodeF k bits.toNat else FVal.ofInt bits)))
  | _ => s

/-- Bytes that a stream command writes. -/
def streamLay (s : State) (n : Nat) (c : Cmd) : List DestByte :=
  let lay (h : Shape) (is : List Nat) : List DestByte := bankLay n h.bank (bankFmt c.fmts h.bank) 0 is
  match c.op with
  | .chain dst _ _ _ => lay dst dst.indices
  | .reduce _ src dst => if src.total = 0 then [] else lay dst dst.indices
  | .gather dst _ _ => lay dst dst.indices
  | .scatter dst src idx => lay dst (if scatterClash c dst src idx then dst.indices else (scatterRows s n c dst src idx).map (·.2))
  | .cpyb _ dst => lay dst dst.indices
  | .fills dst _ _ => lay dst dst.indices
  | _ => []

/-- A stream command at work reads a byte of its sources, finds the values of a group, or has a byte land (R219, R271). -/
def streamSome (s : State) (n : Nat) (c : Cmd) (u : Nat) : State :=
  let o := overlay s (c.got.get 0 [])
  let lay := streamLay o n c
  match u % 4 with
  | 3 => readEarly s n c (u / 4)
  | 1 => match pickGroup c 0 (u / 4) lay with
    | some g => decideGroup s n c 0 g (groupBytes (performStream o n c) lay g)
    | none => s
  | _ => landPart s n c 0 (u / 4) lay some []

/-- A SETF replaces the format register (R87). -/
def performSetf (s : State) (n : Nat) (c : Cmd) : State :=
  match c.op with
  | .setf bank v => s.modCore n (fun x => { x with bfmt := wideSet x.bfmt (64 * bank) 64 v.toNat })
  | _ => s

/-! ## The instructions -/

def execChain (sl : BitVec 2) (d : BitVec 6) (a : BitVec 6) (b : BitVec 6) (s : State) : Host.Outcome State Fault Refusal :=
  run32 (.chain sl d a b) sl (chainOp d.toNat a.toNat b.toNat) s
def execReduce (sl : BitVec 2) (d : BitVec 6) (a : BitVec 6) (b : BitVec 6) (s : State) : Host.Outcome State Fault Refusal :=
  run32 (.reduce sl d a b) sl (reduceOp d.toNat a.toNat b.toNat) s
def execGather (sl : BitVec 2) (d : BitVec 6) (a : BitVec 6) (b : BitVec 6) (s : State) : Host.Outcome State Fault Refusal :=
  run32 (.gather sl d a b) sl (gatherOp d.toNat a.toNat b.toNat) s
def execScatter (sl : BitVec 2) (d : BitVec 6) (a : BitVec 6) (b : BitVec 6) (s : State) : Host.Outcome State Fault Refusal :=
  run32 (.scatter sl d a b) sl (scatterOp d.toNat a.toNat b.toNat) s
def execCpyb (sl : BitVec 2) (d : BitVec 6) (a : BitVec 6) (b : BitVec 6) (s : State) : Host.Outcome State Fault Refusal :=
  run32 (.cpyb sl d a b) sl (cpybOp d.toNat a.toNat b.toNat) s
def execFills (sl : BitVec 2) (d : BitVec 6) (a : BitVec 6) (b : BitVec 6) (s : State) : Host.Outcome State Fault Refusal :=
  run32 (.fills sl d a b) sl (fillsOp d.toNat a.toNat b.toNat) s
def execSetf (sl : BitVec 2) (a : BitVec 6) (b : BitVec 6) (s : State) : Host.Outcome State Fault Refusal :=
  run32 (.setf sl a b) sl (setfOp a.toNat b.toNat) s
def execGetf (sl : BitVec 2) (d : BitVec 6) (b : BitVec 6) (s : State) : Host.Outcome State Fault Refusal :=
  run32 (.getf sl d b) sl (getfOp d.toNat b.toNat) s
def execSrand (sl : BitVec 2) (a : BitVec 6) (s : State) : Host.Outcome State Fault Refusal := run32 (.srand sl a) sl (srandOp a.toNat) s

end Sys2Proof.Machine
end

