-- ==== Sys2Proof/Machine/Engines.lean ====
section
/-! DEFINITION. Machine/Engines.lean: PUSH, QSTAT and XFORM (R183, R184, R235), and the copy, host and transform commands as
their engines perform them (R228, R229, R234 to R237, R349). -/

namespace Sys2Proof.Machine

/-! ## An engine's accesses (R266, R349) -/

/-- A trap of an engine's access carries the virtual address (R349). -/
def atVa (va : Nat) (a : Access) : Access := match a with | .trap c _ => .trap c (BitVec.ofNat 64 va) | x => x

/-- A window's entry as an engine reads it: bytes of the accumulator window come from the aligned 8-byte entry (R229). -/
def engWindow (s : State) (q : Req) (w off size pa va : Nat) : Access :=
  if 0x200000 ≤ off ∧ off < 0x210000 ∧ size ≠ 8 then
    (match windowRead s q w (off / 8 * 8) 8 (pa / 8 * 8) (BitVec.ofNat 64 va) with
     | .ok s v p pa => .ok s (bitsAt v (8 * (off % 8)) (8 * size)) (bitsAt p (off % 8 / 4) 1) pa
     | r => r)
  else windowRead s q w off size pa (BitVec.ofNat 64 va)

/-- A coherent read of `size` bytes within an aligned unit: it waits for a line that another command owns (R266). The memory of
another device gives a free value. -/
def engRead (s : State) (n : Nat) (c : Cmd) (va size : Nat) : Access :=
  let m := cmdCore s n c
  if walkHeld s m va then .wait s else
  atVa va (match translate s m c.user .load va with
    | .trap x v => .trap x v
    | .ok s pa _ =>
      let p := placeOf s pa
      if heldAtJoin s n p then .wait s
      else match p with
        | .home a | .pool a =>
          let (v, q) := physRead s pa size
          if othersOwn s n c a then .wait s else if q ≠ 0 then .trap .poison 0 else .ok (metaCheck s (lineBase a)) v 0 pa
        | .window w off => match engWindow s { core := n, slot := none, seq := some c.seq } w off size pa va with
          | .ok s v q pa => if q ≠ 0 then .trap .poison 0 else .ok s v 0 pa
          | r => r
        | .remote _ _ => .ok s.ticked (Config.freeBits s.tick va (8 * size) % 2 ^ (8 * size)) 0 pa
        | _ => busErr pa)

/-- A write performed at its destination; to another device it travels as a put of the engine's own flow. -/
def engWrite (s : State) (n : Nat) (c : Cmd) (va size v : Nat) : Access :=
  let m := cmdCore s n c
  if walkHeld s m va then .wait s else
  atVa va (match translate s m c.user .store va with
    | .trap x w => .trap x w
    | .ok s pa _ =>
      let p := placeOf s pa
      if heldAtJoin s n p then .wait s
      else match p with
        | .home a | .pool a =>
          if poolRefused s a then .trap .pool 0 else if othersOwn s n c a then .wait s else .ok (physWrite s pa size v 0 (some c.ctx)) v 0 pa
        | .window w off => windowWrite s { core := n, slot := none, seq := some c.seq } w off size v 0 pa (BitVec.ofNat 64 va)
        | .remote dev off => .ok (sendPut s n c.slot (some c.seq) dev off size v 0) v 0 pa
        | _ => busErr pa)

/-- Bytes read one by one. -/
def engBytes (s : State) (n : Nat) (c : Cmd) (va : Nat) : (count : Nat) → Access
  | 0 => .ok s 0 0 0
  | k + 1 => match engRead s n c va 1 with
    | .ok s v _ _ => match engBytes s n c (va + 1) k with
      | .ok s w _ _ => .ok s (v + 256 * w) 0 0
      | r => r
    | r => r

/-- A read of 8 aligned bytes is one access, of others one for each byte. -/
def engRead8 (s : State) (n : Nat) (c : Cmd) (va : Nat) : Access := if va % 8 = 0 then engRead s n c va 8 else engBytes s n c va 8

/-- Bytes written in turn from a list of addresses with their values, whole aligned words where they fit: the state reached, the
bytes left, and the fault that stopped the engine. -/
def landVa (n : Nat) (c : Cmd) : (fuel : Nat) → List (Nat × Nat) → State → State × List (Nat × Nat) × Option (Cause × Word)
  | 0, l, s => (s, l, none)
  | _ + 1, [], s => (s, [], none)
  | f + 1, p :: r, s =>
    let l := p :: r
    let word := p.1 % 8 = 0 && (l.take 8).map (·.1) = (List.range 8).map (p.1 + ·)
    let k := if word then 8 else 1
    match engWrite s n c p.1 k (leValue ((l.take k).map (fun q => BitVec.ofNat 8 q.2))) with
    | .ok t _ _ _ => landVa n c f (l.drop k) t
    | .trap x v => (s, l, some (x, v))
    | .wait t => (t, l, none)
    | .remote t _ _ => (t, l, none)

/-- The place of a virtual byte that a command writes. -/
def placeVa (s : State) (n : Nat) (c : Cmd) (va : Nat) : Option Nat :=
  match translate s (cmdCore s n c) c.user .store va with
  | .ok _ pa _ => some (canonPa s pa)
  | .trap _ _ => none

/-! ## Own-window ranges (R219) -/

/-- The parts of a virtual range that lie in the core's own scratchpad window, page by page. -/
def ownRanges (s : State) (n : Nat) (user : Bool) (lo len : Nat) : List (Nat × Nat) :=
  if len = 0 then []
  else
    let first := lo / 65536
    (List.range ((lo + len - 1) / 65536 + 1 - first)).filterMap (fun i =>
      let a := max lo ((first + i) * 65536)
      let b := min (lo + len) ((first + i + 1) * 65536)
      match translate s n user .load a with
      | .ok s pa _ => (match placeOf s pa with
        | .window w off => if w = n ∧ off < 0x200000 then some (off, off + (b - a)) else none
        | _ => none)
      | .trap _ _ => none)

/-- A virtual range of a command's destination that lies in this device's memory and scratchpads. -/
def plainRange (s : State) (n : Nat) (c : Cmd) (lo len : Nat) : Bool :=
  (List.range ((lo + len - 1) / 65536 + 1 - lo / 65536)).all (fun i =>
    match translate s (cmdCore s n c) c.user .store (max lo ((lo / 65536 + i) * 65536)) with
    | .ok s pa _ => (match placeOf s pa with
      | .home _ | .pool _ => true
      | .window _ off => decide (off < 0x200000)
      | _ => false)
    | .trap _ _ => false)

/-! ## Copy commands (R229) -/

def copyRows (b : BitVec 512) : Nat := wideGet b 32 32
def copyLen (b : BitVec 512) : Nat := wideGet b 192 32
def copySrc (b : BitVec 512) (k : Nat) : Nat := modPow ((wideGet b 64 64 : Int) + k * toSigned 64 (wideGet b 256 64)) 64
def copyDst (b : BitVec 512) (k : Nat) : Nat := modPow ((wideGet b 128 64 : Int) + k * toSigned 64 (wideGet b 320 64)) 64

/-- A reserved field or value, or a barrier address that is not aligned. -/
def copyBad (b : BitVec 512) : Bool :=
  let op := wideGet b 0 8
  (op ≠ 1 && op ≠ 2) || wideGet b 16 16 ≠ 0 || (if op = 1 then copyRows b ≠ 1 else copyRows b = 0) || wideGet b 224 32 ≠ 0
    || wideGet b 448 64 ≠ 0 || (b.getLsbD 15 && wideGet b 384 64 % 32 ≠ 0)

/-- First byte and length of the bounding range of a side's rows. -/
def copyBound (row : Nat → Nat) (rows len : Nat) : Nat × Nat :=
  let a := row 0
  let z := row (rows - 1)
  if len = 0 ∨ rows = 0 then (0, 0) else (min a z, max a z + len - min a z)

/-- Source and destination share a byte. -/
def copyMeets (b : BitVec 512) : Bool :=
  let len := copyLen b
  (List.range (copyRows b)).any (fun i => (List.range (copyRows b)).any (fun j =>
    decide (copySrc b i < copyDst b j + len) && decide (copyDst b j < copySrc b i + len)))

/-- The units of a row from a position on: aligned words of the destination where they fit, else bytes. -/
def rowUnits : (fuel dst pos left : Nat) → List (Nat × Nat)
  | 0, _, _, _ => []
  | f + 1, dst, pos, left =>
    if left = 0 then []
    else
      let k := if dst % 8 = 0 ∧ 8 ≤ left then 8 else 1
      (pos, k) :: rowUnits f (dst + k) (pos + k) (left - k)

/-- The units of a copy: position among its bytes, and length. -/
def copyUnits (b : BitVec 512) : List (Nat × Nat) :=
  let len := copyLen b
  (List.range (copyRows b)).flatMap (fun i => rowUnits len (copyDst b i) (i * len) len)

def copyVa (row : Nat → Nat) (b : BitVec 512) (pos : Nat) : Nat := (row (pos / copyLen b) + pos % copyLen b) % 2 ^ 64

/-- A unit read. -/
def copyRead (s : State) (n : Nat) (c : Cmd) (b : BitVec 512) (u : Nat × Nat) : Access :=
  let src := copyVa (copySrc b) b u.1
  if u.2 = 8 then engRead8 s n c src else engRead s n c src 1

/-- A unit written; free bytes where source and destination overlap (R7). -/
def copyPut (s : State) (n : Nat) (c : Cmd) (b : BitVec 512) (u : Nat × Nat) (v : Nat) : Access :=
  let dst := copyVa (copyDst b) b u.1
  engWrite s.ticked n c dst u.2 (if copyMeets b then Config.freeBits s.tick dst (8 * u.2) % 2 ^ (8 * u.2) else v)

/-- Lines that units left to write lie in. -/
def unitLines (s : State) (n : Nat) (c : Cmd) (b : BitVec 512) (us : List (Nat × Nat)) : List Nat :=
  us.flatMap (fun u => rangeLines s n c (copyVa (copyDst b) b u.1) u.2)

/-- A unit that has been read, as the plan holds it: the value above the length. -/
def readUnit (x : Nat × Nat) : Nat × Nat := (x.1, x.2 % 16)

/-- The units not yet read and those read; the engine owns a line no more once it has finished with it (R266). -/
def setCopy (s : State) (n : Nat) (c : Cmd) (b : BitVec 512) (unread found : List (Nat × Nat)) : State :=
  modCmd s n c.seq (fun d => { d with
    plans := (d.plans.set 0 unread).set 1 found
    own := if d.own = [] then [] else d.own.filter (unitLines s n c b (unread ++ found.map readUnit)).contains })

/-- Units that have been read are written one after the other; whether all of them were. -/
def copyFound (n : Nat) (c : Cmd) (b : BitVec 512) (unread : List (Nat × Nat)) : List (Nat × Nat) → State → State × Bool
  | [], s => (s, true)
  | x :: r, s => match copyPut s n c b (readUnit x) (x.2 / 16) with
    | .ok t _ _ _ => copyFound n c b unread r (setCopy t n c b unread r)
    | .trap x v => (faultCmd s n c x v, false)
    | .wait t => (t, false)
    | .remote t _ _ => (t, false)

/-- Units copied one after the other; whether all of them were. -/
def copyRest (n : Nat) (c : Cmd) (b : BitVec 512) : List (Nat × Nat) → State → State × Bool
  | [], s => (s, true)
  | u :: r, s => match copyRead s n c b u with
    | .ok s v _ _ => (match copyPut s n c b u v with
      | .ok t _ _ _ => copyRest n c b r (setCopy t n c b r [])
      | .trap x v => (faultCmd s n c x v, false)
      | .wait t => (t, false)
      | .remote t _ _ => (t, false))
    | .trap x v => (faultCmd s n c x v, false)
    | .wait t => (t, false)
    | .remote t _ _ => (t, false)

/-- The eight bytes of a unit whose destination is a scratchpad: they land one by one (R260, R271). -/
def spreadUnit (x : Nat × Nat) : List (Nat × Nat) := (List.range 8).map (fun j => (x.1 + j, bitsAt (x.2 / 16) (8 * j) 8 * 16 + 1))

/-- A unit of those left is read, or one of those read is written, in any order (R229). -/
def copySome (s : State) (n : Nat) (c : Cmd) (b : BitVec 512) (u : Nat) : State :=
  let unread := pendingOf c 0
  let found := pendingOf c 1
  if u % 2 = 1 then
    match unread[u / 2 % unread.length]? with
    | none => s
    | some x => match copyRead s n c b x with
      | .ok t v _ _ => setCopy t n c b (unread.erase x) (found ++ [(x.1, 16 * v + x.2)])
      | .trap x v => faultCmd s n c x v
      | .wait t => t
      | .remote t _ _ => t
  else
    match found[u / 2 % found.length]? with
    | none => s
    | some x =>
      let spad := match placeVa s n c (copyVa (copyDst b) b x.1) with
        | some pa => (match placeOf s pa with | .window _ off => decide (off < 0x200000) | _ => false)
        | none => false
      let l := if spad && x.2 % 16 = 8 then spreadUnit x else [x]
      match l[u / 2 / found.length % l.length]? with
      | none => s
      | some y => match copyPut s n c b (readUnit y) (y.2 / 16) with
        | .ok t _ _ _ => setCopy t n c b unread (found.erase x ++ l.erase y)
        | .trap x v => faultCmd s n c x v
        | .wait t => t
        | .remote t _ _ => t

def startCmd (s : State) (n : Nat) (c : Cmd) : State :=
  modCmd s n c.seq (fun c => { c with started := true, startAt := (s.core n).cycle })

/-- A command starts as the owner of the lines that it writes, or waits while another command owns one (R266). -/
def startOwning (s : State) (n : Nat) (c : Cmd) (lines : List Nat) : State :=
  if lines.any (othersOwn s n c) then s
  else modCmd (startCmd (takeLines s lines) n c) n c.seq (fun c => { c with own := lines })

def copyLines (s : State) (n : Nat) (c : Cmd) (b : BitVec 512) : List Nat :=
  (List.range (copyRows b)).flatMap (fun i => rangeLines s n c (copyDst b i) (copyLen b))

def copyStart (s : State) (n : Nat) (c : Cmd) : State :=
  match c.op with
  | .copy b =>
    if copyBad b then faultCmd s n c .illegal 0
    else startOwning (if (planAt c 0).isSome then s else setPlan s n c 0 (copyUnits b)) n c (copyLines s n c b)
  | _ => s

def copyComplete (s : State) (n : Nat) (c : Cmd) : State :=
  match c.op with
  | .copy b =>
    let unread := pendingOf c 0
    let (t, all) := copyFound n c b unread (pendingOf c 1) s
    if all then
      let (t, all) := copyRest n c b unread t
      if all then countArrival t n c false (fun s => endCmd s n c) else t
    else t
  | _ => s

/-! ## Host commands (R234, R325) -/

def hostBad (b : BitVec 512) : Bool :=
  wideGet b 0 8 ≠ 1 || wideGet b 8 24 ≠ 0 || decide (4096 ≤ wideGet b 32 32) || wideGet b 480 32 ≠ 0

/-- The RECORD reply. -/
def recordReply (s : State) (b : BitVec 512) : BitVec 512 :=
  BitVec.ofNat 512 (8 + wideGet b 448 32 * 2 ^ 32 + wideGet b 64 64 * 2 ^ 64 + wideGet b 128 32 * 2 ^ 128 + wideGet b 160 96 * 2 ^ 160
    + wideGet b 256 192 * 2 ^ 256 + s.time.toNat * 2 ^ 448)

/-- No earlier host command of the core to the same queue is left. -/
def hostFirst (s : State) (n : Nat) (c : Cmd) (b : BitVec 512) : Bool :=
  (earlier s n c).all (fun d => match d.op with | .host x => wideGet x 32 32 ≠ wideGet b 32 32 | _ => true)

def hostSend (s : State) (n : Nat) (c : Cmd) : State :=
  match c.op with
  | .host b =>
    let q := wideGet b 32 32
    if hostBad b then faultCmd s n c .illegal 0
    else if queueCtx s q ≠ c.ctx ∨ (s.hostQueue q).state = .closed then faultCmd s n c .protect 0
    else if hostFirst s n c b then endCmd (sendReply s q (recordReply s b)) n c
    else s
  | _ => s

/-! ## Transforms (R235 to R237) -/

def xfSrc (l : BitVec 512) : Nat := wideGet l 0 64
def xfDst (l : BitVec 512) : Nat := wideGet l 64 64
def xfAux (l : BitVec 512) : Nat := wideGet l 128 64
def xfSfmt (l : BitVec 512) : Nat := wideGet l 192 64
def xfDfmt (l : BitVec 512) : Nat := wideGet l 256 64
def xfRows (l : BitVec 512) : Nat := wideGet l 320 32
def xfCols (l : BitVec 512) : Nat := wideGet l 352 32
def xfSpitch (l : BitVec 512) : Nat := wideGet l 384 32
def xfDpitch (l : BitVec 512) : Nat := wideGet l 416 32
def xfNidx (l : BitVec 512) : Nat := wideGet l 448 32

/-- A format value without its ROWLEN. -/
def noRow (v : Nat) : Nat := setBits v 32 16 0

/-- A record that breaks R86 or the table of R236; one with exactly one of SFMT and DFMT raw counts as broken (log entry 78). -/
def xfBad (op : Nat) (l : BitVec 512) : Bool :=
  let sf := noRow (xfSfmt l)
  let df := noRow (xfDfmt l)
  let code := bitsAt sf 0 4
  !fmtGood false sf || !fmtGood false df || ((code = 0) != (bitsAt df 0 4 = 0)) || xfCols l % 16 ≠ 0 || xfSpitch l % 16 ≠ 0
    || xfDpitch l % 16 ≠ 0 || wideGet l 480 32 ≠ 0
    || (op = 1 && (decide (code < 1) || decide (7 < code) || df ≠ setBits sf 20 1 (1 - bitsAt sf 20 1)))
    || (op = 3 && bitsAt df 18 2 ≠ 0) || (op ≠ 2 && op ≠ 4 && xfAux l ≠ 0) || (op ≠ 4 && xfNidx l ≠ 0)

/-- A matrix in memory: base, rows, elements per row, pitch, format. -/
structure Mat where
  base  : Nat
  rows  : Nat
  cols  : Nat
  pitch : Nat
  fmt   : Fmt
  deriving DecidableEq, Repr

/-- Number of scale bytes (R237). -/
def Mat.scales (m : Mat) : Nat :=
  if m.fmt.scale then (if m.fmt.orient = 0 then (m.rows * m.cols + 15) / 16 else (m.rows + 15) / 16 * m.cols) else 0

/-- Bytes from the first row to the last scale byte. -/
def Mat.span (m : Mat) : Nat := if m.rows = 0 then 0 else (m.rows - 1) * m.pitch + (m.cols * m.fmt.w + 7) / 8
def Mat.extent (m : Mat) : Nat := if m.fmt.scale then m.rows * m.pitch + m.scales else m.span

def xfSource (l : BitVec 512) : Mat := ⟨xfSrc l, xfRows l, xfCols l, xfSpitch l, fmtOf (xfSfmt l)⟩

/-- Destinations of a transform (R236). -/
def xfDests (op : Nat) (l : BitVec 512) : List Mat :=
  let df := fmtOf (xfDfmt l)
  match op with
  | 0 | 1 => [⟨xfDst l, xfCols l, xfRows l, xfDpitch l, df⟩]
  | 2 => [⟨xfDst l, xfRows l, xfCols l, xfDpitch l, { df with orient := 0 }⟩, ⟨xfAux l, xfRows l, xfCols l, xfDpitch l, { df with orient := 1 }⟩]
  | 3 => [⟨xfDst l, xfRows l, xfCols l, xfDpitch l, df⟩]
  | _ => [⟨xfDst l, xfNidx l, xfCols l, xfDpitch l, df⟩]

def Mat.scaleAt (m : Mat) (i : Nat) : Nat := m.base + m.rows * m.pitch + blockOf m.fmt.orient m.cols i

/-- Encoding and scale byte of element (r, c). -/
def matRead (s : State) (n : Nat) (c : Cmd) (m : Mat) (r k : Nat) : Access :=
  let lo := m.fmt.w * k
  match engBytes s n c (m.base + r * m.pitch + lo / 8) ((lo % 8 + m.fmt.w + 7) / 8) with
  | .ok s v _ _ =>
    let bits := bitsAt v (lo % 8) m.fmt.w
    if m.fmt.scale then (match engRead s n c (m.scaleAt (r * m.cols + k)) 1 with
      | .ok s b _ _ => .ok s (bits + b * 2 ^ 32) 0 0
      | x => x)
    else .ok s (bits + 127 * 2 ^ 32) 0 0
  | x => x

/-- The elements of a list of places, read in order. -/
def matReads (s : State) (n : Nat) (c : Cmd) (m : Mat) : List (Nat × Nat) → Except Access (State × List Nat)
  | [] => .ok (s, [])
  | (r, k) :: rest => match matRead s n c m r k with
    | .ok s v _ _ => (match matReads s n c m rest with
      | .ok (s, vs) => .ok (s, v :: vs)
      | .error e => .error e)
    | e => .error e

/-! ### Bytes of a destination (R90, R237) -/

/-- The group of an element of a matrix: its scale block, or itself, with the elements that share a byte with it. -/
def Mat.groupOf (m : Mat) (i : Nat) : Nat :=
  if m.fmt.w % 8 = 0 then (if m.fmt.scale then blockOf m.fmt.orient m.cols i else i)
  else if m.fmt.scale && m.fmt.orient = 0 then (if m.cols % 16 = 0 then i / 16 else 0)
  else (if m.fmt.scale then i / m.cols / 16 * m.cols else i / m.cols * m.cols) + i % m.cols / 8 * 8

/-- The element whose group has the scale byte of block `j`. -/
def Mat.blockFirst (m : Mat) (j : Nat) : Nat := if m.fmt.orient = 0 then 16 * j else j / m.cols * 16 * m.cols + j % m.cols

/-- Bytes that a transform writes of its destination number `key`: elements row by row, then the scale bytes. -/
def matLay (key : Nat) (m : Mat) : List DestByte :=
  let k := key * 2 ^ 64
  let els := (List.range m.rows).flatMap (fun r => (List.range ((m.fmt.w * m.cols + 7) / 8)).map (fun b =>
    ({ addr := m.base + r * m.pitch + b, group := k + m.groupOf (r * m.cols + 8 * b / m.fmt.w),
       blocks := (byteElems m.fmt.w b).map (fun e => k + blockOf m.fmt.orient m.cols (r * m.cols + e)), scale := false } : DestByte)))
  els ++ (List.range m.scales).map (fun j =>
    { addr := m.base + m.rows * m.pitch + j, group := k + m.groupOf (m.blockFirst j), blocks := [k + j], scale := true })

/-- What a transform's access gives: the state after it, with the bytes found. -/
abbrev Found := Except Access (State × List (Nat × Nat))

/-- Encodings of a matrix, by linear index, as bytes row by row, then the scale bytes; free ones when source and destination overlap
(R7; log entry 3). Bits of a row's last byte beyond its elements keep what stands there (log entry 78). -/
def matWrite (s : State) (n : Nat) (c : Cmd) (m : Mat) (clash : Bool) (els : List (Nat × Nat)) (bytes : Table Nat) : Found :=
  let els := if clash then els.map (fun x => (x.1, Config.freeBits s.tick x.1 m.fmt.w % 2 ^ m.fmt.w)) else els
  let bytes : Table Nat := if clash then bytes.map (fun x => (x.1, Config.freeBits s.tick (2 ^ 40 + x.1) 8 % 256)) else bytes
  let rowVal (r : Nat) : Nat := els.foldl (fun a x => if x.1 / m.cols = r then a + x.2 * 2 ^ (m.fmt.w * (x.1 % m.cols)) else a) 0
  let total := m.fmt.w * m.cols
  let cells (va k v : Nat) : List (Nat × Nat) := (List.range k).map (fun j => (va + j, bitsAt v (8 * j) 8))
  let row (a : Found) (r : Nat) : Found :=
    match a with
    | .ok (s, l) =>
      let va := m.base + r * m.pitch
      let tail := total % 8
      if tail = 0 then .ok (s, l ++ cells va (total / 8) (rowVal r))
      else (match engRead s n c (va + total / 8) 1 with
        | .ok s old _ _ => .ok (s, l ++ cells va (total / 8 + 1) (rowVal r + old / 2 ^ tail * 2 ^ total))
        | x => .error x)
    | x => x
  match (List.range m.rows).foldl row (.ok (s, [])) with
  | .ok (s, l) => .ok (s, l ++ bytes.map (fun x => (m.base + m.rows * m.pitch + x.1, x.2)))
  | e => e

/-- A matrix converted into another by R91: `pick` gives each destination element's source place, none for +0; of the elements that are
not wanted none is read. -/
def matConvert (s : State) (n : Nat) (c : Cmd) (clash : Bool) (src dst : Mat) (pick : Nat → Option (Nat × Nat)) (want : Nat → Bool)
    (seed : Nat) : Found :=
  let pick (i : Nat) : Option (Nat × Nat) := if want i then pick i else none
  let is := List.range (dst.rows * dst.cols)
  match matReads s n c src (is.filterMap pick) with
  | .error e => .error e
  | .ok (s, vs) =>
    let val (v : Nat) : FVal := src.fmt.decodeScaled (bitsAt v 0 32) (v / 2 ^ 32)
    let vals := (is.foldl (fun (acc : List (Nat × Option Nat) × List Nat) i => match pick i with
      | none => (acc.1 ++ [(i, none)], acc.2)
      | some _ => (acc.1 ++ [(i, acc.2.head?)], acc.2.drop 1)) ([], vs)).1
    if dst.fmt.raw then matWrite s n c dst clash (vals.map (fun x => (x.1, match x.2 with | some v => bitsAt v 0 8 | none => 0))) []
    else
      let r := encodeAll dst.fmt dst.cols (vals.map (fun x => (x.1, match x.2 with | some v => val v | none => .fin false 0 1 0))) seed
      matWrite s n c dst clash r.1 r.2

/-- `k` stochastic steps. -/
def lfsrSteps : Nat → Nat → Nat
  | 0, x => x
  | k + 1, x => lfsrSteps k (lfsrStep x)

/-- Virtual ranges of source and destinations meet. -/
def xfMeets (op : Nat) (l : BitVec 512) : Bool :=
  let src := xfSource l
  (xfDests op l).any (fun d => overlaps src.base (src.base + src.extent) (d.base, d.base + d.extent))

/-- The bytes that a transform finds for the wanted elements, by destination and linear index. In REPACK a destination block takes the
scale byte of its last element's source block; of ROWS that is no multiple of 16 the blocks of the two layouts differ (log entry 78). -/
def xformWork (s : State) (n : Nat) (c : Cmd) (op : Nat) (l : BitVec 512) (want : Nat → Nat → Bool) : Found :=
  let clash := xfMeets op l
  let df := fmtOf (xfDfmt l)
  let rows := xfRows l
  let cols := xfCols l
  let src := xfSource l
  let flip : Mat := ⟨xfDst l, cols, rows, xfDpitch l, df⟩
  let turned (i : Nat) : Option (Nat × Nat) := some (i % rows, i / rows)
  let straight (i : Nat) : Option (Nat × Nat) := some (i / cols, i % cols)
  match op with
  | 0 => matConvert s n c clash src flip turned (want 0) c.seed.toNat
  | 1 =>
    let is := (List.range (rows * cols)).filter (want 0)
    (match matReads s n c src (is.filterMap turned) with
     | .error e => .error e
     | .ok (s, vs) =>
       let els := is.zip (vs.map (fun v => bitsAt v 0 32))
       let bytes : Table Nat := if df.scale then (is.zip vs).foldl (fun t x => Table.set t (blockOf df.orient rows x.1) (x.2 / 2 ^ 32)) [] else []
       matWrite s n c flip clash els bytes)
  | 2 =>
    (match matConvert s n c clash src ⟨xfDst l, rows, cols, xfDpitch l, { df with orient := 0 }⟩ straight (want 0) c.seed.toNat with
     | .ok (s, a) => (match matConvert s n c clash src ⟨xfAux l, rows, cols, xfDpitch l, { df with orient := 1 }⟩ straight (want 1)
         (lfsrSteps (rows * cols) c.seed.toNat) with
       | .ok (s, b) => .ok (s, a ++ b)
       | e => e)
     | e => e)
  | 3 => matConvert s n c clash src ⟨xfDst l, rows, cols, xfDpitch l, df⟩ straight (want 0) c.seed.toNat
  | _ =>
    (match engBytes s n c (xfAux l) (4 * xfNidx l) with
     | .ok s idx _ _ =>
       matConvert s n c clash src ⟨xfDst l, xfNidx l, cols, xfDpitch l, df⟩
         (fun i => let r := bitsAt idx (32 * (i / cols)) 32; if r < rows then some (r, i % cols) else none) (want 0) c.seed.toNat
     | e => .error e)

/-- All bytes that a transform writes. -/
def xfLay (op : Nat) (l : BitVec 512) : List DestByte := (xfDests op l).zipIdx.flatMap (fun x => matLay x.2 x.1)

/-- The group of an element of a transform's destination. -/
def xfGroup (op : Nat) (l : BitVec 512) (key i : Nat) : Nat :=
  match (xfDests op l)[key]? with | some m => key * 2 ^ 64 + m.groupOf i | none => 0

/-- The byte found for an address. -/
def byteFor (bs : List (Nat × Nat)) (a : Nat) : Nat := ((bs.find? (fun p => p.1 = a)).map (·.2)).getD 0

def xfLines (s : State) (n : Nat) (c : Cmd) (op : Nat) (l : BitVec 512) : List Nat :=
  ((xfDests op l).flatMap (fun d => (List.range d.rows).flatMap (fun r => rangeLines s n c (d.base + r * d.pitch) ((d.cols * d.fmt.w + 7) / 8))
    ++ rangeLines s n c (d.base + d.rows * d.pitch) d.scales)).eraseDups

/-- The start reads the layout record. -/
def xformStartCmd (s : State) (n : Nat) (c : Cmd) : State :=
  match c.op with
  | .xform op record _ => match engBytes s n c record 64 with
    | .ok s v _ _ =>
      let l := BitVec.ofNat 512 v
      startOwning (modCmd s n c.seq (fun c => { c with op := .xform op record l })) n c (if xfBad op l then [] else xfLines s n c op l)
    | .trap x v => faultCmd s n c x v
    | .wait s => s
    | .remote s _ _ => s
  | _ => s

/-- The bytes of a transform that have not landed, in the order of their addresses. -/
def xformTodo (c : Cmd) (lay : List DestByte) (bs : List (Nat × Nat)) : List (Nat × Nat) :=
  (pendingOf c 0 ++ (openBytes c 0 lay).map (fun d => (d.addr, byteFor bs d.addr))).foldl (fun t p => Table.set t p.1 p.2) []

/-- The end of a transform: what is left of its effect, then the arrival. A fault leaves the bytes already written, and the rest to be
written when the command is resumed (R349). -/
def xformEnd (s : State) (n : Nat) (c : Cmd) : State :=
  match c.op with
  | .xform op _ l =>
    if xfBad op l then countArrival s n c true (fun s => endCmd s n c)
    else
      let lay := xfLay op l
      match xformWork s n c op l (fun key i => !(decided c 0).contains (xfGroup op l key i)) with
      | .error (.trap x v) => faultCmd s n c x v
      | .error _ => s
      | .ok (t, bs) =>
        let todo := xformTodo c lay bs
        let (t, left, bad) := landVa n c (todo.length + 1) todo t
        let lines := left.flatMap (fun p => rangeLines t n c p.1 1)
        let t := modCmd t n c.seq (fun c => { c with
          groups := c.groups.set 0 (lay.map (·.group)).eraseDups, plans := c.plans.set 0 left, own := c.own.filter lines.contains })
        match bad with
        | some (x, v) => faultCmd t n c x v
        | none => if left = [] then countArrival t n c false (fun s => endCmd s n c) else t
  | _ => s

/-- A transform at work finds the values of a group, or has a unit of its destination land (R271). -/
def xformSome (s : State) (n : Nat) (c : Cmd) (u : Nat) : State :=
  match c.op with
  | .xform op _ l =>
    if xfBad op l then s
    else
      let lay := xfLay op l
      if u % 2 = 1 then
        match pickGroup c 0 (u / 2) lay with
        | none => s
        | some g => match xformWork s n c op l (fun key i => xfGroup op l key i = g) with
          | .ok (t, bs) => decideGroup t n c 0 g ((lay.filter (fun d => d.group = g)).map (fun d => (d.addr, byteFor bs d.addr)))
          | .error (.trap x v) => faultCmd s n c x v
          | .error _ => s
      else if (xfDests op l).all (fun d => plainRange s n c d.base d.extent) then
        landPart s n c 0 (u / 2) lay (placeVa s n c) []
      else s
  | _ => s

/-! ## Queues of PUSH (R183, R184, R235, R385) -/

def inQueue (q : Nat) (c : Cmd) : Bool :=
  match c.op with
  | .copy _ => q = 0
  | .coll _ => q = 1
  | .host _ => q = 2
  | .xform .. => q = 3
  | _ => false

def queuePlaces (q : Nat) : Nat := match q with | 0 => 16 | 1 => 8 | 2 => 4 | _ => 4
def queueScope (q : Nat) : Nat := match q with | 0 => 3 | 1 => 5 | _ => 7

/-- Commands accepted and not yet completed hold their queue places, a parked one too (R184, R349). -/
def queueBusy (s : State) (n q : Nat) : Nat := ((s.core n).cmds.filter (inQueue q)).length

/-- The brim die of a cluster's engines is in a warm reset beyond OFFLINE: its queues take nothing. -/
def engineDown (s : State) (n : Nat) : Bool :=
  match (s.die (2 * towerOf n)).phase with
  | .idle | .offline => false
  | _ => true

def queueFull (s : State) (n img q : Nat) : Bool :=
  decide (queuePlaces q ≤ queueBusy s n q) || (q ≠ 2 && img ≠ 0 && estateFull (s.thread img)) || ((q = 0 || q = 3) && engineDown s n)

/-- An accepted command with its ENGINE entry. -/
def acceptEngine (s : State) (c : Cmd) (object : Word) : State :=
  let img := c.img
  let seq := (s.thread img).estSeq
  let c := { c with est := if img = 0 then none else some seq }
  estateAuto (addCmd s c) img object 6

/-- A copy as accepted, with its ranges in the core's own window. -/
def copyCmd (s : State) (b : BitVec 512) : Cmd :=
  let n := s.cur.1
  let user := decide (s.cur.2 < 7)
  let side (row : Nat → Nat) := let r := copyBound row (copyRows b) (copyLen b); ownRanges s n user r.1 r.2
  let c := newCmd s (.copy b) (side (copySrc b)) (side (copyDst b)) (if b.getLsbD 14 then some (wideGet b 8 6) else none)
  { c with barrier := if b.getLsbD 15 then some (BitVec.ofNat 64 (wideGet b 384 64)) else none }

def acceptCopy (s : State) (b : BitVec 512) : State := acceptEngine s (copyCmd s b) (BitVec.ofNat 64 (wideGet b 128 64))

/-- A copy or transform with a range in the core's own window waits for a place in the scoreboard (R219). -/
def boardWaits (s : State) (c : Cmd) : Bool := (c.rd != [] || c.wr != []) && decide (32 ≤ boardCount s s.cur.1)

/-! ## The instruction XFORM -/

/-- A transform as accepted, with OBJECT: its ranges come from the record as it stands at acceptance, which must stay unchanged
(R237). -/
def xformCmd (s : State) (op record : Nat) (bar : Word) : Cmd × Word :=
  let n := s.cur.1
  let user := decide (s.cur.2 < 7)
  let c0 := newCmd s (.xform op record 0) [] [] none
  let l : BitVec 512 := match engBytes s n c0 record 64 with | .ok _ v _ _ => BitVec.ofNat 512 v | _ => 0
  let rd := ownRanges s n user (xfSrc l) (xfSource l).extent ++ ownRanges s n user record 64
    ++ (if op = 4 then ownRanges s n user (xfAux l) (4 * xfNidx l) else [])
  let wr := (xfDests op l).flatMap (fun d => ownRanges s n user d.base d.extent)
  ({ c0 with rd := rd, wr := wr, barrier := some bar }, BitVec.ofNat 64 (xfDst l))

def acceptXform (s : State) (op record : Nat) (bar : Word) : State :=
  let (c, object) := xformCmd s op record bar
  acceptEngine (stepSeed s) c object

def xformOp (d a op : Nat) (s : State) : Eff :=
  pre s [a] [d] [(d, intK), (a, intK)]
    (settle s [a] (
      let (n, k) := s.cur
      let va := (valW s a).toNat
      let bar := BitVec.ofNat 64 (wideGet s.me.ox 0 64)
      if va % 64 ≠ 0 then .trap .misalign (BitVec.ofNat 64 va)
      else if bar.toNat % 32 ≠ 0 then .trap .misalign bar
      else if walkHeld s n bar.toNat then .stall s
      else match objectPa s n k .load bar with
        | .error (c, v) => .trap c v
        | .ok (s, _) =>
          if putsHeld s n k 3 then .stall s else
          let s := release s n 3
          let img := s.me.img
          let full := queueFull s n img 3
          match putI s d 1 (if full then 1 else 0) with
          | .done _ =>
            if full then putI s d 1 1
            else if boardWaits s (xformCmd s op va bar).1 then .stall s
            else external s [16, op, va] (always (fun t => acceptXform t op va bar)) (fun t _ => putI t d 1 0)
          | e => e))

/-! ## QSTAT -/

def qstatOp (d q : Nat) (s : State) : Eff :=
  pre s [] [d] [(d, intK)]
    (let n := s.cur.1
     putI s d 1 ((queuePlaces q - queueBusy s n q) % 32 + queueBusy s n q % 32 * 32 : Nat))

/-! ## Parking (R349) -/

/-- Engine number of an inbox report. -/
def engineNo (c : CmdOp) : Nat := match c with | .copy _ => 0 | .xform .. => 1 | .coll _ => 2 | _ => 3

def engineReport (s : State) (n : Nat) (c : Cmd) (cause : Cause) (v : Word) (park : Nat) : State :=
  inboxSend s n (inboxHead 0x22 c.slot 0 c.handle.toNat) v (BitVec.ofNat 64 (cause.code + park * 2 ^ 8 + engineNo c.op * 2 ^ 12))

/-- A faulted command takes the lowest free park place and is reported; a HOST command is reported and discarded. -/
def parkCmd (s : State) (n : Nat) (c : Cmd) : State :=
  match c.faulted with
  | none => s
  | some (x, v) =>
    if c.park.isSome then s
    else match c.op with
      | .host _ => dropCmd (engineReport s n c x v 0) n c
      | _ => match (List.range 16).find? (fun p => !(parkedMask s n).testBit p) with
        | none => s
        | some p => engineReport (modCmd s n c.seq (fun c => { c with park := some p })) n c x v p

end Sys2Proof.Machine
end

