-- ==== Sys2Proof/Machine/Coll.lean ====
section
/-! DEFINITION. Machine/Coll.lean: collectives (R230 to R233, R283, R376, R377): checks, contributions, packets, chunks; and the
instructions PUSH, QSTAT and XFORM. -/

namespace Sys2Proof.Machine

/-! ## A member's view of its command -/

/-- Group size, this member's position, result elements and their first offset. -/
structure View where
  g  : Nat
  me : Nat
  m  : Nat
  r0 : Nat
  n  : Nat
  deriving DecidableEq, Repr

/-- Result range of member `k`: first offset and count (R230). -/
def resultOf (op n g k : Nat) : Nat × Nat :=
  match op with
  | 2 | 5 => (k * (n / g), n / g)
  | 3 => (0, g * n)
  | _ => (0, n)

/-- Source range of member `k` in the same offsets, empty when it contributes nothing. -/
def sourceOf (op root n k : Nat) : Nat × Nat :=
  match op with
  | 3 => (k * n, n)
  | 4 => if k = root then (0, n) else (0, 0)
  | _ => (0, n)

def collView (s : State) (ctx : BitVec 16) (b : BitVec 512) : Option View :=
  if groupCount s ctx ≤ collGroup b then none
  else
    let ms := groupMembers s ctx (collGroup b)
    match posOf s.devId ms with
    | none => none
    | some me =>
      let (r0, m) := resultOf (collOp b) (collCount b) ms.length me
      some { g := ms.length, me := me, m := m, r0 := r0, n := collCount b }

/-- Element format: FP32, BF16, NFMT, raw bytes. -/
def elemFmt (b : BitVec 512) : Fmt :=
  match collFmt b with | 0 => fmtOf 11 | 1 => fmtOf 9 | 2 => fmtOf (noRow (collNfmt b)) | _ => fmtOf 0
def elemSize (b : BitVec 512) : Nat := (elemFmt b).w / 8

/-- Elements of a chunk (R232). -/
def chunkLen (m chunks : Nat) : Nat := 16 * ((m + 16 * chunks - 1) / (16 * chunks))
def chunkRange (m chunks c : Nat) : Nat × Nat := (min m (c * chunkLen m chunks), min m ((c + 1) * chunkLen m chunks))

/-! ## Checks (R228, R230, R376, R283) -/

def inDomain (s : State) (ctx : BitVec 16) (ms : List Nat) : Bool := ms.all (fun d => (domainOf s ctx.toNat).contains d)

/-- The reduction runs in the switches (R233). -/
def useSwitch (s : State) (ctx : BitVec 16) (b : BitVec 512) : Bool :=
  b.getLsbD 56 && decide (collOp b ≤ 2) && decide (collFmt b ≤ 2) && inDomain s ctx (groupMembers s ctx (collGroup b))

def collBad (s : State) (ctx : BitVec 16) (b : BitVec 512) : Bool :=
  let op := collOp b
  let fmt := collFmt b
  let nf := collNfmt b
  op = 0 || decide (5 < op) || decide (2 < collRed b) || (decide (3 ≤ op) && collRed b ≠ 0) || decide (3 < fmt) || collChunks b = 0
    || decide (64 < collChunks b) || wideGet b 57 7 ≠ 0 || wideGet b 384 64 ≠ 0 || collBar b % 32 ≠ 0
    || (if fmt = 2 then bitsAt nf 0 4 ≠ 8 || bitsAt nf 18 2 ≠ 1 || bitsAt nf 20 1 ≠ 0 || decide (1 < bitsAt nf 21 2) || !fmtGood false nf
        else nf ≠ 0)
    || (decide (op ≤ 2) && fmt = 3) || (op = 5 && fmt ≠ 3)
    || (match collView s ctx b with
        | none => true
        | some v => (op = 2 && v.n % (16 * v.g) ≠ 0) || (op = 5 && (v.g ≠ 8 || v.n % 128 ≠ 0)) || (op = 4 && decide (v.g ≤ collRoot b))
            || (b.getLsbD 56 && inDomain s ctx (groupMembers s ctx (collGroup b)) && bitsAt (groupHdr s ctx (collGroup b)) 16 1 = 0))

/-- The bank of a destination in the scratchpad part of a per-core window: core, bank, byte offset in the bank. -/
def bankDest (s : State) (n : Nat) (c : Cmd) (b : BitVec 512) : Option (Nat × Nat × Nat) :=
  match translate s (cmdCore s n c) c.user .store (collDst b) with
  | .trap _ _ => none
  | .ok s pa _ => match placeOf s pa with
    | .window w off => if off < 0x200000 then some (w, off / 0x20000, off % 0x20000) else none
    | _ => none

/-- Members of the scale block of linear index `i`. -/
def blockMembers (f : Fmt) (i : Nat) : List Nat :=
  (List.range 16).map (fun t => if f.orient = 0 then i / 16 * 16 + t else (i / f.rowLen / 16 * 16 + t) * f.rowLen + i % f.rowLen)

/-- The format register of a destination's bank. -/
def bankWord (s : State) (d : Nat × Nat × Nat) : Word := BitVec.ofNat 64 (wideGet (s.core d.1).bfmt (64 * d.2.1) 64)

/-- The rules of a result that lands in a bank (R283). -/
def bankBad (s : State) (b : BitVec 512) (v : View) (d : Nat × Nat × Nat) : Bool :=
  let f := bankFmt (s.core d.1).bfmt d.2.1
  let q0 := d.2.2 * 8 / f.w
  let outside (a : Nat × Nat) (i : Nat) : Bool := decide (i < q0 + a.1) || decide (q0 + a.2 ≤ i)
  d.2.2 * 8 % f.w ≠ 0 || (v.m ≠ 0 && decide (f.bankLast < q0 + v.m - 1)) || ((collFmt b = 3) != f.raw)
    || (f.scale && (List.range (collChunks b)).any (fun k =>
          let a := chunkRange v.m (collChunks b) k
          (List.range (a.2 - a.1)).any (fun e => (blockMembers f (q0 + a.1 + e)).any (outside a))))

/-! ## Packets (R377) -/

/-- Elements in a payload of `len` bytes. -/
def payloadCount (b : BitVec 512) (len : Nat) : Nat :=
  if collFmt b = 2 then len / 17 * 16 + (len % 17 - 1) else len / elemSize b

def covers (b : BitVec 512) (p : Packet) (o : Nat) : Bool :=
  decide (hdrOff p ≤ o) && decide (o < hdrOff p + payloadCount b p.payload.length)

/-- Encoding and scale byte of offset `o` in a packet that covers it. -/
def packetElem (b : BitVec 512) (p : Packet) (o : Nat) : Nat × Nat :=
  let z := elemSize b
  let i := o - hdrOff p
  let k := payloadCount b p.payload.length
  (leValue ((p.payload.drop (z * i)).take z), if collFmt b = 2 then leValue ((p.payload.drop (k + i / 16)).take 1) else 127)

/-- The pieces of a member's contribution to a receiver's result: chunk, first offset, count. A piece is whole blocks of 16 of the
member's own elements that begin in one chunk, at most 32 of them (R377); the last block of a count that is no multiple of 16 is filled up
with zeros (log entry 9). -/
def piecesOf (b : BitVec 512) (n g root from_ to_ : Nat) : List (Nat × Nat × Nat) :=
  let src := sourceOf (collOp b) root n from_
  let (r0, m) := resultOf (collOp b) n g to_
  (List.range (collChunks b)).flatMap (fun c =>
    let a := chunkRange m (collChunks b) c
    let lo := max src.1 (r0 + a.1)
    let hi := min (src.1 + src.2) (r0 + a.2)
    let b0 := (lo - src.1 + 15) / 16
    let b1 := if lo < hi then (hi - src.1 + 15) / 16 else b0
    (List.range ((b1 - b0 + 31) / 32)).map (fun i => (c, src.1 + 16 * (b0 + 32 * i), 16 * min 32 (b1 - b0 - 32 * i))))

/-- The payload of a piece read from SRC: elements, then the scale bytes of FMT 2; `src` is the range that the member contributes. -/
def pieceBytes (s : State) (n : Nat) (c : Cmd) (b : BitVec 512) (src : Nat × Nat) (off count : Nat) : Access :=
  let z := elemSize b
  let i := off - src.1
  let real := min count (src.2 - i)
  match engBytes s n c (collSrc b + z * i) (z * real) with
  | .ok s v _ _ =>
    if collFmt b = 2 then
      (match engBytes s n c (collSrc b + collCount b + i / 16) ((real + 15) / 16) with
       | .ok s w _ _ => .ok s (v + w * 2 ^ (8 * count)) 0 0
       | x => x)
    else .ok s v 0 0
  | x => x

def pieceLen (b : BitVec 512) (count : Nat) : Nat := elemSize b * count + (if collFmt b = 2 then (count + 15) / 16 else 0)

/-- One piece sent to device `dev`, or kept when it is this device's own. -/
def sendPiece (s : State) (n : Nat) (c : Cmd) (b : BitVec 512) (v : View) (dev sgid : Nat) (own : Bool) (x : Nat × Nat × Nat) : Access :=
  match pieceBytes s n c b (sourceOf (collOp b) (collRoot b) v.n v.me) x.2.1 x.2.2 with
  | .ok s bits _ _ =>
    let pay := leBytes (pieceLen b x.2.2) bits
    let h := collHeader b false x.1 sgid v.me x.2.1
    if own then
      let p : Packet := { kind := 6, flags := 1, src := BitVec.ofNat 16 (logicalOf s n), dst := 0, sdev := BitVec.ofNat 16 s.devId,
                          ddev := BitVec.ofNat 9 s.devId, seq := 0, stamp := s.time.setWidth 40, coll := h, payload := pay }
      .ok (modCmd s n c.seq (fun c => { c with contrib := c.contrib ++ [p] })) 0 0 0
    else .ok (sendPacket s 6 1 (logicalOf s n) 0 dev 0 h pay) 0 0 0
  | x => x

def sendPieces (s : State) (n : Nat) (c : Cmd) (b : BitVec 512) (v : View) (dev sgid : Nat) (own : Bool) : List (Nat × Nat × Nat) → Access
  | [] => .ok s 0 0 0
  | x :: r => match sendPiece s n c b v dev sgid own x with
    | .ok s _ _ _ => sendPieces s n c b v dev sgid own r
    | e => e

/-- A switch's result packet carries the SGID of the group of entry `e`; where that is 0, it comes from no member (log entry 9). -/
def fromSwitch (s : State) (ctx : BitVec 16) (e : Nat) (p : Packet) : Bool :=
  bitsAt (groupHdr s ctx e) 16 1 = 1 && bitsAt (groupHdr s ctx e) 32 16 = hdrSgid p
    && (hdrSgid p ≠ 0 || !(groupMembers s ctx e).contains p.sdev.toNat)

/-- Members whose results this member contributes to: with a switch only the offsets of each once. -/
def switchParts (b : BitVec 512) (v : View) : List Nat := if collOp b = 2 then List.range v.g else [v.me]

/-- The contributions to the switch in the order of their sending, each with the member whose result it begins. -/
def switchPieces (b : BitVec 512) (v : View) : List (Nat × Nat × Nat × Nat) :=
  (switchParts b v).flatMap (fun k => (piecesOf b v.n v.g (collRoot b) v.me k).map (fun x => (k, x)))

/-- Contributions to the members' engines: those that `ok` takes. -/
def sendToMembers (s : State) (n : Nat) (c : Cmd) (b : BitVec 512) (v : View) (ok : Nat × Nat × Nat → Bool) : (ms : List Nat) → Nat → Access
  | [], _ => .ok s 0 0 0
  | d :: r, k =>
    match sendPieces s n c b v d 0 (k = v.me) ((piecesOf b v.n v.g (collRoot b) v.me k).filter ok) with
    | .ok s _ _ _ => sendToMembers s n c b v ok r (k + 1)
    | e => e

/-- Contributions to the switch, each offset once. -/
def sendToSwitch (s : State) (n : Nat) (c : Cmd) (b : BitVec 512) (v : View) (sgid : Nat) : Access :=
  sendPieces s n c b v s.devId sgid false ((switchPieces b v).map (·.2))

/-! ## Start and timeout -/

/-- Lines in which chunk `k` lands in memory. -/
def chunkLines (s : State) (n : Nat) (c : Cmd) (b : BitVec 512) (m k : Nat) : List Nat :=
  let a := chunkRange m (collChunks b) k
  let z := elemSize b
  if (bankDest s n c b).isSome then []
  else (rangeLines s n c (collDst b + z * a.1) (z * (a.2 - a.1))
    ++ (if collFmt b = 2 then rangeLines s n c (collDst b + m + a.1 / 16) ((a.2 - a.1 + 15) / 16) else [])).eraseDups

/-- Lines of the chunks that have not landed. -/
def collLines (s : State) (n : Nat) (c : Cmd) (b : BitVec 512) (m : Nat) (landed : BitVec 64) : List Nat :=
  ((List.range (collChunks b)).filter (fun k => !landed.getLsbD k)).flatMap (chunkLines s n c b m)

def collStart (s : State) (n : Nat) (c : Cmd) : State :=
  match c.op with
  | .coll b =>
    let dest := bankDest s n c b
    if c.sent then (match collView s c.ctx b with
      | some v => startOwning s n c (collLines s n c b v.m c.landed)
      | none => s)
    else if collBad s c.ctx b then faultCmd s n c .illegal 0
    else match collView s c.ctx b with
      | none => faultCmd s n c .illegal 0
      | some v =>
        if (match dest with | some d => bankBad s b v d | none => false) then faultCmd s n c .illegal 0
        else if (collLines s n c b v.m c.landed).any (othersOwn s n c) then s
        else
          let sw := useSwitch s c.ctx b
          let fmt := dest.map (bankWord s)
          match (if sw then sendToSwitch s n c b v (bitsAt (groupHdr s c.ctx (collGroup b)) 32 16)
                 else sendToMembers s n c b v (fun _ => true) (groupMembers s c.ctx (collGroup b)) 0) with
          | .ok t _ _ _ => modCmd (startOwning t n c (collLines s n c b v.m c.landed)) n c.seq (fun c => { c with inswitch := sw, fmtAt := fmt, sent := true })
          | .trap x w => faultCmd s n c x w
          | .wait _ => s
          | .remote _ _ _ => s
  | _ => s

/-- Numbers of the contributions, not yet gone to the members, that the switch may refuse or leave without an answer. -/
def mayFall (s : State) (c : Cmd) (b : BitVec 512) (v : View) : List Nat :=
  let l := switchPieces b v
  (List.range (c.fell.getD l.length)).filter (fun i => match l[i]? with
    | some (_, _, off, _) => !c.contrib.any (fun p => fromSwitch s c.ctx (collGroup b) p && covers b p off)
    | none => false)

/-- A switch refuses a contribution or does not answer it: that one, which the spec leaves open, and every later one go to the members
(R377; log entry 3). -/
def collTimeout (s : State) (n : Nat) (c : Cmd) : State :=
  match c.op with
  | .coll b => match collView s c.ctx b with
    | none => s
    | some v =>
      let l := switchPieces b v
      let may := mayFall s c b v
      match may[Config.freeNat s.tick % may.length]? with
      | none => s
      | some i =>
        let now := (l.take (c.fell.getD l.length)).drop i
        match sendToMembers s.ticked n c b v (fun x => now.any (fun y => y.2.2.1 = x.2.1)) (groupMembers s c.ctx (collGroup b)) 0 with
        | .ok t _ _ _ => modCmd t n c.seq (fun c => { c with inswitch := i ≠ 0, fell := some i })
        | .trap x w => faultCmd s n c x w
        | .wait _ => s
        | .remote _ _ _ => s
  | _ => s

/-! ## Packets received (R231) -/

/-- The packet does not belong to this command. -/
def packetBad (s : State) (c : Cmd) (b : BitVec 512) (p : Packet) : Bool :=
  let h := collHeader b false 0 0 0 0
  let same (lo w : Nat) : Bool := wideGet p.coll lo w = wideGet h lo w
  match collView s c.ctx b with
  | none => true
  | some v =>
    !(same 0 7) || !(same 16 6)
      || decide (hdrOff p < v.r0) || decide (v.r0 + v.m ≤ hdrOff p)
      || (!fromSwitch s c.ctx (collGroup b) p && !(groupMembers s c.ctx (collGroup b)).contains p.sdev.toNat)

/-- The abort of a command, with the report of the engine that detects it. -/
def abortCmd (s : State) (n : Nat) (c : Cmd) : State := engineReport (dropCmd (collAbort s n c) n c) n c .illegal 0 0

/-- The packet comes from entry `e`: from its switch group, or from its member at the position that the packet gives. -/
def fromEntry (s : State) (ctx : BitVec 16) (e : Nat) (p : Packet) : Bool :=
  fromSwitch s ctx e p || (groupMembers s ctx e)[hdrMember p]? == some p.sdev.toNat

/-- A packet meets a command by SEQ and group entry; one that comes from no entry of the context meets it by SEQ alone, to be
found a mismatch (R231). -/
def collTakes (s : State) (p : Packet) (c : Cmd) : Bool :=
  match c.op with
  | .coll b => decide (collSeq b % 2 ^ 32 = hdrSeq p) &&
    (fromEntry s c.ctx (collGroup b) p || !(List.range (groupCount s c.ctx)).any (fun e => fromEntry s c.ctx e p))
  | _ => false

/-- A packet meets a command. -/
def collDeliver (s : State) (n : Nat) (c : Cmd) (p : Packet) : State :=
  match c.op with
  | .coll b =>
    if hdrAbort p || packetBad s c b p then abortCmd s n c
    else modCmd s n c.seq (fun c => { c with contrib := c.contrib ++ [p] })
  | _ => s

/-- A packet for a member whose command is not yet accepted is held in the tower's buffer. -/
def collReceive (s : State) (n : Nat) (p : Packet) : State :=
  match (s.core n).cmds.find? (collTakes s p) with
  | some c => collDeliver s n c p
  | none => s.modTower (towerOf n) (fun t => { t with collBuf := t.collBuf ++ [p] })

/-! ## Chunks (R232, R233) -/

/-- The contributions of an offset in order of arrival, and whether they are a switch's one result, or none while one is missing. -/
def contribsOf (s : State) (c : Cmd) (b : BitVec 512) (v : View) (o : Nat) : Option (Bool × List (Nat × Nat)) :=
  let sw (p : Packet) : Bool := fromSwitch s c.ctx (collGroup b) p
  match c.contrib.find? (fun p => sw p && covers b p o) with
  | some p => some (true, [packetElem b p o])
  | none =>
    let ms := groupMembers s c.ctx (collGroup b)
    let need := match collOp b with
      | 3 => (ms.drop (o / v.n)).take 1
      | 4 => (ms.drop (collRoot b)).take 1
      | _ => ms
    let ps := c.contrib.filter (fun p => !sw p && covers b p o && need.contains p.sdev.toNat)
    if need.all (fun d => ps.any (fun p => p.sdev.toNat = d)) then some (false, ps.map (fun p => packetElem b p o)) else none

/-- One result element from its contributions: an exact value, or an encoding with its scale byte moved unchanged. -/
def reduceElem (b : BitVec 512) (xs : List (Nat × Nat)) : FVal :=
  let f := elemFmt b
  let vs := xs.map (fun x => f.decodeScaled x.1 x.2)
  match vs with
  | [] => .nan false
  | v :: r => match collRed b with
    | 0 => r.foldl (fun a x => rne32V (exactAdd a x)) (rne32V v)
    | 1 => r.foldl maxNaN v
    | _ => r.foldl minNaN v

/-- Scale bytes by block of elements moved with their own, free where the elements of a block bring different ones. -/
def movedScales (s : State) (b : BitVec 512) (els : List (Nat × Nat × Nat)) : Table Nat :=
  if collFmt b = 2 then els.foldl (fun t x =>
      let y := x.2.2
      if x.1 % 16 = 0 ∨ Table.get t (x.1 / 16) y = y then Table.set t (x.1 / 16) y
      else Table.set t (x.1 / 16) (Config.freeBits s.tick (x.1 / 16) 8 % 256)) []
  else []

/-- A chunk's result in the collective's format: encodings by local index and scale bytes by block; none while a
contribution is missing. A sum that a switch has formed is encoded already (R233). -/
def chunkResult (s : State) (c : Cmd) (b : BitVec 512) (v : View) (k : Nat) : Option (List (Nat × Nat) × Table Nat) :=
  let a := chunkRange v.m (collChunks b) k
  let is := (List.range (a.2 - a.1)).map (a.1 + ·)
  let xs := is.map (fun i => (i, contribsOf s c b v (v.r0 + i)))
  if xs.any (fun x => x.2.isNone) then none
  else
    let got := xs.map (fun x => (x.1, x.2.getD (false, [])))
    let moved := got.filter (fun x => decide (3 ≤ collOp b) || x.2.1)
    let els := moved.map (fun x => (x.1, x.2.2.head?.getD (0, 127)))
    match collOp b with
    | 1 | 2 =>
      let r := encodeAll (elemFmt b) 16 ((got.filter (fun x => !x.2.1)).map (fun x => (x.1, reduceElem b x.2.2))) 0
      some (r.1 ++ els.map (fun x => (x.1, x.2.1)), (movedScales s b els).foldl (fun t x => Table.set t x.1 x.2) r.2)
    | 5 => some (got.map (fun x => (x.1, x.2.2.foldl (fun t y => t ^^^ y.1) 0)), [])
    | _ => some (els.map (fun x => (x.1, x.2.1)), movedScales s b els)

/-- A result converted into a bank (R283); a format that a SETF has changed since the checks leaves it free (R7). -/
def landBank (s : State) (c : Cmd) (b : BitVec 512) (d : Nat × Nat × Nat) (first : Nat) (r : List (Nat × Nat) × Table Nat) : State :=
  let word := c.fmtAt.getD (bankWord s d)
  let f := fmtOf word.toNat
  let q0 := d.2.2 * 8 / f.w
  if word ≠ bankWord s d then freeInto s d.1 d.2.1 f (r.1.map (fun x => q0 + x.1))
  else if f.raw then putElems s d.1 d.2.1 f (r.1.map (fun x => (q0 + x.1, x.2))) []
  else
    convertInto s d.1 d.2.1 f (r.1.map (fun x => (q0 + x.1, (elemFmt b).decodeScaled x.2 (r.2.get (x.1 / 16) 127)))) (lfsrSteps first c.seed.toNat)

/-- Chunk bits set in the barrier object with release at DEVICE, once the chunk is performed, or the fault of its address. -/
def setChunks (s : State) (n : Nat) (c : Cmd) (mask : Nat) (k : State → State) : State :=
  match c.barrier with
  | none => k s
  | some va => atBarrier s n c va (fun s pa => k (chunksAt s n pa mask (some c.ctx)))

def allLanded (c : Cmd) (b : BitVec 512) : Bool := (List.range (collChunks b)).all (fun k => c.landed.getLsbD k)

/-- The final arrival once every chunk has landed. -/
def collFinish (s : State) (n seq : Nat) (b : BitVec 512) : State :=
  match (s.core n).cmds.find? (fun c => c.seq = seq) with
  | some c => if allLanded c b then countArrival s n c false (fun s => endCmd s n c) else s
  | none => s

/-- A chunk that is still to land. -/
def chunkOpen (c : Cmd) (b : BitVec 512) (k : Nat) : Bool := decide (k < collChunks b) && !c.landed.getLsbD k

/-! ### Landing in a bank (R283) -/

def destFmt (s : State) (c : Cmd) (d : Nat × Nat × Nat) : Fmt := fmtOf (c.fmtAt.getD (bankWord s d)).toNat

/-- Bytes of chunk `k` in a bank. -/
def chunkBankLay (s : State) (c : Cmd) (b : BitVec 512) (v : View) (d : Nat × Nat × Nat) (k : Nat) : List DestByte :=
  let a := chunkRange v.m (collChunks b) k
  let f := destFmt s c d
  bankLay d.1 d.2.1 f 0 ((List.range (a.2 - a.1)).map (fun e => d.2.2 * 8 / f.w + a.1 + e))

/-- The bytes found before a SETF changed the bank's format are free (R7, R283). -/
def spoilPlan (s : State) (c : Cmd) (d : Nat × Nat × Nat) (k : Nat) : Cmd :=
  if (c.fmtAt.getD (bankWord s d)) = bankWord s d then c
  else { c with plans := match planAt c k with
    | some l => c.plans.set k (l.map (fun p => (p.1, Config.freeBits s.tick p.1 8 % 256)))
    | none => c.plans }

/-- The rules of R283 fail at the first bytes that land. -/
def bankFault (s : State) (c : Cmd) (b : BitVec 512) (v : View) (d : Nat × Nat × Nat) : Bool := c.fmtAt.isNone && bankBad s b v d

/-- The format that the checks of R283 found stays that of the command. -/
def noteFmt (s : State) (n : Nat) (c : Cmd) (d : Nat × Nat × Nat) : State :=
  modCmd s n c.seq (fun x => { x with fmtAt := some (c.fmtAt.getD (bankWord s d)) })

/-- Chunk `k` whole in a bank. -/
def landBankRest (s : State) (c : Cmd) (b : BitVec 512) (v : View) (d : Nat × Nat × Nat) (k : Nat) (r : List (Nat × Nat) × Table Nat) : State :=
  landRest s (spoilPlan s c d k) k (fun s => chunkBankLay s c b v d k) (fun s => landBank s c b d (chunkRange v.m (collChunks b) k).1 r)

/-! ### Landing in memory (R230, R237) -/

/-- Bytes of chunk `k` at DST in memory. -/
def chunkMemLay (b : BitVec 512) (m k : Nat) : List DestByte :=
  let a := chunkRange m (collChunks b) k
  let z := elemSize b
  let group (i : Nat) : Nat := if collFmt b = 2 then i / 16 else i
  (List.range (a.2 - a.1)).flatMap (fun e => (List.range z).map (fun j =>
      ({ addr := collDst b + z * (a.1 + e) + j, group := group (a.1 + e), blocks := [(a.1 + e) / 16], scale := false } : DestByte)))
    ++ (if collFmt b = 2 then (List.range ((a.2 - a.1 + 15) / 16)).map (fun j =>
        { addr := collDst b + m + a.1 / 16 + j, group := a.1 / 16 + j, blocks := [a.1 / 16 + j], scale := true })
      else [])

/-- The bytes of a result in memory. -/
def chunkCells (b : BitVec 512) (m : Nat) (r : List (Nat × Nat) × Table Nat) : List (Nat × Nat) :=
  let z := elemSize b
  r.1.flatMap (fun x => (List.range z).map (fun j => (collDst b + z * x.1 + j, bitsAt x.2 (8 * j) 8)))
    ++ r.2.map (fun x => (collDst b + m + x.1, x.2))

/-- The bytes of a chunk that have not landed, in the order of their addresses. -/
def chunkTodo (c : Cmd) (k : Nat) (lay : List DestByte) (bs : List (Nat × Nat)) : List (Nat × Nat) :=
  (pendingOf c k ++ (openBytes c k lay).map (fun d => (d.addr, byteFor bs d.addr))).foldl (fun t p => Table.set t p.1 p.2) []

/-- Elements and scale bytes of chunk `k` written at DST; a fault leaves the rest to be written. -/
def landMemory (s : State) (n : Nat) (c : Cmd) (b : BitVec 512) (m k : Nat) (r : List (Nat × Nat) × Table Nat) : State × Bool :=
  let lay := chunkMemLay b m k
  let todo := chunkTodo c k lay (chunkCells b m r)
  let (t, left, bad) := landVa n c (todo.length + 1) todo s
  let t := modCmd t n c.seq (fun c => { c with groups := c.groups.set k (lay.map (·.group)).eraseDups, plans := c.plans.set k left })
  match bad with
  | some (x, w) => (faultCmd t n c x w, false)
  | none => (t, left = [])

/-! ### A chunk -/

/-- The chunk has landed: its bit is set, and the engine owns its lines no more. -/
def chunkDone (s : State) (n : Nat) (c : Cmd) (b : BitVec 512) (m k : Nat) : State :=
  let landed := c.landed ||| BitVec.ofNat 64 (2 ^ k)
  setChunks (setPlan s n c k []) n c (2 ^ k) (fun s =>
    collFinish (modCmd s n c.seq (fun c => { c with landed := landed, own := collLines s n c b m landed })) n c.seq b)

/-- Chunk `k` lands once its contributions are there: what is left of it is written, then its bit is set. -/
def landChunk (s : State) (n : Nat) (c : Cmd) (k : Nat) : State :=
  match c.op with
  | .coll b =>
    if allLanded c b then collFinish s n c.seq b
    else if !chunkOpen c b k then s
    else match collView s c.ctx b with
      | none => s
      | some v => match chunkResult s c b v k with
        | none => s
        | some r => match bankDest s n c b with
          | some d =>
            if bankFault s c b v d then faultCmd s n c .illegal 0
            else chunkDone (noteFmt (closePart (landBankRest s c b v d k r) n c k (chunkBankLay s c b v d k)) n c d) n c b v.m k
          | none =>
            let (t, done) := landMemory s n c b v.m k r
            if done then chunkDone t n c b v.m k else t
  | _ => s

/-- The values of a group of chunk `k` are found, or a unit of it lands (R271). -/
def chunkSome (s : State) (n : Nat) (c : Cmd) (k u : Nat) : State :=
  match c.op with
  | .coll b =>
    if !chunkOpen c b k then s
    else match collView s c.ctx b with
      | none => s
      | some v => match chunkResult s c b v k with
        | none => s
        | some r => match bankDest s n c b with
          | some d =>
            if bankFault s c b v d then s
            else
              let lay := chunkBankLay s c b v d k
              if u % 2 = 1 then
                match pickGroup c k (u / 2) lay with
                | some g => noteFmt (decideGroup s n c k g (groupBytes (landBank s c b d (chunkRange v.m (collChunks b) k).1 r) lay g)) n c d
                | none => s
              else landPart s n (spoilPlan s c d k) k (u / 2) lay some []
          | none =>
            let lay := chunkMemLay b v.m k
            let a := chunkRange v.m (collChunks b) k
            let near := plainRange s n c (collDst b + elemSize b * a.1) (elemSize b * (a.2 - a.1))
              && (collFmt b ≠ 2 || plainRange s n c (collDst b + v.m + a.1 / 16) ((a.2 - a.1 + 15) / 16))
            if u % 2 = 1 then
              match pickGroup c k (u / 2) lay with
              | some g => decideGroup s n c k g
                  ((lay.filter (fun d => d.group = g)).map (fun d => (d.addr, byteFor (chunkCells b v.m r) d.addr)))
              | none => s
            else if near then
              landPart s n c k (u / 2) lay (placeVa s n c) (collLines s n c b v.m (c.landed ||| BitVec.ofNat 64 (2 ^ k)))
            else s
  | _ => s

/-! ## Acceptance -/

/-- Bits of the chunks that cover no element are set at acceptance (R232). -/
def emptyChunks (s : State) (n : Nat) (c : Cmd) (b : BitVec 512) : State :=
  if collBad s c.ctx b then s
  else match collView s c.ctx b with
    | none => s
    | some v =>
      let mask := (List.range (collChunks b)).foldl (fun a k =>
        let r := chunkRange v.m (collChunks b) k
        if r.1 = r.2 then a ||| 2 ^ k else a) 0
      match cmdBarrier s n c, mask with
      | _, 0 => s
      | none, _ => s
      | some _, _ => setChunks s n c mask (fun s => modCmd s n c.seq (fun c => { c with landed := c.landed ||| BitVec.ofNat 64 mask }))

/-- A collective as accepted; packets that came before it leave the tower's buffer. -/
def acceptColl (s : State) (b : BitVec 512) : State :=
  let n := s.cur.1
  let c := { newCmd s (.coll b) [] [] none with barrier := some (BitVec.ofNat 64 (collBar b)) }
  let s := acceptEngine (stepSeed s) c (BitVec.ofNat 64 (collDst b))
  let s := emptyChunks s n c b
  let held := s.towers.flatMap (fun t => t.2.collBuf.filter (fun p => collTakes s p c))
  let s := s.mapTowers (fun t => { t with collBuf := t.collBuf.filter (fun p => !collTakes s p c) })
  held.foldl (fun s p => match (s.core n).cmds.find? (fun d => d.seq = c.seq) with
    | some d => collDeliver s n d p
    | none => s) s

def acceptHost (s : State) (b : BitVec 512) : State := addCmd s (newCmd s (.host b) [] [] none)

def acceptPush (s : State) (q : Nat) (b : BitVec 512) : State :=
  match q with | 0 => acceptCopy s b | 1 => acceptColl s b | _ => acceptHost s b

/-! ## PUSH (R183) -/

/-- A SETF that the slot issued earlier has not taken effect (R283). -/
def setfWaits (s : State) (n k : Nat) : Bool := (s.core n).cmds.any (fun c => c.slot = k && (match c.op with | .setf .. => true | _ => false))

def pushOp (d q b : Nat) (s : State) : Eff :=
  pre s [] [d] [(d, intK), (b, anyK)]
    (let (n, k) := s.cur
     match (if b = 63 then none else startsRow s n k b) with
     | none => .trap .kind (BitVec.ofNat 64 b)
     | some row =>
       if 32 < row + 4 then .trap .kind (BitVec.ofNat 64 b)
       else settle s [] (rowsReady s row 4 (
         if (q = 1 && setfWaits s n k) || putsHeld s n k (queueScope q) then .stall s
         else
           let cmd := BitVec.ofNat 512 (leValue ((rowFlits s n k row 4).flatMap (fun f => leBytes 16 f.toNat)))
           let s := release s n (queueScope q)
           let img := s.me.img
           let full := queueFull s n img q
           match putILate s d (if full then 1 else 0) with
           | .done _ =>
             if full then putILate s d 1
             else if q = 0 && boardWaits s (copyCmd s cmd) then .stall s
             else external s [17, q, cmd.toNat] (always (fun t => acceptPush t q cmd)) (fun t _ => putILate t d 0)
           | e => e)))

/-! ## The instructions -/

def execPush (sl : BitVec 2) (d : BitVec 6) (q : BitVec 6) (b : BitVec 6) (s : State) : Host.Outcome State Fault Refusal :=
  run32 (.push sl d q b) sl (pushOp d.toNat q.toNat b.toNat) s
def execQstat (sl : BitVec 2) (d : BitVec 6) (q : BitVec 6) (s : State) : Host.Outcome State Fault Refusal :=
  run32 (.qstat sl d q) sl (qstatOp d.toNat q.toNat) s
def execXform (sl : BitVec 2) (d : BitVec 6) (a : BitVec 6) (b : BitVec 6) (s : State) : Host.Outcome State Fault Refusal :=
  run32 (.xform sl d a b) sl (xformOp d.toNat a.toNat b.toNat) s

end Sys2Proof.Machine
end

