-- ==== Sys2Proof/Machine/Matrix.lean ====
section
/-! DEFINITION. Machine/Matrix.lean: the licence of a pair and the matrix array (R238 to R259): the checks at issue, and what a
matrix command does when it is performed. -/

namespace Sys2Proof.Machine

/-! ## The licence instructions (R245, R246) -/

/-- A fixed-latency result whose fit is decided before the effect. -/
def putFirst (s : State) (d : Nat) (x : Int) (effect : State → State) : Eff :=
  match putI s d 1 x with
  | .done _ => putI (effect s) d 1 x
  | e => e

/-- PROTECT on a full estate, before anything changes; the system slot has no estate. -/
def licFull (s : State) : Bool := s.me.img ≠ 0 && estateFull (s.thread s.me.img)

def licqOp (d : Nat) (s : State) : Eff :=
  pre s [] [d] [(d, intK)]
    (settle s [] (
      let (n, k) := s.cur
      let p := pairOf n
      let r := slotReq s n k
      if holdsLic s p r then putI s d 1 2
      else if licFull s then .trap .protect (BitVec.ofNat 64 p)
      else if (s.pair p).lic = .free then putFirst s d 1 (fun s => licGrant s p r)
      else putI s d 1 0))

/-- LICW: whether D takes the 1 of a grant is decided before the request is entered (R8). -/
def licwOp (d : Nat) (s : State) : Eff :=
  pre s [] [d] [(d, intK)]
    (settle s [] (
      let (n, k) := s.cur
      let p := pairOf n
      let r := slotReq s n k
      if holdsLic s p r then putILate s d (if s.me.wait = .licw then 1 else 2)
      else if waitsLic s p r then .block s .licw (BitVec.ofNat 64 p)
      else if licFull s then .trap .protect (BitVec.ofNat 64 p)
      else if (s.pair p).lic = .free then putThen s d 1 (fun s => licGrant s p r)
      else
        match putILate s d 1 with
        | .done _ =>
          let s := licEnter s p r
          .block (if r.img = 0 then s else s.modThread r.img (fun t => { t with reserved := t.reserved + 1 })) .licw (BitVec.ofNat 64 p)
        | e => e))

/-- LICR of a holder. -/
def licGiveUp (s : State) (p : Nat) (r : LicReq) : State := licRelease (licDrop s r.img) p none

/-- LICR of a waiter: its request and its reservation go, and OWED clears. -/
def licForget (s : State) (p : Nat) (r : LicReq) : State :=
  let s := clearWaits (licWithdrawReq s p r) r.img
  let s := s.modSlot r.core r.slot (fun x => { x with licst := setFld x.licst 2 1 0 })
  if r.img = 0 then s else s.modThread r.img (fun t => { t with reserved := t.reserved - 1 })

def licrOp (d : Nat) (s : State) : Eff :=
  pre s [] [d] [(d, intK)]
    (settle s [] (
      let (n, k) := s.cur
      let p := pairOf n
      let r := slotReq s n k
      if holdsLic s p r then putFirst s d 0 (fun s => licGiveUp s p r)
      else if waitsLic s p r then putFirst s d 1 (fun s => licForget s p r)
      else putI s d 1 2))

def licsOp (d : Nat) (s : State) : Eff := pre s [] [d] [(d, intK)] (putI s d 1 (licstOf s s.cur.1 s.cur.2 : Nat))

/-! ## Operand descriptors (R239, R240) -/

def opSelf (v : Nat) : Bool := bitsAt v 3 1 = 1
def opBank (v : Nat) : Nat := bitsAt v 4 4
def opIndex (v : Nat) : Nat := bitsAt v 8 20
def opMajor (v : Nat) : Bool := bitsAt v 28 1 = 1
def opMcast (v : Nat) : Nat := bitsAt v 29 8

/-- The core whose scratchpad holds the operand. -/
def opCore (n v : Nat) : Nat := if opSelf v then n else 8 * clusterOf n + bitsAt v 0 3

/-- The format of an operand's bank at issue. -/
def opFmt (s : State) (n v : Nat) : Fmt :=
  let m := opCore n v
  bankFmt (if m = n then (s.core n).bfmtNext else (s.core m).bfmt) (opBank v)

/-- Linear index of element `k` of line `r`: a row of A or a column of B. -/
def opAt (v l r k : Nat) : Nat := opIndex v + (if opMajor v then k * l + r else r * l + k)

/-- A descriptor that PROTECT refuses. -/
def opBad (s : State) (n v kk : Nat) : Bool :=
  let m := opCore n v
  let f := opFmt s n v
  let l := f.rowLen
  let x := opIndex v
  bitsAt v 37 27 ≠ 0 || f.code = 0 || decide (12 < f.code) || (opMajor v && decide (f.w < 8))
    || decide (f.bankLast < opAt v l 63 (kk - 1))
    || (if opMajor v then decide (l < x % l + 64) else decide (l < x % l + kk))
    || (m ≠ n && ((s.core m).offline || partOf s m ≠ partOf s n))
    || (f.scale && (f.orient ≠ (bit (opMajor v)) || (if opMajor v then x / l % 16 ≠ 0 else x % l % 16 ≠ 0)))

/-- Ranges of an operand in the issuing core's own scratchpad. -/
def opRange (s : State) (n v kk : Nat) : List (Nat × Nat) :=
  if opCore n v ≠ n then []
  else
    let f := opFmt s n v
    let (d0, d1) := if opMajor v then (64, kk) else (kk, 64)
    tensorRange f { index := opIndex v, bank := opBank v, dims := [d0, d1, 1, 1], strides := [1, f.rowLen, 0, 0], bcast := false }

/-! ## The control word (R241) -/

def cwTile (w : Word) : Nat := fld w 0 2
def cwTag (w : Word) : Option Nat := if fld w 18 1 = 1 then some (fld w 12 6) else none
def cwSeq (w : Word) : BitVec 16 := BitVec.ofNat 16 (fld w 32 16)
def cwBar (w : Word) : Bool := w.getLsbD 19
def cwBad (w : Word) : Bool := fld w 3 1 ≠ 0 || fld w 20 12 ≠ 0 || fld w 48 16 ≠ 0

/-- Acceptance into the matrix queue, or the stall on a full queue or scoreboard (R219, R242). -/
def acceptMatrix (s : State) (c : Cmd) (after : State → State) : Eff :=
  let n := s.cur.1
  if 8 ≤ matrixCount s n ∨ ((c.rd ≠ [] ∨ c.wr ≠ []) ∧ 32 ≤ boardCount s n) then .stall s
  else .done (after (addCmd s c))

/-- SEQ that the next MWAIT of the slot returns (R257). -/
def noteSeq (w : Word) (s : State) : State := s.modMe (fun x => { x with matSeq := cwSeq w })

/-! ## MMA and MMAD (R249) -/

def mmaOp (minus : Bool) (d a b : Nat) (s : State) : Eff :=
  pre s [d, a, b] [] [(d, intK), (a, intK), (b, intK)]
    (settle s [d, a, b] (
      let (n, k) := s.cur
      let p := pairOf n
      let cw := valW s d
      let da := (valW s a).toNat
      let db := (valW s b).toNat
      let kk := 16 * (fld cw 4 8 + 1)
      if cwBad cw || cwBar cw then .trapWord .illegal
      else if !holdsLic s p (slotReq s n k) then
        (if fld s.me.licst 2 1 = 1 then .block s .licw (BitVec.ofNat 64 p) else .trapWord .licence)
      else if opBad s n da kk then .trap .protect (valW s a)
      else if opBad s n db kk then .trap .protect (valW s b)
      else if chunkHeld s then .stall s
      else match chunkWait s with
        | .error (c, v) => .trap c v
        | .ok (s, ch) =>
          let c := newCmd s (.mma minus (cwTile cw) (fld cw 2 1 = 1) (fld cw 4 8) (valW s a) (valW s b))
            (opRange s n da kk ++ opRange s n db kk) [] (cwTag cw)
          acceptMatrix s { c with chunk := ch } (fun s =>
            noteSeq cw (s.modPair p (fun x => { x with termN := x.termN + 1 })))))

/-! ## TOPK, ACLR, DRN and DRN2 (R250 to R253) -/

/-- Sizes of a destination record of a tile. -/
def dimsAre (h : Shape) (d0 d1 : Nat) : Bool := h.dims = [d0, d1, 1, 1]

def topkOp (d a b : Nat) (s : State) : Eff :=
  pre s [d, a, b] [] [(d, intK), (a, intK), (b, intK)]
    (settle s [d, a, b] (
      let n := s.cur.1
      let cw := valW s d
      let x := (valW s a).toNat
      let y := (valW s b).toNat
      let k := fld cw 4 4 + 1
      if cwBad cw || cwBar cw || fld cw 2 1 ≠ 0 || fld cw 8 4 ≠ 0 then .trapWord .illegal
      else recordsOk s [x, y] (
        let xr := readShape s n x
        let yr := readShape s n y
        let xf := fmtNext s xr.1
        let yf := fmtNext s yr.1
        if xf.code ≠ 12 ∨ destBad xf xr ∨ !dimsAre xr.1 k 64 then .trap .protect (BitVec.ofNat 64 x)
        else if yf.code ≠ 11 ∨ destBad yf yr ∨ !dimsAre yr.1 k 64 then .trap .protect (BitVec.ofNat 64 y)
        else acceptMatrix s (newCmd s (.topk (cwTile cw) k xr.1 yr.1) [recRange x 32, recRange y 32] (tensorRange xf xr.1 ++ tensorRange yf yr.1)
          (cwTag cw)) (noteSeq cw))))

def aclrOp (mask : BitVec 4) (s : State) : Eff := settle s [] (acceptMatrix s (newCmd s (.aclr mask) [] [] none) id)

/-- The per-core window address of the byte that holds the first bit of a tensor's first element. -/
def firstByte (n : Nat) (f : Fmt) (h : Shape) : Word := BitVec.ofNat 64 (bankAddr n h.bank + f.w * h.index / 8)

/-- A drain as accepted: SEED advances, and with a barrier object an ENGINE entry is entered. -/
def acceptDrain (s : State) (c : Cmd) (object : Word) (cw : Word) : Eff :=
  let n := s.cur.1
  if 8 ≤ matrixCount s n ∨ 32 ≤ boardCount s n then .stall s
  else if c.barPa.isNone then .done (noteSeq cw (stepSeed (addCmd s c)))
  else
    let c := { c with est := if c.img = 0 then none else some (s.thread c.img).estSeq }
    .done (noteSeq cw (stepSeed (estateAuto (addCmd s c) c.img object 6)))

/-- DRN and DRN2: SEQ of the control word is taken as of every matrix command, so one that is not zero is accepted (log entry 78). -/
def drainOp (two : Bool) (d a b : Nat) (s : State) : Eff :=
  let bar := intK (info s d) && cwBar (valW s d)
  let reads := if bar then [d, a, b] else [d, a]
  pre s reads [] ([(d, intK), (a, intK)] ++ (if bar || b ≠ 0 then [(b, intK)] else []))
    (settle s reads (
      let (n, k) := s.cur
      let cw := valW s d
      let bar := cwBar cw
      let x := fld (valW s a) 0 32
      let y := fld (valW s a) 32 32
      let offs := if two then [x, y] else [x]
      let bva := valW s b
      if cwBad cw || fld cw 2 1 ≠ 0 || fld cw 4 8 ≠ 0 || (!bar && b ≠ 0) then .trapWord .illegal
      else match offs.find? (fun o => o % 32 ≠ 0) with
        | some o => .trap .misalign (BitVec.ofNat 64 o)
        | none =>
          if bar && bva.toNat % 32 ≠ 0 then .trap .misalign bva
          else recordsOk s offs (
            let fmt (o : Nat) := fmtNext s (readShape s n o).1
            let bad (p : Nat × Nat) : Bool :=
              let r := readShape s n p.1
              destBad (fmt p.1) r || (fmt p.1).raw || !dimsAre r.1 64 64 || (two && (fmt p.1).orient ≠ p.2)
            let shapes := offs.map (fun o => (readShape s n o).1)
            let first := shapes.headD (readShape s n x).1
            let object := firstByte n (fmt x) first
            match (offs.zip [0, 1]).find? bad with
            | some p => .trap .protect (BitVec.ofNat 64 p.1)
            | none =>
              let c := newCmd s (.drain (cwTile cw) shapes) (offs.map (fun o => recRange o 32)) (shapes.flatMap (fun h => tensorRange (fmtNext s h) h))
                (cwTag cw)
              if bar then
                (if licFull s then .trap .protect object
                 else if walkHeld s n bva.toNat then .stall s
                 else match objectPa s n k .store bva with
                   | .error (c, v) => .trap c v
                   | .ok (s, pa) => acceptDrain s { c with barrier := some bva, barPa := some pa } object cw)
              else acceptDrain s c object cw)))

/-! ## ASAVE and ARST (R254) -/

/-- Tiles of a mask. -/
def tilesOf (mask : Nat) : List Nat := (List.range 4).filter (fun t => mask.testBit t)

/-- The 4 KiB pieces of the tiles in a mask, translated one by one; a piece of another tile has address 0. -/
def pieces (s : State) (n : Nat) (user save : Bool) (base mask : Nat) : (count i : Nat) → Except (Cause × Word) (State × List Nat)
  | 0, _ => .ok (s, [])
  | c + 1, i =>
    if mask.testBit (i / 4) then
      match translate s n user (if save then .store else .load) (base + 0x1000 * i) with
      | .trap x v => .error (x, v)
      | .ok s pa _ => match placeBad s n user (BitVec.ofNat 64 (base + 0x1000 * i)) pa 0x1000 with
        | some e => .error e
        | none => match pieces s n user save base mask c (i + 1) with
          | .ok (s, l) => .ok (s, pa :: l)
          | e => e
    else match pieces s n user save base mask c (i + 1) with
      | .ok (s, l) => .ok (s, 0 :: l)
      | e => e

/-- ASAVE and ARST: other bits of B than MASK, TAG and TAGEN trap ILLEGAL when they are not zero (log entry 78). -/
def saveOp (save : Bool) (d a b : Nat) (s : State) : Eff :=
  let (n, k) := s.cur
  let reads := if d = 7 then [a, b] else [b]
  pre s reads [] (if d = 7 then [(a, intK), (b, intK)] else [(b, intK)])
    (settle s reads (
      let w := valW s b
      let mask := fld w 0 4
      let tag := if fld w 10 1 = 1 then some (fld w 4 6) else none
      let op (ps : List Nat) : CmdOp := if save then .asave (BitVec.ofNat 4 mask) ps else .arst (BitVec.ofNat 4 mask) ps
      if d ≠ 7 ∧ k ≠ 7 then .trapWord .priv
      else if fld w 11 53 ≠ 0 ∨ (d ≠ 7 ∧ holdsThread s n d = false) then .trapWord .illegal
      else if d = 7 then
        let va := (valW s a).toNat
        if va % 4096 ≠ 0 then .trap .misalign (valW s a)
        else if (List.range 16).any (fun i => mask.testBit (i / 4) && walkHeld s n (va + 0x1000 * i)) then .stall s
        else match pieces s n (decide (k < 7)) save va mask 16 0 with
          | .error (c, v) => .trap c v
          | .ok (s, ps) => acceptMatrix s (newCmd s (op ps) [] [] tag) id
      else
        let base := (physRead s ((s.slot n d).img + 0x18) 8).1
        let mark (x : Slot) : Slot :=
          { x with licst := setFld x.licst 4 4 (if save then fld x.licst 4 4 ||| mask else fld x.licst 4 4 &&& (15 ^^^ mask)) }
        acceptMatrix s (newCmd s (op (tilePages base)) [] [] tag) (fun s => s.modSlot n d mark)))

/-! ## PPT and MWAIT (R255, R257) -/

/-- Matrix commands of a slot are in the queue. Those of a former thread that wait for its own licence cannot complete before
that thread resumes, and are left out (R248, R255; log entry 75). -/
def matrixBusy (s : State) (n k : Nat) : Bool :=
  (s.core n).cmds.any (fun c => isMatrix c.op && c.slot = k && (c.img = (s.slot n k).img || !c.waits))

def pptOp (mask : BitVec 4) (s : State) : Eff :=
  let (n, k) := s.cur
  let asked := s.me.preTimer || s.me.preTerm
  if asked && holdsLic s (pairOf n) (slotReq s n k) then
    settle s [] (
      if matrixBusy s n k then .stall (s.modMe (fun x => { x with pptWait := true }))
      else .trapIn (s.modMe (fun x => { x with preTimer := false, preTerm := false, pptWait := false })) .preempt (BitVec.ofNat 64 mask.toNat))
  else .done s

def mwaitOp (d tag : Nat) (s : State) : Eff :=
  pre s [] [d] [(d, intK)]
    (settle s [] (
      if 8 ≤ matrixCount s s.cur.1 then .stall s
      else putFirst s d (s.me.matSeq.toNat : Nat) (fun s => addCmd s (newCmd s .marker [] [] (some tag)))))

/-! ## The accumulator tiles (R244) -/

def tileBits (s : State) (n t : Nat) : Nat := wideGet (s.core n).tiles (131072 * t) 131072
def tileBad (s : State) (n t : Nat) : Nat := wideGet (s.core n).tilePoison (4096 * t) 4096

/-- Element `e` of a tile as a matrix command reads it: poison gives the canonical NaN (R370). -/
def tileElem (bits bad e : Nat) : Nat := if bad.testBit e then 0x7FC00000 else bitsAt bits (32 * e) 32

/-- The record of a poisoned element that a command reads; the spec gives its KIND no code (log entry 3). -/
def tileCheck (s : State) (n : Nat) (bad : Bool) : State :=
  if bad then machineCheck s.ticked (Config.freeNat s.tick % 256) 0 (Config.windowBase + n * Config.windowSize + 0x200000) (some (ctxOf s n)) n else s

def setTile (s : State) (n t bits bad : Nat) : State :=
  s.modCore n (fun c => { c with tiles := wideSet c.tiles (131072 * t) 131072 bits, tilePoison := wideSet c.tilePoison (4096 * t) 4096 bad })

/-- 4,096 words as the bits of a tile. -/
def wordsBits : List Nat → Nat
  | [] => 0
  | x :: r => x % 2 ^ 32 + 2 ^ 32 * wordsBits r

/-! ## Performing a command -/

/-- Format of an operand's bank at its read (R242): now, or when it was read whole. -/
def readFmt (s : State) (n : Nat) (c : Cmd) (part v : Nat) : Fmt :=
  let m := opCore n v
  match c.got.get (2 + part) [] with
  | x :: _ => fmtOf x.2
  | [] => bankFmt (if m = n then c.fmts else (s.core m).bfmt) (opBank v)

/-- An operand's element with its block scale, decoded with the bank's format at the read (R242). -/
def opValue (s : State) (n : Nat) (v : Nat) (f : Fmt) (r k : Nat) : FVal := elemValue s (opCore n v) (opBank v) f (opAt v f.rowLen r k)

/-- Operand `part` of an MMA or MMAD at work is read whole, once (R243). -/
def readOperand (s : State) (n : Nat) (c : Cmd) (part v kk : Nat) : State :=
  if (c.got.get (2 + part) []) ≠ [] then s
  else
    let m := opCore n v
    let regs := if m = n then c.fmts else (s.core m).bfmt
    let f := bankFmt regs (opBank v)
    let is := (List.range 64).flatMap (fun r => (List.range kk).map (fun k => opAt v f.rowLen r k))
    let cells := (bankLay m (opBank v) f 0 is).map (fun d => (d.addr, cellAt s d.addr))
    modCmd s n c.seq (fun c => { c with got := (c.got.set part cells).set (2 + part) [(0, wideGet regs (64 * opBank v) 64)] })

/-- One term of a block sum. -/
def mmaTerm (minus : Bool) (x y : FVal) : FVal :=
  if minus then let z := exactAdd x y.negate; exactMul z z else exactMul x y

/-- One element: the blocks of 16 added in ascending order (R95). -/
def mmaElem (minus : Bool) (start : FVal) (xs ys : List FVal) : FVal :=
  sumGroups xs.length start (List.zipWith (mmaTerm minus) xs ys)

def performMma (s : State) (n : Nat) (c : Cmd) (minus : Bool) (t : Nat) (acc : Bool) (kb : Nat) (da db : Nat) : State :=
  let kk := 16 * (kb + 1)
  let old := tileBits s n t
  let bad := tileBad s n t
  let line (part v : Nat) : Nat → List FVal :=
    let o := overlay s (c.got.get part [])
    let f := readFmt s n c part v
    fun r => (List.range kk).map (fun k => opValue o n v f r k)
  let la := line 0 da
  let lb := line 1 db
  let bits := (List.range 4096).map (fun e =>
    let start := if acc then decodeF .float32 (tileElem old bad e) else .fin false 0 1 0
    rne32 (mmaElem minus start (la (e / 64)) (lb (e % 64))))
  tileCheck (setTile s n t (wordsBits bits) 0) n (acc && bad ≠ 0)

/-- Order of TOPK: by value, every NaN above every number. -/
def topLess (a b : FVal) : Bool :=
  match a, b with
  | .nan _, _ => false
  | _, .nan _ => true
  | x, y => decide (cmpV x y < 0)

/-- The columns of a row in the order of TOPK: the least first, the lower column first among equals. -/
def topInsert (x : Nat × FVal) : List (Nat × FVal) → List (Nat × FVal)
  | [] => [x]
  | y :: r => if topLess x.2 y.2 then x :: y :: r else y :: topInsert x r

def topOrder (vs : List (Nat × FVal)) : List (Nat × FVal) := vs.foldl (fun acc x => topInsert x acc) []

def performTopk (s : State) (n : Nat) (c : Cmd) (t k : Nat) (idx val : Shape) : State :=
  let bits := tileBits s n t
  let bad := tileBad s n t
  let rows := (List.range 64).map (fun i => topOrder ((List.range 64).map (fun j => (j, decodeF .float32 (tileElem bits bad (64 * i + j))))))
  let at_ (h : Shape) (f : Nat × FVal → FVal) : List (Nat × FVal) := (List.range 64).flatMap (fun i => (List.range k).map (fun p =>
    (h.at4 p i 0 0, match (rows.getD i [])[p]? with | some x => f x | none => .fin false 0 1 0)))
  let s := convertInto s n idx.bank (bankFmt c.fmts idx.bank) (at_ idx (fun x => FVal.ofInt x.1)) c.seed.toNat
  convertInto s n val.bank (bankFmt c.fmts val.bank) (at_ val (·.2)) c.seed.toNat

/-- Values in ascending linear index. -/
def byIndex (vs : List (Nat × FVal)) : List (Nat × FVal) := vs.mergeSort (fun a b => decide (a.1 ≤ b.1))

/-- The glaze: each destination in turn with its own scales; the second goes on with the stochastic steps of a stochastic first
(R93). -/
def performDrain (s : State) (n : Nat) (c : Cmd) (t : Nat) (dsts : List Shape) : State :=
  let bits := tileBits s n t
  let bad := tileBad s n t
  let vals (h : Shape) : List (Nat × FVal) := (List.range 4096).map (fun e => (h.at4 (e % 64) (e / 64) 0 0, decodeF .float32 (tileElem bits bad e)))
  let two := decide (1 < dsts.length)
  (dsts.foldl (fun (acc : State × Nat) h =>
    let f := bankFmt c.fmts h.bank
    (convertInto acc.1 n h.bank f (if two then byIndex (vals h) else vals h) acc.2, if f.rnd = 2 then lfsrSteps 4096 acc.2 else acc.2))
    (s, c.seed.toNat)).1

/-- Address of an element of a tile in its save area. -/
def saveAt (pages : List Nat) (t e : Nat) : Nat := pages.getD (4 * t + e / 1024) 0 + 4 * (e % 1024)

/-- Tiles written to their save areas, performed with release at DEVICE; on another device as puts. -/
def performSave (s : State) (n : Nat) (c : Cmd) (mask : Nat) (pages : List Nat) : State :=
  (tilesOf mask).foldl (fun s t =>
    let bits := tileBits s n t
    let bad := tileBad s n t
    (List.range 4096).foldl (fun s e => match placeOf s (saveAt pages t e) with
      | .remote dev off => sendPut s n c.slot (some c.seq) dev off 4 (tileElem bits bad e) 0
      | _ => physWrite s (saveAt pages t e) 4 (tileElem bits bad e) 0 (some c.ctx)) s) s

/-- Tiles read from their save areas after an acquire at DEVICE; poisoned bytes poison their elements. An area on another device
gives free bits (log entry 10). -/
def performRestore (s : State) (n : Nat) (mask : Nat) (pages : List Nat) : State :=
  (tilesOf mask).foldl (fun s t =>
    let got := (List.range 4096).map (fun e => match placeOf s (saveAt pages t e) with
      | .remote _ _ => (Config.freeBits s.tick (saveAt pages t e) 32, 0)
      | _ => physRead s (saveAt pages t e) 4)
    setTile s n t (wordsBits (got.map (·.1))) ((List.range 4096).foldl (fun a e => if (got.getD e (0, 0)).2 ≠ 0 then a + 2 ^ e else a) 0))
    (acquire s n 5).ticked

/-- A drain's arrival at its barrier object, whose address was found at issue. -/
def drainArrive (s : State) (n : Nat) (c : Cmd) : State :=
  match c.barPa with
  | none => s
  | some pa => arriveAt s n pa false (some c.ctx)

/-- Tiles of a save area that commands behind the restore `c` save again. -/
def savedAgain (s : State) (n : Nat) (c : Cmd) (ps : List Nat) : Nat :=
  (s.core n).cmds.foldl (fun a d => match d.op with | .asave m qs => if qs = ps ∧ c.seq < d.seq then a ||| m.toNat else a | _ => a) 0

/-- The end of the restore of R248: SAVED clears, where the thread is or in its image, and the thread's commands may start. -/
def endRestore (s : State) (n : Nat) (c : Cmd) (ps : List Nat) : State :=
  let t := s.thread c.img
  let left (w : Word) : Word := setFld w 4 4 (fld w 4 4 &&& savedAgain s n c ps)
  let s :=
    if t.inSlot then s.modSlot t.lastCore t.lastSlot (fun x => { x with licst := left x.licst })
    else imageWrite s n (c.img + 0x2A0) 8 (left (BitVec.ofNat 64 (physRead s (c.img + 0x2A0) 8).1)).toNat
  clearWaits (endCmd s n c) c.img

/-- The records of poisoned elements of the tiles that a command reads. -/
def tileChecks (s : State) (n : Nat) (ts : List Nat) : State := ts.foldl (fun s t => tileCheck s n (tileBad s n t ≠ 0)) s

/-- The whole effect of a command that writes a scratchpad or memory. -/
def matrixWhole (s : State) (n : Nat) (c : Cmd) : Option State :=
  match c.op with
  | .topk t k idx val => some (performTopk s n c t k idx val)
  | .drain t dsts => some (performDrain s n c t dsts)
  | .asave m ps => some (performSave s n c m.toNat ps)
  | _ => none

/-- Bytes that a drain, TOPK or ASAVE writes. -/
def matrixLay (n : Nat) (c : Cmd) : List DestByte :=
  match c.op with
  | .topk _ _ idx val =>
    bankLay n idx.bank (bankFmt c.fmts idx.bank) 0 idx.indices ++ bankLay n val.bank (bankFmt c.fmts val.bank) 1 val.indices
  | .drain _ dsts => dsts.zipIdx.flatMap (fun x => bankLay n x.1.bank (bankFmt c.fmts x.1.bank) x.2 x.1.indices)
  | .asave m ps => (tilesOf m.toNat).flatMap (fun t => (List.range 16384).map (fun j =>
      { addr := saveAt ps t (j / 4) + j % 4, group := 4096 * t + j / 4, blocks := [], scale := false }))
  | _ => []

/-- A matrix command at work reads an operand, finds the values of a group of what it writes, or has a unit of it land (R243, R271). -/
def matrixSome (s : State) (n : Nat) (c : Cmd) (part u : Nat) : State :=
  match c.op with
  | .mma _ _ _ kb da db => readOperand s n c (part % 2) (if part % 2 = 0 then da.toNat else db.toNat) (16 * (kb + 1))
  | _ => match matrixWhole s n c with
    | none => s
    | some t =>
      let lay := matrixLay n c
      if (match c.op with | .asave _ ps => ps.any (isFar s) | _ => false) then s
      else if u % 2 = 1 then
        match pickGroup c 0 (u / 2) lay with
        | some g => decideGroup s n c 0 g (groupBytes t lay g)
        | none => s
      else landPart s n c 0 (u / 2) lay some []

/-- The end of a command that writes a scratchpad or memory, once its writes are performed. -/
def matrixWritten (s : State) (n : Nat) (c : Cmd) : State :=
  let t := closePart (landRest s c 0 (fun _ => matrixLay n c) (fun s => (matrixWhole s n c).getD s)) n c 0 (matrixLay n c)
  if writesOut t n c then t
  else endCmd (tileChecks (drainArrive t n c) n (opTiles c.op)) n c

/-- A matrix command performed at its completion. -/
def performMatrix (s : State) (n : Nat) (c : Cmd) : State :=
  match c.op with
  | .mma minus t acc kb da db => endCmd (performMma s n c minus t acc kb da.toNat db.toNat) n c
  | .topk .. => matrixWritten s n c
  | .aclr m => endCmd ((tilesOf m.toNat).foldl (fun s t => setTile s n t 0 0) s) n c
  | .drain .. => matrixWritten s n c
  | .asave .. => matrixWritten s n c
  | .arst m ps => endCmd (performRestore s n m.toNat ps) n c
  | .restore m ps => endRestore (performRestore s n m.toNat ps) n c ps
  | .marker => endCmd s n c
  | _ => s

/-! ## Start (R242, R243) -/

/-- The operand of a command that asks for a shared read, with the cores that may share it. -/
def sharedReads (c : Cmd) : List Word :=
  match c.op with
  | .mma _ _ _ _ da db => [da, db].filter (fun v => opMcast v.toNat ≠ 0)
  | _ => []

/-- Every named core has presented a read with an equal descriptor. -/
def allPresent (s : State) (n : Nat) (v : Word) : Bool :=
  (List.range 8).all (fun i => !(opMcast v.toNat).testBit i || 8 * clusterOf n + i = n ||
    (s.core (8 * clusterOf n + i)).cmds.any (fun d => match d.op with
      | .mma _ _ _ _ da db => (d.mcast || d.started) && (da = v || db = v)
      | _ => false))

/-- Cycles that the array takes for the K of a command: the wider operand sets the rate (R238). -/
def arrayCycles (s : State) (n : Nat) (c : Cmd) : Nat :=
  match c.op with
  | .mma _ _ _ kb da db =>
    let kk := 16 * (kb + 1)
    let w (v : Word) : Nat :=
      let m := opCore n v.toNat
      (bankFmt (if m = n then c.fmts else (s.core m).bfmt) (opBank v.toNat)).w
    let wide := max (w da) (w db)
    if wide ≤ 4 then kk / 2 else if wide ≤ 8 then kk else if wide ≤ 16 then 2 * kk else 16 * kk
  | _ => 0

def isMma (c : CmdOp) : Bool := match c with | .mma .. => true | _ => false

/-- The array takes a command in the cycle after its acceptance, or after the last K cycle of the command before; it
completes 64 cycles after its own last K cycle (R238). -/
def arrayOpen (s : State) (n : Nat) (c : Cmd) : Bool :=
  !isMma c.op || (decide ((s.core n).arrayFree ≤ (s.core n).cycle) && (c.mcast || decide (c.startAt < (s.core n).cycle)))

def startMatrix (s : State) (n : Nat) (c : Cmd) : State :=
  let t := startCmd s n c
  if isMma c.op then
    let free := (s.core n).cycle + arrayCycles s n c
    (modCmd t n c.seq (fun c => { c with doneAt := free + 63 })).modCore n (fun x => { x with arrayFree := free })
  else t

/-- A command that may start; one with a shared read first presents itself to the owner and waits for the cores it names. -/
def matrixStart (s : State) (n : Nat) (c : Cmd) : State :=
  if !mayStart s n c || !arrayOpen s n c then s
  else if sharedReads c = [] then startMatrix s n c
  else if !c.mcast then modCmd s n c.seq (fun c => { c with mcast := true, startAt := (s.core n).cycle })
  else if (sharedReads c).all (allPresent s n) then startMatrix s n c
  else s

/-- The owner has waited for 4,096 cycles. -/
def mcastExpire (s : State) (n : Nat) (c : Cmd) : State :=
  if mayStart s n c && arrayOpen s n c && c.mcast && decide (c.startAt + 4096 ≤ (s.core n).cycle) then startMatrix s n c else s

/-- An MMA or MMAD at work whose cycles have passed. -/
def mmaDue (s : State) (n : Nat) (c : Cmd) : Bool := isMma c.op && c.started && decide (c.doneAt ≤ (s.core n).cycle)

/-- The array in a cycle of its core (R238): commands whose cycles have passed complete, and a free array starts a command
that may start; where several may, R242 leaves the choice open (log entry 3). -/
def arrayTick (s : State) (n : Nat) : State :=
  let s := (s.core n).cmds.foldl (fun s c => if mmaDue s n c then performMatrix s n c else s) s
  match (s.core n).cmds.filter (fun c => isMma c.op && mayStart s n c && arrayOpen s n c) with
  | [] => s
  | [c] => mcastExpire (matrixStart s n c) n c
  | l => match l[Config.freeNat s.tick % l.length]? with
    | some c => mcastExpire (matrixStart s.ticked n c) n c
    | none => s

/-- The marker of MWAIT fires once the slot's earlier matrix commands have completed. -/
def markerReady (s : State) (n : Nat) (c : Cmd) : Bool :=
  (earlier s n c).all (fun d => !(isMatrix d.op && d.slot = c.slot && d.op ≠ .marker))

/-! ## The instructions -/

def execLicq (sl : BitVec 2) (d : BitVec 6) (s : State) : Host.Outcome State Fault Refusal := run32 (.licq sl d) sl (licqOp d.toNat) s
def execLicw (sl : BitVec 2) (d : BitVec 6) (s : State) : Host.Outcome State Fault Refusal := run32 (.licw sl d) sl (licwOp d.toNat) s
def execLicr (sl : BitVec 2) (d : BitVec 6) (s : State) : Host.Outcome State Fault Refusal := run32 (.licr sl d) sl (licrOp d.toNat) s
def execLics (sl : BitVec 2) (d : BitVec 6) (s : State) : Host.Outcome State Fault Refusal := run32 (.lics sl d) sl (licsOp d.toNat) s
def execMma (sl : BitVec 2) (d : BitVec 6) (a : BitVec 6) (b : BitVec 6) (s : State) : Host.Outcome State Fault Refusal :=
  run32 (.mma sl d a b) sl (mmaOp false d.toNat a.toNat b.toNat) s
def execMmad (sl : BitVec 2) (d : BitVec 6) (a : BitVec 6) (b : BitVec 6) (s : State) : Host.Outcome State Fault Refusal :=
  run32 (.mmad sl d a b) sl (mmaOp true d.toNat a.toNat b.toNat) s
def execTopk (sl : BitVec 2) (d : BitVec 6) (a : BitVec 6) (b : BitVec 6) (s : State) : Host.Outcome State Fault Refusal :=
  run32 (.topk sl d a b) sl (topkOp d.toNat a.toNat b.toNat) s
def execAclr (sl : BitVec 2) (m : BitVec 4) (s : State) : Host.Outcome State Fault Refusal := run32 (.aclr sl m) sl (aclrOp m) s
def execDrn (sl : BitVec 2) (d : BitVec 6) (a : BitVec 6) (b : BitVec 6) (s : State) : Host.Outcome State Fault Refusal :=
  run32 (.drn sl d a b) sl (drainOp false d.toNat a.toNat b.toNat) s
def execDrn2 (sl : BitVec 2) (d : BitVec 6) (a : BitVec 6) (b : BitVec 6) (s : State) : Host.Outcome State Fault Refusal :=
  run32 (.drn2 sl d a b) sl (drainOp true d.toNat a.toNat b.toNat) s
def execAsave (sl : BitVec 2) (d : BitVec 6) (a : BitVec 6) (b : BitVec 6) (s : State) : Host.Outcome State Fault Refusal :=
  run32 (.asave sl d a b) sl (saveOp true d.toNat a.toNat b.toNat) s
def execArst (sl : BitVec 2) (d : BitVec 6) (a : BitVec 6) (b : BitVec 6) (s : State) : Host.Outcome State Fault Refusal :=
  run32 (.arst sl d a b) sl (saveOp false d.toNat a.toNat b.toNat) s
def execPpt (sl : BitVec 2) (m : BitVec 4) (s : State) : Host.Outcome State Fault Refusal := run32 (.ppt sl m) sl (pptOp m) s
def execMwait (sl : BitVec 2) (d : BitVec 6) (b : BitVec 6) (s : State) : Host.Outcome State Fault Refusal :=
  run32 (.mwait sl d b) sl (mwaitOp d.toNat b.toNat) s

end Sys2Proof.Machine
end

