-- ==== Sys2Proof/Machine/System.lean ====
section
/-! DEFINITION. Machine/System.lean: the privileged registers and the system instructions (R293, R296 to R314, R396). -/

namespace Sys2Proof.Machine

/-! ## The power word (R362, R363) -/

/-- A user slot that the current loop has removed. -/
def slotRemoved (s : State) (n k : Nat) : Bool :=
  let r := (s.cluster (clusterOf n)).removed
  decide (k < 7) && decide (7 - r ≤ k) && r != 0

def pwrst (s : State) (n : Nat) : Nat :=
  let x := s.cluster (clusterOf n)
  x.step + (if x.ramp then x.target else x.step) * 2 ^ 4 + bit x.ramp * 2 ^ 8 + bit x.pend.isSome * 2 ^ 9 + x.pend.getD 0 * 2 ^ 10
    + x.removed * 2 ^ 14 + (s.die (dieOf n)).zone * 2 ^ 17 + bit s.fwUp * 2 ^ 19

/-! ## The registers (R296, R297, R303) -/

/-- Highest priority of a waiting thread entry, plus 1; 0 for none. -/
def waitPri (c : Core) : Nat :=
  c.runList.foldl (fun m e => match e.what with | .thread _ => max m (e.prio + 1) | .task _ => m) 0

def trslot (c : Core) : Nat :=
  c.evSlot.toNat + c.evKind.toNat * 2 ^ 4 + bit c.evActive * 2 ^ 6 + c.trapPend.toNat * 2 ^ 8 + c.timePend.toNat * 2 ^ 16
    + bit (c.inbox ≠ []) * 2 ^ 24 + waitPri c * 2 ^ 25

def licctl (s : State) (n : Nat) : Nat :=
  let p := s.pair (pairOf n)
  let st := match p.lic with | .free => 0 | .held => 1 | .due => 2 | .draining => 3
  match p.holder with
  | some h => st + bit ((reqSlot s h).map (·.1) = some n) * 4 + min 255 p.fifo.length * 8 + h.handle.toNat * 2 ^ 32
  | none => st + min 255 p.fifo.length * 8

def heldMask (s : State) (n : Nat) : Nat := (List.range 7).foldl (fun a k => if (s.slot n k).phase = Phase.held then a + 2 ^ k else a) 0

def iboxst (s : State) (n : Nat) : Nat :=
  let k := (s.core n).inbox.length
  k + bit (k = 32) * 2 ^ 6 + heldMask s n * 2 ^ 7

/-- Identifier of the open checkpoint interval of a core's context (R312, R357). -/
def openCkpt (s : State) (ctx : BitVec 16) : Nat := match s.intervals.find? (fun i => i.ctx = ctx) with | some i => i.id.toNat | none => 0

/-- Registers selected by a slot. -/
def perSlot (r : Nat) : Bool := [0, 1, 2, 4, 5, 10].contains r

def privReg (s : State) (n r k : Nat) : Word :=
  let x := s.slot n k
  let c := s.core n
  match r with
  | 0 => x.trCause
  | 1 => x.trVal
  | 2 => x.trPc
  | 3 => BitVec.ofNat 64 (trslot c)
  | 4 => x.trTime
  | 5 => if k = 7 then 0 else x.estBase
  | 6 => c.imgBase
  | 7 => c.slotEn
  | 8 => c.ptBase
  | 9 => c.ctxId
  | 10 => if k = 7 then 0 else x.timer
  | 11 => BitVec.ofNat 64 (iboxst s n)
  | 12 => BitVec.ofNat 64 (openCkpt s (ctxOf s n))
  | 13 => BitVec.ofNat 64 (licctl s n)
  | _ => BitVec.ofNat 64 (pwrst s n)

def getpOp (d r a : Nat) (s : State) : Eff :=
  let reads := if perSlot r then [a] else []
  pre s reads [d] ((d, intK) :: reads.map (fun x => (x, intK)))
    (putI s d 1 ((privReg s s.cur.1 r (if perSlot r then (valI s a % 8).toNat else 0)).toNat : Int))

/-- A write of a privileged register. To write IMGBASE, PTBASE or CTXID while a user slot holds a thread is a breach whose value is
free (R7, R296; log entry 76). -/
def privWrite (s : State) (n r k : Nat) (v : Word) : State :=
  let held := decide (k < 7) && (s.slot n k).phase == .held
  let breach := [6, 8, 9].contains r && (List.range 7).any (fun j => holdsThread s n j)
  let v := if breach then Config.freeWord s.tick else v
  let s := if breach then s.ticked else s
  match r with
  | 0 => if held then s.modSlot n k (fun x => { x with trCause := BitVec.ofNat 64 (fld v 0 9) }) else s
  | 1 => if held then s.modSlot n k (fun x => { x with trVal := v }) else s
  | 2 => if held then s.modSlot n k (fun x => { x with trPc := v }) else s
  | 5 => if held then s.modSlot n k (fun x => { x with estBase := v }) else s
  | 6 => s.modCore n (fun c => { c with imgBase := v })
  | 7 => s.modCore n (fun c => { c with slotEn := BitVec.ofNat 64 (fld v 0 7) })
  | 8 => s.modCore n (fun c => { c with ptBase := BitVec.ofNat 64 (fld v 20 36 * 2 ^ 20) })
  | 9 => s.modCore n (fun c => { c with ctxId := BitVec.ofNat 64 (fld v 0 16) })
  | 10 => if k < 7 then s.modSlot n k (fun x => { x with timer := BitVec.ofNat 64 (fld v 0 42) }) else s
  | _ => s

def putpOp (r d a : Nat) (s : State) : Eff :=
  let reads := if perSlot r then [d, a] else [a]
  pre s reads [] (reads.map (fun x => (x, intK)))
    (settle s reads (.done (privWrite s s.cur.1 r (if perSlot r then (valI s d % 8).toNat else 0) (valW s a))))

/-! ## Resuming a held slot (R305, R309, R337) -/

/-- A deferred place performed. -/
def performDeferred (s : State) (n k : Nat) (d : Option Deferred) : State :=
  match d with
  | none => s
  | some d => slotNameWrite s n k d.name.toNat d.data { core := d.req.toNat, slot := none }

/-- A WRITE entry that is live for slot `k` (R396). -/
def liveWrite (s : State) (n k : Nat) (e : InboxEntry) : Bool :=
  fld e.head 0 8 = 0x20 && fld e.head 8 3 = k && holdsThread s n k && fld e.head 32 32 = (s.slot n k).handle.toNat

/-- A write to a name of the slot waits for a repack of the name's region (R77). -/
def writeFrozen (s : State) (n k name : Nat) : Bool := match nameInfo s n k name with | some d => frozen s n k d.region | none => false

/-- Some pending write of a slot waits for a repack. -/
def writesFrozen (s : State) (n k : Nat) : Bool :=
  let x := s.slot n k
  [x.defer0, x.defer1].any (fun d => match d with | some d => writeFrozen s n k d.name.toNat | none => false)
    || (s.core n).inbox.any (fun e => liveWrite s n k e && writeFrozen s n k (fld e.head 11 6))

def performWrite (s : State) (n : Nat) (e : InboxEntry) : State :=
  slotNameWrite s n (fld e.head 8 3) (fld e.head 11 6) e.data { core := fld e.aux 0 10, slot := none }

/-- The pending writes of a slot: its deferred places, then its live entries in the inbox. -/
def pendingWrites (s : State) (n k : Nat) : State :=
  let x := s.slot n k
  let s := performDeferred (performDeferred (s.modSlot n k (fun x => { x with defer0 := none, defer1 := none })) n k x.defer0) n k x.defer1
  let mine := (s.core n).inbox.filter (liveWrite s n k)
  let s := s.modCore n (fun c => { c with inbox := c.inbox.filter (fun e => !liveWrite s n k e) })
  mine.foldl (fun s e => performWrite s n e) s

/-- A thread that resumes with OWED has its request entered before its first issue (R248, R337). -/
def enterOwed (s : State) (n k : Nat) : State :=
  let x := s.slot n k
  let p := pairOf n
  let r := slotReq s n k
  if fld x.licst 2 1 = 1 ∧ !holdsLic s p r ∧ !waitsLic s p r then
    (if (s.pair p).lic = .free then licGrant s p r else licEnter s p r)
  else s

/-- A holder whose licence is due gets the request that the term's end makes (R247). -/
def dueAgain (s : State) (n k : Nat) : State :=
  if holdsLic s (pairOf n) (slotReq s n k) ∧ (s.pair (pairOf n)).lic = .due then
    s.modSlot n k (fun x => { x with preTerm := true, preSince := if x.preTimer then x.preSince else (s.core n).cycle })
  else s

/-- The resumption of a held slot at `pc`. -/
def resumeHeld (s : State) (n k : Nat) (pc : Word) (retry : Bool) : State :=
  let s := dueAgain (enterOwed (pendingWrites s n k) n k) n k
  let s := s.modSlot n k (fun x =>
    { x with phase := .running, wait := if retry then x.wait else .none, pc := pc, trPc := pc, latch := [], nextTurn := x.turn + 1 })
  s.modThread (s.slot n k).img (fun t => { t with state := 2 })

/-- The event ends; the system slot's clock is gated until the next (R293). -/
def endEvent (s : State) (n : Nat) : State :=
  (s.modCore n (fun c => { c with evActive := false })).modSlot n 7 (fun x => { x with phase := .blocked, wait := .none, latch := [], issued := false, stalled := false })

def sretOp (a sel : Nat) (s : State) : Eff :=
  pre s [a] [] [(a, intK)]
    (settle s [a] (
      let n := s.cur.1
      let k := (valI s a % 8).toNat
      if sel < 2 ∧ k < 7 ∧ (s.slot n k).phase = .held then
        if writesFrozen s n k then .stall s else
        let x := s.slot n k
        let pc := if sel = 1 then x.trPc + (if x.trCause.getLsbD 8 then 4 else 2) else x.trPc
        let s := traceAuto s n 17 k (BitVec.zeroExtend 64 x.handle) pc 0
        .leave (endEvent (resumeHeld s n k pc (sel = 0)) n)
      else .leave (endEvent (traceAuto s n 17 7 0 s.me.pc 0) n)))

/-! ## Translations and checkpoints (R312, R357) -/

def tlbiOp (a sel : Nat) (s : State) : Eff :=
  pre s [a] [] [(a, intK)]
    (settle s [a] (
      let n := s.cur.1
      let gone (e : TlbEntry) : Bool := tlbNamed sel (ctxOf s n) (valW s a).toNat e
      let s := s.modCore n (fun c => { c with tlb := c.tlb.filter (fun e => !gone e) })
      .done (s.modCluster (clusterOf n) (fun c => { c with tlb := c.tlb.filter (fun e => !gone e) }))))

/-- The next identifier after one: 0 is skipped. -/
def nextId (i : BitVec 32) : BitVec 32 := if i + 1 = 0 then 1 else i + 1

def openInterval (s : State) (ctx : BitVec 16) : State :=
  { s with intervals := s.intervals.filter (fun i => i.ctx ≠ ctx) ++ [{ ctx := ctx, id := s.nextCkpt }], nextCkpt := nextId s.nextCkpt }

def closeInterval (s : State) (ctx : BitVec 16) : State := { s with intervals := s.intervals.filter (fun i => i.ctx ≠ ctx) }

def ckptOp (d op : Nat) (s : State) : Eff :=
  pre s [] [d] [(d, intK)]
    (settle s [] (
      let ctx := ctxOf s s.cur.1
      if op = 0 then putThen s d (s.nextCkpt.toNat : Nat) (fun s => openInterval s ctx)
      else putThen s d (openCkpt s ctx : Nat) (fun s => closeInterval s ctx)))

/-! ## KILL, SLOTS, RESUME (R310, R311) -/

/-- The image of the thread that KILL selects. -/
def killTarget (s : State) (n : Nat) (byHandle : Bool) (v : Word) : Option Nat :=
  if byHandle then
    let h := BitVec.ofNat 32 (fld v 0 32)
    let img := imageAddr s n h
    let t := s.thread img
    if h ≠ 0 ∧ t.handle = h ∧ t.ctx = ctxOf s n ∧ ((1 ≤ t.state ∧ t.state ≤ 5) ∨ t.dying) then some img else none
  else
    let k := fld v 0 3
    if holdsThread s n k then some (s.slot n k).img else none

/-- KILL waits until its target has stopped. -/
def killOp (d a : Nat) (hard byHandle : Bool) (s : State) : Eff :=
  pre s [a] [d] [(d, intK), (a, intK)]
    (settle s [a] (
      let n := s.cur.1
      match s.me.killing with
      | some img =>
        if threadStopped s img then putThen s d 0 (fun s => s.modMe (fun x => { x with killing := none })) else .stall s
      | none => match killTarget s n byHandle (valW s a) with
        | none => putILate s d 1
        | some img =>
          let t := killThread s img hard (killWord n hard 0 false)
          if (s.thread img).dying then putILate s d 2
          else if threadStopped t img then putThen s d 0 (fun _ => t)
          else .stall (t.modMe (fun x => { x with killing := some img }))))

def slotCode (s : State) (n k : Nat) : Nat :=
  let x := s.slot n k
  if k = 7 then 1
  else if x.lentTo.isSome then 4
  else if x.phase ≠ .free ∧ (s.thread x.img).dying then 7
  else match x.phase with
    | .free => if (s.core n).slotEn.getLsbD k then 0 else 6
    | .running => if slotRemoved s n k then 5 else 1
    | .blocked => 2
    | .held => 3
    | .dying => 7

def slotsOp (d : Nat) (s : State) : Eff :=
  pre s [] [d] [(d, intK)] (putI s d 1 ((List.range 8).foldl (fun a k => a + slotCode s s.cur.1 k * 2 ^ (4 * k)) 0 : Nat))

def resumeOp (d a : Nat) (s : State) : Eff :=
  pre s [a] [d] [(d, intK), (a, intK)]
    (settle s [a] (
      let n := s.cur.1
      let h := BitVec.ofNat 32 (fld (valW s a) 0 32)
      let img := imageAddr s n h
      let t := s.thread img
      if h ≠ 0 ∧ t.handle = h ∧ t.ctx = ctxOf s n ∧ t.parked ∧ t.state = 5 ∧ !t.dying then
        (if runBlocked s n then .stall s
         else putThen s d 0 (fun s => enterThread (s.modThread img (fun t => { t with parked := false })) n img))
      else putILate s d 1))

/-! ## LICF (R313) -/

def licfOp (d a b : Nat) (s : State) : Eff :=
  pre s [a, b] [d] [(d, intK), (a, intK), (b, intK)]
    (settle s [a, b] (
      let n := s.cur.1
      let p := pairOf n
      let k := (valI s a % 8).toNat
      let h := BitVec.ofNat 32 (fld (valW s b) 0 32)
      let grantee := if h = 0 then (s.pair p).fifo.head? else (s.pair p).fifo.find? (fun r => r.handle = h)
      if k = 7 ∨ (s.slot n k).phase ≠ .held then putILate s d 3
      else if !holdsLic s p (slotReq s n k) then putILate s d 1
      else match grantee with
        | none => putILate s d 2
        | some g => putThen s d 0 (fun s => licOwe s p (slotReq s n k) (if h = 0 then none else some g))))

/-! ## The inbox (R303 to R305, R308, R396) -/

def entryWordOf (e : InboxEntry) (w : Nat) : Word := match w with | 0 => e.head | 1 => e.data | 2 => e.aux | _ => e.time

def ibpeekOp (d w : Nat) (s : State) : Eff :=
  pre s [] [d] [(d, intK)]
    (putI s d 1 ((match s.myCore.inbox with | [] => 0 | e :: _ => (entryWordOf e w).toNat : Nat) : Int))

/-- The head entry removed; a live WRITE may be performed. -/
def takeHead (s : State) (n : Nat) (perform : Bool) : State :=
  match (s.core n).inbox with
  | [] => s
  | e :: r =>
    let s := s.modCore n (fun c => { c with inbox := r })
    if perform && liveWrite s n (fld e.head 8 3) e then performWrite s n e else s

def ibtakeOp (d how : Nat) (s : State) : Eff :=
  pre s [] [d] [(d, intK)]
    (settle s [] (
      let n := s.cur.1
      match (s.core n).inbox with
      | [] => putILate s d 0
      | e :: _ =>
        let k := fld e.head 8 3
        if how = 1 ∧ liveWrite s n k e ∧ writeFrozen s n k (fld e.head 11 6) then .stall s
        else putThen s d (fld e.head 0 8 : Nat) (fun s => takeHead s n (how = 1))))

def deferOp (d : Nat) (s : State) : Eff :=
  pre s [] [d] [(d, intK)]
    (settle s [] (
      let n := s.cur.1
      match (s.core n).inbox with
      | [] => putI s d 1 2
      | e :: r =>
        let k := fld e.head 8 3
        if !liveWrite s n k e then putI s d 1 2
        else
          let x := s.slot n k
          let p : Deferred := { name := BitVec.ofNat 6 (fld e.head 11 6), req := BitVec.ofNat 10 (fld e.aux 0 10), data := e.data }
          if x.defer0.isSome ∧ x.defer1.isSome then putI s d 1 1
          else putFirst s d 0 (fun s => (s.modCore n (fun c => { c with inbox := r })).modSlot n k (fun x =>
            if x.defer0.isNone then { x with defer0 := some p } else { x with defer1 := some p }))))

/-! ## EVICT (R311) -/

/-- The dirty borrowed rows written to the backing area. -/
def writeBorrow (s : State) (n : Nat) (b : Borrow) : State :=
  (List.range 32).foldl (fun s r =>
    if b.dirty.getLsbD r && b.resident.getLsbD r then
      lineStore s n (canonPa s (backPa b r)) 16 (wideGet b.rows (128 * r) 128) 0 0 (rowPoison b.poisoned r)
    else s) s

/-- The borrowed rows written to the backing area, and the slot released (R134). -/
def releaseBorrow (s : State) (n k : Nat) : State :=
  match (s.slot n k).borrow with
  | none => s
  | some b => giveBack (writeBorrow s n b) n k

/-- A write for the slot waits in the inbox or before it. -/
def writeWaits (s : State) (n k : Nat) : Bool := (s.core n).inbox.any (liveWrite s n k) || (s.core n).inboxWait.any (fun e => liveWrite s n k e.1)

/-- The licence state of a thread that leaves its slot: a holder is owed the licence, a waiter's request is withdrawn
(R245, R247). -/
def leaveLicence (s : State) (n k : Nat) : State :=
  let r := slotReq s n k
  if holdsLic s (pairOf n) r then licOwe s (pairOf n) r none else leaveWaiter s n k

/-- The thread of a held or stopped slot saved with its trap record, its rows evictable and its slot free. -/
def saveThread (s : State) (n k : Nat) (cause value : Nat) : State :=
  let s := releaseBorrow (leaveLicence s n k) n k
  let x := s.slot n k
  let s := saveImage s n k 5 x.wait.code x.trPc
  let s := trapRecord s n x.img cause value x.trPc.toNat x.trTime.toNat x.defer0 x.defer1
  vacate (writeEstate s n x.img x.estBase) n k

def evictGo (s : State) (n k : Nat) (park : Bool) : State :=
  let x := s.slot n k
  let s := traceAuto s n 19 k (BitVec.zeroExtend 64 x.handle) x.trPc 0
  let s := saveThread s n k x.trCause.toNat x.trVal.toNat
  if park then s.modThread x.img (fun t => { t with parked := true }) else enterThread s n x.img

def evictOp (d a how : Nat) (s : State) : Eff :=
  pre s [a] [d] [(d, intK), (a, intK)]
    (settle s [a] (
      let n := s.cur.1
      let k := (valI s a % 8).toNat
      if k = 7 ∨ (s.slot n k).phase ≠ .held then putILate s d 1
      else if writeWaits s n k then putILate s d 2
      else if (s.slot n k).pending ≠ [] ∨ saveHeld s n k ∨ (how ≠ 1 ∧ runBlocked s n) then .stall s
      else match writeMapRecord s n k with
        | .error _ => putILate s d 3
        | .ok _ => putThen s d 0 (fun s => match writeMapRecord s n k with
          | .ok s => evictGo s n k (how = 1)
          | .error _ => s)))

/-! ## TRACE -/

def traceOp (a kind : Nat) (s : State) : Eff :=
  pre s [a] [] [(a, intK)]
    (settle s [a] (.done (traceWrite s s.cur.1 kind 7 0 s.me.pc (valW s a))))

/-! ## The instructions -/

def execSret (sl : BitVec 2) (a : BitVec 6) (b : BitVec 6) (s : State) : Host.Outcome State Fault Refusal :=
  runSys (.sret sl a b) sl (sretOp a.toNat b.toNat) s
def execGetp (sl : BitVec 2) (d : BitVec 6) (a : BitVec 6) (b : BitVec 6) (s : State) : Host.Outcome State Fault Refusal :=
  runSys (.getp sl d a b) sl (getpOp d.toNat b.toNat a.toNat) s
def execPutp (sl : BitVec 2) (d : BitVec 6) (a : BitVec 6) (b : BitVec 6) (s : State) : Host.Outcome State Fault Refusal :=
  runSys (.putp sl d a b) sl (putpOp b.toNat d.toNat a.toNat) s
def execTlbi (sl : BitVec 2) (a : BitVec 6) (b : BitVec 6) (s : State) : Host.Outcome State Fault Refusal :=
  runSys (.tlbi sl a b) sl (tlbiOp a.toNat b.toNat) s
def execCkpt (sl : BitVec 2) (d : BitVec 6) (b : BitVec 6) (s : State) : Host.Outcome State Fault Refusal :=
  runSys (.ckpt sl d b) sl (ckptOp d.toNat b.toNat) s
def execKill (sl : BitVec 2) (d : BitVec 6) (a : BitVec 6) (y : BitVec 1) (h : BitVec 1) (s : State) : Host.Outcome State Fault Refusal :=
  runSys (.kill sl d a y h) sl (killOp d.toNat a.toNat (h == 1) (y == 1)) s
def execSlots (sl : BitVec 2) (d : BitVec 6) (s : State) : Host.Outcome State Fault Refusal := runSys (.slots sl d) sl (slotsOp d.toNat) s
def execLicf (sl : BitVec 2) (d : BitVec 6) (a : BitVec 6) (b : BitVec 6) (s : State) : Host.Outcome State Fault Refusal :=
  runSys (.licf sl d a b) sl (licfOp d.toNat a.toNat b.toNat) s
def execIbpeek (sl : BitVec 2) (d : BitVec 6) (b : BitVec 6) (s : State) : Host.Outcome State Fault Refusal :=
  runSys (.ibpeek sl d b) sl (ibpeekOp d.toNat b.toNat) s
def execIbtake (sl : BitVec 2) (d : BitVec 6) (b : BitVec 6) (s : State) : Host.Outcome State Fault Refusal :=
  runSys (.ibtake sl d b) sl (ibtakeOp d.toNat b.toNat) s
def execDefer (sl : BitVec 2) (d : BitVec 6) (s : State) : Host.Outcome State Fault Refusal := runSys (.defer sl d) sl (deferOp d.toNat) s
def execResume (sl : BitVec 2) (d : BitVec 6) (a : BitVec 6) (s : State) : Host.Outcome State Fault Refusal :=
  runSys (.resume sl d a) sl (resumeOp d.toNat a.toNat) s
def execEvict (sl : BitVec 2) (d : BitVec 6) (a : BitVec 6) (b : BitVec 6) (s : State) : Host.Outcome State Fault Refusal :=
  runSys (.evict sl d a b) sl (evictOp d.toNat a.toNat b.toNat) s
def execTrace (sl : BitVec 2) (a : BitVec 6) (b : BitVec 6) (s : State) : Host.Outcome State Fault Refusal :=
  runSys (.trace sl a b) sl (traceOp a.toNat b.toNat) s

end Sys2Proof.Machine
end

