-- ==== Sys2Proof/Machine/Dispatcher.lean ====
section
/-! DEFINITION. Machine/Dispatcher.lean: the events of the dispatcher, the register cache and the receive channels (R39 to R49,
R70 to R78, R173, R278, R326 to R332, R395). An event that is not enabled leaves the state as it is. -/

namespace Sys2Proof.Machine

/-- Run of an event with operands in range. -/
def runEvent (ok : Bool) (f : State → State) (s : State) : Host.Outcome State Fault Refusal := .next (if ok then f s else s)

/-! ## Submissions and counters (R39, R323, R395) -/

/-- The oldest submission that waits for a place of a core: a thread's SPAWN is tried again, a host's is
accepted with the acquire at SYSTEM that a SUBMIT makes (R324). -/
def submissionGo (s : State) (n : Nat) : State :=
  match s.submissions.find? (fun q => q.home = n), freePlace s n with
  | some q, some place =>
    (match q.by_ with
     | .thread c k _ _ => s.modSlot c k (fun x => { x with stalled := false })
     | .host h tag =>
       let s := { s with submissions := dropFirst (fun x => x.home = n) s.submissions }
       if (s.hostQueue h).state = .open_ then
         acceptTask (sendReply (acquire s n 7) h (replyBytes s 1 tag q.record 0 0 0 0)) q.record q.recordPa q.ctx n 0 (some h) true tag place []
       else sendReply (refuseRecord s q.recordPa q.ctx) h (replyBytes s 3 tag q.record 6 0 0 0))
  | _, _ => s

/-- A decrement waits while the join between its source and the counter is down (R24, R378). -/
def decrementHeld (s : State) (d : Decrement) : Bool :=
  match taskOfRecord s d.pa with
  | some id => decide (d.src < 1024) && coresApart s d.src (s.task id).home
  | none => false

/-- A decrement that travels arrives. -/
def decrementGo (s : State) (pa : Nat) (bereaved : Bool) : State :=
  match s.decrements.find? (fun d => d.pa = pa && d.bereaved = bereaved && !decrementHeld s d) with
  | some d => decrementTask { s with decrements := dropFirst (fun x => x = d) s.decrements } pa bereaved
  | none => s

/-! ## The deal (R41, R326, R327, R332) -/

/-- Members on other devices that come before this device's, and all of them; free where the domain has other devices
(log entry 3). -/
def domainExtra (s : State) (ctx : BitVec 16) (level : Nat) : Nat × Nat :=
  let ds := domainOf s ctx.toNat
  if level ≠ 6 ∨ ds.all (· = s.devId) then (0, 0)
  else
    let before := if (ds.takeWhile (· ≠ s.devId)).isEmpty then 0 else Config.freeNat s.tick
    (before, before + Config.freeNat (s.tick + 1))

/-- Every member's run list has room for all of the group. -/
def roomFor (s : State) (ms : List Member) : Bool :=
  ms.all (fun m => decide ((s.core m.core).runList.length + (ms.filter (fun x => x.core = m.core)).length ≤ 256)
    && (s.tower (towerOf m.core)).overflow.all (fun x => x.1 ≠ m.core))

/-- One group entered: images of its context at `base`, thread records and run-list entries, in one step. -/
def enterGroup (s : State) (d : Deal) (ms : List Member) (size base : Nat) (hs : List (BitVec 32)) : State :=
  let t := s.task d.task
  let (off, extra) := domainExtra s t.ctx (recLevel t.snap)
  let s := if recLevel t.snap = 6 then { s with tick := s.tick + 2 } else s
  let entry := BitVec.ofNat 64 (wideGet t.snap 0 64)
  let mapPtr := BitVec.ofNat 64 (wideGet t.snap 64 64)
  let one (s : State) (x : Member × BitVec 32) : State :=
    let m := x.1
    let lead := ((ms.zip hs).find? (fun y => y.1.copy = some 0 && y.1.idx = m.idx)).map (·.2)
    let th : Thread :=
      { handle := x.2, ctx := t.ctx, prio := d.prio, aged := d.aged, task := some d.task, group := d.group, member := m.idx + off,
        lastCore := m.core, defHeir := recHeir t.snap, copy := m.copy, size := size + extra,
        seedH := if m.copy = some 1 then lead.getD x.2 else x.2 }
    let img := base + x.2.toNat * 0x400
    let s := newThread s m.core base x.2 entry mapPtr t.record t.parent th
    enterRun s m.core { what := .thread img, prio := d.prio, aged := d.aged, since := (s.core m.core).cycle,
                        cls := if towerOf t.home = towerOf m.core then 2 else 3 }
  let s := (ms.zip hs).foldl one s
  s.modTask d.task (fun t => { t with live := t.live + ms.length, cores := t.cores ++ (ms.map (·.core)).filter (fun n => !t.cores.contains n) })

/-- The token scope of a task towards one predecessor (R277); SYSTEM for a task that a host submitted (R324). -/
def predToken (s : State) (id : Nat) (p : Pred) : Nat :=
  if (s.task id).byHost then 7 else if p.far || placedFar s id then 6 else scopeOf (p.placed ++ placement s id)

/-- The token scope of a task's start: the widest towards its predecessors (R277, R278, R324). -/
def tokenScope (s : State) (id : Nat) : Nat :=
  let t := s.task id
  if t.byHost then 7
  else t.owes.foldl (fun m p => max m (predToken s id p)) (if placedFar s id then 6 else scopeOf (placement s id))

/-- A predecessor whose completion release towards the task is deferred: its token scope is wider than its placement. -/
def deferredTo (s : State) (id : Nat) (p : Pred) : Bool :=
  !p.ran.isEmpty && decide ((if p.far then 6 else scopeOf p.placed) < predToken s id p)

/-- The last group has been entered: the placement is fixed, and the deferred releases are asked for. -/
def dealt (s : State) (id : Nat) : State :=
  let t := s.task id
  let s := s.modTask id (fun t => { t with started := !t.owes.any (deferredTo s id) })
  if t.live = 0 then endTask s id (if t.anyKilled then .killed else .done) (if t.anyKilled then 4 else 2) else s

/-- Groups entered in ascending order while there is room and the join to their cores is up (R24, R326); what is left of the
deal. -/
def dealGo (s : State) (d : Deal) : (fuel : Nat) → State × Option Deal
  | 0 => (s, some d)
  | f + 1 =>
    let t := s.task d.task
    if t.count ≤ d.group then (dealt s d.task, none)
    else
      let (ms, size) := groupMembersOf s d.task d.group
      let from_ := coreOfCtx s t.home t.ctx
      if !roomFor s ms ∨ ms.any (fun m => coresApart s t.home m.core) then (s, some d)
      else match (match from_ with | some c => takeImages s c ms.length | none => none) with
        | some (s, hs) =>
          let base := (s.core (from_.getD t.home)).imgBase.toNat
          dealGo (enterGroup s d ms size base hs) { d with group := d.group + 1, told := false } f
        | none =>
          if d.told then (s, some d)
          else (inboxSend s t.home (inboxHead 0x26 0 0 0) (BitVec.ofNat 64 t.ctx.toNat) t.record, some { d with told := true })

/-- A deal that waits. The task's placement is known, so its threads that have been entered may run unless a release towards them
is deferred (R277, R278). -/
def holdDeal (s : State) (w : Nat) (d : Deal) : State :=
  let s := s.modTower w (fun t => { t with deals := t.deals ++ [d] })
  s.modTask d.task (fun t => { t with started := t.started || !t.owes.any (deferredTo s d.task) })

def isTask (e : RunEntry) : Bool := match e.what with | .task _ => true | .thread _ => false

/-- DEAL_TASK: the first task entry of a run list is handed on, at most one in 16 cycles (R44). -/
def dealTask (s : State) (n : Nat) : State :=
  if (s.core n).cycle < (s.core n).dealAt then s
  else match runHead ((s.core n).runList.filter isTask) with
  | some e => (match e.what with
    | .thread _ => s
    | .task id =>
      let t := s.task id
      if t.state ≠ .ready then removeRun s n e.what
      else
      let s := (removeRun s n e.what).modCore n (fun c => { c with dealAt := c.cycle + 16, dealWait := 0 })
      let s := writeStatus (s.modTask id (fun t => { t with state := .dealt, prio := e.prio, aged := e.aged, started := false })) id
      let s := if recCkpt t.snap then openInterval s t.ctx else s
      match dealGo s { task := id, group := 0, prio := e.prio, aged := e.aged } (t.count + 1) with
      | (s, none) => s
      | (s, some d) => holdDeal s (towerOf n) d)
  | none => s

/-- The towers' held deals, tower 0's first. -/
def heldDeals (s : State) : List (Nat × Deal) := (List.range 2).flatMap (fun w => (s.tower w).deals.map (fun d => (w, d)))

def dealResume (s : State) (i : Nat) : State :=
  match (heldDeals s)[i]? with
  | none => s
  | some (w, d) =>
    match dealGo (s.modTower w (fun t => { t with deals := t.deals.filter (fun x => x.task ≠ d.task) })) d ((s.task d.task).count + 1) with
    | (s, none) => s
    | (s, some d) => holdDeal s w d

/-- The cores that ran a predecessor have released at the token scope (R278); a release at DOMAIN waits for the core's puts
(R264). -/
def successorStart (s : State) (id : Nat) : State :=
  let t := s.task id
  let late := t.owes.filter (deferredTo s id)
  if t.started ∨ t.state ≠ .dealt ∨ late.any (fun p => decide (6 ≤ predToken s id p) && p.ran.any (putsOut s)) then s
  else
    let one (r : State) (p : Pred) : State := p.ran.foldl (fun r n => release r n (predToken s id p)) r
    (late.foldl one s).modTask id (fun t => { t with started := true })

/-! ## Slots filled (R38, R44, R72, R305) -/

/-- The thread entries of a run list whose threads may start, in order of service. -/
def readyThread (s : State) (e : RunEntry) : Bool :=
  match e.what with
  | .thread img => (match (s.thread img).task with | some id => (s.task id).started | none => true)
  | .task _ => false

/-- The entry that a free slot takes next. -/
def nextThread (s : State) (n : Nat) : Option Nat :=
  match runHead ((s.core n).runList.filter (readyThread s)) with
  | some e => (match e.what with | .thread img => some img | .task _ => none)
  | none => none

/-- The map at MAPPTR loaded for a thread that enters, or the trap that it takes before its first issue. -/
def loadMap (s : State) (n k : Nat) (resume : Bool) (ptr pc : Word) : State :=
  let trap (s : State) (c : Cause) (v : Word) : State := trapUser s n k true c v pc
  if ptr.toNat % 8 ≠ 0 then trap s .misalign ptr
  else match readMapRecord s n true ptr.toNat with
    | (s, .error (c, v)) => trap s c v
    | (s, .ok (count, descs)) => match mapInstall s n k resume count descs with
      | .error v => trap s .maperr v
      | .ok s => s

/-- USER messages held for a thread stand in channel 15 of its core before its first issue; those for which there is no place
wait behind the senders before them (R56, R205). -/
def deliverUser (s : State) (img : Nat) : (fuel : Nat) → State
  | 0 => s
  | f + 1 =>
    let n := (s.thread img).lastCore
    if placeFree s n 15 1024 img then deliverUser (giveUser s img) img f
    else s.modCore n (fun c => { c with sendQ := c.sendQ ++ List.replicate (f + 1) (15, 1024, img) })

/-- A core runs a thread of a task (R278). -/
def noteRan (s : State) (n : Nat) (t : Thread) : State :=
  match t.task with
  | some id => s.modTask id (fun t => { t with ran := if t.ran.contains n then t.ran else t.ran ++ [n] })
  | none => s

/-- First values of ox0 to ox2 (R38, R47). -/
def startOx (s : State) (t : Thread) : BitVec 512 :=
  match t.task with
  | some id =>
    BitVec.ofNat 512 ((s.task id).record.toNat + (t.group + (s.task id).count * 2 ^ 32) * 2 ^ 64 + (t.member + t.size * 2 ^ 32) * 2 ^ 128)
  | none => BitVec.ofNat 512 t.args.toNat

/-- First rows: the argument rows, every other name zero. -/
def startRows (s : State) (t : Thread) : BitVec 4096 :=
  match t.task with
  | some id => BitVec.ofNat 4096 (wideGet (s.task id).snap 512 (128 * recArgRows (s.task id).snap))
  | none => 0

/-- Scope of the acquire at a thread's start (R47, R278). -/
def startScope (s : State) (t : Thread) : Nat := match t.task with | some id => tokenScope s id | none => t.acq

/-- A thread that enters a slot for the first time. The core's instruction cache keeps no line from before its launch
(R101). -/
def startThread (s : State) (n k img : Nat) : State :=
  let t := s.thread img
  let s := noteRan (clearFormer (removeRun s n (.thread img)) n k img) n t
  let pc := BitVec.ofNat 64 (physRead s img 8).1
  let ptr := BitVec.ofNat 64 (physRead s (img + 8) 8).1
  let est := BitVec.ofNat 64 (physRead s (img + 0x30) 8).1
  let s := s.modSlot n k (fun x =>
    { x with
      phase := .running, wait := .none, woken := false, img := img, handle := t.handle, pc := pc, mapPtr := ptr, map := [],
      rows := startRows s t, resident := 0xFFFFFFFF, dirty := 0xFFFFFFFF, poisoned := 0, demand := none, ox := startOx s t,
      amode := 1, rmode := 0, fxf := 0, seed := BitVec.ofNat 64 (2 ^ 31 ||| t.seedH.toNat), licst := 0, borrow := none,
      pending := [], latch := [], issued := false, stalled := false, preTimer := false, preTerm := false, estBase := est, defer0 := none, defer1 := none,
      farWait := false, waitPa := 0, pptWait := false, restore := false, nextTurn := x.turn + 1 })
  let s := s.modThread img (fun t => { t with state := 2, inSlot := true, lastCore := n, lastSlot := k, started := true })
  let s := (acquire s n (startScope s t)).modCore n (fun c => { c with icache := [] })
  deliverUser (loadMap s n k false ptr pc) img (t.userMsgs.length)

/-- Rows of a thread still resident where it ran last. -/
def keptRows (s : State) (n k img : Nat) : Option FormerRows := (s.core n).former.find? (fun f => f.slot = k && f.img = img)

/-- A saved thread placed in a slot from its image. The instruction cache of a core that it comes to keeps no line from before its
launch (R101). -/
def placeSaved (s : State) (n k img : Nat) : State :=
  let t := s.thread img
  let s := noteRan (removeRun s n (.thread img)) n t
  let w (o : Nat) : Word := BitVec.ofNat 64 (physRead s (img + o) 8).1
  let kept := keptRows s n k img
  let ox := (List.range 8).foldl (fun a i => a + (w (0x240 + 8 * i)).toNat * 2 ^ (64 * i)) 0
  let x0 := s.slot n k
  let s := s.modSlot n k (fun _ =>
    { x0 with
      phase := .running, wait := .none, woken := false, img := img, handle := t.handle, pc := w 0, mapPtr := w 8, map := [],
      rows := (kept.map (·.rows)).getD 0, resident := (kept.map (·.mask)).getD 0, dirty := (kept.map (·.dirty)).getD 0,
      poisoned := (kept.map (·.poison)).getD 0, demand := none, ox := BitVec.ofNat 512 ox, amode := w 0x280, rmode := w 0x288,
      fxf := w 0x290, seed := w 0x298, licst := w 0x2A0, borrow := t.borrow, pending := [], latch := [], issued := false, stalled := false,
      preTimer := false, preTerm := false, estBase := w 0x30, defer0 := none, defer1 := none, farWait := false, waitPa := 0,
      pptWait := false, restore := t.restore, nextTurn := x0.turn + 1 })
  let s := match t.borrow with | some b => s.modSlot n b.slot (fun x => { x with lentTo := some k }) | none => s
  let s := s.modCore n (fun c => { c with former := c.former.filter (fun f => f.img ≠ img),
                                          icache := if t.lastCore = n then c.icache else [] })
  let s := s.modThread img (fun t =>
    { t with restore := false, state := 2, inSlot := true, lastCore := n, lastSlot := k, parked := false, borrow := none, defHeir := w 0x2B0 })
  loadMap s n k true (w 8) (w 0)

/-- A saved thread that enters a slot from its image. Deferred writes that the image holds are performed before its first
issue, and their VALID bits are cleared in the image before the thread leaves it (R27, R301); while a repack holds one of them
up the thread does not enter (R77). A thread that takes the map's trap holds them in its slot, as deferred places (R305). -/
def resumeThread (s : State) (n k img : Nat) : State :=
  let w (o : Nat) : Word := BitVec.ofNat 64 (physRead s (img + o) 8).1
  let d (o : Nat) : Option Deferred := deferOf (w o).toNat (w (o + 8)).toNat
  let msgs := (s.thread img).userMsgs.length
  let clear := imageWrite (imageWrite s n (img + 0x2E0) 8 (setFld (w 0x2E0) 6 1 0).toNat) n (img + 0x2F0) 8 (setFld (w 0x2F0) 6 1 0).toNat
  let t := (placeSaved (if (d 0x2E0).isNone ∧ (d 0x2F0).isNone then s else clear) n k img).modSlot n k
    (fun x => { x with defer0 := d 0x2E0, defer1 := d 0x2F0 })
  if (t.slot n k).phase = .held then deliverUser t img msgs
  else if writesFrozen t n k then s
  else deliverUser (dueAgain (tryRestore (enterOwed (pendingWrites t n k) n k) n k) n k) img msgs

/-- A saved thread uses its rows where it was saved; elsewhere its last core writes them back first (R72). -/
def resumesHere (s : State) (n k img : Nat) : Bool :=
  let t := s.thread img
  t.lastCore = n && (t.lastSlot = k || (s.core n).former.all (fun f => f.img ≠ img || f.dirty = 0))

/-- The core is online, and its joins reach the thread's image, its map and the images of former threads (R24). -/
def mayEnter (s : State) (n img : Nat) : Bool :=
  !(s.core n).offline && !heldAtJoin s n (placeOf s img) && !recordHeld s n (physRead s (img + 8) 8).1 && !formerHeld s n

/-- SLOT_FILL: the lowest free slot takes the thread entry next in order (R44). -/
def slotFill (s : State) (n : Nat) : State :=
  match nextThread s n, freeSlot s n with
  | some img, some k =>
    if !mayEnter s n img then s
    else
      if !(s.thread img).started then startThread s n k img
      else if resumesHere s n k img then resumeThread s n k img
      else s
  | _, _ => s

/-- A tile save of the thread's last core that is not performed yet keeps the thread there (R254). -/
def savesTiles (s : State) (m img : Nat) : Bool :=
  (s.core m).cmds.any (fun c => (match c.op with | .asave .. => true | _ => false) && (c.slot = 7 || c.img = img))

/-- The last core writes the thread's dirty rows back and releases them at DEVICE, then the thread resumes (R72). -/
def resumeAfterWriteback (s : State) (n i : Nat) : State :=
  match nextThread s n, freeSlot s n, (s.core n).runList[i]? with
  | some img, some k, some e =>
    let m := (s.thread img).lastCore
    if e.what ≠ .thread img ∨ !(s.thread img).started ∨ resumesHere s n k img ∨ savesTiles s m img ∨ !mayEnter s n img then s
    else
      let mine := (s.core m).former.filter (fun f => f.img = img)
      let s := mine.foldl (fun s f => writeRows s m f) s
      let s := release (dropRows s img) m 5
      resumeThread s n k img
  | _, _, _ => s

/-! ## Aging, calls, overflow (R45, R47, R328, R329) -/

/-- AGE interval of a priority, in cycles; none when it does not age. -/
def ageOf (s : State) (n prio : Nat) : Option Nat :=
  let v := fld (s.ctrlWord (0x1000 * n + 8) (ctrlReset (.dspage n))) (16 * prio) 16
  if 3 ≤ prio ∨ v = 0 then none else some (1024 * v)

def mayAge (s : State) (n : Nat) (e : RunEntry) : Bool :=
  !e.aged && (match ageOf s n e.prio with | some a => decide (a < (s.core n).cycle - e.since) | none => false)

/-- The promoted entry, and the thread's own priority. -/
def promoted (e : RunEntry) : RunEntry := { e with prio := e.prio + 1, aged := true }

def promoteThread (s : State) (n : Nat) (e : RunEntry) : State :=
  match e.what with
  | .task _ => s
  | .thread img =>
    let s := s.modThread img (fun t => { t with prio := e.prio + 1, aged := true })
    let t := s.thread img
    imageWrite s n (img + 0x14) 4 (setBits (physRead s (img + 0x14) 4).1 8 3 (t.prio + 4))

/-- Entries of the run list by index, then those of the overflow queue that wait for the core. -/
def agePromote (s : State) (n i : Nat) : State :=
  let l := (s.core n).runList
  match l[i]? with
  | some e =>
    if mayAge s n e then promoteThread (s.modCore n (fun c => { c with runList := l.take i ++ l.drop (i + 1) ++ [promoted e] })) n e else s
  | none =>
    let o := (s.tower (towerOf n)).overflow
    match o[i - l.length]? with
    | some (m, e) =>
      if m = n ∧ mayAge s n e then
        promoteThread (s.modTower (towerOf n) (fun t => { t with overflow := o.map (fun x => if x = (m, e) then (m, promoted e) else x) })) n e
      else s
    | none => s

/-- The head of a task queue becomes a thread entry. -/
def callEntryTake (s : State) (n : Nat) : State :=
  match (s.core n).taskQ with
  | [] => s
  | e :: r =>
    let from_ := coreOfCtx s n e.ctx
    if !runOpen s n then s
    else match (match from_ with | some c => takeImage s c | none => none) with
      | none =>
        if (s.core n).imagesTold then s
        else (inboxSend s n (inboxHead 0x26 0 0 0) (BitVec.ofNat 64 e.ctx.toNat) 0).modCore n (fun c => { c with imagesTold := true })
      | some (s, h) =>
        let th : Thread :=
          { handle := h, ctx := e.ctx, prio := e.prio, lastCore := n, defHeir := e.defHeir, callee := e.reply, args := e.args, seedH := h,
            acq := scopeOf [e.fromCore, n] }
        let base := (s.core (from_.getD n)).imgBase.toNat
        let s := newThread s n base h e.pc e.mapPtr 0 e.parent th
        let s := s.modCore n (fun c => { c with taskQ := r, imagesTold := false })
        wakeCaller (enterThread s n (base + h.toNat * 0x400)) n

/-- The oldest overflow entry whose run list has room enters it. -/
def overflowEnter (s : State) (w : Nat) : State :=
  match (s.tower w).overflow.find? (fun x => runRoom s x.1) with
  | none => s
  | some (n, e) =>
    (s.modTower w (fun t => { t with overflow := dropFirst (fun x => x = (n, e)) t.overflow })).modCore n (fun c => { c with runList := c.runList ++ [e] })

/-! ## Wakes, rows, repacks, messages -/

/-- A wake that may come at any time, being a hint: of a slot whose condition another device holds, or that waits for a place
in a queue (log entry 75). -/
def mayWake (x : Slot) : Bool := x.woken || x.farWait || x.wait == .send || x.wait == .callat

/-- A woken slot evaluates its condition again in its next turn (R49); a removed one waits for its reinsertion (R364). -/
def wakeRecheck (s : State) (n k : Nat) : State :=
  let x := s.slot n k
  if x.phase = .blocked ∧ mayWake x ∧ k < 7 ∧ !slotRemoved s n k ∨ (x.phase = .blocked ∧ mayWake x ∧ k = 7 ∧ x.wait ≠ .none) then
    (s.modSlot n k (fun x => { x with phase := .running, woken := false, nextTurn := x.turn + 1 })).modThread x.img (fun t => { t with state := 2 })
  else s

/-- An error of a structure of the core counted in ECCLOG, in CORR (`lo` 0) or UNCORR (`lo` 16), with LAST (R370). -/
def eccCount (s : State) (n lo what : Nat) : State :=
  let off := 0x1000 * n + 0x28
  let w := s.ctrlWord off 0
  setCtrl s off (setFld (setFld w lo 16 (min 0xFFFF (fld w lo 16 + 1))) 32 4 what)

/-- An uncorrectable error. -/
def eccNote (s : State) (n what : Nat) : State := eccCount s n 16 what

/-- Physical address of the sector that a demanded row is filled from. -/
def demandPa (s : State) (n k r : Nat) : Nat :=
  if r < 32 then (s.slot n k).img + 0x40 + 16 * r
  else match (s.slot n k).borrow with
    | some b => backPa b (r - 32)
    | none => 0

def rowFill (s : State) (n k : Nat) (bad : Bool) : State :=
  match (s.slot n k).demand with
  | none => s
  | some r =>
    if formerHeld s n ∨ heldAtJoin s n (placeOf s (demandPa s n k r)) then s else
    let s := if bad then eccNote s n 1 else s
    if r < 32 then fillRow s n k r bad else fillBorrow s n k (r - 32) bad

/-- Threads that a core has saved with a borrowed slot. -/
def savedBorrows (s : State) (n : Nat) : List Nat :=
  (s.threads.filter (fun t => t.2.borrow.isSome && !t.2.inSlot && t.2.lastCore = n)).map (·.1)

/-- The borrowed rows of a saved thread written to the backing area, clean after it. -/
def writeSavedBorrow (s : State) (n img : Nat) : State :=
  match (s.thread img).borrow with
  | none => s
  | some b => (writeBorrow s n b).modThread img (fun t => { t with borrow := some { b with dirty := 0 } })

/-- Idle rows written back: those of a former thread, or behind them the borrowed rows of a saved thread, which go to the
backing area (R71, R73). -/
def rowIdleWriteback (s : State) (n i : Nat) : State :=
  let l := (s.core n).former
  match l[i]? with
  | some f => writeRows s n f
  | none => match (savedBorrows s n)[i - l.length]? with
    | some img => writeSavedBorrow s n img
    | none => s

/-- The fuller finds rows of a slot's repack in progress uncorrectable (R78). -/
def repackSpoil (s : State) (n k : Nat) (bad : BitVec 32) : State :=
  match (s.slot n k).repack with
  | some r => (eccNote s n (if r.region == .pair then 6 else 1)).modSlot n k (fun x => { x with repack := some { r with bad := r.bad ||| bad } })
  | none => s

/-- MAPGEN of a core counts (R78). -/
def bumpMapGen (s : State) (n : Nat) : State := s.modCore n (fun c => { c with mapGen := c.mapGen + 1 })

/-- Rows of a region after a repack: those that it touched hold the names at their new places, the others stay as they are. -/
def repackRows {w : Nat} (rows : BitVec w) (old new : List (Nat × Nat)) (j bits : Nat) : BitVec w :=
  let m := BitVec.ofNat w (rowsMask (touchedRows old new))
  (rows &&& ~~~m) ||| (BitVec.ofNat w (moveBits rows.toNat old new j bits) &&& m)

/-- Poison of a region's rows after a repack that found the rows of `bad` uncorrectable. -/
def repackPoison {w : Nat} (poison : BitVec w) (bad : BitVec 32) (old new : List (Nat × Nat)) : BitVec w :=
  let m := BitVec.ofNat w ((touchedRows old new).foldl (fun a k => a ||| 2 ^ k) 0)
  (poison &&& ~~~m) ||| (BitVec.ofNat w (movePoison (poison.toNat ||| bad.toNat) old new) &&& m)

/-- The end of a slot's repack: the bits move to the new places, a name of a row found uncorrectable with poison, a row that
becomes resident takes its room (R71), and MAPGEN counts (R78). -/
def completeRepack (s : State) (n k : Nat) : State :=
  match (s.slot n k).repack with
  | none => s
  | some r =>
    let old := regionLayout s n k r.region
    let j := regionPos (s.slot n k).map r.name r.region
    let s1 := (modifyName s n k r.name (fun d => { d with width := r.width })).modSlot n k (fun x => { x with repack := none })
    let new := regionLayout s1 n k r.region
    match r.region with
    | .priv =>
      let rows := touchedRows old new
      let marks := BitVec.ofNat 32 (rows.foldl (fun a i => a ||| 2 ^ i) 0)
      let s1 := (rows.filter (fun i => decide (k < 7) && !(s1.slot n k).resident.getLsbD i)).foldl (fun s _ => roomForRow s n k) s1
      bumpMapGen (s1.modSlot n k (fun x =>
        { x with
          rows := repackRows x.rows old new j r.bits.toNat
          poisoned := repackPoison x.poisoned r.bad old new
          dirty := x.dirty ||| marks
          resident := x.resident ||| marks })) n
    | .shared =>
      bumpMapGen (s1.modCore n (fun c =>
        { c with
          sharedRows := repackRows c.sharedRows old new j r.bits.toNat
          sharedPoison := repackPoison c.sharedPoison r.bad old new })) n
    | .pair =>
      bumpMapGen (bumpMapGen (s1.modPair (pairOf n) (fun p =>
        { p with
          rows := repackRows p.rows old new j r.bits.toNat
          poison := repackPoison p.poison r.bad old new })) n) (twinOf n)

/-- A slot's repack whose time is over takes effect. -/
def repackSlot (s : State) (n k : Nat) : State :=
  match (s.slot n k).repack with
  | some r => if r.until_ ≤ (s.core n).cycle then completeRepack s n k else s
  | none => s

/-- REPACK_COMPLETE: the core's repacks whose time is over take effect. -/
def repackDone (s : State) (n : Nat) : State := (List.range 8).foldl (fun s k => repackSlot s n k) s

/-- A message whose first flit arrives, which wakes a receiver (R48), and then its others; messages of one party arrive in the
order of their sends (R173). A place that is only reserved holds no flits. -/
def messageDeliver (s : State) (n ch i : Nat) : State :=
  let c := (s.core n).chan ch
  match c.travel[i]? with
  | some m =>
    let before (x : Msg) : Bool := x.fromCore = m.fromCore && x.fromSlot = m.fromSlot && !x.flits.isEmpty
    if m.flits = [] ∨ (c.travel.take i).any before ∨ (m.fromCore < 1024 ∧ coresApart s n m.fromCore) then s
    else if 1 < m.flits.length ∧ !m.headed then
      wakeRecv (s.modCore n (fun x => x.setChan ch
        { c with travel := c.travel.take i ++ { m with headed := true } :: c.travel.drop (i + 1) })) n ch
    else
      wakeRecv (s.modCore n (fun x => x.setChan ch
        { ready := c.ready ++ [m], travel := c.travel.take i ++ c.travel.drop (i + 1) })) n ch
  | none => s

/-! ## The events -/

def execSubmissionPlaceWait (core : Nat) (s : State) : Host.Outcome State Fault Refusal :=
  runEvent (decide (core < 1024)) (fun s => submissionGo s core) s
def execTaskCounterDecrement (task : Nat) (bereaved : Bool) (s : State) : Host.Outcome State Fault Refusal :=
  runEvent true (fun s => decrementGo s task bereaved) s
def execDealTask (core : Nat) (s : State) : Host.Outcome State Fault Refusal := runEvent (decide (core < 1024)) (fun s => dealTask s core) s
def execDealResume (idx : Nat) (s : State) : Host.Outcome State Fault Refusal := runEvent true (fun s => dealResume s idx) s
def execSlotFill (core : Nat) (s : State) : Host.Outcome State Fault Refusal := runEvent (decide (core < 1024)) (fun s => slotFill s core) s
def execResumeAfterWriteback (core : Nat) (idx : Nat) (s : State) : Host.Outcome State Fault Refusal :=
  runEvent (decide (core < 1024)) (fun s => resumeAfterWriteback s core idx) s
def execAgePromote (core : Nat) (idx : Nat) (s : State) : Host.Outcome State Fault Refusal :=
  runEvent (decide (core < 1024)) (fun s => agePromote s core idx) s
def execCallEntryTake (core : Nat) (s : State) : Host.Outcome State Fault Refusal :=
  runEvent (decide (core < 1024)) (fun s => callEntryTake s core) s
def execOverflowEnter (tower : Nat) (s : State) : Host.Outcome State Fault Refusal :=
  runEvent (decide (tower < 2)) (fun s => overflowEnter s tower) s
def execSuccessorStart (task : Nat) (s : State) : Host.Outcome State Fault Refusal := runEvent true (fun s => successorStart s task) s
def execWakeRecheck (core : Nat) (slot : Nat) (s : State) : Host.Outcome State Fault Refusal :=
  runEvent (decide (core < 1024) && decide (slot < 8)) (fun s => wakeRecheck s core slot) s
def execRowFill (core : Nat) (slot : Nat) (bad : Bool) (s : State) : Host.Outcome State Fault Refusal :=
  runEvent (decide (core < 1024) && decide (slot < 8)) (fun s => rowFill s core slot bad) s
def execRowIdleWriteback (core : Nat) (idx : Nat) (s : State) : Host.Outcome State Fault Refusal :=
  runEvent (decide (core < 1024)) (fun s => rowIdleWriteback s core idx) s
def execRepackComplete (core : Nat) (s : State) : Host.Outcome State Fault Refusal :=
  runEvent (decide (core < 1024)) (fun s => repackDone s core) s

end Sys2Proof.Machine
end

