-- ==== Sys2Proof/Machine/Fetch.lean ====
section
/-! DEFINITION. Machine/Fetch.lean: the fetch of an instruction through the instruction cache and its decoding (R99 to R102,
R111 to R113, R115, R308). -/

namespace Sys2Proof.Machine

/-- A line as a miss of the instruction cache reads it, with the dirty sectors of the core's own L1: what the core has
released at SLOT or CORE is there (R101, R264; log entry 60). -/
def missLine (s : State) (n : Nat) (l : Line) : Line :=
  match findLine (s.core n).l1 l.addr with
  | none => l
  | some d =>
    let m := sectorBytes d.dirty.toNat
    if m = 0 then l
    else { l with
      data := BitVec.ofNat 1024 (mergeBytes l.data.toNat d.data.toNat m)
      poison := BitVec.ofNat 128 ((l.poison.toNat &&& ((2 ^ 128 - 1) ^^^ m)) ||| (d.poison.toNat &&& m)) }

/-- A line of code as the core reads it: a copy in the instruction cache, which stores do not update, may be used or have
left the cache: free where the two differ (R101). -/
def codeLine (s : State) (n a : Nat) : State × Line :=
  let (t, l) := l2Fetch s (clusterOf n) a
  let fresh := missLine s n l
  let place (t : State) (l : Line) : State := t.modCore n (fun c => { c with icache := (putLine c.icache l).take 512 })
  match findLine (s.core n).icache a with
  | some l =>
    if l.data = fresh.data ∧ l.poison = fresh.poison then (s, l)
    else if Config.freeNat s.tick % 2 = 0 then (s.ticked, l)
    else (place t.ticked fresh, fresh)
  | none => (place t fresh, fresh)

/-- How a fetch ends. -/
inductive Fetched (α : Type) where
  | ok (s : State) (v : α)
  | wait (s : State)
  | trap (s : State) (c : Cause) (v : Word) (len32 : Bool)

/-- One parcel. -/
def fetchParcel (s : State) (n k va : Nat) (len32 : Bool) : Fetched Nat :=
  if walkHeld s n va then .wait s else
  match translate s n (decide (k < 7)) .fetch va with
  | .trap c v => .trap s c v len32
  | .ok s pa attr =>
    if attr = 1 ∨ attr = 2 then .trap s .protect (BitVec.ofNat 64 va) len32
    else
      let p := placeOf s pa
      if heldAtJoin s n p then .wait s
      else match p with
        | .home a | .pool a =>
          if engineOwns s a && (findLine (s.core n).icache (lineBase a)).isNone then .wait s else
          let (s, l) := codeLine s n (lineBase a)
          if bitsAt l.poison.toNat (a % 128) 2 ≠ 0 then .trap s .poison (poisonVal a) len32
          else .ok s (bitsAt l.data.toNat (8 * (a % 128)) 16)
        | .window m off => match windowRead s { core := n, slot := some k } m off 2 pa (BitVec.ofNat 64 va) with
          | .ok s v q _ => if q ≠ 0 then .trap s .poison (poisonVal pa) len32 else .ok s v
          | .wait s => .wait s
          | .trap c v => .trap s c v len32
          | .remote s _ _ => .wait s
        | .ctrl _ => if k < 7 then .trap s .protect (BitVec.ofNat 64 va) len32 else .trap s .buserr (BitVec.ofNat 64 pa) len32
        | .remote _ _ => .ok s.ticked (Config.freeBits s.tick pa 16 % 65536)
        | .hole => .trap s .buserr (BitVec.ofNat 64 pa) len32

/-- The bytes of the instruction at an address. -/
def fetchBytes (s : State) (n k va : Nat) : Fetched (List Byte) :=
  if va % 2 = 1 then .trap s .misalign (BitVec.ofNat 64 va) false
  else match fetchParcel s n k va false with
    | .wait s => .wait s
    | .trap s c v l => .trap s c v l
    | .ok s p =>
      if isLong p then
        match fetchParcel s n k ((va + 2) % 2 ^ 64) true with
        | .wait s => .wait s
        | .trap s c v l => .trap s c v l
        | .ok s q => .ok s (leBytes 2 p ++ leBytes 2 q)
      else .ok s (leBytes 2 p)

/-- The word of an instruction that does not decode, for TRVAL. -/
def rawWord (bs : List Byte) : Nat :=
  if bs.length = 4 then leValue (bs.take 2) * 65536 + leValue (bs.drop 2) else leValue bs

/-- The trap of an instruction that does not decode: a function of R308's table in a user slot traps PRIV before its
fields are looked at (R308; log entry 73). -/
def decodeCause (k : Nat) (bs : List Byte) (e : DecodeError) : Cause :=
  if e = .reservedField ∧ k < 7 ∧ rawWord bs / 2 ^ 25 % 64 = 0x38 then .priv else .illegal

/-- The instruction that a slot issues next. -/
def fetchInstr (s : State) (n k va : Nat) : Fetched Instr :=
  match fetchBytes s n k va with
  | .wait s => .wait s
  | .trap s c v l => .trap s c v l
  | .ok s bs => match decodeBytes bs with
    | .ok (i, _) => .ok s i
    | .error e => .trap s (decodeCause k bs e) (BitVec.ofNat 64 (rawWord bs)) (decide (bs.length = 4))

/-- Whether the instruction not issued at an address is 32 bits long, for LEN32 of PREEMPT; free when it cannot be
fetched. -/
def longAt (s : State) (n k va : Nat) : Bool :=
  match fetchParcel s n k va false with
  | .ok _ p => isLong p
  | _ => Config.freeNat s.tick % 2 = 0

end Sys2Proof.Machine
end

