-- ==== Sys2Proof/Machine/CoreEvents.lean ====
section
/-! DEFINITION. Machine/CoreEvents.lean: late results (R107), timers and pre-emption (R255, R298, R300), the events of the
system slot (R293 to R295), the conveyance of a dying thread's estate (R205, R316) and the comparison of redundant copies
(R333, R334). An event that is not enabled leaves the state as it is. -/

namespace Sys2Proof.Machine

/-! ## Results (R107) -/

/-- A variable-latency result arrives: it is written, and the stall that it caused ends. Results of the same name that were
issued before it are written before it, so they change nothing any more. -/
def resultArrival (s : State) (n k i : Nat) : State :=
  match (s.slot n k).pending[i]? with
  | some p =>
    if p.due.isSome then s
    else (writeBits s n k p.name p.bits.toNat).modSlot n k (fun x =>
      { x with pending := (x.pending.take i).filter (fun q => q.name ≠ p.name) ++ x.pending.drop (i + 1) })
  | none => s

/-! ## Timers (R298) -/

def timerRuns (x : Slot) : Bool := fld x.timer 40 1 = 1 && x.phase != .free && x.phase != .held

/-- EN clears; with PRE the slot gets a pre-emption request, else the system slot a TIMER event. -/
def timerExpire (s : State) (n k : Nat) : State :=
  let x := s.slot n k
  if k < 7 ∧ timerRuns x ∧ fld x.timer 0 40 = 0 then
    let s := s.modSlot n k (fun x => { x with timer := setFld x.timer 40 1 0 })
    if fld x.timer 41 1 = 1 then
      s.modSlot n k (fun x => { x with preTimer := true, preSince := if x.preTimer || x.preTerm then x.preSince else (s.core n).cycle })
    else s.modCore n (fun c => { c with timePend := c.timePend ||| BitVec.ofNat 7 (2 ^ k) })
  else s

/-! ## Pre-emption (R255, R300) -/

def preAsked (x : Slot) : Bool := x.preTimer || x.preTerm

/-- PREEMPT taken at the instruction not issued; the image will show what a blocked thread waited for (R52). -/
def takePreempt (s : State) (n k value : Nat) : State :=
  let x := s.slot n k
  let s := dropWaits s n k
  let s := trapUser s n k (longAt s n k x.pc.toNat) .preempt (BitVec.ofNat 64 value) x.pc
  s.ticked.modSlot n k (fun y => { y with preTimer := false, preTerm := false, wait := if x.phase == .blocked then x.wait else .none,
                                          waitArg := x.waitArg })

def preemptTake (s : State) (n k : Nat) : State :=
  if k < 7 ∧ preAsked (s.slot n k) ∧ !holdsLic s (pairOf n) (slotReq s n k) ∧ atBoundary s n k ∧ !slotRemoved s n k then takePreempt s n k 0
  else s

/-- A licensed thread has reached no PPT in 2^20 cycles: it stops at its next boundary. -/
def forceDue (s : State) (n k : Nat) : Bool :=
  let x := s.slot n k
  decide (k < 7) && preAsked x && !x.pptWait && holdsLic s (pairOf n) (slotReq s n k) && decide (x.preSince + 1048576 ≤ (s.core n).cycle)

def preemptForce (s : State) (n k : Nat) : State :=
  if forceDue s n k ∧ atBoundary s n k ∧ !matrixBusy s n k ∧ !slotRemoved s n k then takePreempt s n k 0xF else s

/-! ## The system slot's events (R293 to R295) -/

def sysvecWord (s : State) (n : Nat) : Word := s.ctrlWord (0x1000 * n) 0

/-- Lowest slot of a pending mask. -/
def lowestBit (m : BitVec 7) : Option Nat := (List.range 7).find? (fun k => m.getLsbD k)

/-- The pending event that comes first: its kind and slot. -/
def nextEvent (c : Core) : Option (Nat × Nat) :=
  if c.resetPend then some (0, 0)
  else match lowestBit c.trapPend with
    | some k => some (1, k)
    | none => match lowestBit c.timePend with
      | some k => some (2, k)
      | none => if c.inbox ≠ [] then some (3, 0) else none

/-- The map of a RESET event, read by physical address, or the trap that stops the slot (R294). -/
def resetMap (s : State) (n : Nat) : Except (Cause × Word) State :=
  let pa := (s.ctrlWord (0x1000 * n + 0x38) 0).toNat
  if pa = 0 then .ok (s.modSlot n 7 (fun x => { x with map := [], mapPtr := 0 }))
  else
    let (count, p) := physRead s pa 8
    let len := min 63 (bitsAt count 0 8)
    let got := (List.range len).map (fun i => physRead s (pa + 8 + 4 * i) 4)
    let shut (a : Nat) : Bool := match placeOf s a with
      | .home _ | .pool _ => false
      | .window w off => decide (0x200000 ≤ off) || windowShut s n w
      | _ => true
    if pa % 8 ≠ 0 then .error (.misalign, BitVec.ofNat 64 pa)
    else match ((List.range ((len + 1) / 2 + 1)).map (fun i => pa + 8 * i)).find? shut with
    | some a => .error (.buserr, BitVec.ofNat 64 a)
    | none =>
    if p ≠ 0 then .error (.poison, poisonVal pa)
    else match (List.range got.length).find? (fun i => (got.getD i (0, 0)).2 ≠ 0) with
      | some i => .error (.poison, poisonVal (pa + 8 + 4 * i))
      | none => match mapInstall s n 7 false count (got.map (·.1)) with
        | .ok s => .ok (s.modSlot n 7 (fun x => { x with mapPtr := BitVec.ofNat 64 pa }))
        | .error v => .error (.maperr, v)

/-- The site is enabled and its die serves it. -/
def siteUp (s : State) (n : Nat) : Bool := harvestBit s n && !(s.core n).offline

def systemEventBegin (s : State) (n : Nat) : State :=
  let c := s.core n
  if c.evActive ∨ c.stopped ∨ !siteUp s n ∨ (s.slot n 7).pending ≠ [] then s
  else match nextEvent c with
    | none => s
    | some (kind, k) =>
      let s := s.modCore n (fun c =>
        { c with
          evActive := true, evKind := BitVec.ofNat 2 kind, evSlot := BitVec.ofNat 3 k, resetPend := c.resetPend && kind ≠ 0,
          trapPend := if kind = 1 then c.trapPend &&& ~~~(BitVec.ofNat 7 (2 ^ k)) else c.trapPend,
          timePend := if kind = 2 then c.timePend &&& ~~~(BitVec.ofNat 7 (2 ^ k)) else c.timePend })
      let vec := sysvecWord s n
      let s := s.modSlot n 7 (fun x =>
        { x with phase := .running, wait := .none, woken := false, pc := vec, nextTurn := x.turn + 1, latch := [], issued := false, stalled := false,
                 resident := 0xFFFF })
      if kind ≠ 0 then s
      else match resetMap s n with
        | .ok s => s
        | .error (c, v) => trapSystem s n false c v vec

/-- A stopped system slot is restarted at SYSVEC with a RESET event. -/
def systemSlotRestart (s : State) (n : Nat) : State :=
  if (s.core n).stopped then
    systemEventBegin ((s.modCore n (fun c => { c with stopped := false, evActive := false, resetPend := true })).modSlot n 7
      (fun x => { x with phase := .blocked, wait := .none, pending := [], latch := [], issued := false })) n
  else s

/-! ## Conveyance at EXIT and KILL (R169, R205, R208, R306, R316) -/

/-- The stream and matrix commands of a dying thread are complete. -/
def dyingReady (s : State) (img : Nat) : Bool :=
  s.cores.all (fun c => c.2.cmds.all (fun x => x.img ≠ img || !(isStream x.op || isMatrix x.op || (match x.op with | .setf .. => true | _ => false))))

/-- The reply of a callee: its value or zero, its handle and STATUS. -/
def replyFlit (t : Thread) : BitVec 128 :=
  BitVec.ofNat 128 ((if t.killVal.isSome then 2 ^ 96 else t.retVal.toNat) + t.handle.toNat * 2 ^ 64)

/-- The end of a thread whose estate is empty: a callee's reply as soon as it has a place, then its slot and handle. -/
def lastSteps (s : State) (img : Nat) : State :=
  let t := s.thread img
  match t.callee with
  | none => threadGone s img
  | some r =>
    let n := t.lastCore
    let k := t.lastSlot
    if placeFree s r.core r.chan 1025 img then
      let m : Msg := { flits := [replyFlit t], info := msgInfo 1 k false (logicalOf s n) s.devId true, rel := none, fromCore := n, fromSlot := k }
      let s := reserveMsg (dropSender s r.core r.chan 1025 img) r.core r.chan m
      threadGone (wakeSender s r.core r.chan) img
    else noteSender s r.core r.chan 1025 img

/-- A conveyance under way at another device delivers to the thread, whose end waits for it. -/
def deliveryDue (s : State) (img : Nat) : Bool := s.remoteOps.any (fun r => r.heir = .thread img)

/-- One entry of a dying thread's estate, the most recent first; an ENGINE entry waits for its command, and a conveyance for the
thread's writes to other devices (R205, R264, R279). -/
def conveyStep (s : State) (i : Nat) : State :=
  match s.dying[i]? with
  | none => s
  | some img =>
    if !dyingReady s img then s
    else match (s.thread img).estate with
      | [] => if deliveryDue s img ∨ inboxPending s 1024 img ∨ heldAtJoin s (s.thread img).lastCore (placeOf s img) then s else lastSteps s img
      | e :: _ =>
        let t := s.thread img
        if engineBusy s img e ∨ inboxPending s 1024 img ∨ putsHeld s t.lastCore t.lastSlot (conveyScope s t (conveyHeir s (1024, img) img e)) then s
        else
          let drop (t : State) : State := estateDrop t img (fun x => x.seq = e.seq)
          match conveyOne s (1024, img) img e with
          | .wait s => s
          | .ok s => drop s
          | .stale s => drop (convFault s t.lastCore (1024, img) t e 0)
          | .fault c _ => drop (convFault (dropCall s 1024 img) t.lastCore (1024, img) t e c.code)

/-! ## Redundant copies (R333, R334) -/

/-- The thread of a copy. -/
def copyThread (s : State) (e : DualEffect) (copy : Nat) : Option Nat :=
  (s.threads.find? (fun t => t.2.task = some e.task && t.2.group = e.group && t.2.member = e.member && t.2.copy = some copy
    && ((1 ≤ t.2.state && t.2.state ≤ 5) || t.2.dying))).map (·.1)

/-- Both copies are killed hard with REASON 2, and each core's system slot is told. -/
def dualMismatch (s : State) (e : DualEffect) : State :=
  let word := killWord 0x3FF true 2 true
  let report (s : State) (me other : Option Nat) : State :=
    match me with
    | none => s
    | some i =>
      let t := s.thread i
      let aux := match other with | some j => (s.thread j).lastCore + (s.thread j).handle.toNat * 2 ^ 32 | none => 0
      inboxSend s t.lastCore (inboxHead 0x14 t.lastSlot 0 t.handle.toNat) (BitVec.ofNat 64 e.k) (BitVec.ofNat 64 aux)
  let a := copyThread s e 0
  let b := copyThread s e 1
  let s := report (report s a b) b a
  let s := { s with dual := s.dual.filter (fun f => !(f.task = e.task && f.group = e.group && f.member = e.member)) }
  let kill (s : State) (o : Option Nat) : State := match o with | some i => killThread s i true word | none => s
  kill (kill s a) b

def sameEffect (e f : DualEffect) : Bool := e.task = f.task && e.group = f.group && e.member = f.member && e.k = f.k

def dualCompare (s : State) (task group : Nat) : State :=
  let mine := s.dual.filter (fun e => e.task = task && e.group = group && e.stage = 0)
  match mine.find? (fun e => e.copy = 0 && mine.any (fun f => f.copy = 1 && sameEffect e f)) with
  | none => s
  | some e => match mine.find? (fun f => f.copy = 1 && sameEffect e f) with
    | none => s
    | some f =>
      if e.hash = f.hash then { s with dual := s.dual.map (fun x => if x = e ∨ x = f then { x with stage := 1 } else x) }
      else dualMismatch s e

def dualTimeout (s : State) (task group : Nat) : State :=
  let mine := s.dual.filter (fun e => e.task = task && e.group = group && e.stage = 0)
  match mine.find? (fun e => decide (e.since + 1048576 ≤ (s.core e.core).cycle) && !mine.any (fun f => f.copy ≠ e.copy && sameEffect e f)) with
  | none => s
  | some e => dualMismatch s e

/-! ## The events -/

def execAccessResultArrival (core : Nat) (slot : Nat) (idx : Nat) (s : State) : Host.Outcome State Fault Refusal :=
  runEvent (decide (core < 1024) && decide (slot < 8)) (fun s => resultArrival s core slot idx) s
def execTimerExpire (core : Nat) (slot : Nat) (s : State) : Host.Outcome State Fault Refusal :=
  runEvent (decide (core < 1024) && decide (slot < 8)) (fun s => timerExpire s core slot) s
def execPreemptTake (core : Nat) (slot : Nat) (s : State) : Host.Outcome State Fault Refusal :=
  runEvent (decide (core < 1024) && decide (slot < 8)) (fun s => preemptTake s core slot) s
def execPreemptForce (core : Nat) (slot : Nat) (s : State) : Host.Outcome State Fault Refusal :=
  runEvent (decide (core < 1024) && decide (slot < 8)) (fun s => preemptForce s core slot) s
def execSystemEventBegin (core : Nat) (s : State) : Host.Outcome State Fault Refusal :=
  runEvent (decide (core < 1024) && decide ((s.core core).cycle % 8 = 7)) (fun s => systemEventBegin s core) s
def execSystemSlotRestart (core : Nat) (s : State) : Host.Outcome State Fault Refusal :=
  runEvent (decide (core < 1024)) (fun s => systemSlotRestart s core) s
def execConveyEntry (idx : Nat) (s : State) : Host.Outcome State Fault Refusal := runEvent true (fun s => conveyStep s idx) s
def execDualEffectCompare (task : Nat) (group : Nat) (s : State) : Host.Outcome State Fault Refusal :=
  runEvent true (fun s => dualCompare s task group) s
def execDualPartnerTimeout (task : Nat) (group : Nat) (s : State) : Host.Outcome State Fault Refusal :=
  runEvent true (fun s => dualTimeout s task group) s

end Sys2Proof.Machine
end

