-- ==== Sys2Proof/Machine/EngineEvents.lean ====
section
/-! DEFINITION. Machine/EngineEvents.lean: the steps of engine commands (R87, R218, R219, R227 to R237, R242 to R258, R349,
R377) and of a pair's licence (R247). An event names a command by its place in the core's list; one that is not enabled
leaves the state as it is. -/

namespace Sys2Proof.Machine

/-! ## Stream commands -/

def cmdEvent (s : State) (n i : Nat) (ok : Cmd → Bool) (f : State → Cmd → State) : State :=
  match cmdAt s n i with
  | some c => if ok c then f s c else s
  | none => s

def isSetf (c : CmdOp) : Bool := match c with | .setf .. => true | _ => false
def isCopy (c : CmdOp) : Bool := match c with | .copy _ => true | _ => false
def isColl (c : CmdOp) : Bool := match c with | .coll _ => true | _ => false
def isHost (c : CmdOp) : Bool := match c with | .host _ => true | _ => false
def isXform (c : CmdOp) : Bool := match c with | .xform .. => true | _ => false

/-- A command at work: started, not parked, no fault that waits. -/
def working (c : Cmd) : Bool := c.started && c.park.isNone && c.faulted.isNone

/-- SETF replaces the register once the commands before it on its bank are done (R87). -/
def setfTakeEffect (s : State) (n i : Nat) : State :=
  cmdEvent s n i (fun c => isSetf c.op && mayStart s n c) (fun s c => dropCmd (performSetf s n c) n c)

def streamStart (s : State) (n i : Nat) : State := cmdEvent s n i (fun c => isStream c.op && mayStart s n c) (fun s c => startCmd s n c)

def streamComplete (s : State) (n i : Nat) : State :=
  cmdEvent s n i (fun c => isStream c.op && working c) (fun s c =>
    endCmd (landRest s c 0 (fun s => streamLay s n c) (fun s => performStream s n c)) n c)

/-- The chunk that a command waits for has its bit set: acquire at DEVICE (R227). A barrier object on another device shows
its bit at a free moment (log entry 3). -/
def chunkSet (s : State) (c : Cmd) : Bool :=
  match c.chunk with
  | none => false
  | some (pa, k) => match placeOf s pa with
    | .remote _ _ => Config.freeNat s.tick % 2 = 0
    | _ => (physRead s (pa + 16) 8).1.testBit k

def chunkRelease (s : State) (n i : Nat) : State :=
  cmdEvent s n i (fun c => !c.released && chunkSet s c)
    (fun s c => modCmd (acquire s.ticked n 5) n c.seq (fun c => { c with released := true }))

/-! ## Copy, collective, host and transform commands -/

def copyStarts (s : State) (n i : Nat) : State :=
  cmdEvent s n i (fun c => isCopy c.op && mayStart s n c && !engineDown s n) (fun s c => copyStart s n c)
def copyEnds (s : State) (n i : Nat) : State := cmdEvent s n i (fun c => isCopy c.op && working c) (fun s c => copyComplete s n c)

def collStarts (s : State) (n i : Nat) : State := cmdEvent s n i (fun c => isColl c.op && mayStart s n c) (fun s c => collStart s n c)
def chunkLands (s : State) (n i k : Nat) : State := cmdEvent s n i (fun c => isColl c.op && working c) (fun s c => landChunk s n c k)

/-- A switch that refuses, at any moment, or has not answered for 2^20 cycles: the event stands for either (R377). -/
def switchTimeout (s : State) (n i : Nat) : State :=
  cmdEvent s n i (fun c => isColl c.op && working c && c.inswitch) (fun s c => collTimeout s n c)

def hostSends (s : State) (n i : Nat) : State :=
  cmdEvent s n i (fun c => isHost c.op && c.faulted.isNone) (fun s c => hostSend s n c)

def xformStarts (s : State) (n i : Nat) : State :=
  cmdEvent s n i (fun c => isXform c.op && mayStart s n c && !engineDown s n) (fun s c => xformStartCmd s n c)
def xformEnds (s : State) (n i : Nat) : State := cmdEvent s n i (fun c => isXform c.op && working c) (fun s c => xformEnd s n c)

/-! ## Matrix commands -/

/-- A start; ACLR, which has no event of its own, is performed whole at its start. -/
def matrixStarts (s : State) (n i : Nat) : State :=
  cmdEvent s n i (fun c => isMatrix c.op && c.op ≠ .marker)
    (fun s c => match c.op with
      | .aclr _ => if mayStart s n c then performMatrix s n c else s
      | _ => matrixStart s n c)

/-- The completion of an MMA or MMAD falls in a cycle of its own (R238). -/
def mmaEnds (s : State) (n i : Nat) : State := cmdEvent s n i (fun c => mmaDue s n c) (fun s c => performMatrix s n c)

def mcastExpires (s : State) (n i : Nat) : State := cmdEvent s n i (fun c => isMatrix c.op) (fun s c => mcastExpire s n c)

def opIsTopk (c : CmdOp) : Bool := match c with | .topk .. => true | _ => false
def opIsDrain (c : CmdOp) : Bool := match c with | .drain .. => true | _ => false
def opIsSave (c : CmdOp) : Bool := match c with | .asave .. => true | _ => false
def opIsRestore (c : CmdOp) : Bool := match c with | .arst .. => true | .restore .. => true | _ => false

def matrixEnds (s : State) (n i : Nat) (op : CmdOp → Bool) : State :=
  cmdEvent s n i (fun c => op c.op && c.started) (fun s c => performMatrix s n c)

def markerFires (s : State) (n i : Nat) : State :=
  cmdEvent s n i (fun c => c.op = .marker && markerReady s n c) (fun s c => performMatrix s n c)

/-! ## Parts of what a command reads and writes (R219, R229, R243, R271) -/

/-- A step of a command at work, in any order: it reads, finds values, or has some unit of what it writes land; `part` is a
collective's chunk. -/
def landUnit (s : State) (n : Nat) (c : Cmd) (part u : Nat) : State :=
  match c.op with
  | .copy b => copySome s n c b u
  | .coll _ => chunkSome s n c part u
  | .xform .. => xformSome s n c u
  | .topk .. | .drain .. | .asave .. | .mma .. => matrixSome s n c part u
  | _ => if isStream c.op then streamSome s n c u else s

def engineProgress (s : State) (n i part u : Nat) : State := cmdEvent s n i working (fun s c => landUnit s n c part u)

/-! ## Parking (R349) -/

def parks (s : State) (n i : Nat) : State := cmdEvent s n i (fun c => c.faulted.isSome) (fun s c => parkCmd s n c)

/-! ## Licences (R247) -/

/-- A term ends once another requester waits: 256 commands accepted, or 2^20 cycles since the grant. -/
def termEnds (s : State) (p : Nat) : State :=
  let x := s.pair p
  match x.holder with
  | none => s
  | some h =>
    if x.lic = .held ∧ x.fifo ≠ [] ∧ (256 ≤ x.termN ∨ x.granted + 1048576 ≤ (s.core h.core).cycle) then
      let now := match reqSlot s h with | some (n, _) => (s.core n).cycle | none => 0
      modReq (s.modPair p (fun x => { x with lic := .due })) h (fun y =>
        { y with preTerm := true, preSince := if y.preTimer then y.preSince else now })
    else s

/-- MMA and MMAD commands of the former holder are left on either core of the pair. -/
def drainsLeft (s : State) (p : Nat) : Bool :=
  match (s.pair p).drains with
  | none => false
  | some r => [2 * p, 2 * p + 1].any (fun n => (s.core n).cmds.any (fun c => isMma c.op && c.img = r.img && (r.img ≠ 0 || n = r.core)))

/-- The licence passes to the named grantee, else to the head of the FIFO, else it is free. -/
def drainGrant (s : State) (p : Nat) : State :=
  let x := s.pair p
  if x.lic ≠ .draining ∨ drainsLeft s p then s
  else
    let named := match x.grantee with | some g => x.fifo.find? (sameReq g) | none => none
    let s := s.modPair p (fun x => { x with drains := none, grantee := none, lic := .free, holder := none })
    match named.or x.fifo.head? with
    | some r => licGrant s p r
    | none => s

/-! ## The events -/

def execSetfTakeEffect (core : Nat) (idx : Nat) (s : State) : Host.Outcome State Fault Refusal :=
  runEvent (decide (core < 1024)) (fun s => setfTakeEffect s core idx) s
def execStreamCommandStart (core : Nat) (idx : Nat) (s : State) : Host.Outcome State Fault Refusal :=
  runEvent (decide (core < 1024)) (fun s => streamStart s core idx) s
def execStreamCommandComplete (core : Nat) (idx : Nat) (s : State) : Host.Outcome State Fault Refusal :=
  runEvent (decide (core < 1024)) (fun s => streamComplete s core idx) s
def execChunkWaitRelease (core : Nat) (idx : Nat) (s : State) : Host.Outcome State Fault Refusal :=
  runEvent (decide (core < 1024)) (fun s => chunkRelease s core idx) s
def execCopyCommandStart (core : Nat) (idx : Nat) (s : State) : Host.Outcome State Fault Refusal :=
  runEvent (decide (core < 1024)) (fun s => copyStarts s core idx) s
def execCopyCommandComplete (core : Nat) (idx : Nat) (s : State) : Host.Outcome State Fault Refusal :=
  runEvent (decide (core < 1024)) (fun s => copyEnds s core idx) s
def execCollCommandStart (core : Nat) (idx : Nat) (s : State) : Host.Outcome State Fault Refusal :=
  runEvent (decide (core < 1024)) (fun s => collStarts s core idx) s
def execChunkLand (core : Nat) (idx : Nat) (chunk : Nat) (s : State) : Host.Outcome State Fault Refusal :=
  runEvent (decide (core < 1024)) (fun s => chunkLands s core idx chunk) s
def execInswitchTimeout (core : Nat) (idx : Nat) (s : State) : Host.Outcome State Fault Refusal :=
  runEvent (decide (core < 1024)) (fun s => switchTimeout s core idx) s
def execHostRecordSend (core : Nat) (idx : Nat) (s : State) : Host.Outcome State Fault Refusal :=
  runEvent (decide (core < 1024)) (fun s => hostSends s core idx) s
def execXformStart (core : Nat) (idx : Nat) (s : State) : Host.Outcome State Fault Refusal :=
  runEvent (decide (core < 1024)) (fun s => xformStarts s core idx) s
def execXformComplete (core : Nat) (idx : Nat) (s : State) : Host.Outcome State Fault Refusal :=
  runEvent (decide (core < 1024)) (fun s => xformEnds s core idx) s
def execMatrixCommandStart (core : Nat) (idx : Nat) (s : State) : Host.Outcome State Fault Refusal :=
  runEvent (decide (core < 1024)) (fun s => matrixStarts s core idx) s
def execMcastWaitExpire (core : Nat) (idx : Nat) (s : State) : Host.Outcome State Fault Refusal :=
  runEvent (decide (core < 1024)) (fun s => mcastExpires s core idx) s
def execMmaComplete (core : Nat) (idx : Nat) (s : State) : Host.Outcome State Fault Refusal :=
  runEvent (decide (core < 1024)) (fun s => mmaEnds s core idx) s
def execTopkComplete (core : Nat) (idx : Nat) (s : State) : Host.Outcome State Fault Refusal :=
  runEvent (decide (core < 1024)) (fun s => matrixEnds s core idx opIsTopk) s
def execDrainComplete (core : Nat) (idx : Nat) (s : State) : Host.Outcome State Fault Refusal :=
  runEvent (decide (core < 1024)) (fun s => matrixEnds s core idx opIsDrain) s
def execAccSaveComplete (core : Nat) (idx : Nat) (s : State) : Host.Outcome State Fault Refusal :=
  runEvent (decide (core < 1024)) (fun s => matrixEnds s core idx opIsSave) s
def execAccRestoreComplete (core : Nat) (idx : Nat) (s : State) : Host.Outcome State Fault Refusal :=
  runEvent (decide (core < 1024)) (fun s => matrixEnds s core idx opIsRestore) s
def execMwaitMarkerFire (core : Nat) (idx : Nat) (s : State) : Host.Outcome State Fault Refusal :=
  runEvent (decide (core < 1024)) (fun s => markerFires s core idx) s
def execEngineFaultPark (core : Nat) (idx : Nat) (s : State) : Host.Outcome State Fault Refusal :=
  runEvent (decide (core < 1024)) (fun s => parks s core idx) s
def execEngparkResume (core : Nat) (place : Nat) (s : State) : Host.Outcome State Fault Refusal :=
  runEvent (decide (core < 1024) && decide (place < 16)) (fun s => engparkWrite s core (BitVec.ofNat 64 (place % 16 + 16))) s
def execEngparkKill (core : Nat) (place : Nat) (s : State) : Host.Outcome State Fault Refusal :=
  runEvent (decide (core < 1024) && decide (place < 16)) (fun s => engparkWrite s core (BitVec.ofNat 64 (place % 16 + 32))) s
def execLicenceTermEnd (pair : Nat) (s : State) : Host.Outcome State Fault Refusal :=
  runEvent (decide (pair < 512)) (fun s => termEnds s pair) s
def execLicenceDrainGrant (pair : Nat) (s : State) : Host.Outcome State Fault Refusal :=
  runEvent (decide (pair < 512)) (fun s => drainGrant s pair) s

end Sys2Proof.Machine
end

