-- ==== Sys2Proof/Machine/HostEvents.lean ====
section
/-! DEFINITION. Machine/HostEvents.lean: the host queues (R322 to R325, R331), the endpoints and the Bexelone controller (R368,
R379 to R382). An event that is not enabled leaves the state as it is. -/

namespace Sys2Proof.Machine

/-! ## Host commands (R323) -/

def hcOp (c : BitVec 512) : Nat := wideGet c 0 8
def hcMode (c : BitVec 512) : Nat := wideGet c 8 8
def hcTag (c : BitVec 512) : BitVec 32 := BitVec.ofNat 32 (wideGet c 32 32)
def hcAddr (c : BitVec 512) : Word := BitVec.ofNat 64 (wideGet c 64 64)

def hcBad (c : BitVec 512) : Bool :=
  let op := hcOp c
  decide (op < 1) || decide (4 < op) || (if op < 3 then hcMode c ≠ 0 else decide (1 < hcMode c) || hcAddr c ≠ 0) || wideGet c 16 16 ≠ 0
    || wideGet c 128 384 ≠ 0

/-- The record of a command: its translation in the queue's context. -/
def hcRecord (s : State) (q : Nat) (c : BitVec 512) : Option Nat := ctxTranslate s 0 (queueCtx s q) (hcAddr c).toNat

/-- LSTATUS of a reply that concerns a record: its STATUS as it stands. -/
def hcStatus (s : State) (q : Nat) (c : BitVec 512) : Nat :=
  match hcRecord s q c with | some pa => (physRead s (pa + 0x34) 4).1 | none => 0

def hcRefuse (s : State) (q : Nat) (c : BitVec 512) : State := sendReply s q (replyBytes s 3 (hcTag c) (hcAddr c) (hcStatus s q c) 0 0 0)

/-- A command of a queue waits behind a SUBMIT that waits for a counter place (R323). -/
def submitWaits (s : State) (q : Nat) : Bool := s.submissions.any (fun x => match x.by_ with | .host h _ => h = q | .thread .. => false)

/-- A put has arrived that is not yet performed: which of them are the endpoint's the packet does not say, so a command waits for
all (R324; log entry 3). -/
def putWaits (s : State) : Bool := s.reorder.any (fun p => p.kind = 2 || p.kind = 3)

/-- A command of kind `want` arrives; one with a reserved value or at a queue that is not OPEN is refused. With every port down
no host meets the device (R24). The queue performs its commands one after another, each after the puts before it and with an
acquire at SYSTEM (R323, R324). -/
def hostCommand (want : Nat) (s : State) (q : Nat) (c : BitVec 512) (act : State → State) : State :=
  if !portsOpen s || submitWaits s q || putWaits s then s
  else if hcBad c then (if hcOp c = want ∨ hcOp c < 1 ∨ 4 < hcOp c then hcRefuse s q c else s)
  else if hcOp c ≠ want then s
  else if (s.hostQueue q).state ≠ .open_ then hcRefuse s q c
  else act s

/-- SUBMIT (R37, R323, R395): ACCEPTED goes before anything the task itself produces. -/
def hostSubmit (s : State) (q : Nat) (c : BitVec 512) : State :=
  hostCommand 1 s q c (fun s =>
    let ctx := queueCtx s q
    match hcRecord s q c with
    | none => hcRefuse s q c
    | some pa =>
      if recordRefused s (hcAddr c).toNat pa ctx (some q) then hcRefuse (refuseRecord s pa ctx) q c
      else match homeCore s pa with
        | none => hcRefuse s q c
        | some home =>
          match (if s.submissions.any (fun x => x.home = home) then none else freePlace s home) with
          | none =>
            { s with submissions := s.submissions ++
                [{ record := hcAddr c, recordPa := canonPa s pa, ctx := ctx, home := home, deps := BitVec.ofNat 32 (recDeps (readRecord s pa).1),
                   parent := 0, queue := some q, by_ := .host q (hcTag c) }] }
          | some place =>
            acceptTask (sendReply (acquire s home 7) q (replyBytes s 1 (hcTag c) (hcAddr c) 0 0 0 0)) (hcAddr c) (canonPa s pa) ctx home 0 (some q) true (hcTag c)
              place [])

/-- DECR: one decrement, without a release; ACCEPTED follows its acceptance by the home core (R325). -/
def hostDecr (s : State) (q : Nat) (c : BitVec 512) : State :=
  hostCommand 2 s q c (fun s =>
    match (if (hcAddr c).toNat % 128 = 0 then hcRecord s q c else none) with
    | none => hcRefuse s q c
    | some pa =>
      let s := decrementTask s (canonPa s pa) false
      sendReply s q (replyBytes s 1 (hcTag c) (hcAddr c) (hcStatus s q c) 0 0 0))

def hostClose (s : State) (q : Nat) (c : BitVec 512) : State :=
  hostCommand 3 s q c (fun s => teardown s q (hcMode c = 1) false true (hcTag c))
def hostReset (s : State) (q : Nat) (c : BitVec 512) : State :=
  hostCommand 4 s q c (fun s => teardown s q (hcMode c = 1) true true (hcTag c))

/-- A write of HQCTL with a given request. -/
def hqctlReq (req : Nat) (s : State) (q : Nat) (v : Word) : State := if fld v 18 2 = req then hqctlWrite s q v else s

/-! ## The end of a teardown (R331) -/

def taskFinal (t : Task) : Bool := !(t.state == .pending || t.state == .ready || t.state == .dealt)

/-- A submission that still waits for a place is refused. -/
def refuseWaiting (s : State) (q : Nat) : State :=
  let mine (x : Submission) : Bool := match x.by_ with | .host h _ => h = q | .thread .. => false
  let s' := { s with submissions := s.submissions.filter (fun x => !mine x) }
  (s.submissions.filter mine).foldl (fun s x => match x.by_ with
    | .host _ tag => sendReply (refuseRecord s x.recordPa x.ctx) q (replyBytes s 3 tag x.record 6 0 0 0)
    | .thread .. => s) s'

/-- The replies of the queue's host tasks, in the order of their submission. -/
def taskReplies (s : State) (q : Nat) : State :=
  (s.tasks.filter (fun t => t.2.queue = some q && t.2.reply.isSome)).foldl (fun s x =>
    match x.2.reply with
    | some k => sendReply (s.modTask x.1 (fun t => { t with reply := none })) q (replyBytes s k x.2.tag x.2.record (statusOf s x.1) 0 0 0)
    | none => s) s

/-- Every task is final: the replies, then CLOSED. The TAG of CLOSED after a teardown that no command asked for is free
(log entry 3). -/
def teardownComplete (s : State) (q : Nat) : State :=
  let h := s.hostQueue q
  if h.state ≠ .tearing ∨ s.tasks.any (fun t => t.2.queue = some q && !taskFinal t.2) then s
  else
    let s := taskReplies (refuseWaiting s q) q
    let tag := if h.byCommand then h.closeTag else (Config.freeWord s.tick).setWidth 32
    let h := s.hostQueue q
    let s := sendReply s.ticked q (replyBytes s 7 tag 0 0 h.done h.killed h.discarded)
    if h.reopen then openQueue s q else s.modQueue q (fun h => { h with state := .closed })

/-! ## Endpoints (R379) -/

def endpointAddr (s : State) (e : Nat) : Nat := (s.ctrlWord 0x408698 0).toNat + 8 * e
def writeEndpoint (s : State) (e : Nat) (v : Nat) : State := physWrite s (endpointAddr s e) 8 v 0 none

/-- The controller, with its identity keys, installs an association. -/
def endpointInstall (s : State) (e : Nat) (ctx : BitVec 16) (host : BitVec 32) : State :=
  if s.keysUp then { writeEndpoint s e (1 + ctx.toNat * 2 ^ 16 + host.toNat * 2 ^ 32) with epCount := s.epCount + 1 } else s

/-- An endpoint withdrawn: REVOKED, its queues torn down hard, its replies dropped. -/
def endpointRevoke (s : State) (e : Nat) : State :=
  let w := (endpointWord s e).toNat
  if bitsAt w 0 1 = 0 then s
  else
    let mine (q : Nat) : Bool := queueEndpoint s q = e
    let s := writeEndpoint s e (setBits w 1 1 1)
    teardownAll { s with replies := s.replies.filter (fun r => !mine r.queue)
                         repliesHeld := s.repliesHeld.filter (fun r => !mine r.queue) } mine

/-- Every installed endpoint revoked. -/
def revokeAll (s : State) : State := (List.range 4096).foldl (fun s e => endpointRevoke s e) s

/-! ## The Bexelone controller (R368, R380 to R382) -/

/-- KICK restarts the watchdog period. -/
def fwdogKick (s : State) (v : Word) : State := if fld v 32 1 = 1 then ctrlWrite s 0x4081C0 v bexelone else s

/-- An unkicked watchdog restarts the firmware, which is then verified again. -/
def fwdogExpire (s : State) : State :=
  let period := fld (s.ctrlWord 0x4081C0 (ctrlReset .fwdog)) 0 32
  if s.fwUp ∧ s.fwKick + 1000 * period ≤ s.time.toNat then
    { s with fwUp := false, fwRestarts := min 255 (s.fwRestarts + 1), fwKick := s.time.toNat }
  else s

/-- Both signatures and the security version decide whether the image runs; a running firmware takes up the records. -/
def firmwareVerify (s : State) (pss slh : Bool) (version : Nat) : State :=
  if pss && slh && decide (s.fwMinVersion ≤ version) then
    { s with fwUp := true, fwFailed := false, fwKick := s.time.toNat, mcTaken := s.machineChecks.length }
  else { s with fwUp := false, fwFailed := true }

/-- An attestation report; hashes, measurements and signatures have no function in the spec: free (log entry 3). -/
def attestationReport (s : State) (nonce : BitVec 256) : State :=
  if s.keysUp then
    let digest (i : Nat) : BitVec 384 := BitVec.ofNat 384 (Config.freeBits s.tick i 384)
    let maps := (List.range 16).map (fun i => ctrlRead s (0x408600 + 8 * i))
    let r : Report := { nonce := nonce, device := ctrlRead s 0x408690, fuses := digest 0, measures := [digest 1, digest 2, digest 3],
                        harvest := maps, almSt := s.almSt, sigPss := BitVec.ofNat 3072 (Config.freeBits s.tick 4 3072),
                        sigSlh := Config.freeBits s.tick 5 131072 }
    { s.ticked with reports := s.reports ++ [r] }
  else s

/-- No endpoint is installed; and, at the highest level, the keys are erased and the fabric stops (R382). -/
def clearEndpoints (s : State) : State := { s with epCount := 0 }
def lockDown (s : State) : State := { s with keysUp := false, fabricStopped := true }

/-- A raised alarm acts by its source's level (R382). AUTH stands for 64 packets that failed authentication; the packets themselves
are the transport's (log entry 77). -/
def alarmRaise (s : State) (source : Nat) : State :=
  let level := fld (ctrlRead s 0x4086C0) (2 * source) 2
  let s := { s with almSt := s.almSt ||| BitVec.ofNat 6 (2 ^ source), authFails := if source = 4 then s.authFails + 64 else s.authFails }
  let s := machineCheck s.ticked (Config.freeNat s.tick % 256) 0 0 none 0
  let s := if 1 ≤ level then teardownAll s (fun _ => true) else s
  let s := if 2 ≤ level then clearEndpoints (revokeAll s) else s
  if 3 ≤ level then lockDown s else s

/-- Power on: the device as reset leaves it, and the identity keys derived. -/
def coldStart (s : State) : State :=
  { State.reset with
    agenda := s.agenda, tick := s.tick, keysUp := true, fwMinVersion := s.fwMinVersion
    ctrl := s.ctrl.filter (fun x => decide (0x408600 ≤ x.1) && decide (x.1 < 0x408680)) }

/-! ## The events -/

def execHostSubmit (queue : Nat) (cmd : BitVec 512) (s : State) : Host.Outcome State Fault Refusal :=
  runEvent (decide (queue < 4096)) (fun s => hostSubmit s queue cmd) s
def execHostDecr (queue : Nat) (cmd : BitVec 512) (s : State) : Host.Outcome State Fault Refusal :=
  runEvent (decide (queue < 4096)) (fun s => hostDecr s queue cmd) s
def execHostClose (queue : Nat) (cmd : BitVec 512) (s : State) : Host.Outcome State Fault Refusal :=
  runEvent (decide (queue < 4096)) (fun s => hostClose s queue cmd) s
def execHostReset (queue : Nat) (cmd : BitVec 512) (s : State) : Host.Outcome State Fault Refusal :=
  runEvent (decide (queue < 4096)) (fun s => hostReset s queue cmd) s
def execHqctlOpen (queue : Nat) (value : Word) (s : State) : Host.Outcome State Fault Refusal :=
  runEvent (decide (queue < 4096)) (fun s => hqctlReq 1 s queue value) s
def execHqctlTeardownSoft (queue : Nat) (value : Word) (s : State) : Host.Outcome State Fault Refusal :=
  runEvent (decide (queue < 4096)) (fun s => hqctlReq 2 s queue value) s
def execHqctlTeardownHard (queue : Nat) (value : Word) (s : State) : Host.Outcome State Fault Refusal :=
  runEvent (decide (queue < 4096)) (fun s => hqctlReq 3 s queue value) s
def execTeardownComplete (queue : Nat) (s : State) : Host.Outcome State Fault Refusal :=
  runEvent (decide (queue < 4096)) (fun s => teardownComplete s queue) s
def execFwdogKick (value : Word) (s : State) : Host.Outcome State Fault Refusal := runEvent true (fun s => fwdogKick s value) s
def execFwdogExpire (s : State) : Host.Outcome State Fault Refusal := runEvent true (fun s => fwdogExpire s) s
def execFirmwareVerify (pss : Bool) (slh : Bool) (version : Nat) (s : State) : Host.Outcome State Fault Refusal :=
  runEvent true (fun s => firmwareVerify s pss slh version) s
def execAttestationReport (nonce : BitVec 256) (s : State) : Host.Outcome State Fault Refusal :=
  runEvent true (fun s => attestationReport s nonce) s
def execEndpointInstall (ep : Nat) (ctx : BitVec 16) (host : BitVec 32) (s : State) : Host.Outcome State Fault Refusal :=
  runEvent true (fun s => endpointInstall s ep ctx host) s
def execEndpointRevoke (ep : Nat) (s : State) : Host.Outcome State Fault Refusal := runEvent true (fun s => endpointRevoke s ep) s
def execAlarmRaise (source : Nat) (s : State) : Host.Outcome State Fault Refusal :=
  runEvent true (fun s => if source < 6 then alarmRaise s source else s) s
def execColdStart (s : State) : Host.Outcome State Fault Refusal := runEvent true (fun s => coldStart s) s

end Sys2Proof.Machine
end

