-- ==== Sys2Proof/Machine/PlatformEvents.lean ====
section
/-! DEFINITION. Machine/PlatformEvents.lean: write-backs of caches and of compressed pools, logs and rollback (R346 to R358,
R369, R370), and the writes of the control space (R321, R374, R378, R384, R395). An event that is not enabled leaves the
state as it is. -/

namespace Sys2Proof.Machine

/-! ## Pool lines (R351, R352) -/

/-- A pool line leaves the LLC, or a way of it; one found uncorrectable is poisoned first. -/
def poolLineWriteback (s : State) (t line : Nat) (bad : Bool) : State :=
  let a := Config.poolBase + t * 0x4000000000 + 128 * line
  match findLine s.llc a with
  | none => s
  | some l =>
    if l.dirty ≠ 0 && !poolTurn s a then s
    else if l.dirty ≠ 0 && bad then
      let l := { l with poison := BitVec.allOnes 128 }
      llcEvict { machineCheck s 1 2 a l.ctx (poolCluster a) with llc := swapLine s.llc l } l
    else llcEvict s l

/-- An unretired record is written in place again and retired (R352). -/
def shadowReplay (s : State) (t slice : Nat) : State :=
  let mine (r : Shadow) : Bool := poolLineNo r.line % 64 = slice
  let one (s : State) (r : Shadow) : State :=
    let s := r.chunks.foldl (fun s c => writeChunk s t c) s
    chanWrite s (metaAddr s r.line) 16 r.entry.toNat
  (((s.tower t).shadows.filter mine).foldl one s).modTower t (fun x => { x with shadows := x.shadows.filter (fun r => !mine r) })

/-- HOT clears after 65,536 cycles without an atomic (R353). -/
def poolHotExpire (s : State) (t line : Nat) : State :=
  let a := Config.poolBase + t * 0x4000000000 + 128 * line
  match (s.tower t).hot.find? (fun h => h.1 = a) with
  | none => s
  | some h =>
    if clusterCycle s (poolCluster a) < h.2 + 65536 then s
    else
      let s := s.modTower t (fun x => { x with hot := x.hot.filter (fun h => h.1 ≠ a), shadows := x.shadows.filter (fun r => r.line ≠ a) })
      let e := poolMeta s a
      if bitsAt e 18 1 = 1 then chanWrite s (metaAddr s a) 16 (setBits e 19 1 0) else s

/-- A write of PUSH or DROP. -/
def poolAct (s : State) (t i : Nat) (v : Word) : State := poolWrite s t i v

/-! ## Write-backs of lines (R356) -/

def spoil (bad : Bool) (l : Line) : Line := if bad then { l with poison := l.poison ||| BitVec.ofNat 128 (sectorBytes l.dirty.toNat) } else l

/-- A line of an L1 (level 0), of an L2 (1) or of the LLC (2) leaves; a dirty one is written back, poisoned when it is found
uncorrectable. -/
def lineWriteBack (s : State) (level unit_ a : Nat) (bad : Bool) : State :=
  match level with
  | 0 => match findLine (s.core unit_).l1 a with
    | none => s
    | some l =>
      let bad := bad && l.dirty ≠ 0
      if l.dirty ≠ 0 && releaseHeld s unit_ 2 then s else
      let s := if bad then eccNote (machineCheck s 1 0 a l.ctx unit_) unit_ 3 else s
      l1Drop (l1ToL2 (s.modCore unit_ (fun c => { c with l1 := putLine c.l1 (spoil bad l) })) unit_ a) unit_ a
  | 1 => match findLine (s.cluster unit_).l2 a with
    | none => s
    | some l =>
      let bad := bad && l.dirty ≠ 0
      if l.dirty ≠ 0 && homeBlocked s unit_ a then s else
      let s := if bad then machineCheck s 1 1 a l.ctx unit_ else s
      (l2ToHome (s.modCluster unit_ (fun c => { c with l2 := putLine c.l2 (spoil bad l) })) unit_ a).modCluster unit_
        (fun c => { c with l2 := dropLine c.l2 a })
  | _ => match findLine s.llc a with
    | none => s
    | some l =>
      if Config.windowBase ≤ a then (if l.dirty = 0 then dropPool s a else s)
      else if l.dirty = 0 then { s with llc := dropLine s.llc a }
      else
        let l := spoil bad l
        let s := if bad then machineCheck s 1 2 a l.ctx (clusterOf (a / 0x20000000)) else s
        let s := storeHome s a l.data.toNat l.poison.toNat l.ctx
        { s with llc := dropLine s.llc a }

/-- A scrub changes no value; a word that it finds uncorrectable, freely one of the line's, is poisoned in its storage
(R369). -/
def scrubPass (s : State) (line : Nat) (bad : Bool) : State :=
  let a := lineBase line
  if bad then { s.ticked with memPoison := poisonWrite s.memPoison (a + 8 * (Config.freeNat s.tick % 16)) 8 255 255 } else s

/-! ## Errors of the check codes (R369, R370) -/

/-- Poison of the 8 bytes of a line's unit. -/
def unitPoison (unit_ : Nat) : BitVec 128 := BitVec.ofNat 128 (255 * 2 ^ (8 * (unit_ % 16)))

/-- A line with an uncorrectable unit; none where the line is not held. -/
def flawLine (ls : List Line) (a unit_ : Nat) : List Line :=
  match findLine ls a with
  | some l => putLine ls { l with poison := l.poison ||| unitPoison unit_ }
  | none => ls

/-- An L1 line: a dirty sector is poisoned, a clean one is dropped, to be fetched again. -/
def flawL1 (ls : List Line) (a unit_ : Nat) : List Line :=
  match findLine ls a with
  | some l =>
    let sector := unit_ % 16 / 2
    if l.dirty.getLsbD sector then flawLine ls a unit_
    else if l.valid &&& ~~~(BitVec.ofNat 8 (2 ^ sector)) = 0 then dropLine ls a
    else putLine ls { l with valid := l.valid &&& ~~~(BitVec.ofNat 8 (2 ^ sector)) }
  | none => ls

/-- A row of a slot, or of the slot that its thread has borrowed. -/
def flawRow (s : State) (n k r : Nat) : State :=
  s.modSlot n k (fun x =>
    if r < 32 then (if x.resident.getLsbD r then { x with poisoned := x.poisoned ||| BitVec.ofNat 32 (2 ^ r) } else x)
    else match x.borrow with
      | some b => if b.resident.getLsbD (r - 32) then { x with borrow := some { b with poisoned := b.poisoned ||| BitVec.ofNat 32 (2 ^ (r - 32)) } } else x
      | none => x)

/-- The core and the structure whose ECCLOG counts an error. -/
def flawLog : Flaw → Option (Nat × Nat)
  | .corrected n what => if 1 ≤ what ∧ what ≤ 6 then some (n, what) else none
  | .row n _ _ => some (n, 1)
  | .sharedRow n _ => some (n, 1)
  | .pairRow n _ => some (n, 6)
  | .fetched n _ => some (n, 2)
  | .l1 n _ _ => some (n, 3)
  | .spad n _ => some (n, 4)
  | .acc n _ => some (n, 5)
  | _ => none

/-- What an uncorrectable error does where it is found (R369). -/
def flawAct (s : State) : Flaw → State
  | .corrected _ _ => s
  | .row n k r => flawRow s n k r
  | .sharedRow n r => s.modCore n (fun c => { c with sharedPoison := c.sharedPoison ||| BitVec.ofNat 16 (2 ^ (r % 16)) })
  | .pairRow n r => s.modPair (pairOf n) (fun p => { p with poison := p.poison ||| BitVec.ofNat 8 (2 ^ (r % 8)) })
  | .fetched n a => s.modCore n (fun c => { c with icache := dropLine c.icache a })
  | .l1 n a u => s.modCore n (fun c => { c with l1 := flawL1 c.l1 a u })
  | .l2 c a u => s.modCluster c (fun x => { x with l2 := flawLine x.l2 a u })
  | .llc a u => { s with llc := flawLine s.llc a u }
  | .stored a => { s with memPoison := poisonWrite s.memPoison (a % Config.windowBase / 8 * 8) 8 255 255 }
  | .spad n off => { s with memPoison := poisonWrite s.memPoison (spadAddr n (off % 0x200000 / 8 * 8)) 8 255 255 }
  | .acc n e => s.modCore n (fun c => { c with tilePoison := c.tilePoison ||| BitVec.ofNat 16384 (2 ^ (e % 16384)) })

/-- An error of a check code: a corrected one is counted; an uncorrectable one poisons, counted for the structure in which it is found,
or for that of the old copy of a move that has already written this one (R370). Structures of a core that is no core site count nothing. -/
def flaw (s : State) (f : Flaw) (old : Option (Nat × Nat)) : State :=
  let t := flawAct s f
  match f, old.or (flawLog f) with
  | .corrected _ _, some (n, what) => if n < 1024 then eccCount t n 0 what else t
  | _, some (n, what) => if n < 1024 ∧ 1 ≤ what ∧ what ≤ 6 then eccCount t n 16 what else t
  | _, none => t

/-! ## Rollback (R358) -/

/-- No L1, L2 or LLC holds a copy of the line (log entry 77). -/
def forgetLine (s : State) (a : Nat) : State :=
  let s := { s.mapCores (fun c => { c with l1 := dropLine c.l1 a }) with
    clusters := s.clusters.map (fun (c : Nat × Cluster) => (c.1, { c.2 with l2 := dropLine c.2.l2 a })), llc := dropLine s.llc a }
  if a < Config.windowBase then s else dropPool s a

/-- The old content of a pool line replayed: while chunks are short it stays in the LLC, in its reserve way or pinned (R354, R358). -/
def replayPool (s : State) (a old : Nat) : State :=
  match poolStore s a old 0 false none with
  | some t => t
  | none => poolKeep { s with llc := putLine s.llc { addr := a, data := BitVec.ofNat 1024 old, valid := 0xFF, dirty := 0xFF, poison := 0,
                                                     scope := 5, keep := false, owned := false, ctx := none } } a

/-- Entries of a channel from the first one of the interval on are replayed, newest first, and marked dead. -/
def replayLog (s : State) (ch : Nat) (ctx : BitVec 16) (id : BitVec 32) : State :=
  let es := s.logs.get ch []
  let n := es.length
  let first := (es.takeWhile (fun e => !(e.ctx = ctx && e.id = id))).length
  let base := fld (s.ctrlWord (0x1000 * ch + 0x20) 0) 20 36 * 0x100000
  let one (s : State) (i : Nat) : State :=
    match es[i]? with
    | none => s
    | some e =>
      if e.ctx ≠ ctx ∨ e.id = 0 then s
      else
        let s := forgetLine s e.addr
        let s := if e.addr < Config.windowBase then storeHome s e.addr e.old.toNat 0 none
          else replayPool s e.addr e.old.toNat
        chanWrite s (base + 160 * i + 16) 4 0
  let s := ((List.range n).filter (fun i => first ≤ i)).reverse.foldl one s
  { s with logs := s.logs.set ch ((List.range n).zip es |>.map (fun x =>
      if first ≤ x.1 ∧ x.2.ctx = ctx then { x.2 with id := 0 } else x.2)) }

def rollbackComplete (s : State) : State :=
  if !s.rbBusy then s
  else
    let w := s.rbWord
    let ctx := BitVec.ofNat 16 (fld w 32 16)
    let id := BitVec.ofNat 32 (fld w 0 32)
    let keep (ls : List Line) : List Line := ls.filter (fun l => l.ctx ≠ some ctx)
    let s := s.mapCores (fun c => { c with l1 := keep c.l1 })
    let s := { s with clusters := s.clusters.map (fun (c : Nat × Cluster) => (c.1, { c.2 with l2 := keep c.2.l2 })), llc := keep s.llc }
    let held (a : Nat) : Bool := (findLine s.llc a).isSome
    let s := s.mapTowers (fun t => { t with reserve := t.reserve.filter held, pinned := t.pinned.filter held })
    let s := (s.logs.map (·.1)).foldl (fun s ch => replayLog s ch ctx id) s
    { s with rbBusy := false, rbDone := true }

/-! ## The control space -/

def registerWrite (s : State) (off : Nat) (v : Word) (by_ : Nat) : State := if ctrlRefused s off 8 then s else ctrlWrite s off v by_

def tlbshoot (sel : Nat) (s : State) (v : Word) : State := if fld v 0 2 = sel then tlbshootWrite s v else s
def tlbshootComplete (s : State) : State := if s.tlbBusy && !shootWaits s then tlbshootDone s else s
def rollbackStart (s : State) (v : Word) : State := if fld v 48 1 = 1 then rollbackWrite s v else s

def partctlOpen (s : State) (v : Word) : State := partctlWrite s (BitVec.ofNat 64 (fld v 0 16 ||| s.partOpen.toNat))
def partctlClose (s : State) (v : Word) : State := partctlWrite s (BitVec.ofNat 64 (fld v 0 16 &&& s.partOpen.toNat))

/-- A port goes down or comes up; packets held while none was up leave (R374). -/
def portLinkChange (s : State) (port : Nat) (up : Bool) : State :=
  let m := BitVec.ofNat 32 (2 ^ port)
  flushHeld { s with portUp := if up then s.portUp ||| m else s.portUp &&& ~~~m }

/-- A module that fails retraining is disabled, which is a machine check (R369, R378). -/
def ucieFail (s : State) (m : Nat) : State :=
  let s := machineCheck s.ticked (Config.freeNat s.tick % 256) 0 0 none 0
  { s with ucieUp := s.ucieUp &&& ~~~(BitVec.ofNat 32 (2 ^ m)) }
def ucieReturn (s : State) (m : Nat) : State := { s with ucieUp := s.ucieUp ||| BitVec.ofNat 32 (2 ^ m) }

/-! ## The events -/

def execTlbshootCtx (value : Word) (s : State) : Host.Outcome State Fault Refusal := runEvent true (fun s => tlbshoot 0 s value) s
def execTlbshootPage (value : Word) (s : State) : Host.Outcome State Fault Refusal := runEvent true (fun s => tlbshoot 1 s value) s
def execTlbshootAll (value : Word) (s : State) : Host.Outcome State Fault Refusal := runEvent true (fun s => tlbshoot 2 s value) s
def execTlbshootComplete (s : State) : Host.Outcome State Fault Refusal := runEvent true (fun s => tlbshootComplete s) s
def execPoolLineWriteback (tower : Nat) (line : Nat) (bad : Bool) (s : State) : Host.Outcome State Fault Refusal :=
  runEvent (decide (tower < 2)) (fun s => poolLineWriteback s tower line bad) s
def execShadowRecordReplay (tower : Nat) (slice : Nat) (s : State) : Host.Outcome State Fault Refusal :=
  runEvent (decide (tower < 2)) (fun s => shadowReplay s tower slice) s
def execPoolHotExpire (tower : Nat) (line : Nat) (s : State) : Host.Outcome State Fault Refusal :=
  runEvent (decide (tower < 2)) (fun s => poolHotExpire s tower line) s
def execPoolPush (tower : Nat) (value : Word) (s : State) : Host.Outcome State Fault Refusal :=
  runEvent (decide (tower < 2)) (fun s => poolAct s tower 4 value) s
def execPoolDrop (tower : Nat) (value : Word) (s : State) : Host.Outcome State Fault Refusal :=
  runEvent (decide (tower < 2)) (fun s => poolAct s tower 5 value) s
def execCklogWrite (channel : Nat) (value : Word) (s : State) : Host.Outcome State Fault Refusal :=
  runEvent (decide (channel < 1024)) (fun s => cklogWrite s channel value) s
def execRollbackStart (value : Word) (s : State) : Host.Outcome State Fault Refusal := runEvent true (fun s => rollbackStart s value) s
def execRollbackComplete (s : State) : Host.Outcome State Fault Refusal := runEvent true (fun s => rollbackComplete s) s
def execScrubPass (line : Nat) (bad : Bool) (s : State) : Host.Outcome State Fault Refusal :=
  runEvent true (fun s => scrubPass s line bad) s
def execCtrareaWrite (core : Nat) (value : Word) (s : State) : Host.Outcome State Fault Refusal :=
  runEvent (decide (core < 1024)) (fun s => ctrareaWrite s core value) s
def execPortLinkChange (port : Nat) (up : Bool) (s : State) : Host.Outcome State Fault Refusal :=
  runEvent (decide (port < 32)) (fun s => portLinkChange s port up) s
def execUcieRetrainFail (module : Nat) (s : State) : Host.Outcome State Fault Refusal :=
  runEvent true (fun s => if module < 32 then ucieFail s module else s) s
def execPartctlOpen (value : Word) (s : State) : Host.Outcome State Fault Refusal := runEvent true (fun s => partctlOpen s value) s
def execPartctlClose (value : Word) (s : State) : Host.Outcome State Fault Refusal := runEvent true (fun s => partctlClose s value) s
def execRegisterWrite (off : Nat) (value : Word) (by_ : Nat) (s : State) : Host.Outcome State Fault Refusal :=
  runEvent true (fun s => registerWrite s off value by_) s
def execLineWriteBack (level : Nat) (unit_ : Nat) (line : Nat) (bad : Bool) (s : State) : Host.Outcome State Fault Refusal :=
  runEvent true (fun s => lineWriteBack s level unit_ line bad) s
def execUcieModuleReturn (module : Nat) (s : State) : Host.Outcome State Fault Refusal := runEvent true (fun s => ucieReturn s module) s

end Sys2Proof.Machine
end

