-- ==== Sys2Proof/Machine/PowerEvents.lean ====
section
/-! DEFINITION. Machine/PowerEvents.lean: steps and ramps, the current loop, the thermal acts and the warm reset of a die (R293,
R359 to R367, R385). An event that is not enabled leaves the state as it is. -/

namespace Sys2Proof.Machine

/-! ## The sites of a die -/

def dieClusters (d : Nat) : List Nat := (List.range 64).map (fun i => 64 * (d / 2) + i)
/-- The enabled sites of a die. -/
def liveSites (s : State) (d : Nat) : List Nat := (dieSites d).filter (harvestBit s)

/-- The die's clusters stand at step 8. -/
def allAtEight (s : State) (d : Nat) : Bool := (dieClusters d).all (fun c => (s.cluster c).step = 8 && !(s.cluster c).ramp)

/-- A cluster ramps to step 8, after any ramp that runs (R361). -/
def toStepEight (s : State) (c : Nat) : State :=
  let x := s.cluster c
  if x.ramp then s.modCluster c (fun x => { x with toEight := true })
  else if x.step = 8 then s
  else rampBegin s c 8
def toStepEights (s : State) (d : Nat) : State := (dieClusters d).foldl toStepEight s

/-! ## Taking a die's cores offline (R366) -/

/-- Step 1: the slots stop; a held command that has not started is discarded, and no command waits for a licence. -/
def stopSite (s : State) (n : Nat) : State :=
  let s := s.modCore n (fun c => { c with offline := true, cmds := c.cmds.map (fun d => { d with waits := false }) })
  ((s.core n).cmds.filter (fun c => c.chunk.isSome && !c.released && !c.started)).foldl (fun s c => dropCmd s n c) s

/-- A slot of the die is still busy: results in flight, an operation at another device other than one that a blocked thread
waits for, a repack, a thread that conveys. -/
def siteBusy (s : State) (n : Nat) : Bool :=
  (List.range 8).any (fun k =>
      let x := s.slot n k
      x.pending ≠ [] || x.repack.isSome || (midInstr s n k && x.phase != .blocked) || x.phase == .dying || (s.thread x.img).stopping.isSome)
    || (s.core n).cmds.any (fun c => isStream c.op || isMatrix c.op || isSetf c.op)

/-- The core that receives the threads of a site: its twin, else the lowest enabled core of the cluster on the other die. -/
def receiver (s : State) (n : Nat) : Option Nat :=
  let ok (m : Nat) : Bool := harvestBit s m && !(s.core m).offline
  if ok (twinOf n) then some (twinOf n)
  else ((List.range 8).map (fun i => 8 * clusterOf n + i)).find? (fun m => m % 2 ≠ n % 2 && ok m)

/-- An entry with its own stamp joins an inbox, or waits before it. -/
def inboxMove (s : State) (n : Nat) (e : InboxEntry × Option (Nat × Nat)) : State :=
  s.modCore n (fun c => if c.inbox.length < 32 ∧ c.inboxWait = [] then { c with inbox := c.inbox ++ [e.1] } else { c with inboxWait := c.inboxWait ++ [e] })

/-- The entries of an inbox and before it. -/
def inboxAll (c : Core) : List (InboxEntry × Option (Nat × Nat)) := c.inbox.map (fun e => (e, none)) ++ c.inboxWait

/-- The threads that wait for a core, in its run list or in the overflow queue. -/
def waitingThreads (s : State) (n : Nat) : List Nat :=
  let whats := (s.core n).runList.map (·.what) ++ ((s.tower (towerOf n)).overflow.filter (fun x => x.1 = n)).map (·.2.what)
  whats.filterMap (fun w => match w with | .thread img => some img | .task _ => none)

/-- A waiting thread that still holds a borrowed slot of the core gives it up as EVICT does; where `back`, its dirty rows are
written to the backing area first (R73, R134, log entry 67). -/
def homeBorrow (s : State) (n img : Nat) (back : Bool) : State :=
  match (s.thread img).borrow with
  | none => s
  | some b =>
    let s := if back then writeBorrow s n b else s
    dropBorrow (imageWrite s n (img + 0x2A8) 8 0) img

/-- The entries that wait in a site's run list, then those that the overflow queue holds for it, go to the receiving core in
their order; the waiting time of an entry of the list starts again (R328, R329). -/
def moveRunList (s : State) (n r : Nat) : State :=
  let there := (s.core r).cycle
  let listed := (s.core n).runList.map (fun e => { e with since := there })
  let held := ((s.tower (towerOf n)).overflow.filter (fun x => x.1 = n)).map
    (fun x => { x.2 with since := there - ((s.core n).cycle - x.2.since) })
  let s := (s.modCore n (fun c => { c with runList := [] })).modTower (towerOf n)
    (fun t => { t with overflow := t.overflow.filter (fun x => x.1 ≠ n) })
  (listed ++ held).foldl (fun s e => enterRun s r e) s

/-- The four tiles of a site in the save area of the thread at `img`. -/
def saveTiles (s : State) (n img : Nat) : State :=
  let pages := tilePages (physRead s (img + 0x18) 8).1
  (List.range 4).foldl (fun s t =>
    let bits := tileBits s n t
    let bad := tileBad s n t
    let s := (List.range 4096).foldl (fun s e =>
      physWrite s (pages.getD (4 * t + e / 1024) 0 + 4 * (e % 1024)) 4 (tileElem bits bad e) 0 (some (ctxOf s n))) s
    tileCheck s n (bad ≠ 0)) s

/-- Step 2: the four tiles of a licensed thread are saved, and it is owed the licence. -/
def saveLicensed (s : State) (n k : Nat) : State :=
  let r := slotReq s n k
  if holdsLic s (pairOf n) r then
    licOwe ((saveTiles s n r.img).modSlot n k (fun x => { x with licst := setFld x.licst 4 4 15 })) (pairOf n) r none
  else s

/-- Step 2 for a holder that is in no slot of the pair: a thread that has left the site is owed the licence in its image, and
the site's system slot gives it up (log entry 77). -/
def saveAbsent (s : State) (n : Nat) : State :=
  match (s.pair (pairOf n)).holder with
  | none => s
  | some h =>
    if h.img = 0 then (if h.core = n then licRelease s (pairOf n) none else s)
    else if (s.thread h.img).inSlot ∨ (s.thread h.img).lastCore ≠ n then s
    else
      let w := BitVec.ofNat 64 (physRead s (h.img + 0x2A0) 8).1
      licOwe (imageWrite (saveTiles s n h.img) n (h.img + 0x2A0) 8 (setFld (setFld w 4 4 15) 2 1 1).toNat) (pairOf n) h none

/-- A write to the thread's image is refused, or a line of it is poisoned: the thread cannot be saved. -/
def imageLost (s : State) (n img : Nat) : Bool :=
  let refused (a : Nat) : Bool := match placeOf s a with
    | .home _ | .remote _ _ => false
    | .pool a => poolRefused s a
    | .window w off => decide (0x200000 < off + 128) || windowShut s n w
    | .ctrl _ | .hole => true
  (List.range 8).any (fun i => refused (img + 128 * i) || (physRead s (img + 128 * i) 128).2 ≠ 0)

/-- Step 3 for one slot: a held thread is saved parked with its own trap record, another one with PREEMPT and requeued. -/
def moveThread (s : State) (n k r : Nat) : State :=
  let x := s.slot n k
  if k = 7 ∨ x.phase = .free ∨ x.phase = .dying then s
  else
    let held := x.phase == .held
    let licensed := holdsLic s (pairOf n) (slotReq s n k)
    let s := saveLicensed s n k
    let s := if held then pendingWrites s n k else s.modSlot n k (fun x => { x with trPc := x.pc, trTime := s.time })
    match (if imageLost s n x.img then none else (writeMapRecord s n k).toOption) with
    | none => killThread s x.img true (killWord 0x3FF true 3 true)
    | some s =>
      if held then
        let s := saveThread s n k x.trCause.toNat x.trVal.toNat
        let s := s.modCore n (fun c => { c with trapPend := c.trapPend &&& ~~~(BitVec.ofNat 7 (2 ^ k)) })
        let s := s.modThread x.img (fun t => { t with parked := true })
        inboxSend s n (inboxHead 0x25 k 0 x.handle.toNat) 0 0
      else
        let long := bit (longAt s n k x.pc.toNat)
        enterThread (saveThread s.ticked n k (Cause.preempt.code + 256 * long) (if licensed then 15 else 0)) r x.img

/-- Step 5: what the site holds is lost; the pair rows that the twin still reaches read as free values (log entry 3). -/
def loseSite (s : State) (n : Nat) : State :=
  let s := (s.core n).former.foldl (fun s f => writeRows s n f) s
  let s := release s n 5
  let s := s.modCore n (fun c => { c with former := [], sharedRows := 0, sharedPoison := 0, sig := [], bfmt := 0, bfmtNext := 0, tiles := 0,
                                          tilePoison := 0, l1 := [], icache := [], tlb := [] })
  s.ticked.modPair (pairOf n) (fun p => { p with rows := BitVec.ofNat 1024 (Config.freeBits s.tick n 1024), poison := 0 })

/-- Steps 2 to 5 for one site. -/
def emptySite (s : State) (n : Nat) : State :=
  match receiver s n with
  | none => loseSite ((List.range 7).foldl (fun s k =>
      if holdsThread s n k ∧ (s.slot n k).phase ≠ .dying then killThread s (s.slot n k).img true (killWord 0x3FF true 3 true) else s) s) n
  | some r =>
    let s := saveAbsent ((List.range 7).foldl (fun s k => moveThread s n k r) s) n
    let s := (waitingThreads s n).foldl (fun s img => homeBorrow s n img true) s
    let s := moveRunList s n r
    let c := s.core n
    let s := s.modCore n (fun c => { c with inbox := [], inboxWait := [] })
    loseSite ((inboxAll c).foldl (fun s e => inboxMove s r e) s) n

/-- A cluster's die is being taken offline: a GO waits (R361, R366). -/
def clusterBusy (s : State) (c : Nat) : Bool := (s.die (2 * (c / 64))).offBusy || (s.die (2 * (c / 64) + 1)).offBusy

/-- The GOs that a die's clusters held during its offlining act. -/
def heldGos (s : State) (d : Nat) : State :=
  (dieClusters d).foldl (fun s c => match (s.cluster c).heldGo with
    | some g => if (s.cluster c).ramp || clusterBusy s c then s else goActs s c g
    | none => s) s

/-- An offlining goes on: the clusters at step 8, then the slots stopped, then, once what runs is complete, the sites
emptied. -/
def offlineGo (s : State) (d : Nat) : State :=
  if !(s.die d).offBusy then s
  else
    let ns := liveSites s d
    if ns.any (fun n => !(s.core n).offline) then (if allAtEight s d then ns.foldl stopSite s else s)
    else if ns.any (fun n => siteBusy s n || (List.range 7).any (fun k => holdsThread s n k && saveHeld s n k)) then s
    else heldGos ((ns.foldl emptySite s).modDie d (fun x => { x with offBusy := false })) d

def offlineBegin (s : State) (d : Nat) : State :=
  offlineGo (toStepEights (s.modDie d (fun x => { x with offBusy := true, offSince := s.time.toNat })) d) d

def offlineDone (s : State) (d : Nat) : Bool := !(s.die d).offBusy && (liveSites s d).all (fun n => (s.core n).offline)

/-! ## Thermal acts (R365) -/

/-- 105 °C: the first time the die goes offline; while an offlining runs, its next part. -/
def thermalOffline (s : State) (d temp : Nat) : State :=
  if (s.die d).zone = 2 then offlineGo s d
  else if temp < 105 ∨ dieAway (s.die (otherDie d)) ∨ (s.die d).phase ≠ .idle then s
  else offlineBegin (s.modDie d (fun x => { x with temp := temp % 256, zone := 2, cut := false })) d

/-- A second die of a tower is clamped at step 8. -/
def thermalClamp (s : State) (d temp : Nat) : State :=
  if temp < 105 ∨ (s.die d).zone = 2 ∨ !dieAway (s.die (otherDie d)) then s
  else toStepEights (s.modDie d (fun x => { x with temp := temp % 256, zone := 1, clamped := true })) d

/-- The supply of the core sites is cut: their threads are killed hard, their commands and contents are gone. -/
def cutDie (s : State) (d : Nat) : State :=
  let ns := liveSites s d
  let s := s.modDie d (fun x => { x with zone := 2, cut := true, offBusy := false })
  let s := ns.foldl (fun s n => s.modCore n (fun c => { c with offline := true })) s
  let s := ns.foldl (fun s n => (List.range 7).foldl (fun s k =>
    if holdsThread s n k then
      let img := (s.slot n k).img
      if (s.slot n k).phase = .dying then s.modSlot n k (fun x => { x with pending := [] })
      else killStop (killMark s img true (killWord 0x3FF true 3 true)) img true
    else s) s) s
  let s := ns.foldl (fun s n =>
    let s := (waitingThreads s n).foldl (fun s img => homeBorrow s n img false) s
    let s := s.modCore n (fun c => { c with cmds := c.cmds.filter (fun c => !(isStream c.op || isMatrix c.op || isSetf c.op)) })
    let c := s.core n
    let s := match receiver s n with
      | some r =>
        moveRunList ((inboxAll c).foldl (fun s e => inboxMove s r e) (s.modCore n (fun c => { c with inbox := [], inboxWait := [] }))) n r
      | none => s
    loseSite (s.modCore n (fun c => { c with l1 := [], former := [] })) n) s
  machineCheck s.ticked (Config.freeNat s.tick % 256) 0 0 none 0

def thermalCut (s : State) (d temp : Nat) : State :=
  if temp < 115 ∨ ((s.die d).cut ∧ (s.die d).zone = 2 ∧ (s.die d).offBusy = false) then s else cutDie (s.modDie d (fun x => { x with temp := temp % 256 })) d

/-- An offlining has not completed after 1 ms. -/
def offlineTimeout (s : State) (d : Nat) : State :=
  if (s.die d).offBusy ∧ (s.die d).offSince + 1000000 ≤ s.time.toNat then cutDie s d else s

/-- A new temperature outside the acts above: the zone of a die in service is 0 or 1. -/
def warmZone (s : State) (d temp : Nat) : State :=
  if 105 ≤ temp then s
  else s.modDie d (fun x => { x with temp := temp, zone := if x.zone = 2 then 2 else if 95 ≤ temp then 1 else 0, clamped := x.clamped && decide (95 ≤ temp) })

/-! ## Ramps and the current loop (R361 to R364) -/

def pwrreqGo (s : State) (c : Nat) (v : Word) : State := if s.fwUp ∧ fld v 8 1 = 1 then grantWrite s c v else s

/-- One step down without the firmware; the pending request stays, and the slots return at the ramp's end. A cluster at step 8
stays there with its removed slots (log entry 77). -/
def stepDown (s : State) (c : Nat) : State :=
  if 8 ≤ (s.cluster c).step then s.modCluster c (fun x => { x with stepDown := false })
  else rampBegin (s.modCluster c (fun x => { x with stepDown := false, clears := true })) c ((s.cluster c).step + 1)

/-- A ramp ends; then a ramp to step 8 that waits, a step-down that waits, or a held GO acts. -/
def rampComplete (s : State) (c : Nat) : State :=
  let x := s.cluster c
  if !x.ramp ∨ s.time.toNat < x.rampEnd then s
  else
    let s := s.setCluster c { x with step := x.target, ramp := false, toEight := false, clears := false,
                                     removed := if x.clears then 0 else x.removed, lowRun := if x.clears then 0 else x.lowRun }
    let s :=
      if x.toEight ∧ x.target ≠ 8 then rampBegin s c 8
      else if x.stepDown ∧ x.target < 8 then stepDown s c
      else match x.heldGo with
        | some g => if clusterBusy s c then s.modCluster c (fun x => { x with stepDown := false })
                    else goActs (s.modCluster c (fun x => { x with stepDown := false })) c g
        | none => s.modCluster c (fun x => { x with stepDown := false })
    [2 * (c / 64), 2 * (c / 64) + 1].foldl offlineGo s

/-- One sample of the current, in units of 0.1 A, every 256 cycles. -/
def currentSample (s : State) (c amps : Nat) : State :=
  let x := s.cluster c
  let now := clusterCycle s c
  if now < x.sampled + 256 then s
  else
    let ilim := fld (ctrlRead s (0x408200 + 8 * c)) 16 16
    if ilim < amps then
      s.setCluster c { x with sampled := now, removed := min 6 (x.removed + 1), lowRun := 0,
                              removedSince := if x.removed = 0 then now else x.removedSince }
    else if 16 * amps < 15 * ilim then
      (if x.lowRun = 3 then s.setCluster c { x with sampled := now, lowRun := 0, removed := x.removed - 1 }
       else s.setCluster c { x with sampled := now, lowRun := x.lowRun + 1 })
    else s.setCluster c { x with sampled := now, lowRun := 0 }

/-- Slots have stayed removed for 2^16 cycles: the cluster steps down, after a ramp that runs. -/
def currentStepDown (s : State) (c : Nat) : State :=
  let x := s.cluster c
  if x.removed = 0 ∨ clusterCycle s c < x.removedSince + 65536 ∨ 8 ≤ x.step ∨ (x.ramp ∧ x.clears) then s
  else if x.ramp then s.setCluster c { x with stepDown := true }
  else stepDown s c

/-! ## Warm reset (R385) -/

def wrstGo (s : State) (d : Nat) (v : Word) : State := if fld v 0 1 = 1 then wrstWrite s d v else s

/-- Copy and transform commands of the clusters whose engines a brim die holds. -/
def dieEngines (s : State) (d : Nat) : List (Nat × Cmd) :=
  if d % 2 = 1 then []
  else (s.cores.filter (fun c => towerOf c.1 = d / 2)).flatMap (fun c => (c.2.cmds.filter (fun x => isCopy x.op || isXform x.op)).map (fun x => (c.1, x)))

/-- Dirty lines of die `d`'s half of an L2 slice go to their homes, and the half is left empty. -/
def emptyL2 (d : Nat) (s : State) (c : Nat) : State :=
  let mine (l : Line) : Bool := Config.l2Crown l.addr = decide (d % 2 = 1)
  ((((s.cluster c).l2.filter mine).map (·.addr)).foldl (fun s a => l2ToHome s c a) s).modCluster c (fun x => { x with l2 := x.l2.filter (fun l => !mine l) })

/-- A dirty line of the half is held on its way to its home. -/
def halfHeld (s : State) (d c : Nat) : Bool :=
  (s.cluster c).l2.any (fun l => l.dirty ≠ 0 && homeBlocked s c l.addr && Config.l2Crown l.addr = decide (d % 2 = 1))

/-- The current phase's work is done and the next begins; `ok` says whether the UCIe modules retrained. -/
def warmPhase (s : State) (d : Nat) (ok : Bool) : State :=
  let enter (s : State) (p : WarmPhase) : State := s.modDie d (fun x => { x with phase := p })
  match (s.die d).phase with
  | .idle => s
  | .offline =>
    if offlineDone s d then enter s .quiesce
    else if (s.die d).offBusy then
      let s := offlineGo s d
      if offlineDone s d then enter s .quiesce else s
    else offlineBegin s d
  | .quiesce =>
    let s := (dieEngines s d).foldl (fun s x => if x.2.park.isSome || x.2.faulted.isSome then killCmd s x.1 x.2 else s) s
    if (dieEngines s d).isEmpty then enter s .writeback else s
  | .writeback => if (dieClusters d).any (halfHeld s d) then s else enter (losePairs ((dieClusters d).foldl (emptyL2 d) s) d) .reset
  | .reset => enter s (if d % 2 = 0 then .retrain else .readmit)
  | .retrain =>
    if ok then enter s .readmit
    else
      let s := machineCheck s.ticked (Config.freeNat s.tick % 256) 0 0 none 0
      s.modDie d (fun x => { x with phase := .idle, failed := true, zone := 2 })
  | .readmit => (bringUpDie s d).modDie d (fun x => { x with phase := .idle })

/-- A die is brought up: it holds no thread and is not offline or in a warm reset. -/
def dieReset (s : State) (d : Nat) : State :=
  if dieAway (s.die d) ∨ (dieSites d).any (fun n => (List.range 7).any (fun k => (s.slot n k).phase != .free)) then s else bringUpDie s d

/-! ## The events -/

def execPwrreqStepWrite (cluster : Nat) (value : Word) (s : State) : Host.Outcome State Fault Refusal :=
  runEvent (decide (cluster < 128)) (fun s => stepWrite s cluster value) s
def execPwrreqGo (cluster : Nat) (value : Word) (s : State) : Host.Outcome State Fault Refusal :=
  runEvent (decide (cluster < 128)) (fun s => pwrreqGo s cluster value) s
def execRampComplete (cluster : Nat) (s : State) : Host.Outcome State Fault Refusal :=
  runEvent (decide (cluster < 128)) (fun s => rampComplete s cluster) s
def execCurrentSample (cluster : Nat) (amps : Nat) (s : State) : Host.Outcome State Fault Refusal :=
  runEvent (decide (cluster < 128)) (fun s => currentSample s cluster amps) s
def execCurrentStepDown (cluster : Nat) (s : State) : Host.Outcome State Fault Refusal :=
  runEvent (decide (cluster < 128)) (fun s => currentStepDown s cluster) s
def execThermalOffline (die : Nat) (temp : Nat) (s : State) : Host.Outcome State Fault Refusal :=
  runEvent (decide (die < 4)) (fun s => thermalOffline s die temp) s
def execThermalClamp (die : Nat) (temp : Nat) (s : State) : Host.Outcome State Fault Refusal :=
  runEvent (decide (die < 4)) (fun s => thermalClamp s die temp) s
def execThermalCut (die : Nat) (temp : Nat) (s : State) : Host.Outcome State Fault Refusal :=
  runEvent (decide (die < 4)) (fun s => thermalCut s die temp) s
def execOfflineTimeoutCut (die : Nat) (s : State) : Host.Outcome State Fault Refusal :=
  runEvent (decide (die < 4)) (fun s => offlineTimeout s die) s
def execThermstReadmit (die : Nat) (value : Word) (s : State) : Host.Outcome State Fault Refusal :=
  runEvent (decide (die < 4)) (fun s => thermstReadmit s die value) s
def execWrstGo (die : Nat) (value : Word) (s : State) : Host.Outcome State Fault Refusal :=
  runEvent (decide (die < 4)) (fun s => wrstGo s die value) s
def execWarmResetPhase (die : Nat) (ok : Bool) (s : State) : Host.Outcome State Fault Refusal :=
  runEvent (decide (die < 4)) (fun s => warmPhase s die ok) s
def execDieReset (die : Nat) (s : State) : Host.Outcome State Fault Refusal := runEvent (decide (die < 4)) (fun s => dieReset s die) s
def execWarmZone (die : Nat) (temp : Nat) (s : State) : Host.Outcome State Fault Refusal :=
  runEvent (decide (die < 4)) (fun s => warmZone s die temp) s

end Sys2Proof.Machine
end

