-- ==== Sys2Proof/Machine/Cycle.lean ====
section
/-! DEFINITION. Machine/Cycle.lean: what a core cycle does beside the instruction that it issues: the twins' common cycle
(R19, R75), results that commit (R107), a repack that ends (R77), the array (R238), the timers (R298), the bounds that the
dispatcher, the licence and the current loop keep (R44, R45, R247, R363), and whether a slot's turn is used (R17, R48, R106,
R300). -/

namespace Sys2Proof.Machine

/-- The brim twin of a core's pair. -/
def evenOf (n : Nat) : Nat := n % 1024 / 2 * 2

/-- The slot whose turn it is in a core's cycle (R17). -/
def turnOf (s : State) (n : Nat) : Nat := (s.core n).cycle % 8

/-- REMAIN counts down once per cycle while the slot holds a thread that is not held; at 0 the timer expires (R298). -/
def timerTick (s : State) (n k : Nat) : State :=
  if timerRuns (s.slot n k) then
    let s := s.modSlot n k (fun x => { x with timer := setFld x.timer 0 40 (fld x.timer 0 40 - 1) })
    timerExpire s n k
  else s

def timersTick (s : State) (n : Nat) : State := (List.range 7).foldl (fun s k => timerTick s n k) s

/-- The thread next in order can enter a free slot of the core now. -/
def canFill (s : State) (n : Nat) : Bool :=
  match nextThread s n with
  | none => false
  | some img => match freeSlot s n with
    | none => false
    | some k => mayEnter s n img && (!(s.thread img).started || resumesHere s n k img)

/-- A user slot that is free and enabled. -/
def slotOpen (s : State) (n k : Nat) : Bool :=
  (s.core n).slotEn.getLsbD k && (s.slot n k).phase == .free && (s.slot n k).lentTo.isNone

/-- Slot `k` is filled in the 16th cycle at the latest in which it could be; lower ones that are free are filled first (R44). -/
def fillSlotTick (s : State) (n k : Nat) : State :=
  if !slotOpen s n k ∨ !canFill s n then s.modSlot n k (fun x => if x.freeWait = 0 then x else { x with freeWait := 0 })
  else if (s.slot n k).freeWait < 15 then s.modSlot n k (fun x => { x with freeWait := x.freeWait + 1 })
  else (List.range (k + 1)).foldl (fun s _ => if slotOpen s n k && canFill s n then slotFill s n else s) s

/-- A READY task that waited for room enters its home core's run list (R328). -/
def waitingTasks (s : State) (n : Nat) : State :=
  s.tasks.foldl (fun s t => if t.2.waits && t.2.home = n && t.2.state == .ready then enterTask s t.1 else s) s

/-- Task entries are handed on one in 16 cycles while one waits, the first within 16 cycles (R44). -/
def dealTick (s : State) (n : Nat) : State :=
  let c := s.core n
  if !c.runList.any isTask then s
  else if 15 ≤ c.dealWait ∧ c.dealAt ≤ c.cycle then dealTask s n
  else s.modCore n (fun c => { c with dealWait := c.dealWait + 1 })

/-- Entries of a run list, and of the overflow queue for it, that have waited longer than their interval are promoted (R45). -/
def ageTick (s : State) (n : Nat) : State :=
  let all (s : State) : List RunEntry := (s.core n).runList ++ (s.tower (towerOf n)).overflow.map (·.2)
  let due (s : State) (i : Nat) : Bool := match (all s)[i]? with | some e => mayAge s n e | none => false
  (all s).foldl (fun s _ => match (List.range (all s).length).find? (due s) with | some i => agePromote s n i | none => s) s

/-- The dispatcher in a core's cycle. -/
def fillTick (s : State) (n : Nat) : State :=
  (List.range 7).foldl (fun s k => fillSlotTick s n k) (dealTick (waitingTasks (ageTick s n) n) n)

/-- The current loop of the core's cluster samples every 256 cycles, lowers the cluster after 2^16 cycles, and a ramp whose time is
over ends; the current itself is free (R362 to R364). -/
def currentTick (s : State) (n : Nat) : State :=
  let c := clusterOf n
  let s := if clusterCycle s c < (s.cluster c).sampled + 256 then s else currentSample s.ticked c (Config.freeNat s.tick)
  rampComplete (currentStepDown s c) c

/-- A cycle of one core begins: a repack whose cycles have passed is complete, the array's commands go on, the timers count, a
licence's term ends at its first moment (R247), and the bounds of the dispatcher and of the current loop are kept. -/
def beginCore (s : State) (n : Nat) : State :=
  let s := s.modCore n (fun c => { c with cycle := c.cycle + 1, tagsNow := 0 })
  fillTick (currentTick (termEnds (timersTick (arrayTick (repackDone s n) n) n) (pairOf n)) n) n

/-- What comes before the issue in a slot's turn: a kill or a pre-emption is taken at the instruction boundary at which the slot stands
(R300, R306), a woken slot evaluates its condition again (R49), and the system slot begins a pending event (R293). -/
def turnTick (s : State) (n : Nat) : State :=
  let k := turnOf s n
  let s := if k < 7 then killGo s (s.slot n k).img else s
  let s := preemptForce (preemptTake s n k) n k
  let s := if (s.slot n k).woken then wakeRecheck s n k else s
  if k = 7 then systemEventBegin s n else s

/-- A cycle of a pair begins: what the brim twin writes in it lands before what the crown twin writes (R75), and the
crown twin issues in the next move. -/
def startCycle (s : State) (n : Nat) : State :=
  let s := beginCore (beginCore s n) (n + 1)
  let s := commitCore (commitCore s n) (n + 1)
  let s := turnTick (turnTick s n) (n + 1)
  { s with agenda := .issue (n + 1) :: s.agenda }

/-- The slot's turn is counted whether or not it issues (R106), and becomes the current party. -/
def beginTurn (s : State) (n k : Nat) : State :=
  { s.modSlot n k (fun x => { x with turn := x.turn + 1 }) with cur := (n, k) }

/-- A pre-emption request that the slot takes at the instruction boundary at which it stands (R300), or by force. -/
def preemptDue (s : State) (n k : Nat) : Bool :=
  (decide (k < 7) && preAsked (s.slot n k) && !holdsLic s (pairOf n) (slotReq s n k)) || forceDue s n k

/-- The slot issues in its turn: it runs, its slip has passed, it waits for no submission and for no repack of its own,
the current loop has not removed it, no kill and no pre-emption is due, and its site is up. A slot that stands within an instruction
goes on with it. -/
def mayIssue (s : State) (n k : Nat) : Bool :=
  let x := s.slot n k
  x.phase == .running && decide (x.nextTurn ≤ x.turn) && !x.stalled && !inboxPending s n k
    && x.repack.isNone && !slotRemoved s n k
    && (midInstr s n k || ((s.thread x.img).stopping.isNone && !preemptDue s n k && siteUp s n))

/-- A row of the opcode table that stands for an event of the device; the others are encoded instructions. -/
def isEvent (i : Instr) : Bool := !i.is32 && !i.isCompact

/-- A free move: the counter of free values moves on, and device time advances by a free amount (R25). -/
def freeTick (s : State) : State :=
  { s with tick := s.tick + 1, time := s.time + BitVec.ofNat 64 (Config.freeNat s.tick % 2 ^ 32) }

/-- Bytes written one after the other. -/
def placeBytes (m : List Host.Cell) (a : Nat) : List Byte → List Host.Cell
  | [] => m
  | b :: r => placeBytes (memWrite m a b) (a + 1) r

end Sys2Proof.Machine
end

