-- ==== Sys2Proof/Machine/FabricEvents.lean ====
section
/-! DEFINITION. Machine/FabricEvents.lean: packets that arrive at a fabric port (R195, R197, R275, R276, R373 to R377), the
events of the per-core windows (R79, R80, R244) and of the inbox (R303). An event that is not enabled leaves the state as it
is. -/

namespace Sys2Proof.Machine

/-! ## The header (R373) -/

def headerBad (p : Packet) : Bool :=
  let k := p.kind.toNat
  decide (k < 1) || decide (7 < k) || p.flags.toNat / 32 ≠ 0 || p.src.toNat / 1024 ≠ 0 || p.dst.toNat / 16384 ≠ 0 || p.sdev.toNat / 512 ≠ 0
    || (if k = 6 then wideGet p.coll 14 2 ≠ 0 || wideGet p.coll 22 2 ≠ 0 else p.coll ≠ 0)
    || decide (4096 < p.payload.length)

def unordered (p : Packet) : Bool := p.flags.getLsbD 0

/-- The port at which a packet arrives: its sender chose the plane by its own ports, so it is free among those that are up (R374,
log entry 77). -/
def portOf (s : State) : Option Nat := nextUp s (Config.freeNat s.tick)

/-- A dropped header is counted at its port. -/
def countDrop (s : State) : State :=
  match portOf s with
  | none => s
  | some q => { s.ticked with portErrors := s.portErrors.set q (s.portErrors.get q 0 + 1) }

/-! ## Delivery by kind: the payloads are those of log entry 9 -/

/-- Bytes [lo, lo + n) of a payload as a number. -/
def payAt (p : Packet) (lo n : Nat) : Nat := leValue ((p.payload.drop lo).take n)

/-- The site with the packet's logical core number: freely one of those of the open partitions. -/
def packetCore (s : State) (p : Packet) : Option Nat :=
  let cs := s.places.filter (fun x => x.2.2 = p.dst.toNat % 1024)
  (cs[Config.freeNat s.tick % cs.length]?).map (·.1)

def packetChan (p : Packet) : Nat := p.dst.toNat / 1024 % 16

/-- The place that was reserved for the message of a packet's sender and number: its core and channel (R171). -/
def placeOfMsg (s : State) (party id : Nat) : Option (Nat × Nat) :=
  s.cores.findSome? (fun c => (c.2.chans.find? (fun x => x.2.travel.any (fun m => m.flits.isEmpty && m.fromCore = party && m.fromSlot = id))).map
    (fun x => (c.1, x.1)))

/-- Such a place is free again. -/
def dropPlace (s : State) (n ch party id : Nat) : State :=
  let mine (m : Msg) : Bool := m.flits.isEmpty && m.fromCore = party && m.fromSlot = id
  s.modCore n (fun c => c.setChan ch { c.chan ch with travel := dropFirst mine (c.chan ch).travel })

def senderOf (p : Packet) : Nat := farParty p.sdev.toNat p.src.toNat

/-- Flits of a MSG packet, and the number of its place. -/
def msgFlits (p : Packet) : Nat := p.payload.length / 16
def msgPlace (p : Packet) : Nat := payAt p (16 * msgFlits p + 1) 8

/-- A message has a place; a line that an engine owns is not written or read before the engine has finished it (R266). -/
def deliverable (s : State) (p : Packet) : Bool :=
  match p.kind.toNat with
  | 1 => (placeOfMsg s (senderOf p) (msgPlace p)).isSome
    || (match packetCore s p with | some n => decide (chanCount s n (packetChan p) < 4) | none => true)
  | 2 | 3 | 4 => !engineOwns s (canonPa s (payAt p 8 8 % Config.windowBase))
  | _ => true

/-- A MSG packet's message travels to its channel, in the place that was reserved for it; messages of an unordered flow keep no
order. -/
def deliverMsg (s : State) (p : Packet) : State :=
  let k := msgFlits p
  let there := match placeOfMsg s (senderOf p) (msgPlace p) with
    | some (n, ch) => some (dropPlace s n ch (senderOf p) (msgPlace p), n, ch)
    | none => (packetCore s p).map (fun n => (s, n, packetChan p))
  match there with
  | none => s.ticked
  | some (s, n, ch) =>
    if k = 0 ∨ 4 < k then s.ticked
    else
      let flits := (List.range k).map (fun i => BitVec.ofNat 128 (payAt p (16 * i) 16))
      let info := msgInfo k (payAt p (16 * k) 1 % 8) true p.src.toNat p.sdev.toNat false
      let rel := if p.flags.getLsbD 1 then some (p.flags.toNat / 4 % 8) else none
      reserveMsg s.ticked n ch
        { flits := flits, info := info, rel := rel, fromCore := senderOf p, fromSlot := if unordered p then 9 + s.tick else 8 }

/-- Bytes performed at their home, one by one, with a poison bit each; the home address space of another device's put ends at
2^40 (R342). -/
def putBytes (s : State) (off poison : Nat) : List Byte → State
  | [] => s
  | b :: r => putBytes (physWrite s (off % Config.windowBase) 1 b.toNat (poison % 2) none) (off + 1) (poison / 2) r

/-- The answer to a packet's sender: the value, and whether the home's bytes were poisoned. -/
def answer (s : State) (p : Packet) (id v : Nat) (bad : Bool) : State :=
  if id = noReply then s
  else
    sendPacket s 5 0 (p.dst.toNat % 1024) p.src.toNat p.sdev.toNat 0 0 (leBytes 8 id ++ leBytes 16 v ++ leBytes 1 (if bad then 1 else 0))

/-- A put performed, and answered. -/
def deliverPut (s : State) (p : Packet) : State :=
  answer (putBytes s (payAt p 8 8) (payAt p 16 2) (p.payload.drop 18)) p (payAt p 0 8) 0 false

/-- A counted put: the bytes, then one arrival at the barrier object, which may lie on any device. -/
def deliverCput (s : State) (p : Packet) : State :=
  let s := putBytes s (payAt p 8 8) 0 (p.payload.drop 26)
  let bdev := payAt p 16 2 % 512
  let boff := payAt p 18 8 % Config.windowBase
  let s := if bdev = s.devId then (barrierArrive s boff false none).1
    else sendPacket s 4 0 (p.dst.toNat % 1024) 0 bdev 0 0 (atomBytes noReply boff opArrive 32 0 0 0 0)
  answer s p (payAt p 0 8) 0 false

/-- A place asked for: it is given, or the sender waits in order (R56, R171). `off` names the core and the channel. -/
def deliverPlace (s : State) (p : Packet) (id off : Nat) : State :=
  let sites := s.places.filter (fun x => x.2.2 = off % 1024)
  match sites[Config.freeNat s.tick % sites.length]? with
  | none => s.ticked
  | some (n, _) =>
    let ch := off / 1024 % 16
    let party := 2048 + 1024 * p.sdev.toNat + p.src.toNat
    if placeFree s n ch party id then grantPlace s.ticked n ch p.sdev.toNat p.src.toNat id else noteSender s.ticked n ch party id

/-- A place given back: the sender stopped before its message went. -/
def deliverPlaceBack (s : State) (p : Packet) (id : Nat) : State :=
  let party := 2048 + 1024 * p.sdev.toNat + p.src.toNat
  match placeOfMsg s (senderOf p) id with
  | some (n, ch) => wakeSender (dropPlace s n ch (senderOf p) id) n ch
  | none => s.mapCores (fun c => { c with sendQ := c.sendQ.filter (fun w => !(w.2 = (party, id))) })

/-- An atomic or an object operation performed at its home, and its reply; a poisoned place is not written, and neither is one
whose result does not fit the name it goes to (R8). -/
def deliverAtom (s : State) (p : Packet) : State :=
  let id := payAt p 0 8
  let pa := payAt p 8 8 % Config.windowBase
  let op := payAt p 16 1
  let size := payAt p 17 1
  if op = opPlace then deliverPlace s p id pa
  else if op = opPlaceBack then deliverPlaceBack s p (payAt p 19 16)
  else
    let (v, q) := physRead s pa size
    if q ≠ 0 then answer s p id v true
    else
      let (t, r) := homeOp s pa op size (payAt p 19 16) (payAt p 35 8) (payAt p 18 1) none
      answer (if guardFits (payAt p 43 2) r then t else s) p id r false

/-- A reply meets the operation or the write that awaits it; a place that is granted to no one any more is given back. -/
def deliverReply (s : State) (p : Packet) : State :=
  let id := payAt p 0 8
  let v := BitVec.ofNat 129 (payAt p 8 16 + payAt p 24 1 % 2 * 2 ^ 128)
  match s.remoteOps.find? (fun r => r.id = id && r.core = orphan) with
  | some r => givePlaceBack { s with remoteOps := s.remoteOps.filter (fun x => x.id ≠ id) } 0 r
  | none =>
    lateReplies { s with
      remoteOps := s.remoteOps.map (fun r => if r.id = id ∧ r.reply.isNone then { r with reply := some v } else r)
      farWrites := s.farWrites.filter (fun w => w.id ≠ id) }

def deliverPacket (s : State) (p : Packet) : State :=
  match p.kind.toNat with
  | 1 => deliverMsg s p
  | 2 => deliverPut s p
  | 3 => deliverCput s p
  | 4 => deliverAtom s p
  | 5 => deliverReply s p
  | _ => s

/-! ## Flows (R275) -/

def recvKey (p : Packet) : Nat := flowKey p.src.toNat (p.dst.toNat % 1024) p.sdev.toNat (unordered p) 0

def inTurn (s : State) (p : Packet) : Bool := unordered p || decide (p.seq.toNat = s.flowRecv.get (recvKey p) 0)

def passFlow (s : State) (p : Packet) : State :=
  if unordered p then s else { s with flowRecv := s.flowRecv.set (recvKey p) ((p.seq.toNat + 1) % 2 ^ 32) }

/-- Held packets are delivered as their turns and their places come. -/
def drainFlows : (fuel : Nat) → State → State
  | 0, s => s
  | f + 1, s =>
    match s.reorder.find? (fun p => inTurn s p && deliverable s p) with
    | none => s
    | some p => drainFlows f (deliverPacket (passFlow { s with reorder := dropFirst (fun x => x = p) s.reorder } p) p)

def drainAll (s : State) : State := drainFlows s.reorder.length s

/-- A packet whose sequence number has passed, or that is held already, is one that the transport sent again. -/
def seenBefore (s : State) (p : Packet) : Bool :=
  !unordered p && (decide (2 ^ 31 ≤ (p.seq.toNat + 2 ^ 32 - s.flowRecv.get (recvKey p) 0) % 2 ^ 32)
    || s.reorder.any (fun q => !unordered q && recvKey q = recvKey p && q.seq = p.seq))

/-- A packet of kind `want` arrives at this device. -/
def arrivePacket (want : Nat) (s : State) (p : Packet) : State :=
  if !portsOpen s || p.ddev.toNat ≠ s.devId then s
  else if headerBad p then countDrop s
  else if p.kind.toNat ≠ want || seenBefore s p then drainAll s
  else drainAll { s with reorder := s.reorder ++ [p] }

/-! ## Collective packets (R231) -/

/-- The core whose command a packet meets; with none, the packet waits in the tower of `n`. -/
def collSite (s : State) (n : Nat) (p : Packet) : Nat :=
  ((s.cores.find? (fun c => c.2.cmds.any (collTakes s p))).map (·.1)).getD n

def arriveColl (abort : Bool) (n : Nat) (s : State) (p : Packet) : State :=
  if !portsOpen s || p.ddev.toNat ≠ s.devId then s
  else if headerBad p then countDrop s
  else if p.kind.toNat ≠ 6 || hdrAbort p != abort then s
  else collReceive s (collSite s n p) p

/-! ## Windows and inbox -/

/-- An access of requester `by_` through a per-core window; a refused one ends at its requester. -/
def windowEvent (s : State) (pa lo hi by_ : Nat) (f : Req → Nat → Nat → Access) (slot : Option Nat) : State :=
  if 1024 ≤ by_ then s
  else match placeOf s pa with
    | .window n off =>
      if off < lo ∨ hi ≤ off then s
      else match f { core := by_, slot := slot } n off with
        | .ok t _ _ _ => t
        | _ => s
    | _ => s

def nameWindowWrite (s : State) (pa size : Nat) (v : Word) (by_ : Nat) : State :=
  windowEvent s pa 0x300000 0x303000 by_ (fun q n off => windowWrite s q n off size v.toNat 0 pa 0) none
def nameWindowRead (s : State) (pa size by_ : Nat) : State :=
  windowEvent s pa 0x300000 0x303000 by_ (fun q n off => windowRead s q n off size pa 0) none
def rawRowAccess (s : State) (pa : Nat) (store : Bool) (v : Word) (by_ : Nat) : State :=
  windowEvent s pa 0x380000 0x381180 by_
    (fun q n off => if store then windowWrite s q n off 8 v.toNat 0 pa 0 else windowRead s q n off 8 pa 0) (some 7)
def accWindowRead (s : State) (pa size by_ : Nat) : State :=
  windowEvent s pa 0x200000 0x210000 by_ (fun q n off => windowRead s q n off size pa 0) none
def accWindowWrite (s : State) (pa size : Nat) (v : Word) (by_ : Nat) : State :=
  windowEvent s pa 0x200000 0x210000 by_ (fun q n off => windowWrite s q n off size v.toNat 0 pa 0) none

/-- The oldest waiting entry enters an inbox that has room. -/
def inboxEntryEnter (s : State) (n : Nat) : State :=
  s.modCore n (fun c => match c.inboxWait with
    | e :: r => if c.inbox.length < 32 then { c with inbox := c.inbox ++ [e.1], inboxWait := r } else c
    | [] => c)

/-! ## The events -/

def execMessageDeliver (core : Nat) (chan : Nat) (idx : Nat) (s : State) : Host.Outcome State Fault Refusal :=
  runEvent (decide (core < 1024) && decide (chan < 16)) (fun s => drainAll (messageDeliver s core chan idx)) s
def execFabricMsgReceive (p : Packet) (s : State) : Host.Outcome State Fault Refusal := runEvent true (fun s => arrivePacket 1 s p) s
def execPutReceive (p : Packet) (s : State) : Host.Outcome State Fault Refusal := runEvent true (fun s => arrivePacket 2 s p) s
def execCputReceive (p : Packet) (s : State) : Host.Outcome State Fault Refusal := runEvent true (fun s => arrivePacket 3 s p) s
def execAtomReceive (p : Packet) (s : State) : Host.Outcome State Fault Refusal := runEvent true (fun s => arrivePacket 4 s p) s
def execReplyReceive (p : Packet) (s : State) : Host.Outcome State Fault Refusal := runEvent true (fun s => arrivePacket 5 s p) s
def execCollPacketReceive (core : Nat) (p : Packet) (s : State) : Host.Outcome State Fault Refusal :=
  runEvent (decide (core < 1024)) (fun s => arriveColl false core s p) s
def execCollAbortReceive (core : Nat) (p : Packet) (s : State) : Host.Outcome State Fault Refusal :=
  runEvent (decide (core < 1024)) (fun s => arriveColl true core s p) s
def execNameWindowWrite (pa : Nat) (size : Nat) (value : Word) (by_ : Nat) (s : State) : Host.Outcome State Fault Refusal :=
  runEvent true (fun s => nameWindowWrite s pa size value by_) s
def execNameWindowRead (pa : Nat) (size : Nat) (by_ : Nat) (s : State) : Host.Outcome State Fault Refusal :=
  runEvent true (fun s => nameWindowRead s pa size by_) s
def execRawRowAccess (pa : Nat) (store : Bool) (value : Word) (by_ : Nat) (s : State) : Host.Outcome State Fault Refusal :=
  runEvent true (fun s => rawRowAccess s pa store value by_) s
def execAccWindowRead (pa : Nat) (size : Nat) (by_ : Nat) (s : State) : Host.Outcome State Fault Refusal :=
  runEvent true (fun s => accWindowRead s pa size by_) s
def execAccWindowWrite (pa : Nat) (size : Nat) (value : Word) (by_ : Nat) (s : State) : Host.Outcome State Fault Refusal :=
  runEvent true (fun s => accWindowWrite s pa size value by_) s
def execInboxEntryEnter (core : Nat) (s : State) : Host.Outcome State Fault Refusal :=
  runEvent (decide (core < 1024)) (fun s => inboxEntryEnter s core) s

end Sys2Proof.Machine
end

