-- ==== Sys2Proof/Machine/FloatOps.lean ====
section
/-! DEFINITION. Machine/FloatOps.lean: the float, approximation and refinement instructions (R145 to R159) and their compact
forms. -/

namespace Sys2Proof.Machine

/-- The slot's rounding mode (R82). -/
def rmode (s : State) : Rnd := Rnd.ofRmode s.me.rmode.toNat
/-- An exact zero sum takes −0 under RDN. -/
def rdn (s : State) : Bool := s.me.rmode.toNat % 4 = 3

/-- put(D, v) of an exact value: rounded into D's kind, with the operation's own flags (R82, R83). -/
def putV (s : State) (d l : Nat) (r : FVal × Nat) : Eff :=
  let f := fitF (info s d).kind (rmode s) r.1
  putF s d l (f.1, r.2 ||| f.2)

/-- Two float names and a float destination (R145, R150). -/
def fbin (l : Nat) (f : Bool → FVal → FVal → FVal × Nat) (d a b : Nat) (s : State) : Eff :=
  pre s [a, b] [d] [(d, floatK), (a, floatK), (b, floatK)] (putV s d l (f (rdn s) (valF s a) (valF s b)))

def oneV (p : Bool) : FVal := .ofInt (if p then 1 else 0)

/-- FSETEQ, FSETLT, FSETLE: `quiet` says that only a signalling NaN raises NV (R150). -/
def compareV (quiet : Bool) (test : Int → Bool) (a b : FVal) : FVal × Nat :=
  if a.isNan || b.isNan then (oneV false, if quiet then nanFlags a b else flagNV) else (oneV (test (cmpV a b)), 0)

def unorderedV (a b : FVal) : FVal × Nat := (oneV (a.isNan || b.isNan), nanFlags a b)

def fcpysOp (d a b : Nat) (s : State) : Eff :=
  pre s [a, b] [d] [(d, floatK), (a, floatK), (b, floatK)]
    (let v := valF s a
     let sign := opBits s b / 2 ^ ((info s b).width - 1) % 2 = 1
     putV s d 1 (if v.isNan then (.nan false, if v.isSnan then flagNV else 0) else (v.withSign sign, 0)))

/-- One float name (R152). -/
def funary (l : Nat) (f : FVal → FVal × Nat) (d a : Nat) (s : State) : Eff :=
  pre s [a] [d] [(d, floatK), (a, floatK)] (putV s d l (f (valF s a)))

/-- A NaN operand gives the canonical NaN, with NV when it is signalling. -/
def unlessNan (f : FVal → FVal) (v : FVal) : FVal × Nat :=
  if v.isNan then (.nan false, if v.isSnan then flagNV else 0) else (f v, 0)

def frndOp (d a r : Nat) (s : State) : Eff :=
  funary 1 (unlessNan (roundInt (Rnd.ofSelector s.me.rmode.toNat r))) d a s

def fclassOp (d a : Nat) (s : State) : Eff :=
  pre s [a] [d] [(d, floatK), (a, floatK)] (putV s d 1 (.ofInt (classF (info s a).kind (opBits s a)), 0))

/-- FCVT into an integer name (R153). ZERO, which R58 gives no mode, counts as one of mode wrap (log entry 75). -/
def toIntOp (mode : Rnd) (d : Nat) (v : FVal) (s : State) : Eff :=
  let i := info s d
  let store (x : Int) (fl : Nat) : Eff := putF s d 1 (modPow x i.width, fl)
  match v with
  | .nan _ => if i.mode = .trap ∧ d ≠ 63 then .trap .width (BitVec.ofNat 64 d) else store 0 flagNV
  | .inf n => match i.mode with
    | .trap => .trap .width (BitVec.ofNat 64 d)
    | .wrap => store 0 flagNV
    | .sat => store (if n then rangeLo i.kind i.width else rangeHi i.kind i.width) flagNV
  | .fin n num den e =>
    let (m, x) := quantize mode n 64 num den e 0
    let y := signedNum n m
    if representable i.kind i.width y then store y (if x then flagNX else 0)
    else match fitInt i.kind i.width i.mode y with
      | none => .trap .width (widthVal y d)
      | some z => store z flagNV

def fcvtOp (d a r : Nat) (s : State) : Eff :=
  pre s [a] [d] [(d, anyK), (a, anyK), (d, fun i => i.kind.isFloat || (info s a).kind.isFloat)]
    (let mode := Rnd.ofSelector s.me.rmode.toNat r
     let into (v : FVal) (fl : Nat) : Eff :=
       let f := fitF (info s d).kind mode v
       putF s d 1 (f.1, fl ||| f.2)
     if (info s a).kind.isFloat then
       (if (info s d).kind.isFloat then
          let v := valF s a
          if v.isNan then into (.nan false) (if v.isSnan then flagNV else 0) else into v 0
        else toIntOp mode d (valF s a) s)
     else into (.ofInt (valI s a)) 0)

/-- An approximation of FP32 (R155): the result is given bit for bit. -/
def approx (l : Nat) (f : Nat → Nat × Nat) (d a : Nat) (s : State) : Eff :=
  pre s [a] [d] [(d, f32K), (a, f32K)] (putF s d l (f (opBits s a)))

/-- c ± a × b (R157). -/
def fmaV (minus rdn : Bool) (c a b : FVal) : FVal × Nat :=
  if (a.isZero && b.isInf) || (a.isInf && b.isZero) then (.nan false, flagNV)
  else if a.isNan || b.isNan || c.isNan then (.nan false, nanFlags a b ||| nanFlags c c)
  else
    let p := (mulV a b).1
    addV rdn c (if minus then p.negate else p)

def fma (minus : Bool) (d a b : Nat) (s : State) : Eff :=
  pre s [d, a, b] [d] [(d, floatK), (a, floatK), (b, floatK)] (putV s d 1 (fmaV minus (rdn s) (valF s d) (valF s a) (valF s b)))

/-- RCPS: y (2 − x y), RSQS: y (3 − x y y) / 2 (R157, R158). An exactly zero result has the sign that a zero difference (+0, −0
under RDN) gives to its product with y (log entry 75). -/
def rcpsV (rdn : Bool) (x y : FVal) : FVal := (mulV y (addV rdn (.ofInt 2) (mulV x y).1.negate).1).1
def rsqsV (rdn : Bool) (x y : FVal) : FVal :=
  (mulV (mulV y (addV rdn (.ofInt 3) (mulV (mulV x y).1 y).1.negate).1).1 (.fin false 1 1 (-1))).1

def refine (f : Bool → FVal → FVal → FVal) (d a b : Nat) (s : State) : Eff :=
  pre s [a, b] [d] [(d, f32K), (a, f32K), (b, f32K)]
    (let x := valF s a
     let y := valF s b
     if x.isNan || y.isNan then putV s d 2 (.nan false, nanFlags x y)
     else if y.isZero || y.isInf then putF s d 2 (opBits s b, 0)
     else putV s d 2 (f (rdn s) x y, 0))

def faddOp (d a b : Nat) (s : State) : Eff := fbin 1 addV d a b s
def fmulOp (d a b : Nat) (s : State) : Eff := fbin 1 (fun _ x y => mulV x y) d a b s
/-- a − b. -/
def subV (rdn : Bool) (a b : FVal) : FVal × Nat :=
  if a.isNan || b.isNan then (.nan false, nanFlags a b) else addV rdn a b.negate

/-! ## The instructions -/

def execFadd (sl : BitVec 2) (d a b : BitVec 6) (s : State) : Host.Outcome State Fault Refusal :=
  run32 (.fadd sl d a b) sl (faddOp d.toNat a.toNat b.toNat) s

def execFsub (sl : BitVec 2) (d a b : BitVec 6) (s : State) : Host.Outcome State Fault Refusal :=
  run32 (.fsub sl d a b) sl (fbin 1 subV d.toNat a.toNat b.toNat) s

def execFmul (sl : BitVec 2) (d a b : BitVec 6) (s : State) : Host.Outcome State Fault Refusal :=
  run32 (.fmul sl d a b) sl (fmulOp d.toNat a.toNat b.toNat) s

def execFdiv (sl : BitVec 2) (d a b : BitVec 6) (s : State) : Host.Outcome State Fault Refusal :=
  run32 (.fdiv sl d a b) sl (fbin 4 (fun _ x y => divV x y) d.toNat a.toNat b.toNat) s

def execFmin (sl : BitVec 2) (d a b : BitVec 6) (s : State) : Host.Outcome State Fault Refusal :=
  run32 (.fmin sl d a b) sl (fbin 1 (fun _ x y => minV x y) d.toNat a.toNat b.toNat) s

def execFmax (sl : BitVec 2) (d a b : BitVec 6) (s : State) : Host.Outcome State Fault Refusal :=
  run32 (.fmax sl d a b) sl (fbin 1 (fun _ x y => maxV x y) d.toNat a.toNat b.toNat) s

def execFseteq (sl : BitVec 2) (d a b : BitVec 6) (s : State) : Host.Outcome State Fault Refusal :=
  run32 (.fseteq sl d a b) sl (fbin 1 (fun _ x y => compareV true (fun c => c = 0) x y) d.toNat a.toNat b.toNat) s

def execFsetlt (sl : BitVec 2) (d a b : BitVec 6) (s : State) : Host.Outcome State Fault Refusal :=
  run32 (.fsetlt sl d a b) sl (fbin 1 (fun _ x y => compareV false (fun c => c < 0) x y) d.toNat a.toNat b.toNat) s

def execFsetle (sl : BitVec 2) (d a b : BitVec 6) (s : State) : Host.Outcome State Fault Refusal :=
  run32 (.fsetle sl d a b) sl (fbin 1 (fun _ x y => compareV false (fun c => c ≤ 0) x y) d.toNat a.toNat b.toNat) s

def execFsetun (sl : BitVec 2) (d a b : BitVec 6) (s : State) : Host.Outcome State Fault Refusal :=
  run32 (.fsetun sl d a b) sl (fbin 1 (fun _ x y => unorderedV x y) d.toNat a.toNat b.toNat) s

def execFcpys (sl : BitVec 2) (d a b : BitVec 6) (s : State) : Host.Outcome State Fault Refusal :=
  run32 (.fcpys sl d a b) sl (fcpysOp d.toNat a.toNat b.toNat) s

def execFabs (sl : BitVec 2) (d a : BitVec 6) (s : State) : Host.Outcome State Fault Refusal :=
  run32 (.fabs sl d a) sl (funary 1 (unlessNan (FVal.withSign false)) d.toNat a.toNat) s

def execFneg (sl : BitVec 2) (d a : BitVec 6) (s : State) : Host.Outcome State Fault Refusal :=
  run32 (.fneg sl d a) sl (funary 1 (unlessNan FVal.negate) d.toNat a.toNat) s

def execFcvt (sl : BitVec 2) (d a r : BitVec 6) (s : State) : Host.Outcome State Fault Refusal :=
  run32 (.fcvt sl d a r) sl (fcvtOp d.toNat a.toNat r.toNat) s

def execFrnd (sl : BitVec 2) (d a r : BitVec 6) (s : State) : Host.Outcome State Fault Refusal :=
  run32 (.frnd sl d a r) sl (frndOp d.toNat a.toNat r.toNat) s

def execFclass (sl : BitVec 2) (d a : BitVec 6) (s : State) : Host.Outcome State Fault Refusal :=
  run32 (.fclass sl d a) sl (fclassOp d.toNat a.toNat) s

def execFsqrt (sl : BitVec 2) (d a : BitVec 6) (s : State) : Host.Outcome State Fault Refusal :=
  run32 (.fsqrt sl d a) sl (funary 4 sqrtV d.toNat a.toNat) s

def execRcpa (sl : BitVec 2) (d a : BitVec 6) (s : State) : Host.Outcome State Fault Refusal :=
  run32 (.rcpa sl d a) sl (approx 1 rcpa d.toNat a.toNat) s

def execRsqa (sl : BitVec 2) (d a : BitVec 6) (s : State) : Host.Outcome State Fault Refusal :=
  run32 (.rsqa sl d a) sl (approx 1 rsqa d.toNat a.toNat) s

def execExp2a (sl : BitVec 2) (d a : BitVec 6) (s : State) : Host.Outcome State Fault Refusal :=
  run32 (.exp2a sl d a) sl (approx 2 exp2a d.toNat a.toNat) s

def execLog2a (sl : BitVec 2) (d a : BitVec 6) (s : State) : Host.Outcome State Fault Refusal :=
  run32 (.log2a sl d a) sl (approx 2 log2a d.toNat a.toNat) s

def execSiga (sl : BitVec 2) (d a : BitVec 6) (s : State) : Host.Outcome State Fault Refusal :=
  run32 (.siga sl d a) sl (approx 2 siga d.toNat a.toNat) s

def execTanha (sl : BitVec 2) (d a : BitVec 6) (s : State) : Host.Outcome State Fault Refusal :=
  run32 (.tanha sl d a) sl (approx 2 tanha d.toNat a.toNat) s

def execFfma (sl : BitVec 2) (d a b : BitVec 6) (s : State) : Host.Outcome State Fault Refusal :=
  run32 (.ffma sl d a b) sl (fma false d.toNat a.toNat b.toNat) s

def execFfms (sl : BitVec 2) (d a b : BitVec 6) (s : State) : Host.Outcome State Fault Refusal :=
  run32 (.ffms sl d a b) sl (fma true d.toNat a.toNat b.toNat) s

def execRcps (sl : BitVec 2) (d a b : BitVec 6) (s : State) : Host.Outcome State Fault Refusal :=
  run32 (.rcps sl d a b) sl (refine rcpsV d.toNat a.toNat b.toNat) s

def execRsqs (sl : BitVec 2) (d a b : BitVec 6) (s : State) : Host.Outcome State Fault Refusal :=
  run32 (.rsqs sl d a b) sl (refine rsqsV d.toNat a.toNat b.toNat) s

def execFaddCompact (d a : BitVec 5) (s : State) : Host.Outcome State Fault Refusal :=
  run16 (.faddCompact d a) (faddOp d.toNat d.toNat a.toNat) s

def execFmulCompact (d a : BitVec 5) (s : State) : Host.Outcome State Fault Refusal :=
  run16 (.fmulCompact d a) (fmulOp d.toNat d.toNat a.toNat) s

end Sys2Proof.Machine
end

