-- ==== Sys2Proof/Machine/Dispatch.lean ====
section
/-! DEFINITION. Machine/Dispatch.lean: the meaning of every instruction and event, one arm each. -/

namespace Sys2Proof.Machine

def exec (i : Instr) (s : State) : Host.Outcome State Fault Refusal :=
  match i with
  | .add sl d a b => Sys2Proof.Machine.execAdd sl d a b s
  | .sub sl d a b => Sys2Proof.Machine.execSub sl d a b s
  | .mul sl d a b => Sys2Proof.Machine.execMul sl d a b s
  | .mulh sl d a b => Sys2Proof.Machine.execMulh sl d a b s
  | .div sl d a b => Sys2Proof.Machine.execDiv sl d a b s
  | .rem sl d a b => Sys2Proof.Machine.execRem sl d a b s
  | .min sl d a b => Sys2Proof.Machine.execMin sl d a b s
  | .max sl d a b => Sys2Proof.Machine.execMax sl d a b s
  | .and sl d a b => Sys2Proof.Machine.execAnd sl d a b s
  | .or sl d a b => Sys2Proof.Machine.execOr sl d a b s
  | .xor sl d a b => Sys2Proof.Machine.execXor sl d a b s
  | .andn sl d a b => Sys2Proof.Machine.execAndn sl d a b s
  | .shl sl d a b => Sys2Proof.Machine.execShl sl d a b s
  | .shr sl d a b => Sys2Proof.Machine.execShr sl d a b s
  | .rol sl d a b => Sys2Proof.Machine.execRol sl d a b s
  | .ror sl d a b => Sys2Proof.Machine.execRor sl d a b s
  | .seteq sl d a b => Sys2Proof.Machine.execSeteq sl d a b s
  | .setne sl d a b => Sys2Proof.Machine.execSetne sl d a b s
  | .setlt sl d a b => Sys2Proof.Machine.execSetlt sl d a b s
  | .setle sl d a b => Sys2Proof.Machine.execSetle sl d a b s
  | .absd sl d a b => Sys2Proof.Machine.execAbsd sl d a b s
  | .mov sl d a => Sys2Proof.Machine.execMov sl d a s
  | .neg sl d a => Sys2Proof.Machine.execNeg sl d a s
  | .abs sl d a => Sys2Proof.Machine.execAbs sl d a s
  | .not sl d a => Sys2Proof.Machine.execNot sl d a s
  | .clz sl d a => Sys2Proof.Machine.execClz sl d a s
  | .ctz sl d a => Sys2Proof.Machine.execCtz sl d a s
  | .popc sl d a => Sys2Proof.Machine.execPopc sl d a s
  | .brev sl d a => Sys2Proof.Machine.execBrev sl d a s
  | .fits sl d a b => Sys2Proof.Machine.execFits sl d a b s
  | .getw sl d a => Sys2Proof.Machine.execGetw sl d a s
  | .getm sl d a => Sys2Proof.Machine.execGetm sl d a s
  | .sel sl d a b p => Sys2Proof.Machine.execSel sl d a b p s
  | .bfx sl d a p l => Sys2Proof.Machine.execBfx sl d a p l s
  | .bfi sl d a p l => Sys2Proof.Machine.execBfi sl d a p l s
  | .addi sl d a imm => Sys2Proof.Machine.execAddi sl d a imm s
  | .muli sl d a imm => Sys2Proof.Machine.execMuli sl d a imm s
  | .andi sl d a imm => Sys2Proof.Machine.execAndi sl d a imm s
  | .ori sl d a imm => Sys2Proof.Machine.execOri sl d a imm s
  | .xori sl d a imm => Sys2Proof.Machine.execXori sl d a imm s
  | .shli sl d a imm => Sys2Proof.Machine.execShli sl d a imm s
  | .shri sl d a imm => Sys2Proof.Machine.execShri sl d a imm s
  | .seteqi sl d a imm => Sys2Proof.Machine.execSeteqi sl d a imm s
  | .setlti sl d a imm => Sys2Proof.Machine.execSetlti sl d a imm s
  | .movi sl d imm => Sys2Proof.Machine.execMovi sl d imm s
  | .movk q sl d imm => Sys2Proof.Machine.execMovk q sl d imm s
  | .rsz sl d w => Sys2Proof.Machine.execRsz sl d w s
  | .setm sl d m => Sys2Proof.Machine.execSetm sl d m s
  | .borrow sl d a b => Sys2Proof.Machine.execBorrow sl d a b s
  | .giveback sl => Sys2Proof.Machine.execGiveback sl s
  | .xget sl d k => Sys2Proof.Machine.execXget sl d k s
  | .xput sl k a => Sys2Proof.Machine.execXput sl k a s
  | .twxch sl d a => Sys2Proof.Machine.execTwxch sl d a s
  | .mapld sl a => Sys2Proof.Machine.execMapld sl a s
  | .mapq sl d a => Sys2Proof.Machine.execMapq sl d a s
  | .gets sl d r => Sys2Proof.Machine.execGets sl d r s
  | .puts sl a r => Sys2Proof.Machine.execPuts sl a r s
  | .oxl sl k a => Sys2Proof.Machine.execOxl sl k a s
  | .oxr sl d k => Sys2Proof.Machine.execOxr sl d k s
  | .oxclr sl m k => Sys2Proof.Machine.execOxclr sl m k s
  | .oxi sl m q k imm => Sys2Proof.Machine.execOxi sl m q k imm s
  | .fadd sl d a b => Sys2Proof.Machine.execFadd sl d a b s
  | .fsub sl d a b => Sys2Proof.Machine.execFsub sl d a b s
  | .fmul sl d a b => Sys2Proof.Machine.execFmul sl d a b s
  | .fdiv sl d a b => Sys2Proof.Machine.execFdiv sl d a b s
  | .fmin sl d a b => Sys2Proof.Machine.execFmin sl d a b s
  | .fmax sl d a b => Sys2Proof.Machine.execFmax sl d a b s
  | .fseteq sl d a b => Sys2Proof.Machine.execFseteq sl d a b s
  | .fsetlt sl d a b => Sys2Proof.Machine.execFsetlt sl d a b s
  | .fsetle sl d a b => Sys2Proof.Machine.execFsetle sl d a b s
  | .fsetun sl d a b => Sys2Proof.Machine.execFsetun sl d a b s
  | .fcpys sl d a b => Sys2Proof.Machine.execFcpys sl d a b s
  | .fabs sl d a => Sys2Proof.Machine.execFabs sl d a s
  | .fneg sl d a => Sys2Proof.Machine.execFneg sl d a s
  | .fcvt sl d a r => Sys2Proof.Machine.execFcvt sl d a r s
  | .frnd sl d a r => Sys2Proof.Machine.execFrnd sl d a r s
  | .fclass sl d a => Sys2Proof.Machine.execFclass sl d a s
  | .fsqrt sl d a => Sys2Proof.Machine.execFsqrt sl d a s
  | .rcpa sl d a => Sys2Proof.Machine.execRcpa sl d a s
  | .rsqa sl d a => Sys2Proof.Machine.execRsqa sl d a s
  | .exp2a sl d a => Sys2Proof.Machine.execExp2a sl d a s
  | .log2a sl d a => Sys2Proof.Machine.execLog2a sl d a s
  | .siga sl d a => Sys2Proof.Machine.execSiga sl d a s
  | .tanha sl d a => Sys2Proof.Machine.execTanha sl d a s
  | .ffma sl d a b => Sys2Proof.Machine.execFfma sl d a b s
  | .ffms sl d a b => Sys2Proof.Machine.execFfms sl d a b s
  | .rcps sl d a b => Sys2Proof.Machine.execRcps sl d a b s
  | .rsqs sl d a b => Sys2Proof.Machine.execRsqs sl d a b s
  | .br sl c t o => Sys2Proof.Machine.execBr sl c t o s
  | .call sl d imm => Sys2Proof.Machine.execCall sl d imm s
  | .loop sl c o => Sys2Proof.Machine.execLoop sl c o s
  | .jmp sl a => Sys2Proof.Machine.execJmp sl a s
  | .callr sl d a => Sys2Proof.Machine.execCallr sl d a s
  | .ret sl a => Sys2Proof.Machine.execRet sl a s
  | .yield sl => Sys2Proof.Machine.execYield sl s
  | .exit sl a => Sys2Proof.Machine.execExit sl a s
  | .trap sl b => Sys2Proof.Machine.execTrap sl b s
  | .brk sl => Sys2Proof.Machine.execBrk sl s
  | .nop sl => Sys2Proof.Machine.execNop sl s
  | .callat sl d a b => Sys2Proof.Machine.execCallat sl d a b s
  | .send sl a b => Sys2Proof.Machine.execSend sl a b s
  | .recv sl d a b => Sys2Proof.Machine.execRecv sl d a b s
  | .tryrecv sl d a b => Sys2Proof.Machine.execTryrecv sl d a b s
  | .chstat sl d b => Sys2Proof.Machine.execChstat sl d b s
  | .spawn sl d a u => Sys2Proof.Machine.execSpawn sl d a u s
  | .dep sl a => Sys2Proof.Machine.execDep sl a s
  | .waitany sl d a => Sys2Proof.Machine.execWaitany sl d a s
  | .waitall sl d a => Sys2Proof.Machine.execWaitall sl d a s
  | .ffr sl d a => Sys2Proof.Machine.execFfr sl d a s
  | .tagclr sl a => Sys2Proof.Machine.execTagclr sl a s
  | .bari sl d a b => Sys2Proof.Machine.execBari sl d a b s
  | .arrive sl d a b => Sys2Proof.Machine.execArrive sl d a b s
  | .waitb sl d a b => Sys2Proof.Machine.execWaitb sl d a b s
  | .waitch sl d a b => Sys2Proof.Machine.execWaitch sl d a b s
  | .push sl d q b => Sys2Proof.Machine.execPush sl d q b s
  | .qstat sl d q => Sys2Proof.Machine.execQstat sl d q s
  | .ld sl d a imm => Sys2Proof.Machine.execLd sl d a imm s
  | .st sl d a imm => Sys2Proof.Machine.execSt sl d a imm s
  | .lda sl d a imm => Sys2Proof.Machine.execLda sl d a imm s
  | .stl sl d a imm => Sys2Proof.Machine.execStl sl d a imm s
  | .spill sl d a b => Sys2Proof.Machine.execSpill sl d a b s
  | .fill sl d a b => Sys2Proof.Machine.execFill sl d a b s
  | .pf sl a b => Sys2Proof.Machine.execPf sl a b s
  | .flush sl d a b => Sys2Proof.Machine.execFlush sl d a b s
  | .inv sl d a b => Sys2Proof.Machine.execInv sl d a b s
  | .fence sl d b => Sys2Proof.Machine.execFence sl d b s
  | .ldx sl d a b => Sys2Proof.Machine.execLdx sl d a b s
  | .stx sl d a b => Sys2Proof.Machine.execStx sl d a b s
  | .stc sl d a b => Sys2Proof.Machine.execStc sl d a b s
  | .aadd sl d a b => Sys2Proof.Machine.execAadd sl d a b s
  | .aand sl d a b => Sys2Proof.Machine.execAand sl d a b s
  | .aor sl d a b => Sys2Proof.Machine.execAor sl d a b s
  | .axor sl d a b => Sys2Proof.Machine.execAxor sl d a b s
  | .amin sl d a b => Sys2Proof.Machine.execAmin sl d a b s
  | .amax sl d a b => Sys2Proof.Machine.execAmax sl d a b s
  | .aswp sl d a b => Sys2Proof.Machine.execAswp sl d a b s
  | .acas sl d a b => Sys2Proof.Machine.execAcas sl d a b s
  | .faadd sl d a b => Sys2Proof.Machine.execFaadd sl d a b s
  | .lock sl d a => Sys2Proof.Machine.execLock sl d a s
  | .unlock sl d a => Sys2Proof.Machine.execUnlock sl d a s
  | .hold sl d a b => Sys2Proof.Machine.execHold sl d a b s
  | .will sl d a b => Sys2Proof.Machine.execWill sl d a b s
  | .relh sl d a => Sys2Proof.Machine.execRelh sl d a s
  | .convey sl d a => Sys2Proof.Machine.execConvey sl d a s
  | .estq sl d a b => Sys2Proof.Machine.execEstq sl d a b s
  | .prmk sl a => Sys2Proof.Machine.execPrmk sl a s
  | .keep sl d a b => Sys2Proof.Machine.execKeep sl d a b s
  | .awaitp sl d a => Sys2Proof.Machine.execAwaitp sl d a s
  | .prmq sl d a => Sys2Proof.Machine.execPrmq sl d a s
  | .chain sl d a b => Sys2Proof.Machine.execChain sl d a b s
  | .reduce sl d a b => Sys2Proof.Machine.execReduce sl d a b s
  | .gather sl d a b => Sys2Proof.Machine.execGather sl d a b s
  | .scatter sl d a b => Sys2Proof.Machine.execScatter sl d a b s
  | .cpyb sl d a b => Sys2Proof.Machine.execCpyb sl d a b s
  | .fills sl d a b => Sys2Proof.Machine.execFills sl d a b s
  | .setf sl a b => Sys2Proof.Machine.execSetf sl a b s
  | .getf sl d b => Sys2Proof.Machine.execGetf sl d b s
  | .xform sl d a b => Sys2Proof.Machine.execXform sl d a b s
  | .srand sl a => Sys2Proof.Machine.execSrand sl a s
  | .licq sl d => Sys2Proof.Machine.execLicq sl d s
  | .licw sl d => Sys2Proof.Machine.execLicw sl d s
  | .licr sl d => Sys2Proof.Machine.execLicr sl d s
  | .lics sl d => Sys2Proof.Machine.execLics sl d s
  | .mma sl d a b => Sys2Proof.Machine.execMma sl d a b s
  | .mmad sl d a b => Sys2Proof.Machine.execMmad sl d a b s
  | .topk sl d a b => Sys2Proof.Machine.execTopk sl d a b s
  | .aclr sl m => Sys2Proof.Machine.execAclr sl m s
  | .drn sl d a b => Sys2Proof.Machine.execDrn sl d a b s
  | .drn2 sl d a b => Sys2Proof.Machine.execDrn2 sl d a b s
  | .asave sl d a b => Sys2Proof.Machine.execAsave sl d a b s
  | .arst sl d a b => Sys2Proof.Machine.execArst sl d a b s
  | .ppt sl m => Sys2Proof.Machine.execPpt sl m s
  | .mwait sl d b => Sys2Proof.Machine.execMwait sl d b s
  | .sret sl a b => Sys2Proof.Machine.execSret sl a b s
  | .getp sl d a b => Sys2Proof.Machine.execGetp sl d a b s
  | .putp sl d a b => Sys2Proof.Machine.execPutp sl d a b s
  | .tlbi sl a b => Sys2Proof.Machine.execTlbi sl a b s
  | .ckpt sl d b => Sys2Proof.Machine.execCkpt sl d b s
  | .kill sl d a y h => Sys2Proof.Machine.execKill sl d a y h s
  | .slots sl d => Sys2Proof.Machine.execSlots sl d s
  | .licf sl d a b => Sys2Proof.Machine.execLicf sl d a b s
  | .ibpeek sl d b => Sys2Proof.Machine.execIbpeek sl d b s
  | .ibtake sl d b => Sys2Proof.Machine.execIbtake sl d b s
  | .defer sl d => Sys2Proof.Machine.execDefer sl d s
  | .resume sl d a => Sys2Proof.Machine.execResume sl d a s
  | .evict sl d a b => Sys2Proof.Machine.execEvict sl d a b s
  | .trace sl a b => Sys2Proof.Machine.execTrace sl a b s
  | .addCompact d a => Sys2Proof.Machine.execAddCompact d a s
  | .subCompact d a => Sys2Proof.Machine.execSubCompact d a s
  | .andCompact d a => Sys2Proof.Machine.execAndCompact d a s
  | .orCompact d a => Sys2Proof.Machine.execOrCompact d a s
  | .xorCompact d a => Sys2Proof.Machine.execXorCompact d a s
  | .movCompact d a => Sys2Proof.Machine.execMovCompact d a s
  | .addiCompact d imm => Sys2Proof.Machine.execAddiCompact d imm s
  | .shliCompact d imm => Sys2Proof.Machine.execShliCompact d imm s
  | .shriCompact d imm => Sys2Proof.Machine.execShriCompact d imm s
  | .seteqCompact d a => Sys2Proof.Machine.execSeteqCompact d a s
  | .setltCompact d a => Sys2Proof.Machine.execSetltCompact d a s
  | .ldCompact d a => Sys2Proof.Machine.execLdCompact d a s
  | .stCompact d a => Sys2Proof.Machine.execStCompact d a s
  | .brz d o => Sys2Proof.Machine.execBrz d o s
  | .brnz d o => Sys2Proof.Machine.execBrnz d o s
  | .nopCompact => Sys2Proof.Machine.execNopCompact s
  | .yieldCompact => Sys2Proof.Machine.execYieldCompact s
  | .faddCompact d a => Sys2Proof.Machine.execFaddCompact d a s
  | .fmulCompact d a => Sys2Proof.Machine.execFmulCompact d a s
  | .submissionPlaceWait core => Sys2Proof.Machine.execSubmissionPlaceWait core s
  | .taskCounterDecrement task bereaved => Sys2Proof.Machine.execTaskCounterDecrement task bereaved s
  | .dealTask core => Sys2Proof.Machine.execDealTask core s
  | .dealResume idx => Sys2Proof.Machine.execDealResume idx s
  | .slotFill core => Sys2Proof.Machine.execSlotFill core s
  | .resumeAfterWriteback core idx => Sys2Proof.Machine.execResumeAfterWriteback core idx s
  | .agePromote core idx => Sys2Proof.Machine.execAgePromote core idx s
  | .callEntryTake core => Sys2Proof.Machine.execCallEntryTake core s
  | .overflowEnter tower => Sys2Proof.Machine.execOverflowEnter tower s
  | .successorStart task => Sys2Proof.Machine.execSuccessorStart task s
  | .wakeRecheck core slot => Sys2Proof.Machine.execWakeRecheck core slot s
  | .rowFill core slot bad => Sys2Proof.Machine.execRowFill core slot bad s
  | .rowIdleWriteback core idx => Sys2Proof.Machine.execRowIdleWriteback core idx s
  | .repackComplete core => Sys2Proof.Machine.execRepackComplete core s
  | .messageDeliver core chan idx => Sys2Proof.Machine.execMessageDeliver core chan idx s
  | .fabricMsgReceive p => Sys2Proof.Machine.execFabricMsgReceive p s
  | .putReceive p => Sys2Proof.Machine.execPutReceive p s
  | .cputReceive p => Sys2Proof.Machine.execCputReceive p s
  | .atomReceive p => Sys2Proof.Machine.execAtomReceive p s
  | .replyReceive p => Sys2Proof.Machine.execReplyReceive p s
  | .nameWindowWrite pa size value by_ => Sys2Proof.Machine.execNameWindowWrite pa size value by_ s
  | .nameWindowRead pa size by_ => Sys2Proof.Machine.execNameWindowRead pa size by_ s
  | .rawRowAccess pa store value by_ => Sys2Proof.Machine.execRawRowAccess pa store value by_ s
  | .accWindowRead pa size by_ => Sys2Proof.Machine.execAccWindowRead pa size by_ s
  | .accWindowWrite pa size value by_ => Sys2Proof.Machine.execAccWindowWrite pa size value by_ s
  | .inboxEntryEnter core => Sys2Proof.Machine.execInboxEntryEnter core s
  | .setfTakeEffect core idx => Sys2Proof.Machine.execSetfTakeEffect core idx s
  | .streamCommandStart core idx => Sys2Proof.Machine.execStreamCommandStart core idx s
  | .streamCommandComplete core idx => Sys2Proof.Machine.execStreamCommandComplete core idx s
  | .chunkWaitRelease core idx => Sys2Proof.Machine.execChunkWaitRelease core idx s
  | .copyCommandStart core idx => Sys2Proof.Machine.execCopyCommandStart core idx s
  | .copyCommandComplete core idx => Sys2Proof.Machine.execCopyCommandComplete core idx s
  | .collCommandStart core idx => Sys2Proof.Machine.execCollCommandStart core idx s
  | .collPacketReceive core p => Sys2Proof.Machine.execCollPacketReceive core p s
  | .collAbortReceive core p => Sys2Proof.Machine.execCollAbortReceive core p s
  | .chunkLand core idx chunk => Sys2Proof.Machine.execChunkLand core idx chunk s
  | .inswitchTimeout core idx => Sys2Proof.Machine.execInswitchTimeout core idx s
  | .hostRecordSend core idx => Sys2Proof.Machine.execHostRecordSend core idx s
  | .xformStart core idx => Sys2Proof.Machine.execXformStart core idx s
  | .xformComplete core idx => Sys2Proof.Machine.execXformComplete core idx s
  | .matrixCommandStart core idx => Sys2Proof.Machine.execMatrixCommandStart core idx s
  | .mcastWaitExpire core idx => Sys2Proof.Machine.execMcastWaitExpire core idx s
  | .mmaComplete core idx => Sys2Proof.Machine.execMmaComplete core idx s
  | .topkComplete core idx => Sys2Proof.Machine.execTopkComplete core idx s
  | .drainComplete core idx => Sys2Proof.Machine.execDrainComplete core idx s
  | .accSaveComplete core idx => Sys2Proof.Machine.execAccSaveComplete core idx s
  | .accRestoreComplete core idx => Sys2Proof.Machine.execAccRestoreComplete core idx s
  | .mwaitMarkerFire core idx => Sys2Proof.Machine.execMwaitMarkerFire core idx s
  | .engineFaultPark core idx => Sys2Proof.Machine.execEngineFaultPark core idx s
  | .engparkResume core place => Sys2Proof.Machine.execEngparkResume core place s
  | .engparkKill core place => Sys2Proof.Machine.execEngparkKill core place s
  | .licenceTermEnd pair => Sys2Proof.Machine.execLicenceTermEnd pair s
  | .licenceDrainGrant pair => Sys2Proof.Machine.execLicenceDrainGrant pair s
  | .timerExpire core slot => Sys2Proof.Machine.execTimerExpire core slot s
  | .preemptTake core slot => Sys2Proof.Machine.execPreemptTake core slot s
  | .preemptForce core slot => Sys2Proof.Machine.execPreemptForce core slot s
  | .systemEventBegin core => Sys2Proof.Machine.execSystemEventBegin core s
  | .systemSlotRestart core => Sys2Proof.Machine.execSystemSlotRestart core s
  | .conveyEntry idx => Sys2Proof.Machine.execConveyEntry idx s
  | .hostSubmit queue cmd => Sys2Proof.Machine.execHostSubmit queue cmd s
  | .hostDecr queue cmd => Sys2Proof.Machine.execHostDecr queue cmd s
  | .hostClose queue cmd => Sys2Proof.Machine.execHostClose queue cmd s
  | .hostReset queue cmd => Sys2Proof.Machine.execHostReset queue cmd s
  | .hqctlOpen queue value => Sys2Proof.Machine.execHqctlOpen queue value s
  | .hqctlTeardownSoft queue value => Sys2Proof.Machine.execHqctlTeardownSoft queue value s
  | .hqctlTeardownHard queue value => Sys2Proof.Machine.execHqctlTeardownHard queue value s
  | .teardownComplete queue => Sys2Proof.Machine.execTeardownComplete queue s
  | .dualEffectCompare task group => Sys2Proof.Machine.execDualEffectCompare task group s
  | .dualPartnerTimeout task group => Sys2Proof.Machine.execDualPartnerTimeout task group s
  | .tlbshootCtx value => Sys2Proof.Machine.execTlbshootCtx value s
  | .tlbshootPage value => Sys2Proof.Machine.execTlbshootPage value s
  | .tlbshootAll value => Sys2Proof.Machine.execTlbshootAll value s
  | .tlbshootComplete => Sys2Proof.Machine.execTlbshootComplete s
  | .poolLineWriteback tower line bad => Sys2Proof.Machine.execPoolLineWriteback tower line bad s
  | .shadowRecordReplay tower slice => Sys2Proof.Machine.execShadowRecordReplay tower slice s
  | .poolHotExpire tower line => Sys2Proof.Machine.execPoolHotExpire tower line s
  | .poolPush tower value => Sys2Proof.Machine.execPoolPush tower value s
  | .poolDrop tower value => Sys2Proof.Machine.execPoolDrop tower value s
  | .cklogWrite channel value => Sys2Proof.Machine.execCklogWrite channel value s
  | .rollbackStart value => Sys2Proof.Machine.execRollbackStart value s
  | .rollbackComplete => Sys2Proof.Machine.execRollbackComplete s
  | .scrubPass line bad => Sys2Proof.Machine.execScrubPass line bad s
  | .ctrareaWrite core value => Sys2Proof.Machine.execCtrareaWrite core value s
  | .pwrreqStepWrite cluster value => Sys2Proof.Machine.execPwrreqStepWrite cluster value s
  | .pwrreqGo cluster value => Sys2Proof.Machine.execPwrreqGo cluster value s
  | .rampComplete cluster => Sys2Proof.Machine.execRampComplete cluster s
  | .currentSample cluster amps => Sys2Proof.Machine.execCurrentSample cluster amps s
  | .currentStepDown cluster => Sys2Proof.Machine.execCurrentStepDown cluster s
  | .thermalOffline die temp => Sys2Proof.Machine.execThermalOffline die temp s
  | .thermalClamp die temp => Sys2Proof.Machine.execThermalClamp die temp s
  | .thermalCut die temp => Sys2Proof.Machine.execThermalCut die temp s
  | .offlineTimeoutCut die => Sys2Proof.Machine.execOfflineTimeoutCut die s
  | .thermstReadmit die value => Sys2Proof.Machine.execThermstReadmit die value s
  | .fwdogKick value => Sys2Proof.Machine.execFwdogKick value s
  | .fwdogExpire => Sys2Proof.Machine.execFwdogExpire s
  | .firmwareVerify pss slh version => Sys2Proof.Machine.execFirmwareVerify pss slh version s
  | .attestationReport nonce => Sys2Proof.Machine.execAttestationReport nonce s
  | .endpointInstall ep ctx host => Sys2Proof.Machine.execEndpointInstall ep ctx host s
  | .endpointRevoke ep => Sys2Proof.Machine.execEndpointRevoke ep s
  | .alarmRaise source => Sys2Proof.Machine.execAlarmRaise source s
  | .portLinkChange port up => Sys2Proof.Machine.execPortLinkChange port up s
  | .ucieRetrainFail module => Sys2Proof.Machine.execUcieRetrainFail module s
  | .partctlOpen value => Sys2Proof.Machine.execPartctlOpen value s
  | .partctlClose value => Sys2Proof.Machine.execPartctlClose value s
  | .wrstGo die value => Sys2Proof.Machine.execWrstGo die value s
  | .warmResetPhase die ok => Sys2Proof.Machine.execWarmResetPhase die ok s
  | .dieReset die => Sys2Proof.Machine.execDieReset die s
  | .registerWrite off value by_ => Sys2Proof.Machine.execRegisterWrite off value by_ s
  | .lineWriteBack level unit_ line bad => Sys2Proof.Machine.execLineWriteBack level unit_ line bad s
  | .accessResultArrival core slot idx => Sys2Proof.Machine.execAccessResultArrival core slot idx s
  | .ucieModuleReturn module => Sys2Proof.Machine.execUcieModuleReturn module s
  | .warmZone die temp => Sys2Proof.Machine.execWarmZone die temp s
  | .coldStart => Sys2Proof.Machine.execColdStart s

end Sys2Proof.Machine
end

