-- ==== Sys2Proof/Machine/Step.lean ====
section
/-! DEFINITION. Machine/Step.lean: one step of the device, a cycle of one core or one event (R17, R107, R298, R398), and
the placing of a word where the next step fetches. What a step calls stands in Machine/Cycle.lean. -/

namespace Sys2Proof.Machine

/-- The slot's instruction is fetched, decoded and executed. -/
def issueSlot (s : State) (n k : Nat) : Host.Outcome State Fault Refusal :=
  match fetchInstr s n k (s.slot n k).pc.toNat with
  | .ok t i => exec i t
  | .wait t => .next t
  | .trap t c v len32 => .next (takeTrap t n k len32 c v (s.slot n k).pc)

/-- A core's turn in a cycle that has begun. -/
def issueTurn (s : State) (n : Nat) : Host.Outcome State Fault Refusal :=
  let k := turnOf s n
  let s := beginTurn s n k
  if mayIssue s n k then issueSlot s n k else .next s

/-- One move. -/
def perform (s : State) : Move → Host.Outcome State Fault Refusal
  | .cycle n => issueTurn (startCycle s (evenOf n)) (evenOf n)
  | .issue n => issueTurn s n
  | .event i => if isEvent i then exec i s else .next s
  | .progress n i part u => .next (engineProgress s n i part u)
  | .uncorrectable n k rows => .next (repackSpoil s n k rows)
  | .flaw f old => .next (flaw s f old)

/-- A free move: a turn is none of its own, it belongs to the cycle that has begun (R17). -/
def freely (s : State) (m : Move) : Host.Outcome State Fault Refusal :=
  match m with
  | .issue _ => .next s
  | m => perform s m

/-- One step: the next move of the agenda, or a free one. -/
def step (s : State) : Host.Outcome State Fault Refusal :=
  match s.agenda with
  | m :: r => perform { s with agenda := r } m
  | [] => freely (freeTick s) (Config.freeMove s.tick)

/-- An instruction placed where the next step fetches it: slot 7 of core 0 is in a RESET event at SYSVEC 0, its map
declares 32 unsigned names of 64 bits, and the next move is a cycle of core 0 that is slot 7's turn (log entry 5). -/
def State.withFetchWord (s : State) (nbits w : Nat) : State :=
  let bs := tableBytes nbits w
  let c := s.core 0
  let name : NameD :=
    { width := 64, kind := .unsigned, mode := .wrap, region := .priv, declWidth := 64, declMode := .wrap, curv := false }
  let x : Slot := { c.slot 7 with phase := .running, pc := 0, map := List.replicate 32 name, resident := 0xFFFF, turn := 0, nextTurn := 0 }
  let c : Core := { c.setSlot 7 x with cycle := 6, evActive := true, evKind := 0, resetPend := false }
  let d : Core := { s.core 1 with cycle := 6 }
  { s.setCore 0 c |>.setCore 1 d with mem := placeBytes s.mem 0 bs, agenda := [.cycle 0] }

end Sys2Proof.Machine
end

