-- ==== Sys2Proof/Safety.lean ====
section
/-! DEFINITION. Safety.lean: the words in which claims about the device speak: when an instruction's checks pass (R113), what
storing a value leaves (R64, R107), how an instruction completes, and what a safe run is. -/

namespace Sys2Proof.Machine

/-! ## When an instruction acts -/

/-- The current slot runs a thread or an event, and every check of R113 passes: the names read are ready, the kinds are
accepted, and the rows of the names read and written can be touched. -/
def usable (s : State) (reads writes : List Nat) (kinds : List KindReq) : Bool :=
  s.running && (firstOf (readyName s) reads).isNone && (firstOf (kindName s) kinds).isNone
    && (firstOf (touchName s true) reads).isNone && (firstOf (touchName s false) writes).isNone

/-- Nothing of the current slot is in flight (R109). -/
def State.quiet (s : State) : Bool := s.me.pending == []

/-- The current thread is no redundant copy: its effects are not compared (R333). -/
def State.single (s : State) : Bool := (s.thread s.me.img).copy == none

/-- The current slot is a user slot. -/
def State.userSlot (s : State) : Bool := decide (s.cur.2 < 7)

/-! ## Storing a value (R64) -/

/-- A value can be stored in name `d`: its mode does not trap, or the value fits. ZERO takes every value. -/
def fitsIn (s : State) (d : Nat) (x : Int) : Bool :=
  d == 63 || (info s d).mode != .trap || representable (info s d).kind (info s d).width x

/-- The pattern that storing leaves: saturated in mode sat, else modulo 2^width. -/
def storedBits (i : Info) (x : Int) : Nat :=
  modPow (if i.mode = .sat then max (rangeLo i.kind i.width) (min (rangeHi i.kind i.width) x) else x) i.width

/-- An integer result of latency `l` on its way to name `d` (R107). -/
def intOut (s : State) (d l : Nat) (x : Int) : State := putBits s d l (storedBits (info s d) x)

/-- An integer result of variable latency on its way to name `d`. -/
def lateOut (s : State) (d : Nat) (x : Int) : State := putLate s d (storedBits (info s d) x)

/-- A float result with its flags (R82 to R84). -/
def floatOut (s : State) (d l : Nat) (r : Nat × Nat) : State :=
  (putBits s d l r.1).modMe (fun x => { x with fxf := x.fxf ||| BitVec.ofNat 64 r.2 })

/-- The flags of a float result do not trap. -/
def flagsPass (s : State) (r : Nat × Nat) : Bool := r.2 == 0 || !s.me.amode.getLsbD 6

/-! ## Completing -/

/-- Instructions of one shape: a slip with a destination and two names, with two names, with one name, and the compact
forms with a destination and a name. -/
abbrev Form3 := BitVec 2 → BitVec 6 → BitVec 6 → BitVec 6 → Instr
abbrev Form2 := BitVec 2 → BitVec 6 → BitVec 6 → Instr
abbrev Form1 := BitVec 2 → BitVec 6 → Instr
abbrev FormC := BitVec 5 → BitVec 5 → Instr

/-- A 32-bit instruction completes: the slot goes on at the next instruction after the slip. -/
def next32 (s : State) (sl : BitVec 2) (t : State) : State := advance t (s.me.pc + 4) sl.toNat

/-- A compact instruction completes. -/
def next16 (s : State) (t : State) : State := advance t (s.me.pc + 2) 0

/-- An instruction of either length completes with the next instruction at `pc`. -/
def jumps (sl : BitVec 2) (t : State) (pc : Word) : State := advance t pc sl.toNat

/-- The address `off` halfwords from the current instruction (R103). -/
def targetOf (s : State) (off : Int) : Word := s.me.pc + BitVec.ofInt 64 (2 * off)

/-- The current slot blocks with its pc at the instruction; `t` is the state after what the instruction did, with the operand
values that it keeps (R48, R108). -/
def blocks (s t : State) (w : Wait) (arg : Word) : State :=
  (t.modMe (fun x => { x with phase := .blocked, wait := w, waitArg := arg, woken := false,
                              waitSince := if x.wait = w then x.waitSince else (t.core s.cur.1).cycle })).modThread t.me.img
    (fun h => { h with state := 3 })

/-- A trap of the current slot's 32-bit instruction. -/
def trap32 (s : State) (c : Cause) (v : Word) : State := takeTrap s s.cur.1 s.cur.2 true c v s.me.pc

/-- A trap of the current slot's compact instruction. -/
def trap16 (s : State) (c : Cause) (v : Word) : State := takeTrap s s.cur.1 s.cur.2 false c v s.me.pc

/-- An integer result of latency `l` put into name `d`, or the WIDTH trap: how a 32-bit instruction that computes `x` ends. -/
def endsWith (s : State) (sl : BitVec 2) (d l : Nat) (x : Int) : State :=
  if fitsIn s d x then next32 s sl (intOut s d l x) else trap32 s .width (widthVal x d)

/-- The same of a compact instruction. -/
def endsWith16 (s : State) (d l : Nat) (x : Int) : State :=
  if fitsIn s d x then next16 s (intOut s d l x) else trap16 s .width (widthVal x d)

/-- The same of a result of variable latency: `t` is the state after the instruction's effect. -/
def endsLate (s : State) (sl : BitVec 2) (d : Nat) (x : Int) (t : State) : State :=
  if fitsIn t d x then next32 s sl (lateOut t d x) else trap32 s .width (widthVal x d)

/-- A float result put into name `d`, or the FLOAT trap. -/
def endsFloat (s : State) (sl : BitVec 2) (d l : Nat) (r : Nat × Nat) : State :=
  if flagsPass s r then next32 s sl (floatOut s d l r) else trap32 s .float (BitVec.ofNat 64 (r.2 + d * 32))

/-! ## Engine commands -/

/-- Shape records that an engine command can read at its issue: aligned, in the scratchpad, and no accepted command writes them
(R215, R219). -/
def recordsGood (s : State) (offs : List Nat) : Bool :=
  offs.all (fun o => decide (o % 32 = 0) && decide (o < 0x200000) && !recordBusy s s.cur.1 o 32)

/-- The stream queue and the scoreboard have a place (R219, R220). -/
def streamRoom (s : State) : Bool := decide (streamCount s s.cur.1 < 16) && decide (boardCount s s.cur.1 < 32)

/-- The matrix queue and the scoreboard have a place (R219, R242). -/
def matrixRoom (s : State) : Bool := decide (matrixCount s s.cur.1 < 8) && decide (boardCount s s.cur.1 < 32)

/-- The shape that a record gives, and the format in force for its bank (R215, R226). -/
def shapeAt (s : State) (o : Nat) : Shape := (readShape s s.cur.1 o).1
def formatAt (s : State) (o : Nat) : Fmt := fmtNext s (shapeAt s o)

/-- A record may be a destination, or a source. -/
def destGood (s : State) (o : Nat) : Bool := !destBad (formatAt s o) (readShape s s.cur.1 o)
def sourceGood (s : State) (o : Nat) : Bool := !sourceBad (formatAt s o) (readShape s s.cur.1 o)

/-- A stream command accepted: it joins the queue in issue order, and SEED advances (R220). -/
def streamIn (s : State) (op : CmdOp) (rd wr : List (Nat × Nat)) (tag : Option Nat) : State := stepSeed (addCmd s (newCmd s op rd wr tag))

/-! ## What a move leaves -/

/-- A byte of the device's storage as it stands at its home. -/
def byteAt (s : State) (a : Nat) : Byte := memRead s.mem a

/-- The memory of a state is in its one form. -/
def State.memOk (s : State) : Bool := memWf s.mem

/-- The same core but for its slots. -/
def Core.besideSlots (c : Core) : Core := { c with slots := [] }

/-- What lies outside the current slot is the same: storage, caches, every other slot, every other unit. -/
def sameOutside (s t : State) : Prop :=
  t = { s with cores := t.cores } ∧ (∀ n, n ≠ s.cur.1 → t.core n = s.core n) ∧
  (t.core s.cur.1).besideSlots = (s.core s.cur.1).besideSlots ∧ (∀ k, k ≠ s.cur.2 → t.slot s.cur.1 k = s.slot s.cur.1 k)

/-- A safe run of `k` moves: none ends in a fault or a refusal. -/
def safeRun : Nat → State → Prop
  | 0, _ => True
  | k + 1, s => ∃ t, step s = .next t ∧ safeRun k t

end Sys2Proof.Machine
end

