-- ==== Sys2Proof/Certificates/Slice0/Obligations.lean ====
section
/-! DEFINITION. Certificates/Slice0/Obligations.lean: the statements about the device, from the numbered rules of the
spec. -/

open Sys2Proof Sys2Proof.Machine

/-- R102, R105, R111: words of each format written out from the table's major opcodes and functions decode to the instructions they stand
for, and reserved encodings to none. -/
def Obligations.DecodeSamples : Prop :=
  let n3 := fun mop sl d a b f => decodeTableWord 32 (2 ^ 31 + mop * 2 ^ 25 + sl * 2 ^ 23 + d * 2 ^ 17 + a * 2 ^ 11 + b * 2 ^ 5 + f)
  let wide := fun mop sl d rest => decodeTableWord 32 (2 ^ 31 + mop * 2 ^ 25 + sl * 2 ^ 23 + d * 2 ^ 17 + rest)
  let short := fun cop d a => decodeTableWord 16 (cop * 2 ^ 10 + d * 2 ^ 5 + a)
  n3 0x01 0 1 2 3 0 = some (.add 0 1 2 3) ∧ n3 0x01 3 63 62 61 20 = some (.absd 3 63 62 61) ∧ n3 0x02 1 4 5 0 7 = some (.brev 1 4 5) ∧
  n3 0x03 2 1 2 3 31 = some (.sel 2 1 2 3 31) ∧ n3 0x04 0 9 8 40 23 = some (.bfx 0 9 8 40 23) ∧ wide 0x06 0 1 (2 * 2 ^ 11 + 0x7FF) = some (.addi 0 1 2 0x7FF) ∧
  wide 0x0F 0 7 0x1FFFF = some (.movi 0 7 0x1FFFF) ∧ wide 0x12 1 7 0xABCD = some (.movk 2 1 7 0xABCD) ∧ n3 0x14 0 0 0 0 3 = some (.giveback 0) ∧
  n3 0x18 0 1 2 3 10 = some (.fcpys 0 1 2 3) ∧ n3 0x1A 0 1 2 3 3 = some (.rsqs 0 1 2 3) ∧ wide 0x20 0 5 (2 * 2 ^ 15 + 0x7FFE) = some (.br 0 5 2 0x7FFE) ∧
  wide 0x21 0 1 0x10000 = some (.call 0 1 0x10000) ∧ n3 0x23 0 0 0 9 5 = some (.trap 0 9) ∧ n3 0x24 0 3 0 2 15 = some (.qstat 0 3 2) ∧
  wide 0x28 0 1 (2 * 2 ^ 11 + 0x401) = some (.ld 0 1 2 0x401) ∧ n3 0x2D 0 1 2 3 7 = some (.acas 0 1 2 3) ∧ n3 0x2E 0 1 2 0 10 = some (.prmq 0 1 2) ∧
  n3 0x30 0 63 2 3 0 = some (.chain 0 63 2 3) ∧ n3 0x34 0 0 0 0 12 = some (.ppt 0 0) ∧ n3 0x38 0 0 4 2 0 = some (.sret 0 4 2) ∧
  short 7 3 31 = some (.addiCompact 3 31) ∧ short 19 3 4 = some (.fmulCompact 3 4) ∧ short 17 0 0 = some .yieldCompact ∧
  short 0 0 0 = none ∧ short 20 0 0 = none ∧ short 16 1 0 = none ∧ n3 0x00 0 0 0 0 0 = none ∧ n3 0x01 0 0 0 0 21 = none ∧ n3 0x02 0 1 2 1 7 = none ∧
  n3 0x24 0 3 0 3 15 = none ∧ wide 0x10 0 7 0x10000 = none

/-- R102 to R105, R111, R2: the bytes of every well-formed instruction decode to it, with every operand at every value that its encoding
admits. -/
def Obligations.EncodeDecode : Prop :=
  ∀ (i : Instr) (r : List Byte), i.wf = true →
    (i.is32 = true → decodeBytes (encodeBytes i ++ r) = .ok (i, 4)) ∧ (i.isCompact = true → decodeBytes (encodeBytes i ++ r) = .ok (i, 2))

/-- R100: the parcel at a 2-byte-aligned address decides the length by its bit 15: one compact parcel, or a 32-bit instruction with that
parcel in bits [31:16] and the parcel at the next halfword in bits [15:0], each stored little-endian, wherever the two lie. The parcel
0x0000 traps ILLEGAL. -/
def Obligations.InstructionLengths : Prop :=
  ∀ (s t : State) (n k va p : Nat), va % 2 = 0 → fetchParcel s n k va false = .ok t p → p < 65536 →
    (p < 32768 → fetchBytes s n k va = .ok t [.ofNat 8 p, .ofNat 8 (p / 256)]) ∧
    (32768 ≤ p → ∀ u q, fetchParcel t n k ((va + 2) % 2 ^ 64) true = .ok u q → q < 65536 →
      fetchBytes s n k va = .ok u [.ofNat 8 p, .ofNat 8 (p / 256), .ofNat 8 q, .ofNat 8 (q / 256)] ∧
      (∀ i m, decodeBytes [.ofNat 8 p, .ofNat 8 (p / 256), .ofNat 8 q, .ofNat 8 (q / 256)] = .ok (i, m) ↔
        decode32 (p * 65536 + q) = .ok i ∧ m = 4)) ∧
    (p < 32768 → ∀ i m, decodeBytes [.ofNat 8 p, .ofNat 8 (p / 256)] = .ok (i, m) ↔ decode16 p = .ok i ∧ m = 2) ∧
    (p = 0 → fetchInstr s n k va = .trap t .illegal 0 false) ∧
    (va % 2 = 0 → fetchBytes s n k (va + 1) = .trap s .misalign (BitVec.ofNat 64 (va + 1)) false)

/-- R17, R106, R107: a step at whose turn the slot may issue fetches the bytes at its pc, and when they decode to an instruction the step
is the meaning of that instruction in the slot; a fetch that traps takes its trap, and a slot that may not issue only counts its turn. A
cycle of a pair begins with what it does beside its instructions, the pre-emptions, wakes and system events of the turn among it, the brim twin issues, and the crown twin issues in the next move; no slot
issues outside a cycle that has begun. -/
def Obligations.StepRunsDecoded : Prop :=
  (∀ (n : Nat) (s : State) (r : List Move), s.agenda = .issue n :: r →
    let k := turnOf s n
    let t := beginTurn { s with agenda := r } n k
    (mayIssue t n k = false → step s = .next t) ∧
    (mayIssue t n k = true →
      (∀ u i, fetchInstr t n k (t.slot n k).pc.toNat = .ok u i → step s = exec i u) ∧
      (∀ u bs i m, fetchBytes t n k (t.slot n k).pc.toNat = .ok u bs → decodeBytes bs = .ok (i, m) → step s = exec i u) ∧
      (∀ u, fetchInstr t n k (t.slot n k).pc.toNat = .wait u → step s = .next u) ∧
      (∀ u c v l, fetchInstr t n k (t.slot n k).pc.toNat = .trap u c v l → step s = .next (takeTrap u n k l c v (t.slot n k).pc)))) ∧
  (∀ (n : Nat) (s : State) (r : List Move), s.agenda = .cycle n :: r →
    let e := n % 1024 / 2 * 2
    let b := beginCore (beginCore { s with agenda := r } e) (e + 1)
    let c := turnTick (turnTick (commitCore (commitCore b e) (e + 1)) e) (e + 1)
    step s = step { c with agenda := .issue e :: .issue (e + 1) :: c.agenda }) ∧
  (∀ (i : Instr) (s : State) (r : List Move), s.agenda = .event i :: r → isEvent i = true → step s = exec i { s with agenda := r }) ∧
  (∀ (n : Nat) (s : State), s.agenda = [] → Config.freeMove s.tick = .issue n → step s = .next (freeTick s))

/-- R8, R398: the machine never stops: every step of every state answers a next state. -/
def Obligations.StepAnswers : Prop := ∀ s : State, ∃ t, step s = .next t

/-- R113, R165 to R185: no instruction is without a meaning: in a slot that runs, and for every event, exec answers a next state. -/
def Obligations.ExecAnswers : Prop :=  ∀ (i : Instr) (s : State), isEvent i = true ∨ s.running = true → ∃ t, exec i s = .next t

/-- R7: every step keeps the one form of memory: addresses rising, and no listed byte equal to what an unlisted one reads as. -/
def Obligations.MemoryForm : Prop := ∀ s t : State, s.memOk = true → step s = .next t → t.memOk = true

/-- R293, R296, R321, R360, R368: the state right after reset: memory in its form with nothing listed, every slot free, no event, no
pending mark, device time and tags zero, every cluster at step 8, the firmware down. The bytes of memory at zero are the model's choice
(log entry 4). -/
def Obligations.ResetState : Prop :=
  State.reset.memOk = true ∧ (∀ a, byteAt State.reset a = 0) ∧ State.reset.time = 0 ∧
  (∀ n k, (State.reset.slot n k).phase = .free ∧ (State.reset.slot n k).pending = []) ∧
  (∀ n, (State.reset.core n).evActive = false ∧ (State.reset.core n).stopped = false ∧ (State.reset.core n).tags = 0 ∧
    (State.reset.core n).slotEn = 0x7F ∧ (State.reset.core n).inbox = []) ∧
  (∀ c, (State.reset.cluster c).step = 8 ∧ (State.reset.cluster c).ramp = false ∧ (State.reset.cluster c).removed = 0) ∧
  (∀ p, (State.reset.pair p).lic = .free ∧ (State.reset.pair p).holder = none) ∧
  (∀ q, (State.reset.hostQueue q).state = .closed) ∧ State.reset.fwUp = false

/-- R106: an instruction with slip s issued at turn t leaves t + 1 + s as the first turn at which its slot may issue again; before that
turn the slot issues nothing, and every turn of the slot counts, whether or not it issues in it. -/
def Obligations.SlipSpacing : Prop :=
  (∀ (s t : State) (sl : BitVec 2) (pc : Word), (jumps sl t pc).me.nextTurn = t.me.turn + 1 + sl.toNat ∧
    (next32 s sl t).me.nextTurn = t.me.turn + 1 + sl.toNat ∧ (next16 s t).me.nextTurn = t.me.turn + 1 ∧
    (next32 s sl t).me.turn = t.me.turn) ∧
  (∀ (n : Nat) (s : State),
    let k := turnOf s n
    ((beginTurn s n k).slot n k).turn = (s.slot n k).turn + 1 ∧
    ((s.slot n k).turn + 1 < (s.slot n k).nextTurn → issueTurn s n = .next (beginTurn s n k)))

/-- R107, R151, R154, R156: the results of the float group and of the unary float instructions have the latency of their entry: a result
of latency L is written L − 1 rotations and three cycles after its issue and is visible L turns later; no instruction of these leaves
another result pending. -/
def Obligations.FloatLatencies : Prop :=
  let leaves : Nat → BitVec 6 → State → State → Prop := fun l d s t =>
    ∀ p ∈ t.me.pending, p ∈ s.me.pending ∨
      (p.name = d.toNat ∧ p.due = some ((s.core s.cur.1).cycle + 8 * (l - 1) + 3) ∧ p.turn = s.me.turn + l)
  (∀ e ∈ ([(.fadd, 1), (.fsub, 1), (.fmul, 1), (.fdiv, 4), (.fmin, 1), (.fmax, 1), (.fseteq, 1), (.fsetlt, 1), (.fsetle, 1), (.fsetun, 1),
      (.fcpys, 1)] : List (Form3 × Nat)),
    ∀ sl d a b (s t : State), exec (e.1 sl d a b) s = .next t → leaves e.2 d s t) ∧
  (∀ e ∈ ([(.fabs, 1), (.fneg, 1), (.fclass, 1), (.fsqrt, 4), (.rcpa, 1), (.rsqa, 1), (.exp2a, 2), (.log2a, 2), (.siga, 2), (.tanha, 2)] :
      List (Form2 × Nat)),
    ∀ sl d a (s t : State), exec (e.1 sl d a) s = .next t → leaves e.2 d s t) ∧
  (∀ f ∈ ([.fcvt, .frnd] : List Form3), ∀ sl d a b (s t : State), exec (f sl d a b) s = .next t → leaves 1 d s t)

/-- R107, R108, R109: a due result is written to its name: the name reads as its bits, cut to its width; memory, the control words, the
caches, the private rows of every other slot and the registers of the slot outside its rows stay as they are. No due result stays pending,
and one that is not due stays unless a later issued result of its name is due, whose value is the one that remains. -/
def Obligations.CommitWrites : Prop :=
  ∀ (s : State) (n k : Nat),
    let t := commitSlot s n k
    t.mem = s.mem ∧ t.ctrl = s.ctrl ∧ t.llc = s.llc ∧ t.clusters = s.clusters ∧ t.threads = s.threads ∧
    (∀ m j, m ≠ n ∨ j ≠ k → t.slot m j = s.slot m j) ∧
    (∀ p ∈ (t.slot n k).pending, p ∈ (s.slot n k).pending ∧ dueNow (s.core n).cycle p = false) ∧
    (∀ a b p, (s.slot n k).pending = a ++ p :: b → dueNow (s.core n).cycle p = false →
      (∀ q ∈ b, q.name = p.name → dueNow (s.core n).cycle q = false) → p ∈ (t.slot n k).pending) ∧
    t.slot n k = { s.slot n k with rows := (t.slot n k).rows, dirty := (t.slot n k).dirty, pending := (t.slot n k).pending } ∧
    (∀ p i, (s.slot n k).pending = [p] → dueNow (s.core n).cycle p = true → nameInfo s n k p.name = some i → p.name ≠ 63 →
      i.off + i.width ≤ 128 * i.region.rows → nameBits t n k p.name = p.bits.toNat % 2 ^ i.width)

/-- R8, R113, R117 to R127: an instruction that only computes changes nothing outside its slot, and in its slot only the pc, the turn at
which it may issue again, what it waits for, and a pending result of its destination. -/
def Obligations.RegisterFrame : Prop :=
  let frame : Nat → State → State → Prop := fun d s t =>
    sameOutside s t ∧
    t.me = { s.me with pc := t.me.pc, nextTurn := t.me.nextTurn, latch := t.me.latch, issued := t.me.issued, woken := t.me.woken, stalled := t.me.stalled,
                       wait := t.me.wait, pptWait := t.me.pptWait, demand := t.me.demand, pending := t.me.pending } ∧
    (∀ p ∈ t.me.pending, p ∈ s.me.pending ∨ p.name = d) ∧
    (∀ a, byteAt t a = byteAt s a)
  (∀ f ∈ ([.add, .sub, .mul, .mulh, .div, .rem, .min, .max, .and, .or, .xor, .andn, .shl, .shr, .rol, .ror, .seteq, .setne, .setlt, .setle,
      .absd, .shli, .shri, .fits] : List Form3),
    ∀ sl d a b (s t : State), exec (f sl d a b) s = .next t → t.me.phase = .running → frame d.toNat s t) ∧
  (∀ f ∈ ([.mov, .neg, .abs, .not, .clz, .ctz, .popc, .brev, .getw, .getm] : List Form2),
    ∀ sl d a (s t : State), exec (f sl d a) s = .next t → t.me.phase = .running → frame d.toNat s t) ∧
  (∀ f ∈ ([.addi, .muli, .andi, .ori, .xori, .seteqi, .setlti] : List (BitVec 2 → BitVec 6 → BitVec 6 → BitVec 11 → Instr)),
    ∀ sl d a v (s t : State), exec (f sl d a v) s = .next t → t.me.phase = .running → frame d.toNat s t) ∧
  (∀ f ∈ ([.addCompact, .subCompact, .andCompact, .orCompact, .xorCompact, .movCompact, .addiCompact, .shliCompact, .shriCompact,
      .seteqCompact, .setltCompact] : List FormC),
    ∀ d a (s t : State), exec (f d a) s = .next t → t.me.phase = .running → frame d.toNat s t)

/-- R295, R299: a trap of a user slot holds it, with TRCAUSE, TRVAL, TRPC and TRTIME written, its thread TRAPPED and its TRAP event
pending; its rows, its map and its pc stay. A trap of the system slot stops it with the same registers written. Neither changes the slots
of the core's other threads. -/
def Obligations.TrapTaken : Prop :=
  ∀ (s : State) (n k : Nat) (len32 : Bool) (c : Cause) (v pc : Word), k < 8 →
    let t := takeTrap s n k len32 c v pc
    (t.slot n k).phase = .held ∧ (t.slot n k).trCause = BitVec.ofNat 64 (c.code + if len32 then 256 else 0) ∧ (t.slot n k).trVal = v ∧
    (t.slot n k).trPc = pc ∧ (t.slot n k).trTime = s.time ∧ (t.slot n k).rows = (s.slot n k).rows ∧ (t.slot n k).map = (s.slot n k).map ∧
    (t.slot n k).pc = (s.slot n k).pc ∧ (∀ j, j ≠ k → t.slot n j = s.slot n j) ∧
    (k < 7 → (t.core n).trapPend.getLsbD k = true ∧ (t.core n).stopped = (s.core n).stopped ∧ (t.thread (s.slot n k).img).state = 4) ∧
    (k = 7 → (t.core n).stopped = true ∧ (t.core n).trapPend = (s.core n).trapPend)

/-- R341, R342: a spread address names the home byte of the rule, and both views key one line; a remote address gives its device and
offset, or a place that every access refuses with BUSERR; an offset of a remote put reaches the home view, below or through the spread
view, and no window, pool or control word. -/
def Obligations.AddressMap : Prop :=
  (∀ (s : State) (o : Nat), o < 0x8000000000 →
    let h := o / 4096 % 1024 * 0x20000000 + (o / 0x400000 * 4096 + o % 4096)
    placeOf s (0x8000000000 + o) = .home h ∧ h < 0x8000000000 ∧ placeOf s h = .home h ∧
    canonPa s (0x8000000000 + o) = canonPa s h ∧
    (∀ p, p < 0x8000000000 → p / 4096 = o / 4096 → ∃ h', placeOf s (0x8000000000 + p) = .home h' ∧ h' / 0x20000000 = h / 0x20000000)) ∧
  (∀ s : State, placeOf s 0x8001234567 = .home 0x4680004567) ∧
  (∀ (s : State) (x : Nat), x < 2 ^ 55 →
    let d := x / 2 ^ 40 % 2 ^ 9
    (x / 2 ^ 49 = 0 → d ≠ s.devId → placeOf s (2 ^ 55 + x) = .remote d (x % 2 ^ 40)) ∧
    ((x / 2 ^ 49 ≠ 0 ∨ d = s.devId) → placeOf s (2 ^ 55 + x) = .hole)) ∧
  (∀ (s t : State) (n k va size pol v p sc attr pa : Nat) (f : Nat → Nat), placeOf t pa = .hole → heldAtJoin t n .hole = false →
    walkHeld s n va = false →
    (translate s n (decide (k < 7)) .load va = .ok t pa attr → threadLoad s n k va size pol = .trap .buserr (BitVec.ofNat 64 pa)) ∧
    (translate s n (decide (k < 7)) .store va = .ok t pa attr → threadStore s n k va size v pol p = .trap .buserr (BitVec.ofNat 64 pa)) ∧
    (translate s n (decide (k < 7)) .update va = .ok t pa attr → threadAtomic s n k va size sc f = .trap .buserr (BitVec.ofNat 64 pa))) ∧
  (∀ (s : State) (o : Nat), o < 2 ^ 40 → placeOf s o = .home (if o < 0x8000000000 then o else spreadHome o))

/-- R184: QSTAT is MOP 0x24 with F = 15; a queue above 2 traps ILLEGAL and a non-zero A is no instruction; it puts the free places of its
core in bits [4:0] and the commands that the queue has accepted and not completed in bits [9:5], and zeros above. -/
def Obligations.QueueStatus : Prop :=
  (∀ (sl : BitVec 2) (d q : BitVec 6),
    encode (.qstat sl d q) = 2 ^ 31 + 0x24 * 2 ^ 25 + sl.toNat * 2 ^ 23 + d.toNat * 2 ^ 17 + q.toNat * 2 ^ 5 + 15 ∧
    ∀ a : BitVec 6, a ≠ 0 → decode32 (2 ^ 31 + 0x24 * 2 ^ 25 + sl.toNat * 2 ^ 23 + d.toNat * 2 ^ 17 + a.toNat * 2 ^ 11 + q.toNat * 2 ^ 5 + 15) =
      .error .reservedField) ∧
  (∀ (sl : BitVec 2) (d q : BitVec 6) (s : State), s.running = true → 3 ≤ q.toNat →
    exec (.qstat sl d q) s = .next (trap32 s .illegal (BitVec.ofNat 64 (encode (.qstat sl d q))))) ∧
  (∀ (sl : BitVec 2) (d q : BitVec 6) (s : State), q.toNat < 3 → usable s [] [d.toNat] [(d.toNat, intK)] = true →
    let used := ((s.core s.cur.1).cmds.filter (inQueue q.toNat)).length
    used ≤ queuePlaces q.toNat →
    exec (.qstat sl d q) s = .next (endsWith s sl d.toNat 1 ((queuePlaces q.toNat - used + used * 32 : Nat) : Int)))

/-- R117, R121, R64, R65, R107: ADD to ABSD compute on the exact values of A and B, and the result is put into D, or WIDTH traps with the
value and the name. -/
def Obligations.IntegerTwoOperand : Prop :=
  ∀ e ∈ ([(.add, 1, fun x y => x + y), (.sub, 1, fun x y => x - y), (.mul, 1, fun x y => x * y),
      (.mulh, 2, fun x y => x * y / 2 ^ 64), (.min, 1, fun x y => if x ≤ y then x else y),
      (.max, 1, fun x y => if x ≤ y then y else x), (.and, 1, andI), (.or, 1, orI), (.xor, 1, xorI), (.andn, 1, andnI),
      (.shl, 1, fun x y => x * 2 ^ (max 0 (min 127 y)).toNat), (.shr, 1, fun x y => x / 2 ^ (max 0 (min 127 y)).toNat),
      (.seteq, 1, fun x y => if x = y then 1 else 0), (.setne, 1, fun x y => if x = y then 0 else 1),
      (.setlt, 1, fun x y => if x < y then 1 else 0), (.setle, 1, fun x y => if x ≤ y then 1 else 0),
      (.absd, 1, fun x y => if x ≤ y then y - x else x - y)] : List (Form3 × Nat × (Int → Int → Int))),
  ∀ (sl : BitVec 2) (d a b : BitVec 6) (s : State),
    usable s [a.toNat, b.toNat] [d.toNat] [(d.toNat, intK), (a.toNat, intK), (b.toNat, intK)] = true →
    exec (e.1 sl d a b) s = .next (endsWith s sl d.toNat e.2.1 (e.2.2 (valI s a.toNat) (valI s b.toNat)))

/-- R121, R122: DIV and REM truncate towards zero; a zero divisor traps DIVZERO with the destination's index. R121: ROL rotates A's
pattern at A's width by b modulo that width, ROR by −b; the rotated pattern is read in A's kind. R124: the one-operand instructions
compute on A's value, or on its pattern at its width. R124, R144: GETW and GETM give A's current width and mode, FITS whether A's value
fits B. -/
def Obligations.DivisionRotationAndUnary : Prop :=
  (∀ e ∈ ([(.div, Int.tdiv), (.rem, Int.tmod)] : List (Form3 × (Int → Int → Int))),
  ∀ (sl : BitVec 2) (d a b : BitVec 6) (s : State),
    usable s [a.toNat, b.toNat] [d.toNat] [(d.toNat, intK), (a.toNat, intK), (b.toNat, intK)] = true →
    (valI s b.toNat = 0 → exec (e.1 sl d a b) s = .next (trap32 s .divzero (BitVec.ofNat 64 d.toNat))) ∧
    (valI s b.toNat ≠ 0 →
      exec (e.1 sl d a b) s = .next (endsWith s sl d.toNat 6 (e.2 (valI s a.toNat) (valI s b.toNat))))) ∧
  (∀ e ∈ ([(.rol, fun y => y), (.ror, fun y => -y)] : List (Form3 × (Int → Int))),
  ∀ (sl : BitVec 2) (d a b : BitVec 6) (s : State),
    usable s [a.toNat, b.toNat] [d.toNat] [(d.toNat, intK), (a.toNat, intK), (b.toNat, intK)] = true →
    let w := (info s a.toNat).width
    exec (e.1 sl d a b) s = .next (endsWith s sl d.toNat 1
      (readPat (info s a.toNat).kind w (rotl w (opBits s a.toNat) (e.2 (valI s b.toNat) % w).toNat)))) ∧
  (∀ e ∈ ([(.neg, fun k w p => -readPat k w p), (.abs, fun k w p => max (readPat k w p) (-readPat k w p)),
      (.not, fun k w p => readPat k w (2 ^ w - 1 - p)), (.clz, fun _ w p => leadZeros w p), (.ctz, fun _ w p => trailZeros w p),
      (.popc, fun _ w p => popCount w p), (.brev, fun k w p => readPat k w (reverseBits w p))] :
      List (Form2 × (Kind → Nat → Nat → Int))),
  ∀ (sl : BitVec 2) (d a : BitVec 6) (s : State),
    usable s [a.toNat] [d.toNat] [(d.toNat, intK), (a.toNat, intK)] = true →
    exec (e.1 sl d a) s =
      .next (endsWith s sl d.toNat 1 (e.2 (info s a.toNat).kind (info s a.toNat).width (opBits s a.toNat)))) ∧
  ((∀ e ∈ ([(.getw, fun i => i.width), (.getm, fun i => i.mode.code)] : List (Form2 × (Info → Nat))),
    ∀ (sl : BitVec 2) (d a : BitVec 6) (s : State), usable s [] [d.toNat] [(d.toNat, intK), (a.toNat, anyK)] = true →
      exec (e.1 sl d a) s = .next (endsWith s sl d.toNat 1 (e.2 (info s a.toNat) : Nat))) ∧
  (∀ (sl : BitVec 2) (d a b : BitVec 6) (s : State),
    usable s [a.toNat] [d.toNat] [(d.toNat, intK), (a.toNat, intK), (b.toNat, intK)] = true →
      exec (.fits sl d a b) s = .next (endsWith s sl d.toNat 1
        (if rangeLo (info s b.toNat).kind (info s b.toNat).width ≤ valI s a.toNat ∧
            valI s a.toNat ≤ rangeHi (info s b.toNat).kind (info s b.toNat).width then 1 else 0))))

/-- R123, R126: the immediate forms compute with a sign-extended immediate (ADDI, MULI, SETEQI, SETLTI) or a zero-extended one (ANDI, ORI,
XORI); the immediate shifts shift by the immediate; BFX takes an unsigned field. R126, R127: MOVI puts its sign-extended immediate; MOVK
and BFI replace a field of D's value by low bits. -/
def Obligations.ImmediateAndFieldForms : Prop :=
  ((∀ e ∈ ([(.addi, fun x v => x + v.toInt), (.muli, fun x v => x * v.toInt), (.andi, fun x v => andI x v.toNat),
      (.ori, fun x v => orI x v.toNat), (.xori, fun x v => xorI x v.toNat),
      (.seteqi, fun x v => if x = v.toInt then 1 else 0), (.setlti, fun x v => if x < v.toInt then 1 else 0)] :
      List ((BitVec 2 → BitVec 6 → BitVec 6 → BitVec 11 → Instr) × (Int → BitVec 11 → Int))),
    ∀ (sl : BitVec 2) (d a : BitVec 6) (v : BitVec 11) (s : State),
      usable s [a.toNat] [d.toNat] [(d.toNat, intK), (a.toNat, intK)] = true →
      exec (e.1 sl d a v) s = .next (endsWith s sl d.toNat 1 (e.2 (valI s a.toNat) v))) ∧
  (∀ e ∈ ([(.shli, fun x v => x * 2 ^ v), (.shri, fun x v => x / 2 ^ v)] : List (Form3 × (Int → Nat → Int))),
    ∀ (sl : BitVec 2) (d a v : BitVec 6) (s : State),
      usable s [a.toNat] [d.toNat] [(d.toNat, intK), (a.toNat, intK)] = true →
      exec (e.1 sl d a v) s = .next (endsWith s sl d.toNat 1 (e.2 (valI s a.toNat) v.toNat))) ∧
  (∀ (sl : BitVec 2) (d a p : BitVec 6) (l : BitVec 5) (s : State), p.toNat + l.toNat < 64 →
      usable s [a.toNat] [d.toNat] [(d.toNat, intK), (a.toNat, intK)] = true →
      exec (.bfx sl d a p l) s = .next (endsWith s sl d.toNat 1 (valI s a.toNat / 2 ^ p.toNat % 2 ^ (l.toNat + 1))))) ∧
  ((∀ (sl : BitVec 2) (d : BitVec 6) (v : BitVec 17) (s : State), usable s [] [d.toNat] [(d.toNat, intK)] = true →
      exec (.movi sl d v) s = .next (endsWith s sl d.toNat 1 v.toInt)) ∧
  (∀ (q sl : BitVec 2) (d : BitVec 6) (v : BitVec 16) (s : State), usable s [d.toNat] [d.toNat] [(d.toNat, intK)] = true →
      let x := valI s d.toNat
      exec (.movk q sl d v) s = .next (endsWith s sl d.toNat 1
        (x - x / 2 ^ (16 * q.toNat) % 2 ^ 16 * 2 ^ (16 * q.toNat) + v.toNat * 2 ^ (16 * q.toNat)))) ∧
  (∀ (sl : BitVec 2) (d a p : BitVec 6) (l : BitVec 5) (s : State), p.toNat + l.toNat < 64 →
      usable s [d.toNat, a.toNat] [d.toNat] [(d.toNat, intK), (a.toNat, intK)] = true →
      let x := valI s d.toNat
      exec (.bfi sl d a p l) s = .next (endsWith s sl d.toNat 1
        (x - x / 2 ^ p.toNat % 2 ^ (l.toNat + 1) * 2 ^ p.toNat
          + valI s a.toNat % 2 ^ (l.toNat + 1) * 2 ^ p.toNat))))

/-- R121, R124: what rotating, reversing, counting and the bitwise operations mean, bit by bit. -/
def Obligations.BitOperations : Prop :=
  (∀ w p c i : Nat, p < 2 ^ w → c < w → i < w → (rotl w p c).testBit i = p.testBit ((i + w - c) % w)) ∧
  (∀ w p i : Nat, i < w → (reverseBits w p).testBit i = p.testBit (w - 1 - i)) ∧
  (∀ w p : Nat, popCount w p = ((List.range w).filter (fun i => p.testBit i)).length) ∧
  (∀ w p : Nat, leadZeros w p ≤ w ∧ (∀ i, w - leadZeros w p ≤ i → i < w → p.testBit i = false) ∧
    (leadZeros w p < w → p.testBit (w - 1 - leadZeros w p) = true)) ∧
  (∀ w p : Nat, trailZeros w p ≤ w ∧ (∀ i, i < trailZeros w p → p.testBit i = false) ∧
    (trailZeros w p < w → p.testBit (trailZeros w p) = true)) ∧
  (∀ x y : Int, -2 ^ 79 ≤ x → x < 2 ^ 79 → -2 ^ 79 ≤ y → y < 2 ^ 79 →
    andI x y = Int.land x y ∧ orI x y = Int.lor x y ∧ xorI x y = Int.xor x y ∧ andnI x y = Int.land x (Int.lnot y))

/-- R119, R125: MOV (both lengths) and SEL store the value of an integer name in an integer destination, and move the encoding of a float
name bit for bit to a destination of its own kind; any other source kind traps KIND with the source's index. R105: the compact integer
instructions are their 32-bit forms with D as the first operand and slip 0. -/
def Obligations.MovesAndCompactForms : Prop :=
  ((∀ (sl : BitVec 2) (d a : BitVec 6) (s : State),
      usable s [a.toNat] [d.toNat] [(d.toNat, anyK), (a.toNat, fun i =>
        if (info s d.toNat).kind.isFloat then i.kind == (info s d.toNat).kind else i.kind.isInt)] = true →
      exec (.mov sl d a) s = .next (if (info s d.toNat).kind.isFloat then next32 s sl (putBits s d.toNat 1 (opBits s a.toNat))
        else endsWith s sl d.toNat 1 (valI s a.toNat))) ∧
  (∀ (d a : BitVec 5) (s : State),
      usable s [a.toNat] [d.toNat] [(d.toNat, anyK), (a.toNat, fun i =>
        if (info s d.toNat).kind.isFloat then i.kind == (info s d.toNat).kind else i.kind.isInt)] = true →
      exec (.movCompact d a) s = .next (if (info s d.toNat).kind.isFloat then next16 s (putBits s d.toNat 1 (opBits s a.toNat))
        else endsWith16 s d.toNat 1 (valI s a.toNat))) ∧
  (∀ (sl : BitVec 2) (d a b : BitVec 6) (p : BitVec 5) (s : State),
      let k : Info → Bool := fun i => if (info s d.toNat).kind.isFloat then i.kind == (info s d.toNat).kind else i.kind.isInt
      let c := if valI s p.toNat = 0 then b else a
      usable s [a.toNat, b.toNat, p.toNat] [d.toNat] [(d.toNat, anyK), (a.toNat, k), (b.toNat, k), (p.toNat, intK)] = true →
      exec (.sel sl d a b p) s = .next (if (info s d.toNat).kind.isFloat then next32 s sl (putBits s d.toNat 1 (opBits s c.toNat))
        else endsWith s sl d.toNat 1 (valI s c.toNat))) ∧
  (∀ (sl : BitVec 2) (d a : BitVec 6) (s : State), s.running = true → readyName s a.toNat = none →
      declared s d.toNat = true → declared s a.toNat = true →
      (if (info s d.toNat).kind.isFloat then (info s a.toNat).kind ≠ (info s d.toNat).kind else (info s a.toNat).kind.isFloat = true) →
      exec (.mov sl d a) s = .next (trap32 s .kind (BitVec.ofNat 64 a.toNat)))) ∧
  ((∀ e ∈ ([(.addCompact, fun x y => x + y), (.subCompact, fun x y => x - y), (.andCompact, andI), (.orCompact, orI),
      (.xorCompact, xorI), (.seteqCompact, fun x y => if x = y then 1 else 0), (.setltCompact, fun x y => if x < y then 1 else 0)] :
      List (FormC × (Int → Int → Int))),
    ∀ (d a : BitVec 5) (s : State),
      usable s [d.toNat, a.toNat] [d.toNat] [(d.toNat, intK), (d.toNat, intK), (a.toNat, intK)] = true →
      exec (e.1 d a) s = .next (endsWith16 s d.toNat 1 (e.2 (valI s d.toNat) (valI s a.toNat)))) ∧
  (∀ e ∈ ([(.addiCompact, fun x v => x + v.toInt), (.shliCompact, fun x v => x * 2 ^ v.toNat),
      (.shriCompact, fun x v => x / 2 ^ v.toNat)] : List (FormC × (Int → BitVec 5 → Int))),
    ∀ (d v : BitVec 5) (s : State), usable s [d.toNat] [d.toNat] [(d.toNat, intK), (d.toNat, intK)] = true →
      exec (e.1 d v) s = .next (endsWith16 s d.toNat 1 (e.2 (valI s d.toNat) v))))

/-- R82, R83, R145, R150, R105: the two-operand float instructions give the exact result of their operands, rounded once into D under
RMODE, with the flags of the operation and of the rounding set in FXF; under FTRAP a flag traps FLOAT. FADD and FMUL have compact forms.
FCPYS gives A the sign bit of B's pattern. R152: FABS, FNEG, FSQRT, FRND and FCLASS; a NaN gives the canonical NaN with NV when it is
signalling. -/
def Obligations.FloatOperations : Prop :=
  ((∀ e ∈ ([(.fadd, 1, addV), (.fsub, 1, subV), (.fmul, 1, fun _ x y => mulV x y), (.fdiv, 4, fun _ x y => divV x y),
      (.fmin, 1, fun _ x y => minV x y), (.fmax, 1, fun _ x y => maxV x y),
      (.fseteq, 1, fun _ x y => if x.isNan || y.isNan then (.ofInt 0, nanFlags x y) else (.ofInt (if cmpV x y = 0 then 1 else 0), 0)),
      (.fsetlt, 1, fun _ x y => if x.isNan || y.isNan then (.ofInt 0, flagNV) else (.ofInt (if cmpV x y < 0 then 1 else 0), 0)),
      (.fsetle, 1, fun _ x y => if x.isNan || y.isNan then (.ofInt 0, flagNV) else (.ofInt (if cmpV x y ≤ 0 then 1 else 0), 0)),
      (.fsetun, 1, fun _ x y => (.ofInt (if x.isNan || y.isNan then 1 else 0), nanFlags x y))] :
      List (Form3 × Nat × (Bool → FVal → FVal → FVal × Nat))),
    ∀ (sl : BitVec 2) (d a b : BitVec 6) (s : State),
      usable s [a.toNat, b.toNat] [d.toNat] [(d.toNat, floatK), (a.toNat, floatK), (b.toNat, floatK)] = true →
      let v := e.2.2 (rdn s) (valF s a.toNat) (valF s b.toNat)
      let f := fitF (info s d.toNat).kind (rmode s) v.1
      exec (e.1 sl d a b) s = .next (endsFloat s sl d.toNat e.2.1 (f.1, v.2 ||| f.2))) ∧
  (∀ e ∈ ([(.faddCompact, addV), (.fmulCompact, fun _ x y => mulV x y)] : List (FormC × (Bool → FVal → FVal → FVal × Nat))),
    ∀ (d a : BitVec 5) (s : State),
      usable s [d.toNat, a.toNat] [d.toNat] [(d.toNat, floatK), (d.toNat, floatK), (a.toNat, floatK)] = true →
      let v := e.2 (rdn s) (valF s d.toNat) (valF s a.toNat)
      let f := fitF (info s d.toNat).kind (rmode s) v.1
      flagsPass s (f.1, v.2 ||| f.2) = true →
      exec (e.1 d a) s = .next (next16 s (floatOut s d.toNat 1 (f.1, v.2 ||| f.2)))) ∧
  (∀ (sl : BitVec 2) (d a b : BitVec 6) (s : State),
      usable s [a.toNat, b.toNat] [d.toNat] [(d.toNat, floatK), (a.toNat, floatK), (b.toNat, floatK)] = true →
      let va := valF s a.toNat
      let v := if va.isNan then (.nan false, if va.isSnan then flagNV else 0)
        else (va.withSign (decide (opBits s b.toNat / 2 ^ ((info s b.toNat).width - 1) % 2 = 1)), 0)
      let f := fitF (info s d.toNat).kind (rmode s) v.1
      exec (.fcpys sl d a b) s = .next (endsFloat s sl d.toNat 1 (f.1, v.2 ||| f.2)))) ∧
  ((∀ e ∈ ([(.fabs, 1, fun v => if v.isNan then (.nan false, if v.isSnan then flagNV else 0) else (v.withSign false, 0)),
      (.fneg, 1, fun v => if v.isNan then (.nan false, if v.isSnan then flagNV else 0) else (v.negate, 0)), (.fsqrt, 4, sqrtV)] :
      List (Form2 × Nat × (FVal → FVal × Nat))),
    ∀ (sl : BitVec 2) (d a : BitVec 6) (s : State),
      usable s [a.toNat] [d.toNat] [(d.toNat, floatK), (a.toNat, floatK)] = true →
      let v := e.2.2 (valF s a.toNat)
      let f := fitF (info s d.toNat).kind (rmode s) v.1
      exec (e.1 sl d a) s = .next (endsFloat s sl d.toNat e.2.1 (f.1, v.2 ||| f.2))) ∧
  (∀ (sl : BitVec 2) (d a r : BitVec 6) (s : State), r.toNat < 6 →
      usable s [a.toNat] [d.toNat] [(d.toNat, floatK), (a.toNat, floatK)] = true → (valF s a.toNat).isNan = false →
      let f := fitF (info s d.toNat).kind (rmode s) (roundInt (Rnd.ofSelector s.me.rmode.toNat r.toNat) (valF s a.toNat))
      exec (.frnd sl d a r) s = .next (endsFloat s sl d.toNat 1 f)) ∧
  (∀ (sl : BitVec 2) (d a : BitVec 6) (s : State),
      usable s [a.toNat] [d.toNat] [(d.toNat, floatK), (a.toNat, floatK)] = true →
      let f := fitF (info s d.toNat).kind (rmode s) (.ofInt (classF (info s a.toNat).kind (opBits s a.toNat)))
      exec (.fclass sl d a) s = .next (endsFloat s sl d.toNat 1 f)))

/-- R153: FCVT between float kinds and from an integer rounds once into D; a finite float that rounds into the range of an integer name is
stored there, with NX when it was no integer; a NaN stores 0 with NV unless D's mode traps. R155 to R158: the approximations give their
FP32 result bit for bit; FFMA and FFMS round c ± a × b once; RCPS and RSQS leave a zero or infinite estimate as it is and else refine it.
The sign of an exactly zero refinement and the NV of an FCVT into ZERO are the model's choice (log entry 75). -/
def Obligations.FloatConversionAndRefinement : Prop :=
  (∀ (sl : BitVec 2) (d a r : BitVec 6) (s : State), r.toNat < 6 →
    usable s [a.toNat] [d.toNat] [(d.toNat, anyK), (a.toNat, anyK),
      (d.toNat, fun i => i.kind.isFloat || (info s a.toNat).kind.isFloat)] = true →
    let mode := Rnd.ofSelector s.me.rmode.toNat r.toNat
    let k := (info s d.toNat).kind
    let w := (info s d.toNat).width
    ((info s a.toNat).kind.isFloat = false →
      exec (.fcvt sl d a r) s = .next (endsFloat s sl d.toNat 1 (fitF k mode (.ofInt (valI s a.toNat))))) ∧
    ((info s a.toNat).kind.isFloat = true → k.isFloat = true → (valF s a.toNat).isNan = false →
      exec (.fcvt sl d a r) s = .next (endsFloat s sl d.toNat 1 (fitF k mode (valF s a.toNat)))) ∧
    ((info s a.toNat).kind.isFloat = true → k.isFloat = false →
      (∀ n num den e, valF s a.toNat = .fin n num den e →
        let q := quantize mode n 64 num den e 0
        representable k w (signedNum n q.1) = true →
        exec (.fcvt sl d a r) s =
          .next (endsFloat s sl d.toNat 1 (modPow (signedNum n q.1) w, if q.2 then flagNX else 0))) ∧
      (∀ q, valF s a.toNat = .nan q → ((info s d.toNat).mode ≠ .trap ∨ d.toNat = 63) →
        exec (.fcvt sl d a r) s = .next (endsFloat s sl d.toNat 1 (0, flagNV))) ∧
      (∀ q, valF s a.toNat = .nan q → (info s d.toNat).mode = .trap → d.toNat ≠ 63 →
        exec (.fcvt sl d a r) s = .next (trap32 s .width (BitVec.ofNat 64 d.toNat))))) ∧
  ((∀ e ∈ ([(.rcpa, 1, rcpa), (.rsqa, 1, rsqa), (.exp2a, 2, exp2a), (.log2a, 2, log2a), (.siga, 2, siga), (.tanha, 2, tanha)] :
      List (Form2 × Nat × (Nat → Nat × Nat))),
    ∀ (sl : BitVec 2) (d a : BitVec 6) (s : State), usable s [a.toNat] [d.toNat] [(d.toNat, f32K), (a.toNat, f32K)] = true →
      exec (e.1 sl d a) s = .next (endsFloat s sl d.toNat e.2.1 (e.2.2 (opBits s a.toNat)))) ∧
  (∀ e ∈ ([(.ffma, false), (.ffms, true)] : List (Form3 × Bool)),
    ∀ (sl : BitVec 2) (d a b : BitVec 6) (s : State),
      usable s [d.toNat, a.toNat, b.toNat] [d.toNat] [(d.toNat, floatK), (a.toNat, floatK), (b.toNat, floatK)] = true →
      let v := fmaV e.2 (rdn s) (valF s d.toNat) (valF s a.toNat) (valF s b.toNat)
      let f := fitF (info s d.toNat).kind (rmode s) v.1
      exec (e.1 sl d a b) s = .next (endsFloat s sl d.toNat 1 (f.1, v.2 ||| f.2))) ∧
  (∀ e ∈ ([(.rcps, rcpsV), (.rsqs, rsqsV)] : List (Form3 × (Bool → FVal → FVal → FVal))),
    ∀ (sl : BitVec 2) (d a b : BitVec 6) (s : State),
      usable s [a.toNat, b.toNat] [d.toNat] [(d.toNat, f32K), (a.toNat, f32K), (b.toNat, f32K)] = true →
      (valF s a.toNat).isNan = false → (valF s b.toNat).isNan = false →
      exec (e.1 sl d a b) s = .next (endsFloat s sl d.toNat 2
        (if (valF s b.toNat).isZero || (valF s b.toNat).isInf then (opBits s b.toNat, 0)
         else fitF (info s d.toNat).kind (rmode s) (e.2 (rdn s) (valF s a.toNat) (valF s b.toNat))))))

/-- R82: the sums, products and quotients of finite floats are exact before they are rounded. R82, R92: a magnitude num / den × 2^e
rounded to multiples of 2^g: towards zero, to the nearest with ties to even or away, upwards or downwards by sign; it is inexact exactly
when it is no multiple. -/
def Obligations.FloatRounding : Prop :=
  (let q : Bool → Nat → Nat → Int → ℚ := fun neg num den e => (if neg then -1 else 1) * (num : ℚ) / (den : ℚ) * (2 : ℚ) ^ e
  ∀ (r n1 n2 : Bool) (a1 d1 a2 d2 : Nat) (e1 e2 : Int), 0 < d1 → 0 < d2 →
    (∃ n m d e, (addV r (.fin n1 a1 d1 e1) (.fin n2 a2 d2 e2)).1 = .fin n m d e ∧ 0 < d ∧
      q n m d e = q n1 a1 d1 e1 + q n2 a2 d2 e2) ∧
    (∃ n m d e, (mulV (.fin n1 a1 d1 e1) (.fin n2 a2 d2 e2)).1 = .fin n m d e ∧ 0 < d ∧
      q n m d e = q n1 a1 d1 e1 * q n2 a2 d2 e2) ∧
    (a2 ≠ 0 → ∃ n m d e, (divV (.fin n1 a1 d1 e1) (.fin n2 a2 d2 e2)).1 = .fin n m d e ∧ 0 < d ∧
      q n m d e = q n1 a1 d1 e1 / q n2 a2 d2 e2)) ∧
  (∀ (neg : Bool) (p num den : Nat) (e g : Int), 0 < den →
    let n := (fracUp num den (e - g)).1
    let d := (fracUp num den (e - g)).2
    (let m := (quantize .rtz neg p num den e g).1
     m * d ≤ n ∧ n < (m + 1) * d) ∧
    (let m := (quantize .rne neg p num den e g).1
     2 * (m * d) ≤ 2 * n + d ∧ 2 * n ≤ 2 * (m * d) + d ∧ (2 * (m * d) = 2 * n + d ∨ 2 * n = 2 * (m * d) + d → m % 2 = 0)) ∧
    (let m := (quantize .rna neg p num den e g).1
     2 * (m * d) ≤ 2 * n + d ∧ 2 * n < 2 * (m * d) + d) ∧
    (let m := (quantize .rup neg p num den e g).1
     if neg then m * d ≤ n ∧ n < (m + 1) * d else n ≤ m * d ∧ m * d < n + d) ∧
    (let m := (quantize .rdn neg p num den e g).1
     if neg then n ≤ m * d ∧ m * d < n + d else m * d ≤ n ∧ n < (m + 1) * d) ∧
    (∀ mode, (quantize mode neg p num den e g).2 = true ↔ n % d ≠ 0))

/-- R76, R77, R128, R130: RSZ of ZERO or to the current width does nothing; else a repack begins that ends two cycles for each touched row
after the next one, with the value fitted to the new width. SETM sets an integer name's mode. R73, R131 to R137: BORROW takes the lowest
free enabled slot of the core, GIVEBACK gives it back, XGET and XPUT move a value between the maps, and TWXCH exchanges a pair name with
another name. -/
def Obligations.WidthsAndBorrowing : Prop :=
  ((∀ (sl : BitVec 2) (d w : BitVec 6) (s : State), s.running = true → d.toNat = 63 →
    exec (.rsz sl d w) s = .next (next32 s sl s)) ∧
  (∀ (sl : BitVec 2) (d w : BitVec 6) (s : State), s.running = true → s.quiet = true → d.toNat ≠ 63 →
    kindName s (d.toNat, fun i => i.kind == .unsigned || i.kind == .signed) = none →
    let n := s.cur.1
    let k := s.cur.2
    let i := info s d.toNat
    let width := if w.toNat = 0 then 64 else w.toNat
    let here : Nat → Prop := fun r => i.region = .priv → k < 7 → s.me.resident.getLsbD r = true
    inFlight s n k i.region = [] → frozen s n k i.region = false →
    (width = i.width → exec (.rsz sl d w) s = .next (next32 s sl s)) ∧
    (width ≠ i.width → ¬ here (i.off / 128) → exec (.rsz sl d w) s = .next (s.modMe (fun x => { x with demand := some (i.off / 128) }))) ∧
    (width ≠ i.width → here (i.off / 128) →
      let x := readPat i.kind i.width (nameBits s n k d.toNat)
      let old := regionLayout s n k i.region
      let new := regionLayout (modifyName s n k d.toNat (fun x => { x with width := width })) n k i.region
      (i.mode = .trap ∧ representable i.kind width x = false →
        exec (.rsz sl d w) s = .next (trap32 s .width (widthVal x d.toNat))) ∧
      ((i.mode ≠ .trap ∨ representable i.kind width x = true) → new = [] →
        exec (.rsz sl d w) s = .next (trap32 s .maperr (mapErr 2 d.toNat))) ∧
      ((i.mode ≠ .trap ∨ representable i.kind width x = true) → new ≠ [] →
        (∀ r ∈ touchedRows old new, r ∈ old.map (fun p => p.1 / 128) → here r) →
        let bits := BitVec.ofNat 64 (storedBits { i with width := width } x)
        let ends := (s.core n).cycle + 1 + 2 * (touchedRows old new).length
        exec (.rsz sl d w) s =
          .next (next32 s sl (s.modMe (fun x => { x with repack := some ⟨i.region, d.toNat, width, bits, ends, 0⟩ })))))) ∧
  (∀ (sl : BitVec 2) (d m : BitVec 6) (s : State) (mode : Mode), Mode.ofCode m.toNat = some mode → d.toNat ≠ 63 →
    usable s [] [] [(d.toNat, fun i => i.kind.isInt || m.toNat == 0)] = true →
    exec (.setm sl d m) s = .next (next32 s sl (modifyName s s.cur.1 s.cur.2 d.toNat (fun x => if x.kind.isFloat then x else { x with mode := mode }))))) ∧
  ((∀ (sl : BitVec 2) (d a b : BitVec 6) (s s1 s2 : State) (t count pa split pa2 : Nat) (descs : List Nat) (m : List NameD),
    usable s [a.toNat, b.toNat] [d.toNat] [(d.toNat, intK), (a.toNat, intK), (b.toNat, intK)] = true →
    s.quiet = true → s.userSlot = true → s.me.borrow = none → freeSlot s s.cur.1 = some t →
    (valW s a.toNat).toNat % 8 = 0 → (valW s b.toNat).toNat % 16 = 0 → recordHeld s s.cur.1 (valW s a.toNat).toNat = false →
    walkHeld s s.cur.1 (valW s b.toNat).toNat = false → walkHeld s s.cur.1 ((valW s b.toNat).toNat + 511) = false →
    readMapRecord s s.cur.1 true (valW s a.toNat).toNat = (s1, .ok (count, descs)) →
    backingArea s1 s.cur.1 (valW s b.toNat).toNat = .ok (s2, pa, split, pa2) →
    borrowMap count descs = .ok m → fitsIn s2 d.toNat t = true →
    let w : Borrow := { slot := t, map := m, rows := 0, resident := 0, dirty := 0, poisoned := 0, backing := pa, split := split, backing2 := pa2 }
    exec (.borrow sl d a b) s = .next (next32 s sl
      (((intOut s2 d.toNat 1 t).modMe (fun x => { x with borrow := some w })).modSlot s.cur.1 t (fun x => { x with lentTo := some s.cur.2 })))) ∧
  (∀ (sl : BitVec 2) (d a b : BitVec 6) (s : State),
    usable s [a.toNat, b.toNat] [d.toNat] [(d.toNat, intK), (a.toNat, intK), (b.toNat, intK)] = true →
    (s.cur.2 = 7 → exec (.borrow sl d a b) s = .next (trap32 s .borrow 3)) ∧
    (s.cur.2 ≠ 7 → s.me.borrow ≠ none → exec (.borrow sl d a b) s = .next (trap32 s .borrow 1)) ∧
    (s.cur.2 ≠ 7 → s.me.borrow = none → freeSlot s s.cur.1 = none → exec (.borrow sl d a b) s = .next (trap32 s .borrow 2))) ∧
  (∀ (sl : BitVec 2) (s : State) (b : Borrow), s.running = true → s.quiet = true → s.me.borrow = some b →
    exec (.giveback sl) s = .next (next32 s sl ((s.modMe (fun x => { x with borrow := none })).modSlot s.cur.1 b.slot
      (fun x => { x with lentTo := none })))) ∧
  (∀ (sl : BitVec 2) (s : State), s.running = true → s.me.borrow = none →
    exec (.giveback sl) s = .next (trap32 s .borrow 4)) ∧
  (∀ (sl : BitVec 2) (d k : BitVec 6) (s : State) (b : Borrow) (i : Info), usable s [] [d.toNat] [(d.toNat, borrowMatch s k.toNat)] = true →
    s.me.borrow = some b → borrowInfo b k.toNat = some i →
    b.resident.getLsbD (i.off / 128) = true → b.poisoned.getLsbD (i.off / 128) = false →
    let bits := wideGet b.rows i.off i.width
    exec (.xget sl d k) s = .next (if i.kind.isFloat then next32 s sl (putLate s d.toNat bits) else endsLate s sl d.toNat (readPat i.kind i.width bits) s)) ∧
  (∀ (sl : BitVec 2) (k a : BitVec 6) (s : State) (b : Borrow) (i : Info), usable s [a.toNat] [] [(a.toNat, borrowMatch s k.toNat)] = true →
    s.me.borrow = some b → borrowInfo b k.toNat = some i →
    b.resident.getLsbD (i.off / 128) = true →
    (i.kind.isFloat = true → exec (.xput sl k a) s = .next (next32 s sl (borrowWrite s i (opBits s a.toNat)))) ∧
    (i.kind.isFloat = false → (i.mode ≠ .trap ∨ representable i.kind i.width (valI s a.toNat) = true) →
    exec (.xput sl k a) s = .next (next32 s sl (borrowWrite s i (storedBits i (valI s a.toNat)))))) ∧
  (∀ (sl : BitVec 2) (d a : BitVec 6) (s : State),
    usable s [d.toNat, a.toNat] [d.toNat, a.toNat] [(d.toNat, fun i => i.region != .pair), (a.toNat, fun i => i.region == .pair &&
      (if i.kind.isFloat then i.kind == (info s d.toNat).kind else (info s d.toNat).kind.isInt))] = true →
    ((info s a.toNat).kind.isFloat = true → exec (.twxch sl d a) s = .next (next32 s sl (overBrim
      (putNow (putNow s d.toNat (opBits s a.toNat)) a.toNat (opBits s d.toNat)) a.toNat))) ∧
    ((info s a.toNat).kind.isFloat = false → fitsIn s d.toNat (valI s a.toNat) = true → a.toNat ≠ 63 →
    ((info s a.toNat).mode ≠ .trap ∨ representable (info s a.toNat).kind (info s a.toNat).width (valI s d.toNat) = true) →
    exec (.twxch sl d a) s = .next (next32 s sl (overBrim
      (putNow (putNow s d.toNat (storedBits (info s d.toNat) (valI s a.toNat))) a.toNat (storedBits (info s a.toNat) (valI s d.toNat))) a.toNat)))))

/-- R78: when a repack of the private region ends, the resized name holds the fitted value and every other private name of the slot keeps
its bits. R62: packing puts each name in one row, and no two names share a bit. -/
def Obligations.RepackAndPacking : Prop :=
  (∀ (s : State) (n k : Nat) (r : Repack) (os ps : List Nat), (s.slot n k).repack = some r → r.region = .priv →
    let m := (s.slot n k).map
    let m' := modifyAt (fun d => { d with width := r.width }) m r.name
    (∀ d, m[r.name]? = some d → d.region = .priv ∧ d.width ≠ r.width) →
    pack (rowsFor k .priv) ((regionNames m .priv).map (·.width)) = .ok os →
    pack (rowsFor k .priv) ((regionNames m' .priv).map (·.width)) = .ok ps →
    (∀ i d, m[i]? = some d → d.region = .priv → i ≠ r.name → i ≠ 63 →
      nameBits (completeRepack s n k) n k i = nameBits s n k i) ∧
    (∀ d, m[r.name]? = some d → r.name ≠ 63 → nameBits (completeRepack s n k) n k r.name = r.bits.toNat % 2 ^ r.width)) ∧
  (∀ (rows : Nat) (ws os : List Nat), pack rows ws = .ok os →
    os.length = ws.length ∧
    (∀ i o w : Nat, os[i]? = some o → ws[i]? = some w → o / 128 < rows ∧ o % 128 + w ≤ 128) ∧
    (∀ i j o p w v : Nat, i < j → os[i]? = some o → ws[i]? = some w → os[j]? = some p → ws[j]? = some v → o + w ≤ p ∨ p + v ≤ o))

/-- R138, R139: MAPLD reads a map record, makes it the slot's map and remembers its address; MAPQ describes a name by its width, kind,
mode, region, first bit and row, and an undeclared index as 0. R93, R114, R140, R141: GETS reads a special register in D's kind; PUTS
clears tag bits and writes AMODE, RMODE, FXF and SEED, keeping only their defined bits, a zero SEED becoming 1. R142, R143: OXL writes and
OXR reads an extension register; OXCLR clears one or all; OXI replaces a quarter or loads a sign-extended immediate; no other extension
register changes. -/
def Obligations.MapsAndSpecialRegisters : Prop :=
  ((∀ (sl : BitVec 2) (a : BitVec 6) (s s1 t : State) (count : Nat) (descs : List Nat), usable s [a.toNat] [] [(a.toNat, intK)] = true →
    s.quiet = true → (valW s a.toNat).toNat % 8 = 0 → recordHeld s s.cur.1 (valW s a.toNat).toNat = false →
    readMapRecord s s.cur.1 (decide (s.cur.2 < 7)) (valW s a.toNat).toNat = (s1, .ok (count, descs)) →
    mapInstall s1 s.cur.1 s.cur.2 false count descs = .ok t → mapFrozen s s.cur.1 s.cur.2 t.me.map = false →
    exec (.mapld sl a) s = .next (next32 s sl (t.modMe (fun x => { x with mapPtr := valW s a.toNat })))) ∧
  (∀ (sl : BitVec 2) (d a : BitVec 6) (s : State) (i : Info), usable s [] [d.toNat] [(d.toNat, intK)] = true → a.toNat ≠ 63 →
    infoOf s s.cur.1 s.cur.2 a.toNat = some i →
    exec (.mapq sl d a) s = .next (endsWith s sl d.toNat 1
      ((i.width + i.kind.code * 2 ^ 7 + i.mode.code * 2 ^ 10 + i.region.code * 2 ^ 12 + i.off % 128 * 2 ^ 14
        + i.off / 128 * 2 ^ 21 + 2 ^ 26 : Nat) : Int))) ∧
  (∀ (sl : BitVec 2) (d a : BitVec 6) (s : State), usable s [] [d.toNat] [(d.toNat, intK)] = true → a.toNat ≠ 63 →
    infoOf s s.cur.1 s.cur.2 a.toNat = none → exec (.mapq sl d a) s = .next (endsWith s sl d.toNat 1 0))) ∧
  ((∀ e ∈ ([(0, fun s => s.me.pc), (2, fun s => s.time), (3, fun s => (s.core s.cur.1).tags), (4, fun s => s.me.amode),
      (5, fun s => s.me.rmode), (6, fun s => s.me.fxf), (7, fun s => s.me.seed),
      (8, fun s => BitVec.zeroExtend 64 (s.core s.cur.1).mapGen),
      (1, fun s => BitVec.ofNat 64 (whoOf s s.cur.1 s.cur.2)), (9, fun s => BitVec.ofNat 64 (licstOf s s.cur.1 s.cur.2)),
      (10, fun s => BitVec.ofNat 64 (brwst s.me))] : List (BitVec 6 × (State → Word))),
    ∀ (sl : BitVec 2) (d : BitVec 6) (s : State), usable s [] [d.toNat] [(d.toNat, intK)] = true → s.quiet = true →
      exec (.gets sl d e.1) s = .next (endsWith s sl d.toNat 1
        (if (info s d.toNat).kind = .signed then (e.2 s).toInt else (e.2 s).toNat))) ∧
  (∀ (sl : BitVec 2) (a : BitVec 6) (s : State), usable s [a.toNat] [] [(a.toNat, intK)] = true →
    let v := valW s a.toNat
    (s.quiet = true → exec (.puts sl a 3) s = .next (next32 s sl (s.modMyCore (fun c => { c with tags := (c.tags &&& ~~~v) ||| c.tagsNow })))) ∧
    exec (.puts sl a 4) s = .next (next32 s sl (s.modMe (fun x => { x with amode := v &&& 0x7F }))) ∧
    exec (.puts sl a 5) s = .next (next32 s sl (s.modMe (fun x => { x with rmode := v &&& 3 }))) ∧
    exec (.puts sl a 6) s = .next (next32 s sl (s.modMe (fun x => { x with fxf := v &&& 0x1F }))) ∧
    exec (.puts sl a 7) s = .next (next32 s sl (s.modMe (fun x =>
      { x with seed := if v &&& 0xFFFFFFFF = 0 then 1 else v &&& 0xFFFFFFFF }))))) ∧
  ((∀ (sl : BitVec 2) (k : BitVec 3) (a : BitVec 6) (s : State), usable s [a.toNat] [] [(a.toNat, intK)] = true →
    exec (.oxl sl k a) s = .next (next32 s sl (oxSet s k.toNat (valW s a.toNat)))) ∧
  (∀ (sl : BitVec 2) (d : BitVec 6) (k : BitVec 3) (s : State), usable s [] [d.toNat] [(d.toNat, intK)] = true →
    exec (.oxr sl d k) s = .next (endsWith s sl d.toNat 1
      (if (info s d.toNat).kind = .signed then (oxGet s.me k.toNat).toInt else (oxGet s.me k.toNat).toNat))) ∧
  (∀ (sl : BitVec 2) (k : BitVec 3) (s : State), s.running = true →
    exec (.oxclr sl 0 k) s = .next (next32 s sl (oxSet s k.toNat 0)) ∧
    (k = 0 → exec (.oxclr sl 1 k) s = .next (next32 s sl (s.modMe (fun x => { x with ox := 0 }))))) ∧
  (∀ (sl q : BitVec 2) (k : BitVec 3) (v : BitVec 17) (s : State), s.running = true →
    (v.getLsbD 16 = false → exec (.oxi sl 0 q k v) s =
      .next (next32 s sl (oxSet s k.toNat (setFld (oxGet s.me k.toNat) (16 * q.toNat) 16 v.toNat)))) ∧
    (q = 0 → exec (.oxi sl 1 q k v) s = .next (next32 s sl (oxSet s k.toNat (v.signExtend 64))))) ∧
  (∀ (s : State) (k j : Nat) (v : Word), k < 8 → j < 8 →
    oxGet (oxSet s k v).me j = if j = k then v else oxGet s.me j))

/-- R103, R104, R160, R105: BR, BRZ and BRNZ take the branch when the name is zero, non-zero or negative, or always; a float is zero when
its value is ±0 and negative when its value is below zero. Not taken, the next instruction follows. R160: LOOP puts c − 1 into its name
and branches while the stored value is not zero. R161, R162, R314: CALL and CALLR put the address of the next instruction into D and
transfer; CALLR, JMP and RET transfer to an even address and trap MISALIGN at an odd one; each transfer leaves its trace entry. R165,
R166: NOP only moves on; TRAP takes the SYSCALL trap with its number, BRK the BRK trap. -/
def Obligations.ControlTransfers : Prop :=
  (let zero : State → Nat → Bool := fun s c => if (info s c).kind.isFloat then (valF s c).isZero else decide (valI s c = 0)
  let neg : State → Nat → Bool := fun s c =>
    if (info s c).kind.isFloat then (match valF s c with | .nan _ => false | .inf n => n | .fin n m _ _ => n && decide (m ≠ 0))
    else decide (valI s c < 0)
  (∀ (sl : BitVec 2) (c : BitVec 6) (o : BitVec 15) (s : State), usable s [c.toNat] [] [(c.toNat, anyK)] = true →
    exec (.br sl c 0 o) s = .next (if zero s c.toNat then jumps sl s (targetOf s o.toInt) else next32 s sl s) ∧
    exec (.br sl c 1 o) s = .next (if zero s c.toNat then next32 s sl s else jumps sl s (targetOf s o.toInt)) ∧
    exec (.br sl c 2 o) s = .next (if neg s c.toNat then jumps sl s (targetOf s o.toInt) else next32 s sl s)) ∧
  (∀ (sl : BitVec 2) (o : BitVec 15) (s : State), s.running = true →
    exec (.br sl 63 3 o) s = .next (jumps sl s (targetOf s o.toInt))) ∧
  (∀ (c o : BitVec 5) (s : State), usable s [c.toNat] [] [(c.toNat, anyK)] = true →
    exec (.brz c o) s = .next (if zero s c.toNat then jumps 0 s (targetOf s o.toInt) else next16 s s) ∧
    exec (.brnz c o) s = .next (if zero s c.toNat then next16 s s else jumps 0 s (targetOf s o.toInt)))) ∧
  (∀ (sl : BitVec 2) (c : BitVec 6) (o : BitVec 15) (s : State) (y : Int), c ≠ 63 → usable s [c.toNat] [c.toNat] [(c.toNat, intK)] = true →
    fitInt (info s c.toNat).kind (info s c.toNat).width (info s c.toNat).mode (valI s c.toNat - 1) = some y →
    let t := putBits s c.toNat 1 (modPow y (info s c.toNat).width)
    exec (.loop sl c o) s = .next (if y = 0 then next32 s sl t else jumps sl t (targetOf s o.toInt))) ∧
  ((∀ (sl : BitVec 2) (d : BitVec 6) (o : BitVec 17) (s : State), usable s [] [d.toNat] [(d.toNat, intK)] = true →
    fitsIn s d.toNat (s.me.pc + 4).toNat = true →
    let t := targetOf s o.toInt
    exec (.call sl d o) s = .next (jumps sl (traceFlow (intOut s d.toNat 1 (s.me.pc + 4).toNat) 20 t) t)) ∧
  (∀ (sl : BitVec 2) (d a : BitVec 6) (s : State), usable s [a.toNat] [d.toNat] [(d.toNat, intK), (a.toNat, intK)] = true →
    let t := valW s a.toNat
    (t.toNat % 2 = 0 → fitsIn s d.toNat (s.me.pc + 4).toNat = true →
      exec (.callr sl d a) s = .next (jumps sl (traceFlow (intOut s d.toNat 1 (s.me.pc + 4).toNat) 20 t) t)) ∧
    (t.toNat % 2 = 1 → exec (.callr sl d a) s = .next (trap32 s .misalign t))) ∧
  (∀ e ∈ ([(.jmp, 22), (.ret, 21)] : List (Form1 × Nat)),
    ∀ (sl : BitVec 2) (a : BitVec 6) (s : State), usable s [a.toNat] [] [(a.toNat, intK)] = true →
      let t := valW s a.toNat
      (t.toNat % 2 = 0 → exec (e.1 sl a) s = .next (jumps sl (traceFlow s e.2 t) t)) ∧
      (t.toNat % 2 = 1 → exec (e.1 sl a) s = .next (trap32 s .misalign t)))) ∧
  (∀ (sl : BitVec 2) (b : BitVec 6) (s : State), s.running = true →
    exec (.nop sl) s = .next (next32 s sl s) ∧ exec .nopCompact s = .next (next16 s s) ∧
    exec (.trap sl b) s = .next (trap32 s .syscall (b.zeroExtend 64)) ∧ exec (.brk sl) s = .next (trap32 s .brk 0))

/-- R163, R164, R167, R175: YIELD saves the thread READY at the following instruction, frees the slot and requeues the thread; EXIT begins
the conveyance of the thread's estate; in the system slot both, CALLAT and SPAWN trap ILLEGAL. R46, R167, R168: CALLAT places a call in
the target's queue with a reply channel when D is below 16 once it has a place and no earlier caller waits for it, and blocks otherwise; an
odd address traps MISALIGN,
an unreachable target PROTECT. R35 to R39, R175, R176: SPAWN offers a launch record after a release at the scope of its token; D gets 0
when it is accepted, 1 when it is refused and 2 when a duty record waits for nothing. DEP sends one decrement to a launch record. The
WAITARG of a blocked CALLAT is the model's choice (log entry 75). -/
def Obligations.LeavingAndCalling : Prop :=
  ((∀ (sl : BitVec 2) (s t : State), s.running = true → s.userSlot = true → s.quiet = true →
    mapFrozen s s.cur.1 s.cur.2 s.me.map = false → saveHeld s s.cur.1 s.cur.2 = false → runBlocked s s.cur.1 = false → writeMapRecord s s.cur.1 s.cur.2 = .ok t →
    let saved (next : Word) :=
      let u := saveImage (leaveWaiter t s.cur.1 s.cur.2) s.cur.1 s.cur.2 1 0 next
      let v := imageWords u s.cur.1 (t.me.img + 0x2E0) (deferWords u.me.defer0 ++ deferWords u.me.defer1)
      writeEstate v s.cur.1 t.me.img v.me.estBase
    exec (.yield sl) s = .next (killGo (enterThread (vacate (saved (t.me.pc + 4)) s.cur.1 s.cur.2) s.cur.1 t.me.img) t.me.img) ∧
    exec .yieldCompact s = .next (killGo (enterThread (vacate (saved (t.me.pc + 2)) s.cur.1 s.cur.2) s.cur.1 t.me.img) t.me.img)) ∧
  (∀ (sl : BitVec 2) (a : BitVec 6) (s : State), s.running = true → s.userSlot = true → s.quiet = true → s.single = true →
    putsHeld s s.cur.1 s.cur.2 (placementScope s s.me.img) = false →
    ((s.thread s.me.img).task ≠ none → exec (.exit sl a) s = .next (beginExit s s.cur.1 s.cur.2 0)) ∧
    ((s.thread s.me.img).task = none → usable s [a.toNat] [] [(a.toNat, intK)] = true →
      exec (.exit sl a) s = .next (beginExit s s.cur.1 s.cur.2 (BitVec.ofNat 64 (windowValue a.toNat s))))) ∧
  (∀ (sl : BitVec 2) (d a b : BitVec 6) (w : BitVec 1) (s : State), s.running = true → s.cur.2 = 7 →
    let illegal : Instr → Prop := fun i => exec i s = .next (takeTrap s s.cur.1 7 i.is32 .illegal (BitVec.ofNat 64 (encode i)) s.me.pc)
    illegal (.yield sl) ∧ illegal .yieldCompact ∧ illegal (.exit sl a) ∧
    ((d.toNat < 16 ∨ d = 63) → usable s [a.toNat, b.toNat] [] [(a.toNat, intK), (b.toNat, intK)] = true → illegal (.callat sl d a b)) ∧
    (usable s [a.toNat] [d.toNat] [(d.toNat, intK), (a.toNat, intK)] = true → illegal (.spawn sl d a w)))) ∧
  (∀ (sl : BitVec 2) (d a b : BitVec 6) (s : State), (d.toNat < 16 ∨ d = 63) → s.userSlot = true →
    usable s [a.toNat, b.toNat] [] [(a.toNat, intK), (b.toNat, intK)] = true →
    let pc := valW s a.toNat
    let w := valW s b.toNat
    (pc.toNat % 2 = 1 → exec (.callat sl d a b) s = .next (trap32 s .misalign pc)) ∧
    ((w.getLsbD 63 = true → walkHeld s s.cur.1 (fld w 0 56) = false) →
    (pc.toNat % 2 = 0 → ∀ c v, callTarget s s.cur.1 s.cur.2 w = .error (c, v) →
      exec (.callat sl d a b) s = .next (trap32 s c v)) ∧
    (pc.toNat % 2 = 0 → ∀ t m, callTarget s s.cur.1 s.cur.2 w = .ok (t, m) → t.quiet = true → t.single = true →
      coresApart t s.cur.1 m = false → putsHeld t s.cur.1 s.cur.2 (enclosing s.cur.1 s.cur.2 m 8) = false →
      (callFree t m s.cur.1 s.cur.2 = true →
        exec (.callat sl d a b) s = .next (next32 s sl
          (placeCall t s.cur.1 s.cur.2 m pc (if d.toNat < 16 then some ⟨s.cur.1, d.toNat⟩ else none)))) ∧
      (callFree t m s.cur.1 s.cur.2 = false →
        exec (.callat sl d a b) s = .next (blocks s (latchOn t (noteCaller t m s.cur.1 s.cur.2) [a.toNat, b.toNat]) .callat w))))) ∧
  ((∀ (sl : BitVec 2) (d a : BitVec 6) (w : BitVec 1) (s t u : State) (pa attr v q : Nat), s.userSlot = true →
    walkHeld s s.cur.1 (valW s a.toNat).toNat = false → (w = 1 → estateFull (s.thread s.me.img) = false) →
    usable s [a.toNat] [d.toNat] [(d.toNat, intK), (a.toNat, intK)] = true →
    translate s s.cur.1 true .load (valW s a.toNat).toNat = .ok t pa attr → t.quiet = true → t.single = true →
    heldAtJoin t s.cur.1 (placeOf t pa) = false →
    let sc := recTokScope (ownRecord t s.cur.1 pa)
    putsHeld t s.cur.1 s.cur.2 sc = false →
    spawnAct (release t s.cur.1 sc) s.cur.1 s.cur.2 (valW s a.toNat) pa (w == 1) d.toNat = .ok u v 0 q →
    exec (.spawn sl d a w) s =
      .next (endsLate s sl d.toNat v (if v = 0 ∧ w = 1 then estateAuto u t.me.img (valW s a.toNat) 4 else u))) ∧
  (∀ (s : State) (n k pa name home place : Nat) (va : Word) (duty : Bool),
    let r := (readRecord s pa).1
    let queue := queueOfThread s (s.slot n k).img
    (recordRefused s va.toNat pa (ctxOf s n) queue = true →
      spawnAct s n k va pa duty name = .ok (refuseRecord s pa (ctxOf s n)) 1 0 0) ∧
    (recordRefused s va.toNat pa (ctxOf s n) queue = false → duty = true → recDeps r = 0 →
      spawnAct s n k va pa duty name = .ok s 2 0 0) ∧
    (recordRefused s va.toNat pa (ctxOf s n) queue = false → (duty = false ∨ recDeps r ≠ 0) → homeCore s pa = some home →
      earlierWaits s home n k = false → freePlace s home = some place → s.submissions = [] →
      spawnAct s n k va pa duty name = .ok (acceptTask s va (canonPa s pa) (ctxOf s n) home (s.slot n k).handle queue false 0 place
        [{ placed := [n], ran := [], far := false }]) 0 0 0)) ∧
  (∀ (sl : BitVec 2) (a : BitVec 6) (s t : State) (pa attr : Nat), usable s [a.toNat] [] [(a.toNat, intK)] = true →
    (valW s a.toNat).toNat % 128 = 0 → walkHeld s s.cur.1 (valW s a.toNat).toNat = false →
    translate s s.cur.1 (decide (s.cur.2 < 7)) .load (valW s a.toNat).toNat = .ok t pa attr → t.quiet = true → t.single = true →
    heldAtJoin t s.cur.1 (placeOf t pa) = false →
    let sc := recTokScope (ownRecord t s.cur.1 pa)
    putsHeld t s.cur.1 s.cur.2 sc = false →
    let u := release t s.cur.1 sc
    exec (.dep sl a) s = .next (next32 s sl (estateDrop (depAct u s.cur.1 (canonPa t pa)) t.me.img
      (fun e => e.kind = 4 && e.object = valW s a.toNat)))) ∧
  (∀ (sl : BitVec 2) (a : BitVec 6) (s : State), usable s [a.toNat] [] [(a.toNat, intK)] = true → (valW s a.toNat).toNat % 128 ≠ 0 →
    exec (.dep sl a) s = .next (trap32 s .misalign (valW s a.toNat))))

/-- R170 to R174: SEND gives a message of one to four rows a place in a channel that has one, and blocks otherwise; RECV and TRYRECV take
the oldest complete message into rows and put its information word into D; on an empty channel RECV blocks and TRYRECV puts 0; CHSTAT
counts. Whether a CORE that the sender's partition lacks is in the partition on another device is free (log entry 75). -/
def Obligations.Messages : Prop :=
  (∀ (sl : BitVec 2) (a b : BitVec 6) (s : State) (row m : Nat), usable s [b.toNat] [] [(a.toNat, intK), (b.toNat, intK)] = true →
    s.quiet = true → s.single = true →
    let n := s.cur.1
    let k := s.cur.2
    let desc := valW s b.toNat
    let count := fld desc 4 2 + 1
    let sc := if fld desc 6 1 = 1 then fld desc 8 3 else 0
    let rel := if fld desc 6 1 = 1 then some (fld desc 8 3) else none
    let u := release s n sc
    descBad s n desc = false → farRefused s n k desc = false → startsRow s n k a.toNat = some row → a.toNat ≠ 63 → row + count ≤ 32 →
    (∀ i, i < count → rowAbsent s n k (row + i) = false ∧ rowPoisoned s n k .priv (row + i) = false) →
    (fld desc 6 1 = 1 → putsHeld s n k sc = false) →
    let ch := fld desc 0 4
    let far := fld desc 22 9
    let waits : State → Prop := fun t => exec (.send sl a b) s = .next (blocks s (latchOn s t [b.toNat]) .send (BitVec.ofNat 64 ch))
    ((fld desc 31 1 = 0 ∨ far = s.devId) →
      siteOfLogical s (ctxPart s (ctxOf s n).toNat) (fld desc 12 10) = some m → coresApart s n m = false →
      (placeFree u m ch n k = true → exec (.send sl a b) s = .next (next32 s sl (sendLocal u n k m ch row count rel))) ∧
      (placeFree u m ch n k = false → waits (noteSender u m ch n k))) ∧
    (fld desc 31 1 = 1 → far ≠ s.devId →
      (pendingCall u n k = none → waits (askPlace u n k far (fld desc 12 10 + ch * 1024))) ∧
      (∀ r, pendingCall u n k = some r → r.reply = none → waits u) ∧
      (∀ r, pendingCall u n k = some r → r.reply ≠ none →
        exec (.send sl a b) s = .next (next32 s sl (sendRemote { u with remoteOps := u.remoteOps.filter (fun x => x.id ≠ r.id) } n k far
          (fld desc 12 10) ch row count (fld desc 7 1 + fld desc 6 1 * 2 + fld desc 8 3 * 4) r.id))))) ∧
  (∀ e ∈ ([.recv, .tryrecv] : List Form3), ∀ (sl : BitVec 2) (d a b : BitVec 6) (s : State) (row : Nat) (m : Msg) (rest : List Msg),
    b.toNat < 16 → usable s [] [d.toNat] [(d.toNat, intK), (a.toNat, anyK)] = true → s.quiet = true → a.toNat ≠ 63 →
    startsRow s s.cur.1 s.cur.2 a.toNat = some row → ((s.core s.cur.1).chan b.toNat).ready = m :: rest → row + m.flits.length ≤ 32 →
    (∀ i, i < m.flits.length → rowAbsent s s.cur.1 s.cur.2 (row + i) = false) →
    let t := flitRows s s.cur.1 s.cur.2 row m.flits
    let u := t.modCore s.cur.1 (fun x => x.setChan b.toNat { (s.core s.cur.1).chan b.toNat with ready := rest })
    let v := match m.rel with | some sc => acquire u s.cur.1 sc | none => u
    exec (e sl d a b) s = .next (endsLate s sl d.toNat m.info.toNat (wakeSender v s.cur.1 b.toNat))) ∧
  (∀ (sl : BitVec 2) (d a b : BitVec 6) (s : State) (row : Nat),
    b.toNat < 16 → usable s [] [d.toNat] [(d.toNat, intK), (a.toNat, anyK)] = true → s.quiet = true → a.toNat ≠ 63 →
    startsRow s s.cur.1 s.cur.2 a.toNat = some row → ((s.core s.cur.1).chan b.toNat).ready = [] →
    exec (.recv sl d a b) s = .next (blocks s (latchOn s s []) .recv (b.zeroExtend 64)) ∧
    exec (.tryrecv sl d a b) s = .next (endsLate s sl d.toNat 0 s)) ∧
  (∀ (sl : BitVec 2) (d b : BitVec 6) (s : State), b.toNat < 16 → usable s [] [d.toNat] [(d.toNat, intK)] = true →
    let c := (s.core s.cur.1).chan b.toNat
    exec (.chstat sl d b) s = .next (endsWith s sl d.toNat 1
      ((c.ready.length + c.travel.length * 8 + (if recvWaiter s s.cur.1 b.toNat then 64 else 0) : Nat) : Int)))

/-- R177: WAITANY goes on when some tag of its mask is set, WAITALL when all are, with the set tags of the mask in D, and blocks
otherwise; FFR finds the lowest set tag of the mask, 64 for none; TAGCLR clears tags. R178 to R182: BARI sets up a barrier object or notes
the duty to arrive; ARRIVE counts at the object's home and puts the phase before into D; WAITB goes on when the phase has passed the
awaited one, WAITCH when the chunk's bit is set, and both block otherwise. A misaligned object traps MISALIGN. That BARI of a duty
translates its object after that check is the model's choice (log entry 75). -/
def Obligations.TagsAndBarriers : Prop :=
  ((∀ (sl : BitVec 2) (d a : BitVec 6) (s : State), usable s [a.toNat] [d.toNat] [(d.toNat, intK), (a.toNat, intK)] = true →
    let m := valW s a.toNat
    let t := (s.core s.cur.1).tags
    exec (.waitany sl d a) s = .next (if t &&& m = 0 then blocks s (latchOn s s [a.toNat]) .waitany m else endsLate s sl d.toNat (t &&& m).toNat s) ∧
    exec (.waitall sl d a) s = .next (if t &&& m = m then endsLate s sl d.toNat (t &&& m).toNat s else blocks s (latchOn s s [a.toNat]) .waitall m) ∧
    exec (.ffr sl d a) s = .next (endsWith s sl d.toNat 1 (trailZeros 64 (t &&& m).toNat))) ∧
  (∀ (sl : BitVec 2) (a : BitVec 6) (s : State), usable s [a.toNat] [] [(a.toNat, intK)] = true → s.quiet = true →
    exec (.tagclr sl a) s = .next (next32 s sl (s.modMyCore (fun c => { c with tags := (c.tags &&& ~~~(valW s a.toNat)) ||| c.tagsNow }))))) ∧
  ((∀ (sl : BitVec 2) (a b : BitVec 6) (s t : State) (v q : Nat), usable s [a.toNat, b.toNat] [] [(a.toNat, intK), (b.toNat, intK)] = true →
    s.quiet = true → s.single = true → (valW s a.toNat).toNat % 32 = 0 → putsHeld s s.cur.1 s.cur.2 5 = false →
    objectOp (release s s.cur.1 5) s.cur.1 s.cur.2 .update (valW s a.toNat).toNat 32 opBari (fld (valW s b.toNat) 0 32) 0 0
      [a.toNat, b.toNat] = .ok t v 0 q →
    exec (.bari sl 0 a b) s = .next (next32 s sl t)) ∧
  (∀ (sl : BitVec 2) (a : BitVec 6) (s t : State) (v q : Nat), usable s [a.toNat] [] [(a.toNat, intK)] = true → s.quiet = true →
    ((valW s a.toNat).toNat % 32 ≠ 0 → exec (.bari sl 1 a 0) s = .next (trap32 s .misalign (valW s a.toNat))) ∧
    ((valW s a.toNat).toNat % 32 = 0 → estateFull (s.thread s.me.img) = false →
      barrierRead s s.cur.1 s.cur.2 .update (valW s a.toNat).toNat 0 [a.toNat] = .ok t v 0 q →
      exec (.bari sl 1 a 0) s = .next (next32 s sl (estateAuto t s.me.img (valW s a.toNat) 5)))) ∧
  (∀ (sl : BitVec 2) (d a b : BitVec 6) (s t : State) (v q : Nat), b.toNat < 8 →
    usable s [a.toNat] [d.toNat] [(d.toNat, intK), (a.toNat, intK)] = true →
    s.quiet = true → s.single = true → (valW s a.toNat).toNat % 32 = 0 → putsHeld s s.cur.1 s.cur.2 b.toNat = false →
    arriveAct (release s s.cur.1 b.toNat) s.cur.1 s.cur.2 (valW s a.toNat).toNat d.toNat [a.toNat] = .ok t v 0 q →
    exec (.arrive sl d a b) s = .next (endsLate s sl d.toNat v
      (estateDrop t s.me.img (fun e => e.kind = 5 && e.object = BitVec.ofNat 64 (valW s a.toNat).toNat)))) ∧
  (∀ (sl : BitVec 2) (d a b : BitVec 6) (s t : State) (v q : Nat),
    usable s [a.toNat, b.toNat] [d.toNat] [(d.toNat, intK), (a.toNat, intK), (b.toNat, intK)] = true →
    s.quiet = true → (valW s a.toNat).toNat % 32 = 0 →
    (barrierRead s s.cur.1 s.cur.2 .load (valW s a.toNat).toNat 0 [a.toNat, b.toNat] = .ok t v 0 q →
      let diff := (bitsAt v 64 32 + 2 ^ 32 - fld (valW s b.toNat) 0 32) % 2 ^ 32
      exec (.waitb sl d a b) s = .next (if 1 ≤ diff ∧ diff < 2 ^ 31
        then endsLate s sl d.toNat ((bitsAt v 64 32 + bitsAt v 96 2 * 2 ^ 32 : Nat) : Int) (acquire t s.cur.1 (fld (valW s b.toNat) 32 3))
        else blocks s (latchOn s (noteWait t q) [a.toNat, b.toNat]) .waitb (valW s a.toNat))) ∧
    (barrierRead s s.cur.1 s.cur.2 .load (valW s a.toNat).toNat 16 [a.toNat, b.toNat] = .ok t v 0 q →
      let c := fld (valW s b.toNat) 0 6
      exec (.waitch sl d a b) s = .next (if v.testBit c then endsLate s sl d.toNat ((v % 2 ^ 64 : Nat) : Int) (acquire t s.cur.1 5)
        else blocks s (latchOn s (noteWait t q) [a.toNat, b.toNat]) .waitch (BitVec.ofNat 64 c)))))

/-- R186 to R188, R191: a load reads D's container at its effective address, LDA acquires at its scope afterwards, and the value is fitted
into D or moved as an encoding; a misaligned address, a refused access and poisoned bytes trap. R186 to R188, R190: a store writes D's
value, extended to its container, at its effective address after STL's release; the access is the one that `threadStore` makes at that
address. R105, R186: the compact load and store use offset 0 and the policy of AMODE. -/
def Obligations.LoadsAndStores : Prop :=
  (let ends (s : State) (sl : BitVec 2) (d ea pol sc : Nat) (reads : List Nat) (o : Host.Outcome State Fault Refusal) : Prop :=
    let n := s.cur.1
    let k := s.cur.2
    let c := containerOf (opWidth s d)
    (ea % c ≠ 0 → o = .next (trap32 s .misalign (BitVec.ofNat 64 ea))) ∧
    (ea % c = 0 →
      (∀ x v, loadAt s n k ea c pol reads = .trap x v → o = .next (trap32 s x v)) ∧
      (∀ t v p pa, loadAt s n k ea c pol reads = .ok t v p pa →
        (p ≠ 0 → o = .next (takeTrap t n k true .poison (poisonVal pa) s.me.pc)) ∧
        (p = 0 →
          let u := acquire t n sc
          ((info u d).kind.isFloat = false → o = .next (endsLate s sl d (readPat (info u d).kind (8 * c) v) u)) ∧
          ((info u d).kind.isFloat = true → o = .next (next32 s sl (putLate u d v))))))
  (∀ (sl : BitVec 2) (d a : BitVec 6) (i : BitVec 11) (s : State),
    usable s [a.toNat] [d.toNat] [(d.toNat, anyK), (a.toNat, intK)] = true → s.quiet = true →
    let c := containerOf (opWidth s d.toNat)
    ends s sl d.toNat (modPow (valI s a.toNat + (i.extractLsb' 0 9).toInt * c) 64) (i.toNat / 512) 0 [a.toNat] (exec (.ld sl d a i) s) ∧
    ends s sl d.toNat (modPow (valI s a.toNat + (i.extractLsb' 0 8).toInt * c) 64) (apol s) (i.toNat / 256) [a.toNat] (exec (.lda sl d a i) s)) ∧
  (∀ (sl : BitVec 2) (d a b : BitVec 6) (s : State),
    usable s [a.toNat, b.toNat] [d.toNat] [(d.toNat, anyK), (a.toNat, intK), (b.toNat, intK)] = true → s.quiet = true →
    ends s sl d.toNat (modPow (valI s a.toNat + valI s b.toNat * containerOf (opWidth s d.toNat)) 64) (apol s) 0 [a.toNat, b.toNat]
      (exec (.ldx sl d a b) s))) ∧
  (let ends (s : State) (sl : BitVec 2) (d ea pol : Nat) (rel : Option Nat) (o : Host.Outcome State Fault Refusal) : Prop :=
    let n := s.cur.1
    let k := s.cur.2
    let c := containerOf (opWidth s d)
    let sc := rel.getD 0
    let v := if (info s d).kind.isFloat then opBits s d else modPow (valI s d) (8 * c)
    (ea % c ≠ 0 → o = .next (trap32 s .misalign (BitVec.ofNat 64 ea))) ∧
    (ea % c = 0 → (∀ x ∈ rel, putsHeld s n k x = false) →
      (∀ x w, storeAt (release s n sc) n k ea c v pol sc = .trap x w → o = .next (trap32 s x w)) ∧
      (∀ t w pa, storeAt (release s n sc) n k ea c v pol sc = .ok t w 0 pa → o = .next (next32 s sl t)))
  (∀ (sl : BitVec 2) (d a : BitVec 6) (i : BitVec 11) (s : State),
    usable s [d.toNat, a.toNat] [] [(d.toNat, anyK), (a.toNat, intK)] = true → s.quiet = true → s.single = true →
    let c := containerOf (opWidth s d.toNat)
    ends s sl d.toNat (modPow (valI s a.toNat + (i.extractLsb' 0 9).toInt * c) 64) (i.toNat / 512) none (exec (.st sl d a i) s) ∧
    ends s sl d.toNat (modPow (valI s a.toNat + (i.extractLsb' 0 8).toInt * c) 64) (apol s) (some (i.toNat / 256)) (exec (.stl sl d a i) s)) ∧
  (∀ (sl : BitVec 2) (d a b : BitVec 6) (s : State),
    usable s [d.toNat, a.toNat, b.toNat] [] [(d.toNat, anyK), (a.toNat, intK), (b.toNat, intK)] = true → s.quiet = true → s.single = true →
    ends s sl d.toNat (modPow (valI s a.toNat + valI s b.toNat * containerOf (opWidth s d.toNat)) 64) (apol s) none (exec (.stx sl d a b) s))) ∧
  ((∀ (d a : BitVec 5) (s t : State) (v pa : Nat),
    usable s [a.toNat] [d.toNat] [(d.toNat, anyK), (a.toNat, intK)] = true → s.quiet = true →
    let c := containerOf (opWidth s d.toNat)
    let ea := modPow (valI s a.toNat + 0 * c) 64
    ea % c = 0 → loadAt s s.cur.1 s.cur.2 ea c (apol s) [a.toNat] = .ok t v 0 pa → (info (acquire t s.cur.1 0) d.toNat).kind.isFloat = false →
    let x := readPat (info (acquire t s.cur.1 0) d.toNat).kind (8 * c) v
    fitsIn (acquire t s.cur.1 0) d.toNat x = true →
    exec (.ldCompact d a) s = .next (next16 s (lateOut (acquire t s.cur.1 0) d.toNat x))) ∧
  (∀ (d a : BitVec 5) (s t : State) (w pa : Nat),
    usable s [d.toNat, a.toNat] [] [(d.toNat, anyK), (a.toNat, intK)] = true → s.quiet = true → s.single = true →
    let c := containerOf (opWidth s d.toNat)
    let ea := modPow (valI s a.toNat + 0 * c) 64
    ea % c = 0 →
    storeAt (release s s.cur.1 0) s.cur.1 s.cur.2 ea c
      (if (info s d.toNat).kind.isFloat then opBits s d.toNat else modPow (valI s d.toNat) (8 * c)) (apol s) 0 = .ok t w 0 pa →
    exec (.stCompact d a) s = .next (next16 s t)))

/-- R189, R190: a core that stores within a line with a write-back policy reads back what it stored, unpoisoned; every other core stays
as it is but for what pool pressure puts into an inbox, and wholly, with storage, while the sets of the LLC have room; and when the line's sectors were held storage, the other caches, the other bytes
of the line and the other lines of the L1 stay. R80, R186:
a store of a thread to a scratchpad of its partition writes its bytes and no others; a load reads them back. -/
def Obligations.MemoryReadBack : Prop :=
  (∀ (s : State) (n a off size v pol : Nat) (ctx : BitVec 16), 0 < size → off + size ≤ 128 → pol = 0 ∨ pol = 2 →
    let t := cacheStore s n a off size v pol 0 ctx
    (cacheLoad t n a off size 0).2 = (v % 2 ^ (8 * size), 0) ∧
    (∀ m, m ≠ n → t.core m = { s.core m with inbox := (t.core m).inbox, inboxWait := (t.core m).inboxWait }) ∧
    ((∀ b, (ordinaryLines s b).length + 4 ≤ llcWays) → (∀ q, (s.tower q).reserve = []) →
      t.mem = s.mem ∧ t.memPoison = s.memPoison ∧ ∀ m, m ≠ n → t.core m = s.core m) ∧
    (∀ l, findLine (s.core n).l1 a = some l → spanSectors off size &&& l.valid.toNat = spanSectors off size →
      (∀ b, b ≠ a → findLine (t.core n).l1 b = findLine (s.core n).l1 b) ∧ t.clusters = s.clusters ∧ t.llc = s.llc ∧
      t.mem = s.mem ∧ t.memPoison = s.memPoison ∧
      ∃ m, findLine (t.core n).l1 a = some m ∧
        ∀ j, j < 128 → j < off ∨ off + size ≤ j → bitsAt m.data.toNat (8 * j) 8 = bitsAt l.data.toNat (8 * j) 8)) ∧
  (∀ (s t u : State) (n k va size v pol pa attr c off : Nat), translate s n (decide (k < 7)) .store va = .ok t pa attr →
    heldAtJoin t n (placeOf t pa) = false → placeOf t pa = .window c off → off + size ≤ 0x200000 → 0 < size →
    t.memOk = true → inCtrArea t c off size = false → (t.core c).offline = false → partOf t n = partOf t c → scoreWait t { core := n, slot := some k } c off size true = false →
    threadStore s n k va size v pol 0 = .ok u v 0 pa →
    (∀ a, a < spadAddr c off ∨ spadAddr c off + size ≤ a → memRead u.mem a = memRead t.mem a) ∧
    memReadLE u.mem (spadAddr c off) size = v % 2 ^ (8 * size) ∧ u.cores = t.cores ∧ u.llc = t.llc)

/-- R192: SPILL and FILL move row after row; the first row that faults ends the transfer with PARTIAL and the count of rows done, which
the eighth extension register keeps for the retry. R193, R194: PF only changes caches and never traps; FLUSH and INV act on the lines of a
range at a scope, INV's selector 8 on the instruction cache; FENCE releases, acquires or does both. -/
def Obligations.RowTransfersAndMaintenance : Prop :=
  ((∀ e ∈ ([(.spill, false), (.fill, true)] : List (Form3 × Bool)), ∀ (sl : BitVec 2) (d a b : BitVec 6) (s t : State) (row : Nat),
    0 < b.toNat → usable s [a.toNat] [] [(d.toNat, startsRows d.toNat b.toNat), (a.toNat, intK)] = true →
    s.quiet = true → (e.2 = false → s.single = true) → row = (info s d.toNat).off / 128 → (valW s a.toNat).toNat % 16 = 0 →
    wideGet s.me.ox 448 6 = 0 → (∀ i, i < b.toNat → rowAbsent s s.cur.1 s.cur.2 (row + i) = false) →
    moveRows (fun u v r => if e.2 then fillRowOp u s.cur.1 s.cur.2 v r [a.toNat] else spillRow u s.cur.1 s.cur.2 v r) s s.cur.1 s.cur.2
      (valW s a.toNat).toNat row 0 b.toNat = .done t →
    exec (e.1 sl d a b) s = .next (next32 s sl t)) ∧
  (∀ (one : State → Nat → Nat → Access) (s : State) (n k va row i m : Nat),
    moveRows one s n k va row i 0 = .done (setOx7 s n k 0) ∧
    (∀ t v p pa, one s (sectorAt va i) (row + i) = .ok t v p pa →
      moveRows one s n k va row i (m + 1) = moveRows one t n k va row (i + 1) m) ∧
    (∀ c v, one s (sectorAt va i) (row + i) = .trap c v →
      moveRows one s n k va row i (m + 1) = .trapIn (setOx7 s n k i) .partial_ (BitVec.ofNat 64 i)))) ∧
  ((∀ (sl : BitVec 2) (a b : BitVec 6) (s : State), b.toNat < 3 → usable s [a.toNat] [] [(a.toNat, intK)] = true →
    exec (.pf sl a b) s = .next (next32 s sl (prefetch s s.cur.1 s.cur.2 (valW s a.toNat).toNat b.toNat))) ∧
  (∀ (sl : BitVec 2) (d a b : BitVec 6) (s : State), usable s [a.toNat, b.toNat] [] [(a.toNat, intK), (b.toNat, intK)] = true →
    s.quiet = true → putsHeld s s.cur.1 s.cur.2 0 = false →
    let va := (valW s a.toNat).toNat
    let len := fld (valW s b.toNat) 0 32
    rangeHeld s s.cur.1 va len = false →
    let pages := rangePages s s.cur.1 s.cur.2 va len false
    (d.toNat < 8 → exec (.flush sl d a b) s = .next (next32 s sl (flushRange s s.cur.1 d.toNat pages))) ∧
    (d.toNat < 8 → exec (.inv sl d a b) s = .next (next32 s sl (invRange s s.cur.1 d.toNat pages))) ∧
    (d.toNat = 8 → exec (.inv sl d a b) s =
      .next (next32 s sl (invIcache s s.cur.1 (rangePages s s.cur.1 s.cur.2 va len true))))) ∧
  (∀ (sl : BitVec 2) (d : BitVec 6) (s : State), d.toNat < 8 → s.running = true → s.quiet = true → putsHeld s s.cur.1 s.cur.2 d.toNat = false →
    putsHeld s s.cur.1 s.cur.2 0 = false →
    exec (.fence sl d 0) s = .next (next32 s sl (acquire (release s s.cur.1 d.toNat) s.cur.1 d.toNat)) ∧
    exec (.fence sl d 1) s = .next (next32 s sl (release s s.cur.1 d.toNat)) ∧
    exec (.fence sl d 2) s = .next (next32 s sl (acquire s s.cur.1 d.toNat))))

/-- R195 to R197: an atomic answers the old value of memory in D and leaves the new value of its function in memory; STC stores and
arrives once. A misaligned place traps MISALIGN. -/
def Obligations.Atomics : Prop :=
  (∀ e ∈ ([(.aadd, [], fun _ w p _ m => (m + p) % 2 ^ w), (.aand, [], fun _ _ p _ m => m &&& p), (.aor, [], fun _ _ p _ m => m ||| p),
      (.axor, [], fun _ _ p _ m => m ^^^ p), (.aswp, [], fun _ _ p _ _ => p),
      (.acas, [()], fun _ _ p o m => if m = o then p else m)] :
      List (Form3 × List Unit × (Kind → Nat → Nat → Nat → Nat → Nat))),
    ∀ (sl : BitVec 2) (d a b : BitVec 6) (s t : State) (m pa : Nat),
      let reads := e.2.1.map (fun _ => d.toNat) ++ [a.toNat, b.toNat]
      usable s reads [d.toNat] [(d.toNat, atomD false), (a.toNat, intK), (b.toNat, intK)] = true → s.quiet = true → s.single = true →
      let c := containerOf (opWidth s d.toNat)
      ((valW s a.toNat).toNat % c ≠ 0 → exec (e.1 sl d a b) s = .next (trap32 s .misalign (BitVec.ofNat 64 (valW s a.toNat).toNat))) ∧
      ((valW s a.toNat).toNat % c = 0 →
        threadAtomic s s.cur.1 s.cur.2 (valW s a.toNat).toNat c (ascope s)
          (e.2.2 (info s d.toNat).kind (8 * c) (modPow (valI s b.toNat) (8 * c)) (opBits s d.toNat)) = .ok t m 0 pa →
        exec (e.1 sl d a b) s = .next (next32 s sl (putLate t d.toNat m)))) ∧
  (∀ e ∈ ([(.amin, fun x y => decide (x < y)), (.amax, fun x y => decide (y < x))] : List (Form3 × (Int → Int → Bool))),
    ∀ (sl : BitVec 2) (d a b : BitVec 6) (s t : State) (m pa : Nat),
      usable s [a.toNat, b.toNat] [d.toNat] [(d.toNat, atomD false), (a.toNat, intK), (b.toNat, intK)] = true →
      s.quiet = true → s.single = true →
      let k := (info s d.toNat).kind
      let c := containerOf (opWidth s d.toNat)
      let p := modPow (max (rangeLo k (8 * c)) (min (rangeHi k (8 * c)) (valI s b.toNat))) (8 * c)
      (valW s a.toNat).toNat % c = 0 →
      threadAtomic s s.cur.1 s.cur.2 (valW s a.toNat).toNat c (ascope s)
        (fun m => if e.2 (readPat k (8 * c) p) (readPat k (8 * c) m) then p else m) = .ok t m 0 pa →
      exec (e.1 sl d a b) s = .next (next32 s sl (putLate t d.toNat m))) ∧
  (∀ (sl : BitVec 2) (d a b : BitVec 6) (s t : State) (m pa : Nat),
    usable s [a.toNat, b.toNat] [d.toNat] [(d.toNat, atomD true), (a.toNat, intK), (b.toNat, floatK)] = true →
    s.quiet = true → s.single = true →
    let k := (info s d.toNat).kind
    let c := containerOf (opWidth s d.toNat)
    (valW s a.toNat).toNat % c = 0 →
    threadAtomic s s.cur.1 s.cur.2 (valW s a.toNat).toNat c (ascope s)
      (fun m => (fitF k .rne (addV false (decodeF k m) (valF s b.toNat)).1).1) = .ok t m 0 pa →
    exec (.faadd sl d a b) s = .next (next32 s sl (putLate t d.toNat m))) ∧
  (∀ (sl : BitVec 2) (d a b : BitVec 6) (s t : State) (v pa : Nat),
    usable s [d.toNat, a.toNat, b.toNat] [] [(d.toNat, anyK), (a.toNat, intK), (b.toNat, intK)] = true → s.quiet = true → s.single = true →
    let c := containerOf (opWidth s d.toNat)
    (valW s a.toNat).toNat % c = 0 → (valW s b.toNat).toNat % 32 = 0 →
    stcAct s s.cur.1 s.cur.2 (valW s a.toNat).toNat c
      (if (info s d.toNat).kind.isFloat then opBits s d.toNat else modPow (valI s d.toNat) (8 * c)) (valW s b.toNat).toNat = .ok t v 0 pa →
    exec (.stc sl d a b) s = .next (next32 s sl t))

/-- R201, R202: LOCK and UNLOCK perform one indivisible operation on the lock word at its home, with the thread's handle; a free word is
taken and noted in the estate, and taking it acquires at AMODE's scope, or at SYSTEM when its last owner died; a full estate traps
PROTECT; freeing the word drops the estate's entry. R204: PRMK sets up a promise of the thread and notes it in the estate; KEEP fulfils it
with a value after a release; AWAITP goes on when the promise is no longer unfulfilled and blocks otherwise; PRMQ reads its word. -/
def Obligations.LocksAndPromises : Prop :=
  ((∀ (sl : BitVec 2) (d a : BitVec 6) (s t : State) (r pa : Nat), usable s [a.toNat] [d.toNat] [(d.toNat, intK), (a.toNat, intK)] = true →
    s.quiet = true → s.single = true → (valW s a.toNat).toNat % 8 = 0 →
    objectOp s s.cur.1 s.cur.2 .update (valW s a.toNat).toNat 8 opLock s.me.handle.toNat
      (if estateFull (s.thread s.me.img) then 1 else 0) (guardOf (info s d.toNat)) [a.toNat] = .ok t r 0 pa →
    let noted := if r = 1 ∨ r = 2 then estateAuto t s.me.img (BitVec.ofNat 64 (valW s a.toNat).toNat) 1 else t
    let after := if r = 1 then acquire noted s.cur.1 (ascope noted) else if r = 2 ∨ r = 4 then acquire noted s.cur.1 6 else noted
    (r ≠ 5 → exec (.lock sl d a) s = .next (endsLate s sl d.toNat r after)) ∧
    (r = 5 → exec (.lock sl d a) s = .next (trap32 s .protect (BitVec.ofNat 64 (valW s a.toNat).toNat)))) ∧
  (∀ (sl : BitVec 2) (d a : BitVec 6) (s t : State) (r pa : Nat), usable s [a.toNat] [d.toNat] [(d.toNat, intK), (a.toNat, intK)] = true →
    s.quiet = true → s.single = true → (valW s a.toNat).toNat % 8 = 0 → putsHeld s s.cur.1 s.cur.2 (ascope s) = false →
    objectOp (release s s.cur.1 (ascope s)) s.cur.1 s.cur.2 .update (valW s a.toNat).toNat 8 opUnlock s.me.handle.toNat 0
      (guardOf (info s d.toNat)) [a.toNat] = .ok t r 0 pa →
    exec (.unlock sl d a) s = .next (endsLate s sl d.toNat r
      (if r = 0 then estateDrop t s.me.img (fun e => e.kind = 1 && e.object = BitVec.ofNat 64 (valW s a.toNat).toNat) else t))) ∧
  (∀ e ∈ [Instr.lock, Instr.unlock], ∀ (sl : BitVec 2) (d a : BitVec 6) (s : State),
    usable s [a.toNat] [d.toNat] [(d.toNat, intK), (a.toNat, intK)] = true → s.quiet = true → (valW s a.toNat).toNat % 8 ≠ 0 →
    exec (e sl d a) s = .next (trap32 s .misalign (BitVec.ofNat 64 (valW s a.toNat).toNat)))) ∧
  ((∀ (sl : BitVec 2) (a : BitVec 6) (s t : State) (r pa : Nat), usable s [a.toNat] [] [(a.toNat, intK)] = true → s.quiet = true → s.single = true →
    let va := (valW s a.toNat).toNat
    (estateFull (s.thread s.me.img) = true → exec (.prmk sl a) s = .next (trap32 s .protect (BitVec.ofNat 64 va))) ∧
    (estateFull (s.thread s.me.img) = false → va % 16 ≠ 0 → exec (.prmk sl a) s = .next (trap32 s .misalign (BitVec.ofNat 64 va))) ∧
    (estateFull (s.thread s.me.img) = false → va % 16 = 0 →
      objectOp s s.cur.1 s.cur.2 .update va 16 opPrmk s.me.handle.toNat 0 0 [a.toNat] = .ok t r 0 pa →
      exec (.prmk sl a) s = .next (next32 s sl (estateAuto t s.me.img (BitVec.ofNat 64 va) 2)))) ∧
  (∀ (sl : BitVec 2) (d a b : BitVec 6) (s t : State) (r pa : Nat),
    usable s [a.toNat, b.toNat] [d.toNat] [(d.toNat, intK), (a.toNat, intK), (b.toNat, anyK)] = true → s.quiet = true → s.single = true →
    let va := (valW s a.toNat).toNat
    va % 16 = 0 → putsHeld s s.cur.1 s.cur.2 5 = false →
    objectOp (release s s.cur.1 5) s.cur.1 s.cur.2 .update va 16 opKeep s.me.handle.toNat (windowValue b.toNat s)
      (guardOf (info s d.toNat)) [a.toNat, b.toNat] = .ok t r 0 pa →
    exec (.keep sl d a b) s = .next (endsLate s sl d.toNat r
      (if r = 0 then estateDrop t s.me.img (fun e => e.kind = 2 && e.object = BitVec.ofNat 64 va) else t))) ∧
  (∀ (sl : BitVec 2) (d a : BitVec 6) (s t : State) (w pa : Nat), usable s [a.toNat] [d.toNat] [(d.toNat, intK), (a.toNat, intK)] = true →
    s.quiet = true → (valW s a.toNat).toNat % 16 = 0 →
    promiseWord s s.cur.1 s.cur.2 (valW s a.toNat).toNat [a.toNat] = .ok t w 0 pa →
    exec (.awaitp sl d a) s = .next (if w % 4 = 0 then blocks s (latchOn s (noteWait t pa) [a.toNat]) .awaitp (BitVec.ofNat 64 (valW s a.toNat).toNat)
      else endsLate s sl d.toNat w (acquire t s.cur.1 (if w.testBit 2 then 6 else 5))) ∧
    exec (.prmq sl d a) s = .next (endsLate s sl d.toNat w t)))

/-- R181, R202, R204: what an operation does to a word at its home: a lock word is taken when its OWNER is 0 (status 1, or 2 when its last
owner died), returned to its owner (3, or 4 when it was bequeathed, clearing the mark), or left (0); UNLOCK by the owner clears it; KEEP
fulfils an unfulfilled promise of its keeper. R198, R199, R203: HOLD adds an entry with a given or the default heir, WILL names a new
heir, RELH removes the most recent entry on an object, ESTQ and the sequence number are read back, and a malformed heir word traps
PROTECT. -/
def Obligations.ObjectsAndEstate : Prop :=
  ((∀ (h w : Nat) (full : Bool), w < 2 ^ 64 →
    (w % 2 ^ 32 = 0 → full = false → lockStep h full w = (h, if w.testBit 33 then 2 else 1)) ∧
    (w % 2 ^ 32 = 0 → full = true → lockStep h full w = (w, 5)) ∧
    (w % 2 ^ 32 ≠ 0 → w % 2 ^ 32 = h → lockStep h full w = if w.testBit 32 then (h, 4) else (w, 3)) ∧
    (w % 2 ^ 32 ≠ 0 → w % 2 ^ 32 ≠ h → lockStep h full w = (w, 0)) ∧
    (unlockStep h w = if w % 2 ^ 32 = h then (0, 0) else (w, 1))) ∧
  (∀ h v w : Nat, w < 2 ^ 128 → v < 2 ^ 64 →
    (w / 2 ^ 32 % 2 ^ 32 ≠ h → keepStep h v w = (w, 1)) ∧
    (w / 2 ^ 32 % 2 ^ 32 = h → w % 4 ≠ 0 → keepStep h v w = (w, 2)) ∧
    (w / 2 ^ 32 % 2 ^ 32 = h → w % 4 = 0 → keepStep h v w = (w % 2 ^ 64 + 1 + v * 2 ^ 64, 0))) ∧
  (∀ (s : State) (n k va size op a b guard v pa : Nat) (need : Need) (reads : List Nat) (u : State),
    objectAt s n k need va size = .ok u v 0 pa →
    objectOp s n k need va size op a b guard reads = .ok (homeOp u pa op size a b 0 (some (ctxOf u n))).1 (homeOp u pa op size a b 0 (some (ctxOf u n))).2 0 pa)) ∧
  ((∀ (sl : BitVec 2) (d a b : BitVec 6) (s : State),
    usable s (if b.toNat = 63 then [a.toNat] else [a.toNat, b.toNat]) [d.toNat] [(d.toNat, intK), (a.toNat, intK), (b.toNat, intK)] = true →
    s.quiet = true →
    let img := s.me.img
    let w := if b.toNat = 63 then (s.thread img).defHeir else valW s b.toNat
    (b.toNat ≠ 63 → heirOk w = false → exec (.hold sl d a b) s = .next (trap32 s .protect w)) ∧
    ((b.toNat = 63 ∨ heirOk w = true) → estateFull (s.thread img) = true → exec (.hold sl d a b) s = .next (trap32 s .protect (valW s a.toNat))) ∧
    ((b.toNat = 63 ∨ heirOk w = true) → estateFull (s.thread img) = false →
      fitsIn (estateAdd s img (valW s a.toNat) 7 w) d.toNat ((s.thread img).estSeq.toNat : Int) = true →
      exec (.hold sl d a b) s = .next (next32 s sl (intOut (estateAdd s img (valW s a.toNat) 7 w) d.toNat 1 ((s.thread img).estSeq.toNat : Int))))) ∧
  (∀ (sl : BitVec 2) (d a b : BitVec 6) (s : State),
    usable s [a.toNat, b.toNat] [d.toNat] [(d.toNat, intK), (a.toNat, intK), (b.toNat, intK)] = true → s.quiet = true →
    let img := s.me.img
    let o := valW s a.toNat
    let w := valW s b.toNat
    let named : EstEntry → Bool := fun e => o = 0 || e.object = o
    let t := s.modThread img (fun t => { t with estate := t.estate.map (fun e => if named e then setHeir w e else e) })
    (heirOk w = false → exec (.will sl d a b) s = .next (trap32 s .protect w)) ∧
    (heirOk w = true → fitsIn t d.toNat (((s.thread img).estate.filter named).length : Nat) = true →
      exec (.will sl d a b) s = .next (next32 s sl (intOut t d.toNat 1 (((s.thread img).estate.filter named).length : Nat))))) ∧
  (∀ (sl : BitVec 2) (d a : BitVec 6) (s : State), usable s [a.toNat] [d.toNat] [(d.toNat, intK), (a.toNat, intK)] = true → s.quiet = true →
    let img := s.me.img
    let on : EstEntry → Bool := fun e => (e.kind = 1 || e.kind = 4 || e.kind = 5 || e.kind = 7) && e.object = valW s a.toNat
    ((s.thread img).estate.find? on = none → exec (.relh sl d a) s = .next (endsWith s sl d.toNat 1 0)) ∧
    (∀ e, (s.thread img).estate.find? on = some e → fitsIn (estateDrop s img on) d.toNat e.kind = true →
      exec (.relh sl d a) s = .next (next32 s sl (intOut (estateDrop s img on) d.toNat 1 e.kind)))) ∧
  (∀ (sl : BitVec 2) (d a : BitVec 6) (s : State), usable s [a.toNat] [d.toNat] [(d.toNat, intK), (a.toNat, intK)] = true → s.quiet = true →
    let t := s.thread s.me.img
    let e := t.estate.find? (fun e => e.object = valW s a.toNat)
    exec (.estq sl d a 0) s = .next (endsWith s sl d.toNat 1 (match e with | some x => (fld (entryWord x) 0 35 : Int) | none => 0)) ∧
    exec (.estq sl d a 1) s = .next (endsWith s sl d.toNat 1 t.estate.length) ∧
    exec (.estq sl d a 2) s = .next (endsWith s sl d.toNat 1 (match e with | some x => (x.heir.toNat : Int) | none => 0))) ∧
  (∀ (sl : BitVec 2) (d a : BitVec 6) (s t : State) (r pa : Nat), usable s [a.toNat] [d.toNat] [(d.toNat, intK), (a.toNat, intK)] = true →
    s.quiet = true → s.single = true →
    (conveyWaits s = none → entryOn (s.thread s.me.img) (valW s a.toNat) = none → exec (.convey sl d a) s = .next (endsLate s sl d.toNat 0 s)) ∧
    (∀ q, conveyWaits s = some q → (s.thread s.me.img).estate.find? (fun e => e.seq = q) = none →
      exec (.convey sl d a) s = .next (endsLate s sl d.toNat 6 s)) ∧
    (∀ e, conveyed s a.toNat = some e → engineBusy s s.me.img e = false →
      (conveyFits s d.toNat e = false → conveyedFar s s.cur.1 e = true → exec (.convey sl d a) s = .next (trap32 s .width (widthVal e.kind d.toNat))) ∧
      ((conveyFits s d.toNat e = true ∨ conveyedFar s s.cur.1 e = false) → conveyAct s s.cur.1 s.cur.2 s.me.img e = .ok t r 0 pa →
        exec (.convey sl d a) s = .next (endsLate s sl d.toNat r t)))))

/-- R217, R219, R220: CPYB, REDUCE and FILLS check their shape records and join the stream queue with the ranges they read and write; a
reserved control bit traps ILLEGAL, a misaligned record MISALIGN, a full queue stalls the slot. R217, R224: GATHER and SCATTER take three
records, the index record beside the tensor whose rows it selects. R217, R222, R227: CHAIN reads its descriptor in the core's scratchpad,
checks its records and joins the stream queue with its operations, waiting for a chunk when the seventh extension register names one. -/
def Obligations.StreamCommands : Prop :=
  ((∀ (sl : BitVec 2) (d a b : BitVec 6) (s : State),
    usable s (ctlReads d.toNat [a.toNat, b.toNat]) [] [(d.toNat, intK), (a.toNat, intK), (b.toNat, intK)] = true → s.quiet = true →
    let cw := valW s d.toNat
    let x := (valW s a.toNat).toNat
    let y := (valW s b.toNat).toNat
    let src := shapeAt s x
    let dst := shapeAt s y
    let rd := [(x, x + 32), (y, y + 32)] ++ tensorRange (formatAt s x) src
    let wr := tensorRange (formatAt s y) dst
    let tag := if fld cw 6 1 = 1 then some (fld cw 0 6) else none
    (ctlBad cw false = true → exec (.cpyb sl d a b) s = .next (trap32 s .illegal (BitVec.ofNat 64 (encode (.cpyb sl d a b))))) ∧
    (ctlBad cw false = false → x % 32 ≠ 0 → exec (.cpyb sl d a b) s = .next (trap32 s .misalign (BitVec.ofNat 64 x))) ∧
    (ctlBad cw false = false → recordsGood s [x, y] = true → sourceGood s x = true → destGood s y = true →
      (formatAt s x).raw = (formatAt s y).raw → src.dims = dst.dims →
      (streamRoom s = true → exec (.cpyb sl d a b) s = .next (next32 s sl (streamIn s (.cpyb src dst) rd wr tag))) ∧
      (streamRoom s = false → exec (.cpyb sl d a b) s = .next (latchOn s s (ctlReads d.toNat [a.toNat, b.toNat])))) ∧
    (ctlBad cw true = false → recordsGood s [x, y] = true → sourceGood s x = true → (formatAt s x).raw = false → destGood s y = true →
      (formatAt s y).raw = false → (formatAt s y).scale = false → dst.dim 0 = 1 → dst.dim 1 = src.dim 1 → dst.dim 2 = src.dim 2 →
      dst.dim 3 = src.dim 3 → streamRoom s = true →
      exec (.reduce sl d a b) s = .next (next32 s sl (streamIn s (.reduce (fld cw 8 2) src dst) rd wr tag)))) ∧
  (∀ (sl : BitVec 2) (d a b : BitVec 6) (s : State),
    usable s (ctlReads d.toNat [a.toNat, b.toNat]) [] [(d.toNat, intK), (a.toNat, intK), (b.toNat, anyK)] = true → s.quiet = true →
    let cw := valW s d.toNat
    let x := (valW s a.toNat).toNat
    let k := (info s b.toNat).kind
    ctlBad cw false = false → recordsGood s [x] = true → destGood s x = true → (k.isFloat = true → (formatAt s x).raw = false) →
    streamRoom s = true →
    exec (.fills sl d a b) s = .next (next32 s sl (streamIn s
      (.fills (shapeAt s x) k (if k.isFloat then (opBits s b.toNat : Int) else valI s b.toNat)) [(x, x + 32)]
      (tensorRange (formatAt s x) (shapeAt s x)) (if fld cw 6 1 = 1 then some (fld cw 0 6) else none))))) ∧
  (∀ e ∈ ([(.gather, false), (.scatter, true)] : List (Form3 × Bool)), ∀ (sl : BitVec 2) (d a b : BitVec 6) (s : State),
    usable s (ctlReads d.toNat [a.toNat, b.toNat]) [] [(d.toNat, intK), (a.toNat, intK), (b.toNat, intK)] = true → s.quiet = true →
    let cw := valW s d.toNat
    let x := fld (valW s a.toNat) 0 32
    let y := fld (valW s a.toNat) 32 32
    let z := (valW s b.toNat).toNat
    let dst := shapeAt s x
    let src := shapeAt s y
    let idx := shapeAt s z
    let row := if e.2 then src else dst
    ctlBad cw false = false → recordsGood s [x, y, z] = true → destGood s x = true → ((formatAt s x).scale && (formatAt s x).orient = 1) = false →
    (e.2 = true → ((formatAt s x).scale && min (src.dim 0) (dst.dim 0) % 16 ≠ 0) = false) →
    sourceGood s y = true → (formatAt s y).raw = (formatAt s x).raw → sourceGood s z = true →
    indexFmt (formatAt s z) = true → idx.dim 0 = 1 → idx.dim 1 = row.dim 1 → idx.dim 2 = row.dim 2 → idx.dim 3 = row.dim 3 →
    streamRoom s = true →
    exec (e.1 sl d a b) s = .next (next32 s sl (streamIn s (if e.2 then .scatter dst src idx else .gather dst src idx)
      ([(x, x + 32), (y, y + 32), (z, z + 32)] ++ tensorRange (formatAt s y) src ++ tensorRange (formatAt s z) idx)
      (tensorRange (formatAt s x) dst) (if fld cw 6 1 = 1 then some (fld cw 0 6) else none)))) ∧
  (∀ (sl : BitVec 2) (d a b : BitVec 6) (s t : State) (ch : Option (Nat × Nat)) (ops : List Nat),
    usable s (ctlReads d.toNat [a.toNat, b.toNat]) [] [(d.toNat, intK), (a.toNat, intK), (b.toNat, f32K)] = true → s.quiet = true →
    let n := s.cur.1
    let cw := valW s d.toNat
    let off := (valW s a.toNat).toNat
    let v := memReadLE s.mem (spadAddr n off) 64
    let dst := bitsAt v 0 32
    let srcs := chainSrcs v
    let offs := dst :: srcs.filterMap id
    ctlBad cw false = false → off % 64 = 0 → off < 0x200000 → recordBusy s n off 64 = false → chainBad v = false →
    chainOps (chainWords v) = some ops → recordsGood s offs = true → destGood s dst = true → (formatAt s dst).raw = false →
    (∀ o ∈ srcs.filterMap id, sourceGood s o = true ∧ (formatAt s o).raw = false ∧ (shapeAt s o).dims = (shapeAt s dst).dims) →
    chunkHeld s = false → chunkWait s = .ok (t, ch) → streamRoom t = true →
    let shapes := srcs.map (fun o => o.map (fun o => (readShape t n o).1))
    let c := newCmd t (.chain (shapeAt s dst) shapes (ops.map (BitVec.ofNat 32)) (BitVec.ofNat 32 (opBits t b.toNat)))
      ((off, off + 64) :: offs.map (fun o => (o, o + 32)) ++ (shapes.filterMap id).flatMap (fun h => tensorRange (fmtNext t h) h))
      (tensorRange (formatAt s dst) (shapeAt s dst)) (if fld cw 6 1 = 1 then some (fld cw 0 6) else none)
    exec (.chain sl d a b) s = .next (next32 s sl (stepSeed (addCmd t { c with chunk := ch }))))

/-- R93, R226: SETF joins the stream queue and is seen at once by later issues; GETF reads the format register as of the last SETF issued;
SRAND loads SEED; a malformed format traps ILLEGAL. R228, R229, R233: PUSH releases at the queue's scope and offers the 64 bytes of four
rows: D gets 0 when the command is accepted and 1 when the queue is full; XFORM does the same for a transform with its barrier object;
QSTAT counts free and used places. -/
def Obligations.FormatsAndEngineQueues : Prop :=
  ((∀ (sl : BitVec 2) (a b : BitVec 6) (s : State), b.toNat < 16 → usable s [a.toNat] [] [(a.toNat, intK)] = true → s.quiet = true →
    let v := valW s a.toNat
    let lo := 0x20000 * b.toNat
    (fmtGood true v.toNat = false → exec (.setf sl a b) s = .next (trap32 s .illegal (BitVec.ofNat 64 (encode (.setf sl a b))))) ∧
    (fmtGood true v.toNat = true → boardCount s s.cur.1 < 32 → exec (.setf sl a b) s =
      .next (next32 s sl ((addCmd s (newCmd s (.setf b.toNat v) [] [(lo, lo + 0x20000)] none)).modMyCore
        (fun c => { c with bfmtNext := wideSet c.bfmtNext (64 * b.toNat) 64 v.toNat }))))) ∧
  (∀ (sl : BitVec 2) (d b : BitVec 6) (s : State), b.toNat < 16 → usable s [] [d.toNat] [(d.toNat, intK)] = true →
    exec (.getf sl d b) s = .next (endsWith s sl d.toNat 1 (((s.core s.cur.1).bfmtNext.toNat / 2 ^ (64 * b.toNat) % 2 ^ 64 : Nat) : Int))) ∧
  (∀ (sl : BitVec 2) (a : BitVec 6) (s : State), usable s [a.toNat] [] [(a.toNat, intK)] = true →
    let v := valW s a.toNat &&& 0xFFFFFFFF
    exec (.srand sl a) s = .next (next32 s sl (s.modMe (fun x => { x with seed := if v = 0 then 1 else v }))))) ∧
  ((∀ (sl : BitVec 2) (d q b : BitVec 6) (s : State) (row : Nat), q.toNat < 3 → usable s [] [d.toNat] [(d.toNat, intK), (b.toNat, anyK)] = true →
    s.quiet = true → b.toNat ≠ 63 → startsRow s s.cur.1 s.cur.2 b.toNat = some row → row + 4 ≤ 32 →
    (∀ i, i < 4 → rowAbsent s s.cur.1 s.cur.2 (row + i) = false ∧ rowPoisoned s s.cur.1 s.cur.2 .priv (row + i) = false) →
    (q.toNat = 1 → setfWaits s s.cur.1 s.cur.2 = false) → putsHeld s s.cur.1 s.cur.2 (queueScope q.toNat) = false →
    let cmd := BitVec.ofNat 512 (leValue ((rowFlits s s.cur.1 s.cur.2 row 4).flatMap (fun f => leBytes 16 f.toNat)))
    let t := release s s.cur.1 (queueScope q.toNat)
    let u := acceptPush t q.toNat cmd
    (queueFull t s.cur.1 t.me.img q.toNat = true → exec (.push sl d q b) s = .next (endsLate s sl d.toNat 1 t)) ∧
    (queueFull t s.cur.1 t.me.img q.toNat = false → fitsIn t d.toNat 0 = true → (q.toNat = 0 → boardWaits t (copyCmd t cmd) = false) → t.single = true →
      exec (.push sl d q b) s = .next (endsLate s sl d.toNat 0 u))) ∧
  (∀ (sl : BitVec 2) (d a b : BitVec 6) (s t : State) (pa : Nat), b.toNat < 5 →
    usable s [a.toNat] [d.toNat] [(d.toNat, intK), (a.toNat, intK)] = true → s.quiet = true →
    let va := (valW s a.toNat).toNat
    let bar := BitVec.ofNat 64 (wideGet s.me.ox 0 64)
    let u := release t s.cur.1 3
    let ends : Int → State → State := fun x v =>
      if fitsIn v d.toNat x then next32 s sl (intOut v d.toNat 1 x) else trap32 s .width (widthVal x d.toNat)
    (va % 64 ≠ 0 → exec (.xform sl d a b) s = .next (trap32 s .misalign (BitVec.ofNat 64 va))) ∧
    (va % 64 = 0 → bar.toNat % 32 = 0 → walkHeld s s.cur.1 bar.toNat = false → objectPa s s.cur.1 s.cur.2 .load bar = .ok (t, pa) →
      putsHeld t s.cur.1 s.cur.2 3 = false →
      (queueFull u s.cur.1 u.me.img 3 = true → exec (.xform sl d a b) s = .next (ends 1 u)) ∧
      (queueFull u s.cur.1 u.me.img 3 = false → fitsIn u d.toNat 0 = true → boardWaits u (xformCmd u b.toNat va bar).1 = false → u.single = true →
        exec (.xform sl d a b) s = .next (ends 0 (acceptXform u b.toNat va bar))))) ∧
  (∀ (sl : BitVec 2) (d q : BitVec 6) (s : State), q.toNat < 3 → usable s [] [d.toNat] [(d.toNat, intK)] = true →
    let used := queueBusy s s.cur.1 q.toNat
    exec (.qstat sl d q) s = .next (endsWith s sl d.toNat 1 (((queuePlaces q.toNat - used) % 32 + used % 32 * 32 : Nat) : Int))))

/-- R245, R246: LICQ takes a free licence (1), answers 2 to its holder and 0 otherwise; LICW waits for it in the FIFO; LICR gives it up;
LICS reads the licence word. A full estate traps PROTECT with the pair's number. -/
def Obligations.LicenceInstructions : Prop :=
  ∀ (sl : BitVec 2) (d : BitVec 6) (s : State), usable s [] [d.toNat] [(d.toNat, intK)] = true → s.quiet = true →
    let p := s.cur.1 / 2
    let r := slotReq s s.cur.1 s.cur.2
    let reserved := if r.img = 0 then licEnter s p r else (licEnter s p r).modThread r.img (fun t => { t with reserved := t.reserved + 1 })
    exec (.lics sl d) s = .next (endsWith s sl d.toNat 1 (licstOf s s.cur.1 s.cur.2 : Nat)) ∧
    (holdsLic s p r = true → exec (.licq sl d) s = .next (endsWith s sl d.toNat 1 2) ∧
      (s.me.wait ≠ .licw → exec (.licw sl d) s = .next (endsLate s sl d.toNat 2 s)) ∧
      (s.me.wait = .licw → exec (.licw sl d) s = .next (endsLate s sl d.toNat 1 s)) ∧
      (fitsIn s d.toNat 0 = true → fitsIn (licGiveUp s p r) d.toNat 0 = true →
        exec (.licr sl d) s = .next (next32 s sl (intOut (licGiveUp s p r) d.toNat 1 0)))) ∧
    (holdsLic s p r = false → licFull s = true → exec (.licq sl d) s = .next (trap32 s .protect (BitVec.ofNat 64 p))) ∧
    (holdsLic s p r = false → licFull s = false → (s.pair p).lic = .free → fitsIn s d.toNat 1 = true → fitsIn (licGrant s p r) d.toNat 1 = true →
      exec (.licq sl d) s = .next (next32 s sl (intOut (licGrant s p r) d.toNat 1 1))) ∧
    (holdsLic s p r = false → licFull s = false → (s.pair p).lic ≠ .free → exec (.licq sl d) s = .next (endsWith s sl d.toNat 1 0)) ∧
    (holdsLic s p r = false → waitsLic s p r = true → exec (.licw sl d) s = .next (blocks s (latchOn s s []) .licw (BitVec.ofNat 64 p)) ∧
      (fitsIn s d.toNat 1 = true → fitsIn (licForget s p r) d.toNat 1 = true →
        exec (.licr sl d) s = .next (next32 s sl (intOut (licForget s p r) d.toNat 1 1)))) ∧
    (holdsLic s p r = false → waitsLic s p r = false → licFull s = false → (s.pair p).lic = .free → fitsIn s d.toNat 1 = true →
      fitsIn (licGrant s p r) d.toNat 1 = true → exec (.licw sl d) s = .next (next32 s sl (lateOut (licGrant s p r) d.toNat 1))) ∧
    (holdsLic s p r = false → waitsLic s p r = false → licFull s = false → fitsIn s d.toNat 1 = false →
      exec (.licw sl d) s = .next (trap32 s .width (widthVal 1 d.toNat))) ∧
    (holdsLic s p r = false → waitsLic s p r = false → licFull s = false → (s.pair p).lic ≠ .free → fitsIn s d.toNat 1 = true →
      exec (.licw sl d) s = .next (blocks s (latchOn s reserved []) .licw (BitVec.ofNat 64 p))) ∧
    (holdsLic s p r = false → waitsLic s p r = false → exec (.licr sl d) s = .next (endsWith s sl d.toNat 1 2))

/-- R239 to R243, R249: MMA and MMAD need the licence: with it a well-formed command joins the matrix queue and counts in the term;
without it they trap LICENCE, or wait when the thread is owed it; a bad operand descriptor traps PROTECT. R250 to R257: TOPK, ACLR, DRN
and DRN2, with a barrier object or none, ASAVE and ARST by address or of a slot, and MWAIT join the matrix queue; PPT goes on when no pre-emption asks for the
licence, and otherwise takes the PREEMPT trap once the thread's commands are done. -/
def Obligations.MatrixInstructions : Prop :=
  (∀ e ∈ ([(.mma, false), (.mmad, true)] : List (Form3 × Bool)), ∀ (sl : BitVec 2) (d a b : BitVec 6) (s t : State) (ch : Option (Nat × Nat)),
    usable s [d.toNat, a.toNat, b.toNat] [] [(d.toNat, intK), (a.toNat, intK), (b.toNat, intK)] = true → s.quiet = true →
    let n := s.cur.1
    let cw := valW s d.toNat
    let da := (valW s a.toNat).toNat
    let db := (valW s b.toNat).toNat
    let kk := 16 * (fld cw 4 8 + 1)
    let held := holdsLic s (n / 2) (slotReq s n s.cur.2)
    cwBad cw = false → cw.getLsbD 19 = false →
    (held = false → fld s.me.licst 2 1 = 0 → exec (e.1 sl d a b) s = .next (trap32 s .licence (BitVec.ofNat 64 (encode (e.1 sl d a b))))) ∧
    (held = false → fld s.me.licst 2 1 = 1 → exec (e.1 sl d a b) s =
      .next (blocks s (latchOn s s [d.toNat, a.toNat, b.toNat]) .licw (BitVec.ofNat 64 (n / 2)))) ∧
    (held = true → opBad s n da kk = true → exec (e.1 sl d a b) s = .next (trap32 s .protect (valW s a.toNat))) ∧
    (held = true → opBad s n da kk = false → opBad s n db kk = true → exec (e.1 sl d a b) s = .next (trap32 s .protect (valW s b.toNat))) ∧
    (held = true → opBad s n da kk = false → opBad s n db kk = false → chunkHeld s = false → chunkWait s = .ok (t, ch) → matrixRoom t = true →
      let c := newCmd t (.mma e.2 (fld cw 0 2) (fld cw 2 1 = 1) (fld cw 4 8) (valW t a.toNat) (valW t b.toNat))
        (opRange t n da kk ++ opRange t n db kk) [] (if fld cw 18 1 = 1 then some (fld cw 12 6) else none)
      exec (e.1 sl d a b) s = .next (next32 s sl (((addCmd t { c with chunk := ch }).modPair (n / 2) (fun x => { x with termN := x.termN + 1 })).modMe
        (fun x => { x with matSeq := BitVec.ofNat 16 (fld cw 32 16) }))))) ∧
  ((∀ (sl : BitVec 2) (d a b : BitVec 6) (s : State),
    usable s [d.toNat, a.toNat, b.toNat] [] [(d.toNat, intK), (a.toNat, intK), (b.toNat, intK)] = true → s.quiet = true →
    let cw := valW s d.toNat
    let x := (valW s a.toNat).toNat
    let y := (valW s b.toNat).toNat
    let k := fld cw 4 4 + 1
    cwBad cw = false → cw.getLsbD 19 = false → fld cw 2 1 = 0 → fld cw 8 4 = 0 → recordsGood s [x, y] = true →
    (formatAt s x).code = 12 → destGood s x = true → (shapeAt s x).dims = [k, 64, 1, 1] →
    (formatAt s y).code = 11 → destGood s y = true → (shapeAt s y).dims = [k, 64, 1, 1] → matrixRoom s = true →
    exec (.topk sl d a b) s = .next (next32 s sl (noteSeq cw (addCmd s (newCmd s (.topk (fld cw 0 2) k (shapeAt s x) (shapeAt s y))
      [(x, x + 32), (y, y + 32)] (tensorRange (formatAt s x) (shapeAt s x) ++ tensorRange (formatAt s y) (shapeAt s y))
      (if fld cw 18 1 = 1 then some (fld cw 12 6) else none)))))) ∧
  (∀ (sl : BitVec 2) (m : BitVec 4) (s : State), s.running = true → s.quiet = true → matrixCount s s.cur.1 < 8 →
    exec (.aclr sl m) s = .next (next32 s sl (addCmd s (newCmd s (.aclr m) [] [] none)))) ∧
  (∀ e ∈ ([(.drn, false), (.drn2, true)] : List (Form3 × Bool)), ∀ (sl : BitVec 2) (d a : BitVec 6) (s : State),
    usable s [d.toNat, a.toNat] [] [(d.toNat, intK), (a.toNat, intK)] = true → s.quiet = true →
    let cw := valW s d.toNat
    let x := fld (valW s a.toNat) 0 32
    let y := fld (valW s a.toNat) 32 32
    let offs := if e.2 then [x, y] else [x]
    cwBad cw = false → cw.getLsbD 19 = false → fld cw 2 1 = 0 → fld cw 4 8 = 0 → recordsGood s offs = true →
    (∀ o ∈ offs, destGood s o = true ∧ (formatAt s o).raw = false ∧ (shapeAt s o).dims = [64, 64, 1, 1]) →
    (e.2 = true → (formatAt s x).orient = 0 ∧ (formatAt s y).orient = 1) → matrixRoom s = true →
    exec (e.1 sl d a 0) s = .next (next32 s sl (noteSeq cw (stepSeed (addCmd s (newCmd s (.drain (fld cw 0 2) (offs.map (shapeAt s)))
      (offs.map (fun o => (o, o + 32))) (offs.flatMap (fun o => tensorRange (formatAt s o) (shapeAt s o)))
      (if fld cw 18 1 = 1 then some (fld cw 12 6) else none))))))) ∧
  (∀ e ∈ ([(.drn, false), (.drn2, true)] : List (Form3 × Bool)), ∀ (sl : BitVec 2) (d a b : BitVec 6) (s t : State) (pa : Nat),
    usable s [d.toNat, a.toNat, b.toNat] [] [(d.toNat, intK), (a.toNat, intK), (b.toNat, intK)] = true → s.quiet = true →
    let cw := valW s d.toNat
    let x := fld (valW s a.toNat) 0 32
    let y := fld (valW s a.toNat) 32 32
    let offs := if e.2 then [x, y] else [x]
    let bar := valW s b.toNat
    cwBad cw = false → cw.getLsbD 19 = true → fld cw 2 1 = 0 → fld cw 4 8 = 0 →
    (offs.any (fun o => o % 32 ≠ 0) = false → bar.toNat % 32 ≠ 0 → exec (e.1 sl d a b) s = .next (trap32 s .misalign bar)) ∧
    (bar.toNat % 32 = 0 → recordsGood s offs = true →
      (∀ o ∈ offs, destGood s o = true ∧ (formatAt s o).raw = false ∧ (shapeAt s o).dims = [64, 64, 1, 1]) →
      (e.2 = true → (formatAt s x).orient = 0 ∧ (formatAt s y).orient = 1) →
      let object := firstByte s.cur.1 (formatAt s x) (shapeAt s x)
      let c := { newCmd s (.drain (fld cw 0 2) (offs.map (shapeAt s))) (offs.map (fun o => (o, o + 32)))
          (offs.flatMap (fun o => tensorRange (formatAt s o) (shapeAt s o))) (if fld cw 18 1 = 1 then some (fld cw 12 6) else none)
        with barrier := some bar, barPa := some pa }
      (licFull s = true → exec (e.1 sl d a b) s = .next (trap32 s .protect object)) ∧
      (licFull s = false → walkHeld s s.cur.1 bar.toNat = false → objectPa s s.cur.1 s.cur.2 .store bar = .ok (t, pa) → matrixRoom t = true →
        exec (e.1 sl d a b) s = .next (next32 s sl (noteSeq cw (stepSeed (estateAuto (addCmd t
          { c with est := if c.img = 0 then none else some (t.thread c.img).estSeq }) c.img object 6))))))) ∧
  (∀ e ∈ ([(.asave, true), (.arst, false)] : List (Form3 × Bool)), ∀ (sl : BitVec 2) (a b : BitVec 6) (s t : State) (ps : List Nat),
    usable s [a.toNat, b.toNat] [] [(a.toNat, intK), (b.toNat, intK)] = true → s.quiet = true →
    let w := valW s b.toNat
    let va := (valW s a.toNat).toNat
    let m := BitVec.ofNat 4 (fld w 0 4)
    fld w 11 53 = 0 →
    (va % 4096 ≠ 0 → exec (e.1 sl 7 a b) s = .next (trap32 s .misalign (valW s a.toNat))) ∧
    (va % 4096 = 0 → (∀ i < 16, (fld w 0 4).testBit (i / 4) = true → walkHeld s s.cur.1 (va + 0x1000 * i) = false) → pieces s s.cur.1 (decide (s.cur.2 < 7)) e.2 va (fld w 0 4) 16 0 = .ok (t, ps) → matrixCount t t.cur.1 < 8 →
      exec (e.1 sl 7 a b) s = .next (next32 s sl (addCmd t (newCmd t (if e.2 then .asave m ps else .arst m ps) [] []
        (if fld w 10 1 = 1 then some (fld w 4 6) else none)))))) ∧
  (∀ e ∈ ([(.asave, true), (.arst, false)] : List (Form3 × Bool)), ∀ (sl : BitVec 2) (d b : BitVec 6) (s : State), d.toNat < 7 →
    usable s [b.toNat] [] [(b.toNat, intK)] = true → s.quiet = true →
    let w := valW s b.toNat
    let m := fld w 0 4
    let ps := tilePages (physRead s ((s.slot s.cur.1 d.toNat).img + 0x18) 8).1
    (s.cur.2 ≠ 7 → exec (e.1 sl d 0 b) s = .next (trap32 s .priv (BitVec.ofNat 64 (encode (e.1 sl d 0 b))))) ∧
    (s.cur.2 = 7 → fld w 11 53 = 0 → holdsThread s s.cur.1 d.toNat = false →
      exec (e.1 sl d 0 b) s = .next (trap32 s .illegal (BitVec.ofNat 64 (encode (e.1 sl d 0 b))))) ∧
    (s.cur.2 = 7 → fld w 11 53 = 0 → holdsThread s s.cur.1 d.toNat = true → matrixCount s s.cur.1 < 8 →
      exec (e.1 sl d 0 b) s = .next (next32 s sl ((addCmd s (newCmd s (if e.2 then .asave (BitVec.ofNat 4 m) ps else .arst (BitVec.ofNat 4 m) ps) [] []
        (if fld w 10 1 = 1 then some (fld w 4 6) else none))).modSlot s.cur.1 d.toNat (fun x =>
          { x with licst := setFld x.licst 4 4 (if e.2 then fld x.licst 4 4 ||| m else fld x.licst 4 4 &&& (15 ^^^ m)) }))))) ∧
  (∀ (sl : BitVec 2) (d b : BitVec 6) (s : State), usable s [] [d.toNat] [(d.toNat, intK)] = true → s.quiet = true →
    matrixCount s s.cur.1 < 8 →
    let t := addCmd s (newCmd s .marker [] [] (some b.toNat))
    fitsIn s d.toNat (s.me.matSeq.toNat : Int) = true → fitsIn t d.toNat (s.me.matSeq.toNat : Int) = true →
    exec (.mwait sl d b) s = .next (next32 s sl (intOut t d.toNat 1 (s.me.matSeq.toNat : Int)))) ∧
  (∀ (sl : BitVec 2) (m : BitVec 4) (s : State), s.running = true →
    let asked := (s.me.preTimer || s.me.preTerm) && holdsLic s (s.cur.1 / 2) (slotReq s s.cur.1 s.cur.2)
    (asked = false → exec (.ppt sl m) s = .next (next32 s sl s)) ∧
    (asked = true → s.quiet = true → matrixBusy s s.cur.1 s.cur.2 = false →
      exec (.ppt sl m) s = .next (takeTrap (s.modMe (fun x => { x with preTimer := false, preTerm := false, pptWait := false })) s.cur.1 s.cur.2 true
        .preempt (m.zeroExtend 64) s.me.pc))))

/-- R113, R308: every system instruction traps PRIV in a user slot, with its word, before any other check, and changes nothing else. That PRIV comes
before ILLEGAL there is a reading (log entry 73). -/
def Obligations.SystemNeedsPrivilege : Prop :=
  ∀ (sl : BitVec 2) (d a b : BitVec 6) (y h : BitVec 1),
  ∀ i ∈ ([.sret sl a b, .getp sl d a b, .putp sl d a b, .tlbi sl a b, .ckpt sl d b, .kill sl d a y h, .slots sl d, .licf sl d a b,
      .ibpeek sl d b, .ibtake sl d b, .defer sl d, .resume sl d a, .evict sl d a b, .trace sl a b] : List Instr),
  ∀ s : State, s.running = true → s.userSlot = true → exec i s = .next (trap32 s .priv (BitVec.ofNat 64 (encode i)))

/-- R305, R309: SRET with selector RETRY or SKIP resumes a held slot at its TRPC, or past the trapped instruction by its length, performs
the slot's pending writes, which wait for a repack of their names, and ends the event; it leaves a trace entry. Any other SRET only ends
the event. R296, R297, R300, R303, R312:
GETP reads and PUTP writes the privileged registers; the trap registers and ESTBASE are written only while the slot is held, IMGBASE,
PTBASE and CTXID while no user slot holds a thread, and reserved bits are dropped. -/
def Obligations.SretAndPrivilegedRegisters : Prop :=
  (∀ (sl : BitVec 2) (a b : BitVec 6) (s : State), b.toNat < 3 → s.cur.2 = 7 → usable s [a.toNat] [] [(a.toNat, intK)] = true → s.quiet = true →
    let n := s.cur.1
    let k := (valI s a.toNat % 8).toNat
    let x := s.slot n k
    let t (pc : Word) := traceAuto s n 17 k (x.handle.zeroExtend 64) pc 0
    let skip := x.trPc + (if x.trCause.getLsbD 8 then 4 else 2)
    (b.toNat = 0 → k < 7 → x.phase = .held → writesFrozen s n k = false →
      exec (.sret sl a b) s = .next (endEvent (resumeHeld (t x.trPc) n k x.trPc true) n)) ∧
    (b.toNat = 1 → k < 7 → x.phase = .held → writesFrozen s n k = false →
      exec (.sret sl a b) s = .next (endEvent (resumeHeld (t skip) n k skip false) n)) ∧
    (b.toNat < 2 → k < 7 → x.phase = .held → writesFrozen s n k = true → exec (.sret sl a b) s = .next (latchOn s s [a.toNat])) ∧
    ((b.toNat = 2 ∨ k = 7 ∨ x.phase ≠ .held) →
      exec (.sret sl a b) s = .next (endEvent (traceAuto s n 17 7 0 s.me.pc 0) n))) ∧
  ((∀ e ∈ ([(6, fun c => c.imgBase), (7, fun c => c.slotEn), (8, fun c => c.ptBase), (9, fun c => c.ctxId)] : List (BitVec 6 × (Core → Word))),
    ∀ (sl : BitVec 2) (d a : BitVec 6) (s : State), s.cur.2 = 7 → usable s [] [d.toNat] [(d.toNat, intK)] = true →
    exec (.getp sl d a e.1) s = .next (endsWith s sl d.toNat 1 (e.2 (s.core s.cur.1)).toNat)) ∧
  (∀ e ∈ ([(0, fun x => x.trCause), (1, fun x => x.trVal), (2, fun x => x.trPc), (4, fun x => x.trTime)] : List (BitVec 6 × (Slot → Word))),
    ∀ (sl : BitVec 2) (d a : BitVec 6) (s : State), s.cur.2 = 7 →
    usable s [a.toNat] [d.toNat] [(d.toNat, intK), (a.toNat, intK)] = true →
    exec (.getp sl d a e.1) s = .next (endsWith s sl d.toNat 1 (e.2 (s.slot s.cur.1 (valI s a.toNat % 8).toNat)).toNat)) ∧
  (∀ (sl : BitVec 2) (d a : BitVec 6) (s : State), s.cur.2 = 7 → usable s [a.toNat] [] [(a.toNat, intK)] = true → s.quiet = true →
    let n := s.cur.1
    let v := valW s a.toNat
    ((∀ k < 7, (s.slot n k).phase = .free) →
      exec (.putp sl d a 6) s = .next (next32 s sl (s.modCore n (fun c => { c with imgBase := v }))) ∧
      exec (.putp sl d a 8) s = .next (next32 s sl (s.modCore n (fun c => { c with ptBase := BitVec.ofNat 64 (fld v 20 36 * 2 ^ 20) }))) ∧
      exec (.putp sl d a 9) s = .next (next32 s sl (s.modCore n (fun c => { c with ctxId := v &&& 0xFFFF })))) ∧
    exec (.putp sl d a 7) s = .next (next32 s sl (s.modCore n (fun c => { c with slotEn := v &&& 0x7F }))) ∧
    exec (.putp sl d a 3) s = .next (next32 s sl s)) ∧
  (∀ (sl : BitVec 2) (d a : BitVec 6) (s : State), s.cur.2 = 7 → usable s [d.toNat, a.toNat] [] [(d.toNat, intK), (a.toNat, intK)] = true →
    s.quiet = true →
    let n := s.cur.1
    let k := (valI s d.toNat % 8).toNat
    let v := valW s a.toNat
    let held := decide (k < 7) && (s.slot n k).phase == .held
    exec (.putp sl d a 1) s = .next (next32 s sl (if held then s.modSlot n k (fun x => { x with trVal := v }) else s)) ∧
    exec (.putp sl d a 2) s = .next (next32 s sl (if held then s.modSlot n k (fun x => { x with trPc := v }) else s)) ∧
    exec (.putp sl d a 5) s = .next (next32 s sl (if held then s.modSlot n k (fun x => { x with estBase := v }) else s))))

/-- R312, R314, R346, R357: SLOTS reads the state of every slot; TLBI drops translations of the core and its cluster; CKPT opens and
closes the context's checkpoint interval; TRACE writes an entry. R307, R310, R311, R313: KILL, RESUME, EVICT and LICF answer 0 when they
act on the thread they name, and a code that says why otherwise; KILL stops its target at once and answers when what the target had
issued is over. -/
def Obligations.SystemServicesAndThreads : Prop :=
  ((∀ (sl : BitVec 2) (d : BitVec 6) (s : State), s.cur.2 = 7 → usable s [] [d.toNat] [(d.toNat, intK)] = true →
    exec (.slots sl d) s = .next (endsWith s sl d.toNat 1
      (((List.range 8).map (fun k => slotCode s s.cur.1 k * 2 ^ (4 * k))).sum : Nat))) ∧
  (∀ (sl : BitVec 2) (a b : BitVec 6) (s : State), b.toNat < 3 → s.cur.2 = 7 → usable s [a.toNat] [] [(a.toNat, intK)] = true → s.quiet = true →
    let keep := fun (e : TlbEntry) => !tlbNamed b.toNat (ctxOf s s.cur.1) (valW s a.toNat).toNat e
    exec (.tlbi sl a b) s = .next (next32 s sl
      ((s.modCore s.cur.1 (fun c => { c with tlb := c.tlb.filter keep })).modCluster (s.cur.1 / 8) (fun c => { c with tlb := c.tlb.filter keep })))) ∧
  (∀ (sl : BitVec 2) (d : BitVec 6) (s : State), s.cur.2 = 7 → usable s [] [d.toNat] [(d.toNat, intK)] = true → s.quiet = true →
    let ctx := ctxOf s s.cur.1
    let id := (openCkpt s ctx : Nat)
    (fitsIn s d.toNat (s.nextCkpt.toNat : Int) = true → fitsIn (openInterval s ctx) d.toNat (s.nextCkpt.toNat : Int) = true →
      exec (.ckpt sl d 0) s = .next (next32 s sl (lateOut (openInterval s ctx) d.toNat (s.nextCkpt.toNat : Int)))) ∧
    (fitsIn s d.toNat (id : Int) = true → fitsIn (closeInterval s ctx) d.toNat (id : Int) = true →
      exec (.ckpt sl d 1) s = .next (next32 s sl (lateOut (closeInterval s ctx) d.toNat (id : Int))))) ∧
  (∀ (sl : BitVec 2) (a b : BitVec 6) (s : State), b.toNat < 16 → s.cur.2 = 7 → usable s [a.toNat] [] [(a.toNat, intK)] = true → s.quiet = true →
    exec (.trace sl a b) s = .next (next32 s sl (traceWrite s s.cur.1 b.toNat 7 0 s.me.pc (valW s a.toNat))))) ∧
  ((∀ (sl : BitVec 2) (d a : BitVec 6) (y h : BitVec 1) (s : State), s.cur.2 = 7 →
    usable s [a.toNat] [d.toNat] [(d.toNat, intK), (a.toNat, intK)] = true → s.quiet = true →
    (s.me.killing = none → killTarget s s.cur.1 (y == 1) (valW s a.toNat) = none → exec (.kill sl d a y h) s = .next (endsLate s sl d.toNat 1 s)) ∧
    (∀ img, s.me.killing = some img →
      let t := s.modMe (fun x => { x with killing := none })
      (threadStopped s img = true → fitsIn s d.toNat 0 = true → fitsIn t d.toNat 0 = true →
        exec (.kill sl d a y h) s = .next (next32 s sl (lateOut t d.toNat 0))) ∧
      (threadStopped s img = false → exec (.kill sl d a y h) s = .next (latchOn s s [a.toNat]))) ∧
    (∀ img, s.me.killing = none → killTarget s s.cur.1 (y == 1) (valW s a.toNat) = some img →
      let t := killThread s img (h == 1) (killWord s.cur.1 (h == 1) 0 false)
      ((s.thread img).dying = true → exec (.kill sl d a y h) s = .next (endsLate s sl d.toNat 2 s)) ∧
      ((s.thread img).dying = false → threadStopped t img = true → fitsIn s d.toNat 0 = true → fitsIn t d.toNat 0 = true →
        exec (.kill sl d a y h) s = .next (next32 s sl (lateOut t d.toNat 0))) ∧
      ((s.thread img).dying = false → threadStopped t img = false →
        exec (.kill sl d a y h) s = .next (latchOn s (t.modMe (fun x => { x with killing := some img })) [a.toNat])))) ∧
  (∀ (sl : BitVec 2) (d a : BitVec 6) (s : State), s.cur.2 = 7 →
    usable s [a.toNat] [d.toNat] [(d.toNat, intK), (a.toNat, intK)] = true → s.quiet = true →
    let h := BitVec.ofNat 32 (fld (valW s a.toNat) 0 32)
    let img := imageAddr s s.cur.1 h
    let x := s.thread img
    let can := h ≠ 0 ∧ x.handle = h ∧ x.ctx = ctxOf s s.cur.1 ∧ x.parked = true ∧ x.state = 5 ∧ x.dying = false
    let t := enterThread (s.modThread img (fun t => { t with parked := false })) s.cur.1 img
    (can → runBlocked s s.cur.1 = false → fitsIn s d.toNat 0 = true → fitsIn t d.toNat 0 = true → exec (.resume sl d a) s = .next (next32 s sl (lateOut t d.toNat 0))) ∧
    (can → runBlocked s s.cur.1 = true → exec (.resume sl d a) s = .next (latchOn s s [a.toNat])) ∧
    (¬can → exec (.resume sl d a) s = .next (endsLate s sl d.toNat 1 s))) ∧
  (∀ (sl : BitVec 2) (d a b : BitVec 6) (s : State), b.toNat < 2 → s.cur.2 = 7 →
    usable s [a.toNat] [d.toNat] [(d.toNat, intK), (a.toNat, intK)] = true → s.quiet = true →
    let n := s.cur.1
    let k := (valI s a.toNat % 8).toNat
    ((k = 7 ∨ (s.slot n k).phase ≠ .held) → exec (.evict sl d a b) s = .next (endsLate s sl d.toNat 1 s)) ∧
    (k < 7 → (s.slot n k).phase = .held → writeWaits s n k = true → exec (.evict sl d a b) s = .next (endsLate s sl d.toNat 2 s)) ∧
    (k < 7 → (s.slot n k).phase = .held → writeWaits s n k = false → (s.slot n k).pending = [] →
      saveHeld s n k = false → (b.toNat ≠ 1 → runBlocked s n = false) →
      (∀ t, writeMapRecord s n k = .ok t →
        let u := evictGo t n k (b.toNat = 1)
        fitsIn s d.toNat 0 = true → fitsIn u d.toNat 0 = true → exec (.evict sl d a b) s = .next (next32 s sl (lateOut u d.toNat 0))) ∧
      (∀ e, writeMapRecord s n k = .error e → exec (.evict sl d a b) s = .next (endsLate s sl d.toNat 3 s)))) ∧
  (∀ (sl : BitVec 2) (d a b : BitVec 6) (s : State), s.cur.2 = 7 →
    usable s [a.toNat, b.toNat] [d.toNat] [(d.toNat, intK), (a.toNat, intK), (b.toNat, intK)] = true → s.quiet = true →
    let n := s.cur.1
    let p := n / 2
    let k := (valI s a.toNat % 8).toNat
    let h := BitVec.ofNat 32 (fld (valW s b.toNat) 0 32)
    let g := if h = 0 then (s.pair p).fifo.head? else (s.pair p).fifo.find? (fun r => r.handle = h)
    ((k = 7 ∨ (s.slot n k).phase ≠ .held) → exec (.licf sl d a b) s = .next (endsLate s sl d.toNat 3 s)) ∧
    (k < 7 → (s.slot n k).phase = .held → holdsLic s p (slotReq s n k) = false → exec (.licf sl d a b) s = .next (endsLate s sl d.toNat 1 s)) ∧
    (k < 7 → (s.slot n k).phase = .held → holdsLic s p (slotReq s n k) = true → g = none →
      exec (.licf sl d a b) s = .next (endsLate s sl d.toNat 2 s)) ∧
    (k < 7 → (s.slot n k).phase = .held → holdsLic s p (slotReq s n k) = true → ∀ r, g = some r →
      let t := licOwe s p (slotReq s n k) (if h = 0 then none else some r)
      fitsIn s d.toNat 0 = true → fitsIn t d.toNat 0 = true → exec (.licf sl d a b) s = .next (next32 s sl (lateOut t d.toNat 0)))))

/-- R303 to R305, R396: IBPEEK reads a word of the inbox's head entry, IBTAKE removes it and may perform a live write, DEFER moves a live
write to a free deferred place of its slot; a write whose name a repack holds is not performed before its end. -/
def Obligations.InboxInstructions : Prop :=
  (∀ (sl : BitVec 2) (d : BitVec 6) (s : State), s.cur.2 = 7 → usable s [] [d.toNat] [(d.toNat, intK)] = true → s.quiet = true →
    let n := s.cur.1
    let entry := (s.core n).inbox.head?.getD ⟨0, 0, 0, 0⟩
    exec (.ibpeek sl d 0) s = .next (endsWith s sl d.toNat 1 entry.head.toNat) ∧
    exec (.ibpeek sl d 1) s = .next (endsWith s sl d.toNat 1 entry.data.toNat) ∧
    exec (.ibpeek sl d 2) s = .next (endsWith s sl d.toNat 1 entry.aux.toNat) ∧
    exec (.ibpeek sl d 3) s = .next (endsWith s sl d.toNat 1 entry.time.toNat) ∧
    ((s.core n).inbox = [] → exec (.ibtake sl d 0) s = .next (endsLate s sl d.toNat 0 s) ∧ exec (.ibtake sl d 1) s = .next (endsLate s sl d.toNat 0 s) ∧
      exec (.defer sl d) s = .next (endsWith s sl d.toNat 1 2)) ∧
    (∀ e r, (s.core n).inbox = e :: r →
      let kind := (fld e.head 0 8 : Nat)
      let k := fld e.head 8 3
      let x := s.slot n k
      let p : Deferred := { name := BitVec.ofNat 6 (fld e.head 11 6), req := BitVec.ofNat 10 (fld e.aux 0 10), data := e.data }
      let t := (s.modCore n (fun c => { c with inbox := r })).modSlot n k (fun x =>
        if x.defer0.isNone then { x with defer0 := some p } else { x with defer1 := some p })
      (fitsIn s d.toNat (kind : Int) = true → fitsIn (takeHead s n false) d.toNat (kind : Int) = true →
        exec (.ibtake sl d 0) s = .next (next32 s sl (lateOut (takeHead s n false) d.toNat (kind : Int)))) ∧
      (liveWrite s n k e = false ∨ writeFrozen s n k (fld e.head 11 6) = false →
        fitsIn s d.toNat (kind : Int) = true → fitsIn (takeHead s n true) d.toNat (kind : Int) = true →
        exec (.ibtake sl d 1) s = .next (next32 s sl (lateOut (takeHead s n true) d.toNat (kind : Int)))) ∧
      (liveWrite s n k e = true → writeFrozen s n k (fld e.head 11 6) = true → exec (.ibtake sl d 1) s = .next (latchOn s s [])) ∧
      (liveWrite s n k e = false → exec (.defer sl d) s = .next (endsWith s sl d.toNat 1 2)) ∧
      (liveWrite s n k e = true → x.defer0.isSome = true → x.defer1.isSome = true → exec (.defer sl d) s = .next (endsWith s sl d.toNat 1 1)) ∧
      (liveWrite s n k e = true → (x.defer0 = none ∨ x.defer1 = none) → fitsIn s d.toNat 0 = true → fitsIn t d.toNat 0 = true →
        exec (.defer sl d) s = .next (next32 s sl (intOut t d.toNat 1 0)))))

/-- R39, R323, R395: a place that becomes free lets the oldest submission of its core go on: a thread's SPAWN is tried again, a host's is
accepted with its reply, or refused when its queue is not OPEN. A decrement that travels arrives at its task. R41, R278, R326, R327: a
dealt task, one in 16 cycles of its core, leaves its run list with STATE DEALT and its groups are entered while there is room; a deal that
is short of room or images is held at its tower and goes on with DEAL_RESUME. A successor starts once the cores that ran a predecessor whose
release was deferred have released at its token scope. -/
def Obligations.SubmissionsAndDeals : Prop :=
  ((∀ (n place : Nat) (q : Submission) (s : State), n < 1024 → s.submissions.find? (fun q => q.home = n) = some q → freePlace s n = some place →
    (∀ c k d duty, q.by_ = .thread c k d duty →
      exec (.submissionPlaceWait n) s = .next (s.modSlot c k (fun x => { x with stalled := false }))) ∧
    (∀ h tag, q.by_ = .host h tag →
      let t := { s with submissions := dropFirst (fun x => x.home = n) s.submissions }
      ((s.hostQueue h).state = .open_ →
        exec (.submissionPlaceWait n) s =
          .next (acceptTask (sendReply (acquire t n 7) h (replyBytes t 1 tag q.record 0 0 0 0)) q.record q.recordPa q.ctx n 0 (some h) true tag place [])) ∧
      ((s.hostQueue h).state ≠ .open_ →
        exec (.submissionPlaceWait n) s = .next (sendReply (refuseRecord t q.recordPa q.ctx) h (replyBytes t 3 tag q.record 6 0 0 0))))) ∧
  (∀ (pa : Nat) (b : Bool) (s : State),
    let goes := s.decrements.find? (fun d => d.pa = pa && d.bereaved = b && !decrementHeld s d)
    (goes = none → exec (.taskCounterDecrement pa b) s = .next s) ∧
    (∀ d, goes = some d →
      exec (.taskCounterDecrement pa b) s = .next (decrementTask { s with decrements := dropFirst (fun x => x = d) s.decrements } pa b)))) ∧
  ((∀ (n id : Nat) (e : RunEntry) (s v : State), n < 1024 → runHead ((s.core n).runList.filter isTask) = some e → e.what = .task id →
    (s.core n).dealAt ≤ (s.core n).cycle →
    ((s.task id).state ≠ .ready → exec (.dealTask n) s = .next (removeRun s n e.what)) ∧
    ((s.task id).state = .ready →
    let a := (removeRun s n e.what).modCore n (fun c => { c with dealAt := c.cycle + 16, dealWait := 0 })
    let b := writeStatus (a.modTask id (fun t => { t with state := .dealt, prio := e.prio, aged := e.aged, started := false })) id
    let u := if recCkpt (s.task id).snap then openInterval b (s.task id).ctx else b
    let r := dealGo u { task := id, group := 0, prio := e.prio, aged := e.aged } ((s.task id).count + 1)
    (r = (v, none) → exec (.dealTask n) s = .next v) ∧
    (∀ d, r = (v, some d) → exec (.dealTask n) s = .next (holdDeal v (towerOf n) d)))) ∧
  (∀ (i w : Nat) (d : Deal) (s v : State), (heldDeals s)[i]? = some (w, d) →
    let r := dealGo (s.modTower w (fun t => { t with deals := t.deals.filter (fun x => x.task ≠ d.task) })) d ((s.task d.task).count + 1)
    (r = (v, none) → exec (.dealResume i) s = .next v) ∧
    (∀ d', r = (v, some d') → exec (.dealResume i) s = .next (holdDeal v w d'))) ∧
  (∀ (id : Nat) (s : State), (s.task id).started = false → (s.task id).state = .dealt →
    let late := (s.task id).owes.filter (deferredTo s id)
    late.any (fun p => decide (6 ≤ predToken s id p) && p.ran.any (putsOut s)) = false →
    exec (.successorStart id) s =
      .next ((late.foldl (fun r p => p.ran.foldl (fun r n => release r n (predToken s id p)) r) s).modTask id (fun t => { t with started := true }))))

/-- R44, R72: a free slot takes the first thread that may start: for the first time, or from its image where its rows can be used; with
its rows elsewhere, those are written back and released at DEVICE first. R45, R47, R328: an aged entry moves up one priority, once, to the
end of its run list; a call at the head of a task queue becomes a thread with an image and a handle; an overflow entry enters its run list
when there is room. -/
def Obligations.SlotFillsAndRunLists : Prop :=
  ((∀ (n k img : Nat) (s : State), n < 1024 → nextThread s n = some img → freeSlot s n = some k → mayEnter s n img = true →
    ((s.thread img).started = false → exec (.slotFill n) s = .next (startThread s n k img)) ∧
    ((s.thread img).started = true → resumesHere s n k img = true → exec (.slotFill n) s = .next (resumeThread s n k img))) ∧
  (∀ (n k i img : Nat) (e : RunEntry) (s : State), n < 1024 → nextThread s n = some img → freeSlot s n = some k →
    (s.core n).runList[i]? = some e → e.what = .thread img → mayEnter s n img = true → (s.thread img).started = true →
    resumesHere s n k img = false → savesTiles s (s.thread img).lastCore img = false →
    let m := (s.thread img).lastCore
    let t := ((s.core m).former.filter (fun f => f.img = img)).foldl (fun u f => writeRows u m f) s
    exec (.resumeAfterWriteback n i) s =
      .next (resumeThread (release (dropRows t img) m 5) n k img))) ∧
  ((∀ (n i : Nat) (e : RunEntry) (s : State), n < 1024 → (s.core n).runList[i]? = some e → mayAge s n e = true →
    let l := (s.core n).runList
    exec (.agePromote n i) s =
      .next (promoteThread (s.modCore n (fun c => { c with runList := l.take i ++ l.drop (i + 1) ++ [{ e with prio := e.prio + 1, aged := true }] }))
        n e)) ∧
  (∀ (n : Nat) (e : CallEntry) (r : List CallEntry) (s : State), n < 1024 → (s.core n).taskQ = e :: r → runOpen s n = true →
    (coreOfCtx s n e.ctx = none ∨ (∃ c, coreOfCtx s n e.ctx = some c ∧ takeImage s c = none) → (s.core n).imagesTold = false →
      exec (.callEntryTake n) s =
        .next ((inboxSend s n (inboxHead 0x26 0 0 0) (BitVec.ofNat 64 e.ctx.toNat) 0).modCore n (fun c => { c with imagesTold := true }))) ∧
    (∀ c t h, coreOfCtx s n e.ctx = some c → takeImage s c = some (t, h) →
      let th : Thread :=
        { handle := h, ctx := e.ctx, prio := e.prio, lastCore := n, defHeir := e.defHeir, callee := e.reply, args := e.args, seedH := h,
          acq := scopeOf [e.fromCore, n] }
      let base := (t.core c).imgBase.toNat
      let u := (newThread t n base h e.pc e.mapPtr 0 e.parent th).modCore n (fun c => { c with taskQ := r, imagesTold := false })
      exec (.callEntryTake n) s = .next (wakeCaller (enterThread u n (base + h.toNat * 0x400)) n))) ∧
  (∀ (w n : Nat) (e : RunEntry) (s : State), w < 2 → (s.tower w).overflow.find? (fun x => runRoom s x.1) = some (n, e) →
    exec (.overflowEnter w) s =
      .next ((s.modTower w (fun t => { t with overflow := dropFirst (fun x => x = (n, e)) t.overflow })).modCore n
        (fun c => { c with runList := c.runList ++ [e] }))))

/-- R49, R70, R71, R78, R107, R173: a woken slot runs again in its next turn; a row fill ends the demand with the row resident; former
rows and a saved thread's borrowed rows are written back; a repack that is due completes, with the rows that it found uncorrectable
counted; a late result is written to its name; the first flit of a message wakes a receiver, and a message whose flits have arrived is
ready and wakes one. -/
def Obligations.SlotEvents : Prop :=
  (∀ (n k : Nat) (s : State), n < 1024 → k < 7 → (s.slot n k).phase = .blocked → mayWake (s.slot n k) = true → slotRemoved s n k = false →
    exec (.wakeRecheck n k) s =
      .next ((s.modSlot n k (fun x => { x with phase := .running, woken := false, nextTurn := x.turn + 1 })).modThread (s.slot n k).img
        (fun t => { t with state := 2 }))) ∧
  (∀ (n k r : Nat) (bad : Bool) (s : State), n < 1024 → k < 8 → (s.slot n k).demand = some r →
    formerHeld s n = false → heldAtJoin s n (placeOf s (demandPa s n k r)) = false →
    exec (.rowFill n k bad) s =
      .next (if r < 32 then fillRow (if bad then eccNote s n 1 else s) n k r bad
        else fillBorrow (if bad then eccNote s n 1 else s) n k (r - 32) bad)) ∧
  (∀ (n i : Nat) (f : FormerRows) (s : State), n < 1024 → (s.core n).former[i]? = some f →
    exec (.rowIdleWriteback n i) s = .next (writeRows s n f)) ∧
  (∀ (n i img : Nat) (b : Borrow) (s : State), n < 1024 → (savedBorrows s n)[i]? = some img → (s.thread img).borrow = some b →
    exec (.rowIdleWriteback n ((s.core n).former.length + i)) s =
      .next ((writeBorrow s n b).modThread img (fun t => { t with borrow := some { b with dirty := 0 } }))) ∧
  (∀ (n : Nat) (s : State), n < 1024 →
    exec (.repackComplete n) s = .next ((List.range 8).foldl (fun t k => repackSlot t n k) s) ∧
    ∀ (k : Nat) (r : Repack), (s.slot n k).repack = some r →
      repackSlot s n k = if r.until_ ≤ (s.core n).cycle then completeRepack s n k else s) ∧
  (∀ (n k : Nat) (r : Repack) (bad : BitVec 32) (l : List Move) (s : State), s.agenda = .uncorrectable n k bad :: l → (s.slot n k).repack = some r →
    step s = .next ((eccNote { s with agenda := l } n (if r.region = .pair then 6 else 1)).modSlot n k
      (fun x => { x with repack := some { r with bad := r.bad ||| bad } }))) ∧
  (∀ (n i j : Nat) (l : List Move) (s : State), n < 1024 →
    let t := { s with agenda := l }
    (1 ≤ i → i ≤ 6 → s.agenda = .flaw (.corrected n i) none :: l → step s = .next (eccCount t n 0 i)) ∧
    (i < 32 → (s.slot n j).resident.getLsbD i = true → s.agenda = .flaw (.row n j i) none :: l →
      step s = .next (eccCount (t.modSlot n j (fun x => { x with poisoned := x.poisoned ||| BitVec.ofNat 32 (2 ^ i) })) n 16 1)) ∧
    (i < 8 → s.agenda = .flaw (.pairRow n i) none :: l →
      step s = .next (eccCount (t.modPair (n / 2) (fun p => { p with poison := p.poison ||| BitVec.ofNat 8 (2 ^ i) })) n 16 6)) ∧
    (i < 16384 → 1 ≤ j → j ≤ 6 → s.agenda = .flaw (.acc n i) (some (n, j)) :: l →
      step s = .next (eccCount (t.modCore n (fun c => { c with tilePoison := c.tilePoison ||| BitVec.ofNat 16384 (2 ^ i) })) n 16 j))) ∧
  (∀ (n k i : Nat) (p : Pending) (s : State), n < 1024 → k < 8 → (s.slot n k).pending[i]? = some p → p.due = none →
    exec (.accessResultArrival n k i) s =
      .next ((writeBits s n k p.name p.bits.toNat).modSlot n k (fun x => { x with
        pending := (x.pending.take i).filter (fun q => q.name ≠ p.name) ++ x.pending.drop (i + 1) }))) ∧
  (∀ (n ch i : Nat) (m : Msg) (s : State), n < 1024 → ch < 16 → ((s.core n).chan ch).travel[i]? = some m →
    (∀ x ∈ ((s.core n).chan ch).travel.take i, x.fromCore = m.fromCore → x.fromSlot = m.fromSlot → x.flits = []) → m.flits ≠ [] →
    (m.fromCore < 1024 → coresApart s n m.fromCore = false) →
    let c := (s.core n).chan ch
    ((m.flits.length = 1 ∨ m.headed = true) → exec (.messageDeliver n ch i) s =
      .next (drainAll (wakeRecv (s.modCore n (fun x => x.setChan ch
        { ready := c.ready ++ [m], travel := c.travel.take i ++ c.travel.drop (i + 1) })) n ch))) ∧
    (1 < m.flits.length → m.headed = false → exec (.messageDeliver n ch i) s =
      .next (drainAll (wakeRecv (s.modCore n (fun x => x.setChan ch
        { c with travel := c.travel.take i ++ { m with headed := true } :: c.travel.drop (i + 1) })) n ch))))

/-- R298, R255, R300: a timer that has run out clears EN and asks for a pre-emption, or for a TIMER event of the system slot. A slot with
a request traps with PREEMPT at its boundary; a licensed one that has reached none in 2^20 cycles is stopped with TRVAL 15. R293, R294,
R295: the system slot's next event is RESET, then TRAP of the lowest slot, then TIMER of the lowest slot, then INBOX; it begins at SYSVEC
with the event's kind and slot shown and the pending mark cleared. A RESET event loads the map at SYSMAP. A stopped system slot is
restarted with a RESET event. -/
def Obligations.TimersAndSystemEvents : Prop :=
  ((∀ (n k : Nat) (s : State), n < 1024 → k < 7 → fld (s.slot n k).timer 40 1 = 1 → fld (s.slot n k).timer 0 40 = 0 →
    (s.slot n k).phase ≠ .free → (s.slot n k).phase ≠ .held →
    let t := s.modSlot n k (fun x => { x with timer := setFld x.timer 40 1 0 })
    (fld (s.slot n k).timer 41 1 = 0 →
      exec (.timerExpire n k) s = .next (t.modCore n (fun c => { c with timePend := c.timePend ||| BitVec.ofNat 7 (2 ^ k) }))) ∧
    (fld (s.slot n k).timer 41 1 = 1 →
      exec (.timerExpire n k) s =
        .next (t.modSlot n k (fun x => { x with preTimer := true, preSince := if x.preTimer || x.preTerm then x.preSince else (t.core n).cycle })))) ∧
  (∀ (n k : Nat) (s : State), n < 1024 → k < 7 → preAsked (s.slot n k) = true → atBoundary s n k = true → slotRemoved s n k = false →
    (holdsLic s (pairOf n) (slotReq s n k) = false → exec (.preemptTake n k) s = .next (takePreempt s n k 0)) ∧
    (holdsLic s (pairOf n) (slotReq s n k) = true → (s.slot n k).pptWait = false →
      (s.slot n k).preSince + 1048576 ≤ (s.core n).cycle → matrixBusy s n k = false →
      exec (.preemptForce n k) s = .next (takePreempt s n k 15)))) ∧
  (let begins (s : State) (n kind k : Nat) : State :=
    (s.modCore n (fun c =>
      { c with
        evActive := true, evKind := BitVec.ofNat 2 kind, evSlot := BitVec.ofNat 3 k, resetPend := c.resetPend && kind ≠ 0,
        trapPend := if kind = 1 then c.trapPend &&& ~~~(BitVec.ofNat 7 (2 ^ k)) else c.trapPend,
        timePend := if kind = 2 then c.timePend &&& ~~~(BitVec.ofNat 7 (2 ^ k)) else c.timePend })).modSlot n 7
      (fun x => { x with phase := .running, wait := .none, woken := false, pc := s.ctrlWord (0x1000 * n) 0, nextTurn := x.turn + 1,
                         latch := [], issued := false, stalled := false, resident := 0xFFFF })
  (∀ (n : Nat) (s : State), n < 1024 → (s.core n).cycle % 8 = 7 → (s.core n).evActive = false → (s.core n).stopped = false → siteUp s n = true → (s.slot n 7).pending = [] →
    let c := s.core n
    (c.resetPend = true →
      (∀ t, resetMap (begins s n 0 0) n = .ok t → exec (.systemEventBegin n) s = .next t) ∧
      (∀ e, resetMap (begins s n 0 0) n = .error e →
        exec (.systemEventBegin n) s = .next (trapSystem (begins s n 0 0) n false e.1 e.2 (s.ctrlWord (0x1000 * n) 0)))) ∧
    (c.resetPend = false → ∀ k, lowestBit c.trapPend = some k → exec (.systemEventBegin n) s = .next (begins s n 1 k)) ∧
    (c.resetPend = false → lowestBit c.trapPend = none → ∀ k, lowestBit c.timePend = some k →
      exec (.systemEventBegin n) s = .next (begins s n 2 k)) ∧
    (c.resetPend = false → lowestBit c.trapPend = none → lowestBit c.timePend = none → c.inbox ≠ [] →
      exec (.systemEventBegin n) s = .next (begins s n 3 0))) ∧
  (∀ (n : Nat) (s : State), n < 1024 → (s.core n).stopped = true →
    let r := (s.modCore n (fun c => { c with stopped := false, evActive := false, resetPend := true })).modSlot n 7
      (fun x => { x with phase := .blocked, wait := .none, pending := [], latch := [], issued := false })
    (siteUp s n = true →
      (∀ t, resetMap (begins r n 0 0) n = .ok t → exec (.systemSlotRestart n) s = .next t) ∧
      (∀ e, resetMap (begins r n 0 0) n = .error e →
        exec (.systemSlotRestart n) s = .next (trapSystem (begins r n 0 0) n false e.1 e.2 (s.ctrlWord (0x1000 * n) 0)))) ∧
    (siteUp s n = false → exec (.systemSlotRestart n) s = .next r)))

/-- R205, R316, R333, R334: a dying thread's estate is conveyed entry by entry, the most recent first, and the thread ends when it is
empty. The effects of two copies that are equal are passed on; unequal ones, and one whose partner has not come in 2^20 cycles, end both
copies. -/
def Obligations.ConveyanceAndCopies : Prop :=
  (∀ (i img : Nat) (s : State), s.dying[i]? = some img → dyingReady s img = true →
    let th := s.thread img
    inboxPending s 1024 img = false →
    (th.estate = [] → deliveryDue s img = false → heldAtJoin s th.lastCore (placeOf s img) = false →
      exec (.conveyEntry i) s = .next (lastSteps s img)) ∧
    (∀ e r, th.estate = e :: r → engineBusy s img e = false →
      putsHeld s th.lastCore th.lastSlot (conveyScope s th (conveyHeir s (1024, img) img e)) = false →
      let one := conveyOne s (1024, img) img e
      let drop : State → State := fun t => estateDrop t img (fun x => x.seq = e.seq)
      (∀ t, one = .wait t → exec (.conveyEntry i) s = .next t) ∧
      (∀ t, one = .ok t → exec (.conveyEntry i) s = .next (drop t)) ∧
      (∀ t, one = .stale t → exec (.conveyEntry i) s = .next (drop (convFault t th.lastCore (1024, img) th e 0))) ∧
      (∀ c v, one = .fault c v →
        exec (.conveyEntry i) s = .next (drop (convFault (dropCall s 1024 img) th.lastCore (1024, img) th e c.code))))) ∧
  (∀ (id g : Nat) (e f : DualEffect) (s : State),
    let mine := s.dual.filter (fun e => e.task = id && e.group = g && e.stage = 0)
    mine.find? (fun e => e.copy = 0 && mine.any (fun f => f.copy = 1 && sameEffect e f)) = some e →
    mine.find? (fun f => f.copy = 1 && sameEffect e f) = some f →
    (e.hash = f.hash → exec (.dualEffectCompare id g) s =
      .next { s with dual := s.dual.map (fun x => if x = e ∨ x = f then { x with stage := 1 } else x) }) ∧
    (e.hash ≠ f.hash → exec (.dualEffectCompare id g) s = .next (dualMismatch s e))) ∧
  (∀ (id g : Nat) (e : DualEffect) (s : State),
    let mine := s.dual.filter (fun e => e.task = id && e.group = g && e.stage = 0)
    mine.find? (fun e => decide (e.since + 1048576 ≤ (s.core e.core).cycle) && !mine.any (fun f => f.copy ≠ e.copy && sameEffect e f)) = some e →
    exec (.dualPartnerTimeout id g) s = .next (dualMismatch s e))

/-- R275, R373: a packet of a good header that this device has not seen is performed when it is in its turn and has a place, by the rule
of its kind; one whose turn has not come is held; one with a bad header is counted at its port and dropped. The payloads' layouts are the
model's (log entry 9). R231, R377: a collective packet of a good header meets the command that takes it, or waits in its tower's buffer;
an ABORT packet the same. R79, R80, R244: an access of a requester to a per-core window does what the window gives it. R303: the oldest
waiting entry enters an inbox that has room. -/
def Obligations.FabricAndWindows : Prop :=
  (∀ e ∈ ([(.fabricMsgReceive, 1, deliverMsg), (.putReceive, 2, deliverPut),
      (.cputReceive, 3, deliverCput), (.atomReceive, 4, deliverAtom), (.replyReceive, 5, deliverReply)] :
      List ((Packet → Instr) × Nat × (State → Packet → State))),
    ∀ (p : Packet) (s : State), portsOpen s = true → p.ddev.toNat = s.devId →
      (headerBad p = true → exec (e.1 p) s = .next (countDrop s)) ∧
      (headerBad p = false → p.kind.toNat = e.2.1 → seenBefore s p = false → s.reorder = [] →
        (inTurn s p = true → deliverable { s with reorder := [p] } p = true → exec (e.1 p) s = .next (e.2.2 (passFlow s p) p)) ∧
        (inTurn s p = false → exec (e.1 p) s = .next { s with reorder := [p] }))) ∧
  ((∀ e ∈ ([(.collPacketReceive, false), (.collAbortReceive, true)] : List ((Nat → Packet → Instr) × Bool)),
    ∀ (n : Nat) (p : Packet) (s : State), n < 1024 → portsOpen s = true → p.ddev.toNat = s.devId → headerBad p = false → p.kind = 6 →
      hdrAbort p = e.2 →
      (∀ m c, collSite s n p = m → (s.core m).cmds.find? (collTakes s p) = some c → exec (e.1 n p) s = .next (collDeliver s m c p)) ∧
      ((s.core (collSite s n p)).cmds.find? (collTakes s p) = none →
        exec (e.1 n p) s = .next (s.modTower (towerOf (collSite s n p)) (fun t => { t with collBuf := t.collBuf ++ [p] })))) ∧
  (∀ (pa size by_ n off : Nat) (v : Word) (s t : State) (x y z : Nat), by_ < 1024 → placeOf s pa = .window n off →
    (0x300000 ≤ off → off < 0x303000 →
      (windowWrite s { core := by_, slot := none } n off size v.toNat 0 pa 0 = .ok t x y z → exec (.nameWindowWrite pa size v by_) s = .next t) ∧
      (windowRead s { core := by_, slot := none } n off size pa 0 = .ok t x y z → exec (.nameWindowRead pa size by_) s = .next t)) ∧
    (0x380000 ≤ off → off < 0x381180 →
      (windowWrite s { core := by_, slot := some 7 } n off 8 v.toNat 0 pa 0 = .ok t x y z → exec (.rawRowAccess pa true v by_) s = .next t) ∧
      (windowRead s { core := by_, slot := some 7 } n off 8 pa 0 = .ok t x y z → exec (.rawRowAccess pa false v by_) s = .next t)) ∧
    (0x200000 ≤ off → off < 0x210000 →
      (windowWrite s { core := by_, slot := none } n off size v.toNat 0 pa 0 = .ok t x y z → exec (.accWindowWrite pa size v by_) s = .next t) ∧
      (windowRead s { core := by_, slot := none } n off size pa 0 = .ok t x y z → exec (.accWindowRead pa size by_) s = .next t))) ∧
  (∀ (n : Nat) (e : InboxEntry) (by_ : Option (Nat × Nat)) (r : List (InboxEntry × Option (Nat × Nat))) (s : State), n < 1024 →
    (s.core n).inboxWait = (e, by_) :: r → (s.core n).inbox.length < 32 →
    exec (.inboxEntryEnter n) s = .next (s.modCore n (fun c => { c with inbox := c.inbox ++ [e], inboxWait := r }))))

/-- R87, R219, R220, R227: SETF replaces a bank's format and leaves the list; a stream command that may start starts in the core's cycle,
and when it completes what is left of its work is done, its tag is set and it leaves; a chunk wait ends with an acquire at DEVICE once its bit is set.
R238, R242, R243, R248 to R259: a matrix command without a shared read starts when the array lets it; one whose shared read has waited
4,096 cycles starts alone; a started one completes by its kind and leaves, once its writes to other devices are performed; ACLR clears its tiles; a marker fires once the slot's earlier
matrix commands are complete. -/
def Obligations.StreamAndMatrixEvents : Prop :=
  (∀ (n i : Nat) (c : Cmd) (s : State), n < 1024 → (s.core n).cmds[i]? = some c →
    (isSetf c.op = true → mayStart s n c = true → exec (.setfTakeEffect n i) s = .next (dropCmd (performSetf s n c) n c)) ∧
    (isStream c.op = true → mayStart s n c = true →
      exec (.streamCommandStart n i) s = .next (modCmd s n c.seq (fun d => { d with started := true, startAt := (s.core n).cycle }))) ∧
    (isStream c.op = true → working c = true →
      exec (.streamCommandComplete n i) s =
        .next (endCmd (landRest s c 0 (fun u => streamLay u n c) (fun u => performStream u n c)) n c)) ∧
    (∀ pa k, c.chunk = some (pa, k) → c.released = false → (∀ d o, placeOf s pa ≠ .remote d o) → (physRead s (pa + 16) 8).1.testBit k = true →
      exec (.chunkWaitRelease n i) s = .next (modCmd (acquire s.ticked n 5) n c.seq (fun d => { d with released := true })))) ∧
  (∀ (n i : Nat) (c : Cmd) (s : State), n < 1024 → (s.core n).cmds[i]? = some c →
    (∀ m, c.op = .aclr m → mayStart s n c = true →
      exec (.matrixCommandStart n i) s = .next (endCmd ((tilesOf m.toNat).foldl (fun u t => setTile u n t 0 0) s) n c)) ∧
    (isMatrix c.op = true → c.op ≠ .marker → (∀ m, c.op ≠ .aclr m) → mayStart s n c = true → arrayOpen s n c = true → sharedReads c = [] →
      exec (.matrixCommandStart n i) s = .next (startMatrix s n c)) ∧
    (isMatrix c.op = true → mayStart s n c = true → arrayOpen s n c = true → c.mcast = true → c.startAt + 4096 ≤ (s.core n).cycle →
      exec (.mcastWaitExpire n i) s = .next (startMatrix s n c)) ∧
    (c.started = true →
      (∀ minus t acc kb da db, c.op = .mma minus t acc kb da db → c.doneAt ≤ (s.core n).cycle →
        exec (.mmaComplete n i) s = .next (endCmd (performMma s n c minus t acc kb da.toNat db.toNat) n c)) ∧
      (let written (whole : State → State) : State :=
        let u := closePart (landRest s c 0 (fun _ => matrixLay n c) whole) n c 0 (matrixLay n c)
        if writesOut u n c then u else endCmd (tileChecks (drainArrive u n c) n (opTiles c.op)) n c
       (∀ t k x v, c.op = .topk t k x v → exec (.topkComplete n i) s = .next (written (fun u => performTopk u n c t k x v))) ∧
       (∀ t ds, c.op = .drain t ds → exec (.drainComplete n i) s = .next (written (fun u => performDrain u n c t ds))) ∧
       (∀ m ps, c.op = .asave m ps → exec (.accSaveComplete n i) s = .next (written (fun u => performSave u n c m.toNat ps)))) ∧
      (∀ m ps, c.op = .arst m ps → exec (.accRestoreComplete n i) s = .next (endCmd (performRestore s n m.toNat ps) n c)) ∧
      (∀ m ps, c.op = .restore m ps → exec (.accRestoreComplete n i) s = .next (endRestore (performRestore s n m.toNat ps) n c ps))) ∧
    (c.op = .marker → markerReady s n c = true → exec (.mwaitMarkerFire n i) s = .next (endCmd s n c)))

/-- R228 to R237, R266, R377: a copy command with a reserved value ends in an engine fault, another starts as the owner of the lines that
it writes, or waits for a command that owns one; when every byte has moved its
barrier object gets one arrival and it leaves. A collective starts by sending its contributions; a chunk lands when its contributions are
there; a switch that has not answered is replaced by the members. A host command sends its reply in the order of its queue. A transform
reads its record when it starts; a record that its rules refuse leaves TORN. -/
def Obligations.EngineEvents : Prop :=
  ∀ (n i : Nat) (c : Cmd) (s : State), n < 1024 → (s.core n).cmds[i]? = some c →
    (∀ b, c.op = .copy b →
      (mayStart s n c = true → engineDown s n = false →
        exec (.copyCommandStart n i) s = .next (if copyBad b then faultCmd s n c .illegal 0
          else startOwning (if (planAt c 0).isSome then s else setPlan s n c 0 (copyUnits b)) n c (copyLines s n c b))) ∧
      (∀ t u, working c = true → copyFound n c b (pendingOf c 0) (pendingOf c 1) s = (t, true) → copyRest n c b (pendingOf c 0) t = (u, true) →
        exec (.copyCommandComplete n i) s = .next (countArrival u n c false (fun w => endCmd w n c)))) ∧
    (∀ b v t x y z, c.op = .coll b → collBad s c.ctx b = false → collView s c.ctx b = some v →
      (c.sent = true → mayStart s n c = true →
        exec (.collCommandStart n i) s = .next (startOwning s n c (collLines s n c b v.m c.landed))) ∧
      (c.sent = false → mayStart s n c = true → bankDest s n c b = none → useSwitch s c.ctx b = false →
        (collLines s n c b v.m c.landed).any (othersOwn s n c) = false →
        sendToMembers s n c b v (fun _ => true) (groupMembers s c.ctx (collGroup b)) 0 = .ok t x y z →
        exec (.collCommandStart n i) s =
          .next (modCmd (startOwning t n c (collLines s n c b v.m c.landed)) n c.seq
            (fun d => { d with inswitch := false, fmtAt := none, sent := true }))) ∧
      (∀ k r, working c = true → allLanded c b = false → k < collChunks b → c.landed.getLsbD k = false → chunkResult s c b v k = some r →
        bankDest s n c b = none →
        let now := c.landed ||| BitVec.ofNat 64 (2 ^ k)
        (landMemory s n c b v.m k r = (t, true) →
          exec (.chunkLand n i k) s = .next (setChunks (setPlan t n c k []) n c (2 ^ k) (fun u =>
            collFinish (modCmd u n c.seq (fun d => { d with landed := now, own := collLines u n d b v.m now })) n c.seq b))) ∧
        (landMemory s n c b v.m k r = (t, false) → exec (.chunkLand n i k) s = .next t)) ∧
      (∀ j, working c = true → c.inswitch = true →
        (mayFall s c b v)[Config.freeNat s.tick % (mayFall s c b v).length]? = some j →
        let sent := ((switchPieces b v).take (c.fell.getD (switchPieces b v).length)).drop j
        sendToMembers s.ticked n c b v (fun x => sent.any (fun y => y.2.2.1 = x.2.1)) (groupMembers s c.ctx (collGroup b)) 0 = .ok t x y z →
        exec (.inswitchTimeout n i) s = .next (modCmd t n c.seq (fun d => { d with inswitch := decide (j ≠ 0), fell := some j })))) ∧
    (∀ b, c.op = .host b → c.faulted = none → hostBad b = false → queueCtx s (wideGet b 32 32) = c.ctx →
      (s.hostQueue (wideGet b 32 32)).state ≠ .closed → hostFirst s n c b = true →
      exec (.hostRecordSend n i) s = .next (endCmd (sendReply s (wideGet b 32 32) (recordReply s b)) n c)) ∧
    (∀ op rec l t v x y, c.op = .xform op rec l →
      (mayStart s n c = true → engineDown s n = false → engBytes s n c rec 64 = .ok t v x y →
        let r := BitVec.ofNat 512 v
        exec (.xformStart n i) s = .next (startOwning (modCmd t n c.seq (fun d => { d with op := .xform op rec r })) n c
          (if xfBad op r then [] else xfLines t n c op r))) ∧
      (working c = true → xfBad op l = true → exec (.xformComplete n i) s = .next (countArrival s n c true (fun u => endCmd u n c))) ∧
      (∀ w bs u left bad, working c = true → xfBad op l = false →
        xformWork s n c op l (fun key j => !(decided c 0).contains (xfGroup op l key j)) = .ok (w, bs) →
        let todo := xformTodo c (xfLay op l) bs
        landVa n c (todo.length + 1) todo w = (u, left, bad) →
        let after := modCmd u n c.seq (fun d => { d with
          groups := d.groups.set 0 ((xfLay op l).map (·.group)).eraseDups, plans := d.plans.set 0 left,
          own := d.own.filter (left.flatMap (fun p => rangeLines u n c p.1 1)).contains })
        (∀ e f, bad = some (e, f) → exec (.xformComplete n i) s = .next (faultCmd after n c e f)) ∧
        (bad = none → left = [] → exec (.xformComplete n i) s = .next (countArrival after n c false (fun p => endCmd p n c))) ∧
        (bad = none → left ≠ [] → exec (.xformComplete n i) s = .next after)))

/-- R247, R349: a faulted engine command is parked at the lowest free place and reported, or a faulted host command dropped; ENGPARK
resumes or kills the command at a place. A licence's term ends once another requester waits, after 256 commands or 2^20 cycles; a drained
licence passes to its named grantee, else to the head of the FIFO, else is free. -/
def Obligations.ParkingAndLicences : Prop :=
  (∀ (n i : Nat) (c : Cmd) (x : Cause) (v : Word) (s : State), n < 1024 → (s.core n).cmds[i]? = some c → c.faulted = some (x, v) → c.park = none →
    (∀ b, c.op = .host b → exec (.engineFaultPark n i) s = .next (dropCmd (engineReport s n c x v 0) n c)) ∧
    (∀ p, (∀ b, c.op ≠ .host b) → (List.range 16).find? (fun p => !(parkedMask s n).testBit p) = some p →
      exec (.engineFaultPark n i) s = .next (engineReport (modCmd s n c.seq (fun d => { d with park := some p })) n c x v p))) ∧
  (∀ (n p : Nat) (c : Cmd) (s : State), n < 1024 → p < 16 → parkedCmd s n p = some c →
    exec (.engparkResume n p) s = .next (resumeParked s n p) ∧ exec (.engparkKill n p) s = .next (killCmd s n c)) ∧
  (∀ (p : Nat) (h : LicReq) (s : State), p < 512 → (s.pair p).lic = .held → (s.pair p).holder = some h → (s.pair p).fifo ≠ [] →
    256 ≤ (s.pair p).termN ∨ (s.pair p).granted + 1048576 ≤ (s.core h.core).cycle →
    exec (.licenceTermEnd p) s = .next (modReq (s.modPair p (fun x => { x with lic := .due })) h (fun y =>
      { y with preTerm := true, preSince := if y.preTimer then y.preSince
                                            else match reqSlot s h with | some (m, _) => (s.core m).cycle | none => 0 }))) ∧
  (∀ (p : Nat) (s : State), p < 512 → (s.pair p).lic = .draining → drainsLeft s p = false →
    let t := s.modPair p (fun x => { x with drains := none, grantee := none, lic := .free, holder := none })
    ((s.pair p).fifo = [] → exec (.licenceDrainGrant p) s = .next t) ∧
    (∀ r q, (s.pair p).fifo = r :: q → (s.pair p).grantee = none → exec (.licenceDrainGrant p) s = .next (licGrant t p r)) ∧
    (∀ g r, (s.pair p).grantee = some g → (s.pair p).fifo.find? (sameReq g) = some r →
      exec (.licenceDrainGrant p) s = .next (licGrant t p r)))

/-- R323 to R325: a host command waits for a SUBMIT of its queue that waits for a counter place, and for a put not yet performed; one with
an unknown opcode or a reserved value, or for a queue that is not OPEN, is refused; SUBMIT accepts a task, with an acquire at SYSTEM and
its reply, or refuses its record; DECR performs one decrement and then sends its reply; CLOSE and RESET tear the queue down. R322, R331:
a write of HQCTL opens a CLOSED queue of a good endpoint or tears an OPEN one down, soft or hard; a teardown whose tasks are all final
ends with the tasks' replies and CLOSED, and the queue is CLOSED or, after RESET, OPEN again. The TAG of a CLOSED reply that no command
asked for is a free value (log entry 3). -/
def Obligations.HostCommandsAndQueues : Prop :=
  ((∀ e ∈ ([(.hostSubmit, 1), (.hostDecr, 2), (.hostClose, 3), (.hostReset, 4)] : List ((Nat → BitVec 512 → Instr) × Nat)),
    ∀ (q : Nat) (c : BitVec 512) (s : State), q < 4096 →
      (submitWaits s q = true ∨ putWaits s = true → exec (e.1 q c) s = .next s) ∧
      (portsOpen s = true → submitWaits s q = false → putWaits s = false → hcOp c = e.2 →
        (hcBad c = true ∨ (s.hostQueue q).state ≠ .open_) →
        exec (e.1 q c) s = .next (sendReply s q (replyBytes s 3 (hcTag c) (hcAddr c) (hcStatus s q c) 0 0 0)))) ∧
  (∀ (q : Nat) (c : BitVec 512) (s : State), q < 4096 → portsOpen s = true → submitWaits s q = false → putWaits s = false →
    hcBad c = false → (s.hostQueue q).state = .open_ →
    (∀ pa home place, hcOp c = 1 → hcRecord s q c = some pa → recordRefused s (hcAddr c).toNat pa (queueCtx s q) (some q) = false →
      homeCore s pa = some home → s.submissions.any (fun x => x.home = home) = false → freePlace s home = some place →
      exec (.hostSubmit q c) s =
        .next (acceptTask (sendReply (acquire s home 7) q (replyBytes s 1 (hcTag c) (hcAddr c) 0 0 0 0)) (hcAddr c) (canonPa s pa)
          (queueCtx s q) home 0 (some q) true (hcTag c) place [])) ∧
    (∀ pa, hcOp c = 1 → hcRecord s q c = some pa → recordRefused s (hcAddr c).toNat pa (queueCtx s q) (some q) = true →
      exec (.hostSubmit q c) s = .next (hcRefuse (refuseRecord s pa (queueCtx s q)) q c)) ∧
    (∀ pa, hcOp c = 2 → hcRecord s q c = some pa → (hcAddr c).toNat % 128 = 0 →
      let t := decrementTask s (canonPa s pa) false
      exec (.hostDecr q c) s = .next (sendReply t q (replyBytes t 1 (hcTag c) (hcAddr c) (hcStatus t q c) 0 0 0))) ∧
    (hcOp c = 3 → exec (.hostClose q c) s = .next (teardown s q (decide (hcMode c = 1)) false true (hcTag c))) ∧
    (hcOp c = 4 → exec (.hostReset q c) s = .next (teardown s q (decide (hcMode c = 1)) true true (hcTag c))))) ∧
  ((∀ (q : Nat) (v : Word) (s : State), q < 4096 →
    let w := takeFld (queueWord s q) v 18 2
    (fld v 18 2 = 1 → (s.hostQueue q).state = .closed →
      let t := setCtrl s (0x400000 + 8 * q) (takeFld (takeFld w v 0 16) v 32 12)
      endpointGood t q = true →
      exec (.hqctlOpen q v) s = .next (t.modQueue q (fun h => { h with state := .open_, done := 0, killed := 0, discarded := 0 }))) ∧
    (fld v 18 2 = 2 → (s.hostQueue q).state = .open_ →
      exec (.hqctlTeardownSoft q v) s = .next (teardown (setCtrl s (0x400000 + 8 * q) w) q false false false 0)) ∧
    (fld v 18 2 = 3 → (s.hostQueue q).state = .open_ →
      exec (.hqctlTeardownHard q v) s = .next (teardown (setCtrl s (0x400000 + 8 * q) w) q true false false 0))) ∧
  (∀ (q : Nat) (s : State), q < 4096 → (s.hostQueue q).state = .tearing → (∀ t ∈ s.tasks, t.2.queue = some q → taskFinal t.2 = true) →
    let t := taskReplies (refuseWaiting s q) q
    let h := t.hostQueue q
    ((s.hostQueue q).byCommand = true → h.reopen = false →
      exec (.teardownComplete q) s =
        .next ((sendReply t.ticked q (replyBytes t 7 (s.hostQueue q).closeTag 0 0 h.done h.killed h.discarded)).modQueue q
          (fun h => { h with state := .closed }))) ∧
    ((s.hostQueue q).byCommand = true → h.reopen = true →
      exec (.teardownComplete q) s =
        .next (openQueue (sendReply t.ticked q (replyBytes t 7 (s.hostQueue q).closeTag 0 0 h.done h.killed h.discarded)) q))))

/-- R368, R379 to R382: KICK restarts the watchdog; an unkicked watchdog restarts the firmware; an image runs only with both signatures
and a security version that is not below the least one; with its keys the controller reports and installs endpoints; a revoked endpoint's
queues are torn down hard and its replies dropped; an alarm sets its source's bit and acts by its level; a cold start leaves the device as
reset does, with the fuses' words. -/
def Obligations.ControllerEvents : Prop :=
  (∀ (v : Word) (s : State), fld v 32 1 = 1 → exec (.fwdogKick v) s = .next (ctrlWrite s 0x4081C0 v bexelone)) ∧
  (∀ s : State, s.fwUp = true → s.fwKick + 1000 * fld (s.ctrlWord 0x4081C0 (ctrlReset .fwdog)) 0 32 ≤ s.time.toNat →
    exec .fwdogExpire s = .next { s with fwUp := false, fwRestarts := min 255 (s.fwRestarts + 1), fwKick := s.time.toNat }) ∧
  (∀ (pss slh : Bool) (version : Nat) (s : State),
    exec (.firmwareVerify pss slh version) s =
      .next (if pss = true ∧ slh = true ∧ s.fwMinVersion ≤ version then
          { s with fwUp := true, fwFailed := false, fwKick := s.time.toNat, mcTaken := s.machineChecks.length }
        else { s with fwUp := false, fwFailed := true })) ∧
  (∀ (nonce : BitVec 256) (s : State), s.keysUp = true → ∃ r t, exec (.attestationReport nonce) s = .next t ∧
    t = { s with tick := t.tick, reports := s.reports ++ [r] } ∧ r.nonce = nonce ∧ r.device = ctrlRead s 0x408690 ∧
    r.harvest = (List.range 16).map (fun i => ctrlRead s (0x408600 + 8 * i)) ∧ r.almSt = s.almSt) ∧
  (∀ (e : Nat) (ctx : BitVec 16) (host : BitVec 32) (s : State), s.keysUp = true →
    exec (.endpointInstall e ctx host) s =
      .next { writeEndpoint s e (1 + ctx.toNat * 2 ^ 16 + host.toNat * 2 ^ 32) with epCount := s.epCount + 1 }) ∧
  (∀ (e : Nat) (s : State), bitsAt (endpointWord s e).toNat 0 1 = 1 →
    let t := writeEndpoint s e (setBits (endpointWord s e).toNat 1 1 1)
    exec (.endpointRevoke e) s =
      .next (teardownAll { t with
        replies := t.replies.filter (fun r => queueEndpoint s r.queue ≠ e),
        repliesHeld := t.repliesHeld.filter (fun r => queueEndpoint s r.queue ≠ e) } (fun q => queueEndpoint s q = e))) ∧
  (∀ (source : Nat) (s : State), source < 6 →
    let level := fld (ctrlRead s 0x4086C0) (2 * source) 2
    let a := { s with almSt := s.almSt ||| BitVec.ofNat 6 (2 ^ source), authFails := if source = 4 then s.authFails + 64 else s.authFails }
    let b := machineCheck a.ticked (Config.freeNat a.tick % 256) 0 0 none 0
    let c := clearEndpoints (revokeAll (teardownAll b (fun _ => true)))
    exec (.alarmRaise source) s =
      .next (if level = 0 then b else if level = 1 then teardownAll b (fun _ => true) else if level = 2 then c
        else lockDown c)) ∧
  (∀ s : State, exec .coldStart s = .next { State.reset with
    agenda := s.agenda, tick := s.tick, keysUp := true, fwMinVersion := s.fwMinVersion,
    ctrl := s.ctrl.filter (fun x => decide (0x408600 ≤ x.1) && decide (x.1 < 0x408680)) })

/-- R346, R347: a write of TLBSHOOT whose SEL names its kind begins the shootdown of a context's entries, of those that hold one page of
a context, or of all, and sets BUSY; which of the named entries are gone before its completion is free (log entry 3). A write while BUSY
is ignored. The completion waits while an access translated with a dropped entry is still to be performed; at it BUSY clears and no TLB of a core or a cluster holds a named entry; every other entry stays, and memory, the
caches' home and the control space stay as they are. -/
def Obligations.Shootdowns : Prop :=
  (∀ e ∈ ([(.tlbshootCtx, 0), (.tlbshootPage, 1), (.tlbshootAll, 2)] : List ((Word → Instr) × Nat)),
    ∀ (v : Word) (s : State), fld v 0 2 = e.2 →
      let t := { setCtrl s 0x408000 (BitVec.ofNat 64 (fld v 0 2 + fld v 4 16 * 16 + fld v 20 40 * 2 ^ 20)) with tlbBusy := true }
      let named := tlbNamed (fld v 0 2) (BitVec.ofNat 16 (fld v 4 16)) (fld v 20 40 * 65536)
      (s.tlbBusy = false → Config.freeNat s.tick % 2 = 0 → exec (e.1 v) s = .next t.ticked) ∧
      (s.tlbBusy = false → Config.freeNat s.tick % 2 ≠ 0 → exec (e.1 v) s = .next (dropTlbAll t.ticked named)) ∧
      (s.tlbBusy = true → exec (e.1 v) s = .next s)) ∧
  (∀ s : State, s.tlbBusy = true → shootWaits s = true → exec .tlbshootComplete s = .next s) ∧
  (∀ s : State, s.tlbBusy = true → shootWaits s = false →
    let v := s.ctrlWord 0x408000 0
    let keep := fun (e : TlbEntry) => !tlbNamed (fld v 0 2) (BitVec.ofNat 16 (fld v 4 16)) (fld v 20 40 * 65536) e
    ∃ t, exec .tlbshootComplete s = .next t ∧ t.tlbBusy = false ∧ (∀ n, (t.core n).tlb = (s.core n).tlb.filter keep) ∧
      (∀ c, (t.cluster c).tlb = (s.cluster c).tlb.filter keep) ∧ t.mem = s.mem ∧ t.llc = s.llc ∧ t.ctrl = s.ctrl) ∧
  (∀ (ctx : BitVec 16) (va : Nat) (e : TlbEntry),
    (tlbNamed 0 ctx va e = true ↔ e.ctx = ctx) ∧ (tlbNamed 1 ctx va e = true ↔ e.ctx = ctx ∧ va / 2 ^ e.log * 2 ^ e.log = e.va) ∧
    tlbNamed 2 ctx va e = true)

/-- R357, R358, R369, R395, R321: a write of CKLOG starts a channel's log anew; a rollback that is not refused sets BUSY with its word and
completes by dropping the context's lines from every cache, with their reserved and pinned ways, and replaying each channel's log, the entry that it replays marked dead; a
scrub that finds nothing changes nothing, one that finds a word uncorrectable poisons a word of its line, freely one of sixteen (log entry
3), and no value; CTRAREA takes a region that ends inside the scratchpad and ignores another; any other word of the control space is
written by its own rule, as SYSVEC, an even address below 2 to the 56, and ALMST, whose written bits clear. -/
def Obligations.PlatformWrites : Prop :=
  (∀ (n : Nat) (v : Word) (s : State), n < 1024 →
    exec (.cklogWrite n v) s =
      .next (let t := setCtrl s (0x1000 * n + 0x20) (BitVec.ofNat 64 (fld v 0 12 + fld v 20 36 * 2 ^ 20))
             { t with logs := t.logs.set n [], logOvf := t.logOvf.filter (· ≠ n) }) ∧
    ((s.core n).places = [] → fld v 12 9 * 4096 + fld v 21 9 * 4096 ≤ 0x200000 →
      exec (.ctrareaWrite n v) s = .next (setCtrl s (0x1000 * n + 0x40) (BitVec.ofNat 64 (fld v 12 18 * 4096)))) ∧
    ((s.core n).places = [] → 0x200000 < fld v 12 9 * 4096 + fld v 21 9 * 4096 → exec (.ctrareaWrite n v) s = .next s)) ∧
  (∀ (v : Word) (s : State), fld v 48 1 = 1 → s.rbBusy = false →
    let w := BitVec.ofNat 64 (fld v 0 48)
    let t := setCtrl s 0x408008 w
    ((s.logOvf ≠ [] ∨ ctxInSlot s (BitVec.ofNat 16 (fld v 32 16)) = true) →
      exec (.rollbackStart v) s = .next { t with rbRefused := true, rbDone := false }) ∧
    (s.logOvf = [] → ctxInSlot s (BitVec.ofNat 16 (fld v 32 16)) = false →
      exec (.rollbackStart v) s = .next { t with rbBusy := true, rbDone := false, rbRefused := false, rbWord := w })) ∧
  (∀ s : State, s.rbBusy = true →
    let ctx := BitVec.ofNat 16 (fld s.rbWord 32 16)
    let id := BitVec.ofNat 32 (fld s.rbWord 0 32)
    let keep (ls : List Line) : List Line := ls.filter (fun l => l.ctx ≠ some ctx)
    let a := s.mapCores (fun c => { c with l1 := keep c.l1 })
    let d := { a with clusters := a.clusters.map (fun (c : Nat × Cluster) => (c.1, { c.2 with l2 := keep c.2.l2 })), llc := keep a.llc }
    let held (x : Nat) : Bool := (findLine d.llc x).isSome
    let b := d.mapTowers (fun t => { t with reserve := t.reserve.filter held, pinned := t.pinned.filter held })
    exec .rollbackComplete s =
      .next { ((b.logs.map (·.1)).foldl (fun u ch => replayLog u ch ctx id) b) with rbBusy := false, rbDone := true }) ∧
  (∀ (s : State) (ch : Nat) (e : LogEntry), s.logs.get ch [] = [e] → e.id ≠ 0 → e.addr < Config.windowBase →
    let base := fld (s.ctrlWord (0x1000 * ch + 0x20) 0) 20 36 * 0x100000
    let u := chanWrite (storeHome (forgetLine s e.addr) e.addr e.old.toNat 0 none) (base + 16) 4 0
    replayLog s ch e.ctx e.id = { u with logs := u.logs.set ch [{ e with id := 0 }] }) ∧
  (∀ (line : Nat) (s : State), exec (.scrubPass line false) s = .next s ∧
    exec (.scrubPass line true) s =
      .next { s.ticked with memPoison := poisonWrite s.memPoison (lineBase line + 8 * (Config.freeNat s.tick % 16)) 8 255 255 }) ∧
  (∀ (off by_ : Nat) (v : Word) (s : State), ctrlRefused s off 8 = false → exec (.registerWrite off v by_) s = .next (ctrlWrite s off v by_) ∧
    (∀ n, n < 1024 → off = 0x1000 * n → exec (.registerWrite off v by_) s = .next (setCtrl s off (BitVec.ofNat 64 (fld v 1 55 * 2)))) ∧
    (off = 0x4086C8 → exec (.registerWrite off v by_) s = .next { s with almSt := s.almSt &&& ~~~(BitVec.ofNat 6 v.toNat) }))

/-- R374, R378, R384: a port that goes down or comes up is noted, and packets held while none was up leave with one that comes up; a
module that fails retraining is disabled and recorded as a machine check, and one that returns is up again. A write of PARTCTL opens a
partition whose PLACE words let it open, with its sites placed, and closes one that is idle; a partition that cannot open or close stays
as it is, and so does every other. -/
def Obligations.LinksAndPartitions : Prop :=
  (∀ (p : Nat) (s : State), p < 32 →
    exec (.portLinkChange p true) s = .next (flushHeld { s with portUp := s.portUp ||| BitVec.ofNat 32 (2 ^ p) }) ∧
    exec (.portLinkChange p false) s = .next (flushHeld { s with portUp := s.portUp &&& ~~~(BitVec.ofNat 32 (2 ^ p)) })) ∧
  (∀ (m : Nat) (s : State), m < 32 →
    exec (.ucieRetrainFail m) s = .next
      { machineCheck s.ticked (Config.freeNat s.tick % 256) 0 0 none 0 with ucieUp := s.ucieUp &&& ~~~(BitVec.ofNat 32 (2 ^ m)) } ∧
    exec (.ucieModuleReturn m) s = .next { s with ucieUp := s.ucieUp ||| BitVec.ofNat 32 (2 ^ m) }) ∧
  (∀ (v : Word) (s : State),
    exec (.partctlOpen v) s = .next (partctlWrite s (BitVec.ofNat 64 (fld v 0 16 ||| s.partOpen.toNat))) ∧
    exec (.partctlClose v) s = .next (partctlWrite s (BitVec.ofNat 64 (fld v 0 16 &&& s.partOpen.toNat)))) ∧
  (∀ (p : Nat) (v : Word) (s : State), p < 16 →
    let others := s.places.filter (fun x => x.2.1 ≠ p)
    (fld v 0 16 = 2 ^ p → s.partOpen.getLsbD p = false →
      (partGood s p = true → exec (.partctlOpen v) s =
        .next { s with partOpen := s.partOpen ||| BitVec.ofNat 16 (2 ^ p),
                       places := others ++ (partMembers s p).map (fun n => (n, p, logicalOf s n)) }) ∧
      (partGood s p = false → exec (.partctlOpen v) s = .next s)) ∧
    (fld v 0 16 = 0xFFFF - 2 ^ p → s.partOpen.getLsbD p = true →
      (partIdle s p = true → exec (.partctlClose v) s =
        .next { s with partOpen := s.partOpen &&& ~~~(BitVec.ofNat 16 (2 ^ p)), places := others }) ∧
      (partIdle s p = false → exec (.partctlClose v) s = .next s)))

/-- R350 to R356: a dirty pool line that leaves the LLC in its turn is compressed into its chunks, or, when chunks are short, kept in its
set's reserve way or pinned where it is; an unretired shadow record is written in place again with its poison; HOT clears after 65,536
cycles without an atomic; PUSH and DROP act on the tower's list, and a DROP in breach of R355 frees what the caches hold of the page (log
entry 76). A dirty line of an L1, an L2 or the LLC goes to the next level or to DRAM, a clean one only leaves. -/
def Obligations.PoolsAndLines : Prop :=
  (∀ (t line : Nat) (l : Line) (s : State), t < 2 →
    let a := Config.poolBase + t * 0x4000000000 + 128 * line
    findLine s.llc a = some l →
    (l.dirty = 0 → exec (.poolLineWriteback t line false) s = .next (dropPool s a)) ∧
    (∀ u, l.dirty ≠ 0 → poolTurn s a = true → poolStore s a l.data.toNat l.poison.toNat ((s.tower t).hot.any (fun h => h.1 = a)) l.ctx = some u →
      exec (.poolLineWriteback t line false) s = .next (dropPool u a)) ∧
    (l.dirty ≠ 0 → poolTurn s a = true → poolStore s a l.data.toNat l.poison.toNat ((s.tower t).hot.any (fun h => h.1 = a)) l.ctx = none →
      (s.tower t).reserve.contains a = false →
      (reserveTaken s a = false → exec (.poolLineWriteback t line false) s =
        .next (poolPress (s.modTower t (fun x => { x with reserve := x.reserve ++ [a], pinned := x.pinned.filter (· ≠ a) })) t a)) ∧
      (reserveTaken s a = true → (s.tower t).pinned.contains a = false → exec (.poolLineWriteback t line false) s =
        .next (s.modTower t (fun x => { x with pinned := x.pinned ++ [a] }))))) ∧
  (∀ (t slice : Nat) (r : Shadow) (s : State), t < 2 → (s.tower t).shadows = [r] → poolLineNo r.line % 64 = slice →
    let u := r.chunks.foldl (fun v c =>
      let w := chanWrite v (poolBaseOf v t 1 + 32 * c.1) 32 c.2.1.toNat
      { w with memPoison := poisonWrite w.memPoison (poolBaseOf v t 1 + 32 * c.1) 32 (2 ^ 32 - 1) c.2.2.toNat }) s
    exec (.shadowRecordReplay t slice) s =
      .next ((chanWrite u (metaAddr u r.line) 16 r.entry.toNat).modTower t (fun x =>
        { x with shadows := x.shadows.filter (fun r => poolLineNo r.line % 64 ≠ slice) }))) ∧
  (∀ (t line : Nat) (h : Nat × Nat) (s : State), t < 2 →
    let a := Config.poolBase + t * 0x4000000000 + 128 * line
    (s.tower t).hot.find? (fun h => h.1 = a) = some h → h.2 + 65536 ≤ clusterCycle s (poolCluster a) →
    let u := s.modTower t (fun x =>
      { x with hot := x.hot.filter (fun h => h.1 ≠ a), shadows := x.shadows.filter (fun r => r.line ≠ a) })
    exec (.poolHotExpire t line) s =
      .next (if bitsAt (poolMeta u a) 18 1 = 1 then chanWrite u (metaAddr u a) 16 (setBits (poolMeta u a) 19 1 0) else u)) ∧
  (∀ (t : Nat) (v : Word) (s : State), t < 2 →
    let u := s.modTower t (fun x => { x with shadows := [] })
    let a := fld v 16 40 * 65536
    exec (.poolPush t v) s = .next (pushChunk u t (fld v 0 27)) ∧
    ((inPool a && pageHeld u a) = false → exec (.poolDrop t v) s = .next (poolDropPage u a)) ∧
    ((inPool a && pageHeld u a) = true → exec (.poolDrop t v) s = .next (poolDropPage (freeCopies u a) a))) ∧
  (∀ (u a : Nat) (l : Line) (s : State),
    (findLine (s.core u).l1 a = some l → (l.dirty = 0 ∨ releaseHeld s u 2 = false) →
      let t := l1ToL2 (s.modCore u (fun c => { c with l1 := putLine c.l1 l })) u a
      exec (.lineWriteBack 0 u a false) s = .next (l1Drop t u a)) ∧
    (findLine (s.cluster u).l2 a = some l → (l.dirty = 0 ∨ homeBlocked s u a = false) →
      let t := l2ToHome (s.modCluster u (fun c => { c with l2 := putLine c.l2 l })) u a
      exec (.lineWriteBack 1 u a false) s = .next (t.modCluster u (fun c => { c with l2 := dropLine c.l2 a }))) ∧
    (findLine s.llc a = some l → a < Config.windowBase →
      (l.dirty = 0 → exec (.lineWriteBack 2 u a false) s = .next { s with llc := dropLine s.llc a }) ∧
      (l.dirty ≠ 0 →
        let t := storeHome s a l.data.toNat l.poison.toNat l.ctx
        exec (.lineWriteBack 2 u a false) s = .next { t with llc := dropLine t.llc a })))

/-- R360 to R364: STEP up to 8 is written and asked for; the running firmware's GO acts on GRANT, or waits for the end of a ramp; a ramp
that has ended leaves its target in force; a sample of the current above ILIM removes one more slot, up to six, and four in a row below
fifteen sixteenths of it put one back; slots removed for 2^16 cycles make the cluster step down by one, and return at the end of that ramp. R293, R365 to R367, R385: at 105
°C a die goes offline, or is clamped at step 8 when the tower's other die is away; at 115 °C, and when an offlining takes longer than 1
ms, its cores' supply is cut; READMIT by the firmware and GO of a warm reset act; a warm reset goes through its phases in order; a die is
brought up by a die reset; below 105 °C the zone follows the temperature. -/
def Obligations.PowerAndDies : Prop :=
  ((∀ (c : Nat) (v : Word) (s : State), c < 128 → fld v 0 4 ≤ 8 →
    exec (.pwrreqStepWrite c v) s =
      .next ((setCtrl s (0x408200 + 8 * c) (takeFld (s.ctrlWord (0x408200 + 8 * c) (ctrlReset (.pwrreq c))) v 0 4)).modCluster c
        (fun x => { x with pend := some (fld v 0 4) }))) ∧
  (∀ (c : Nat) (v : Word) (s : State), c < 128 → s.fwUp = true → fld v 8 1 = 1 →
    let t := setCtrl s (0x408200 + 8 * c) (takeFld (takeFld (s.ctrlWord (0x408200 + 8 * c) (ctrlReset (.pwrreq c))) v 4 4) v 16 16)
    exec (.pwrreqGo c v) s =
      .next (if (t.cluster c).ramp || clusterBusy t c then t.modCluster c (fun x => { x with heldGo := some (fld v 4 4) }) else goActs t c (fld v 4 4))) ∧
  (∀ (c : Nat) (s : State), c < 128 → (s.cluster c).ramp = true → (s.cluster c).rampEnd ≤ s.time.toNat → (s.cluster c).toEight = false →
    (s.cluster c).stepDown = false → (s.cluster c).heldGo = none → (∀ d, d < 4 → (s.die d).offBusy = false) →
    exec (.rampComplete c) s =
      .next (s.setCluster c { s.cluster c with
        step := (s.cluster c).target, ramp := false, toEight := false, clears := false,
        removed := if (s.cluster c).clears then 0 else (s.cluster c).removed,
        lowRun := if (s.cluster c).clears then 0 else (s.cluster c).lowRun })) ∧
  (∀ (c amps : Nat) (s : State), c < 128 → (s.cluster c).sampled + 256 ≤ clusterCycle s c →
    let x := s.cluster c
    let now := clusterCycle s c
    let ilim := fld (ctrlRead s (0x408200 + 8 * c)) 16 16
    (ilim < amps → exec (.currentSample c amps) s =
      .next (s.setCluster c { x with sampled := now, removed := min 6 (x.removed + 1), lowRun := 0,
                                     removedSince := if x.removed = 0 then now else x.removedSince })) ∧
    (16 * amps < 15 * ilim → x.lowRun = 3 →
      exec (.currentSample c amps) s = .next (s.setCluster c { x with sampled := now, lowRun := 0, removed := x.removed - 1 })) ∧
    (16 * amps < 15 * ilim → x.lowRun ≠ 3 →
      exec (.currentSample c amps) s = .next (s.setCluster c { x with sampled := now, lowRun := x.lowRun + 1 })) ∧
    (amps ≤ ilim → 15 * ilim ≤ 16 * amps → exec (.currentSample c amps) s = .next (s.setCluster c { x with sampled := now, lowRun := 0 }))) ∧
  (∀ (c : Nat) (s : State), c < 128 → (s.cluster c).removed ≠ 0 → (s.cluster c).removedSince + 65536 ≤ clusterCycle s c → (s.cluster c).step < 8 →
    ((s.cluster c).ramp = true → (s.cluster c).clears = false →
      exec (.currentStepDown c) s = .next (s.setCluster c { s.cluster c with stepDown := true })) ∧
    ((s.cluster c).ramp = true → (s.cluster c).clears = true → exec (.currentStepDown c) s = .next s) ∧
    ((s.cluster c).ramp = false →
      let t := s.modCluster c (fun x => { x with stepDown := false, clears := true })
      exec (.currentStepDown c) s = .next (rampBegin t c ((s.cluster c).step + 1))))) ∧
  (∀ (d temp : Nat) (v : Word) (s : State), d < 4 →
    ((s.die d).zone ≠ 2 → 105 ≤ temp → dieAway (s.die (otherDie d)) = false → (s.die d).phase = .idle →
      exec (.thermalOffline d temp) s = .next (offlineBegin (s.modDie d (fun x => { x with temp := temp % 256, zone := 2, cut := false })) d)) ∧
    ((s.die d).zone ≠ 2 → 105 ≤ temp → dieAway (s.die (otherDie d)) = true →
      exec (.thermalClamp d temp) s = .next (toStepEights (s.modDie d (fun x => { x with temp := temp % 256, zone := 1, clamped := true })) d)) ∧
    (115 ≤ temp → (s.die d).cut = false → exec (.thermalCut d temp) s = .next (cutDie (s.modDie d (fun x => { x with temp := temp % 256 })) d)) ∧
    ((s.die d).offBusy = true → (s.die d).offSince + 1000000 ≤ s.time.toNat → exec (.offlineTimeoutCut d) s = .next (cutDie s d)) ∧
    (s.fwUp = true → fld v 11 1 = 1 → (s.die d).phase = .idle → (s.die d).offBusy = false → exec (.thermstReadmit d v) s = .next (readmit s d)) ∧
    (fld v 0 1 = 1 → (s.die d).phase = .idle → exec (.wrstGo d v) s = .next (wrstWrite s d v)) ∧
    (let enter : WarmPhase → State → Host.Outcome State Fault Refusal := fun p s => .next (s.modDie d (fun x => { x with phase := p }))
     ((s.die d).phase = .offline → offlineDone s d = true → exec (.warmResetPhase d true) s = enter .quiesce s) ∧
     ((s.die d).phase = .offline → offlineDone s d = false → (s.die d).offBusy = false → exec (.warmResetPhase d true) s = .next (offlineBegin s d)) ∧
     ((s.die d).phase = .quiesce → dieEngines s d = [] → exec (.warmResetPhase d true) s = enter .writeback s) ∧
     ((s.die d).phase = .writeback →
       ((dieClusters d).any (halfHeld s d) = true → exec (.warmResetPhase d true) s = .next s) ∧
       ((dieClusters d).any (halfHeld s d) = false →
         exec (.warmResetPhase d true) s = enter .reset (losePairs ((dieClusters d).foldl (emptyL2 d) s) d))) ∧
     ((s.die d).phase = .reset → exec (.warmResetPhase d true) s = enter (if d % 2 = 0 then .retrain else .readmit) s) ∧
     ((s.die d).phase = .retrain → exec (.warmResetPhase d true) s = enter .readmit s ∧
       ∃ t, exec (.warmResetPhase d false) s = .next t ∧ (t.die d).failed = true ∧ (t.die d).phase = .idle) ∧
     ((s.die d).phase = .readmit → exec (.warmResetPhase d true) s = enter .idle (bringUpDie s d))) ∧
    (dieAway (s.die d) = false → (∀ n ∈ dieSites d, ∀ k < 7, (s.slot n k).phase = .free) → exec (.dieReset d) s = .next (bringUpDie s d)) ∧
    (temp < 105 → exec (.warmZone d temp) s = .next (s.modDie d (fun x =>
      { x with temp := temp, zone := if x.zone = 2 then 2 else if 95 ≤ temp then 1 else 0, clamped := x.clamped && decide (95 ≤ temp) }))))
end

