-- ==== Sys2Proof/Laws/Encoding.lean ====
section
/-! SUPPORT. Laws/Encoding.lean: the word of each encoded instruction, as its encoder gives it, and how a word of either length
passes through the decoder. -/

namespace Sys2Proof

/-- A 32-bit word with bit 31 set passes from its bytes to the word decoder. -/
theorem decodeBytes_long (w : Nat) (h1 : 2 ^ 31 ≤ w) (h2 : w < 2 ^ 32) (r : List Byte) (i : Instr) (h : decode32 w = .ok i) :
    decodeBytes ([.ofNat 8 (w / 65536), .ofNat 8 (w / 16777216), .ofNat 8 w, .ofNat 8 (w / 256)] ++ r) = .ok (i, 4) := by
  have hp : (BitVec.ofNat 8 (w / 65536)).toNat + 256 * (BitVec.ofNat 8 (w / 16777216)).toNat = w / 65536 := by simp; omega
  have hq : w / 65536 * 65536 + (BitVec.ofNat 8 w).toNat + 256 * (BitVec.ofNat 8 (w / 256)).toNat = w := by simp; omega
  have hl : isLong (w / 65536) = true := by simp only [isLong]; simp; omega
  simp only [List.cons_append, List.nil_append, decodeBytes, hp, hl, hq, h, if_true]

/-- A parcel with bit 15 clear passes from its bytes to the compact decoder. -/
theorem decodeBytes_short (w : Nat) (h1 : w < 2 ^ 15) (r : List Byte) (i : Instr) (h : decode16 w = .ok i) :
    decodeBytes ([.ofNat 8 w, .ofNat 8 (w / 256)] ++ r) = .ok (i, 2) := by
  have hp : (BitVec.ofNat 8 w).toNat + 256 * (BitVec.ofNat 8 (w / 256)).toNat = w := by simp; omega
  have hl : isLong w = false := by simp only [isLong]; simp; omega
  simp only [List.cons_append, List.nil_append, decodeBytes, hp, hl, h]
  rfl

theorem encode_add (sl : BitVec 2) (d : BitVec 6) (a : BitVec 6) (b : BitVec 6) :
    encode (.add sl d a b) = 0x82000000 + sl.toNat * 8388608 + d.toNat * 131072 + a.toNat * 2048 + b.toNat * 32 := rfl
theorem encode_sub (sl : BitVec 2) (d : BitVec 6) (a : BitVec 6) (b : BitVec 6) :
    encode (.sub sl d a b) = 0x82000001 + sl.toNat * 8388608 + d.toNat * 131072 + a.toNat * 2048 + b.toNat * 32 := rfl
theorem encode_mul (sl : BitVec 2) (d : BitVec 6) (a : BitVec 6) (b : BitVec 6) :
    encode (.mul sl d a b) = 0x82000002 + sl.toNat * 8388608 + d.toNat * 131072 + a.toNat * 2048 + b.toNat * 32 := rfl
theorem encode_mulh (sl : BitVec 2) (d : BitVec 6) (a : BitVec 6) (b : BitVec 6) :
    encode (.mulh sl d a b) = 0x82000003 + sl.toNat * 8388608 + d.toNat * 131072 + a.toNat * 2048 + b.toNat * 32 := rfl
theorem encode_div (sl : BitVec 2) (d : BitVec 6) (a : BitVec 6) (b : BitVec 6) :
    encode (.div sl d a b) = 0x82000004 + sl.toNat * 8388608 + d.toNat * 131072 + a.toNat * 2048 + b.toNat * 32 := rfl
theorem encode_rem (sl : BitVec 2) (d : BitVec 6) (a : BitVec 6) (b : BitVec 6) :
    encode (.rem sl d a b) = 0x82000005 + sl.toNat * 8388608 + d.toNat * 131072 + a.toNat * 2048 + b.toNat * 32 := rfl
theorem encode_min (sl : BitVec 2) (d : BitVec 6) (a : BitVec 6) (b : BitVec 6) :
    encode (.min sl d a b) = 0x82000006 + sl.toNat * 8388608 + d.toNat * 131072 + a.toNat * 2048 + b.toNat * 32 := rfl
theorem encode_max (sl : BitVec 2) (d : BitVec 6) (a : BitVec 6) (b : BitVec 6) :
    encode (.max sl d a b) = 0x82000007 + sl.toNat * 8388608 + d.toNat * 131072 + a.toNat * 2048 + b.toNat * 32 := rfl
theorem encode_and (sl : BitVec 2) (d : BitVec 6) (a : BitVec 6) (b : BitVec 6) :
    encode (.and sl d a b) = 0x82000008 + sl.toNat * 8388608 + d.toNat * 131072 + a.toNat * 2048 + b.toNat * 32 := rfl
theorem encode_or (sl : BitVec 2) (d : BitVec 6) (a : BitVec 6) (b : BitVec 6) :
    encode (.or sl d a b) = 0x82000009 + sl.toNat * 8388608 + d.toNat * 131072 + a.toNat * 2048 + b.toNat * 32 := rfl
theorem encode_xor (sl : BitVec 2) (d : BitVec 6) (a : BitVec 6) (b : BitVec 6) :
    encode (.xor sl d a b) = 0x8200000A + sl.toNat * 8388608 + d.toNat * 131072 + a.toNat * 2048 + b.toNat * 32 := rfl
theorem encode_andn (sl : BitVec 2) (d : BitVec 6) (a : BitVec 6) (b : BitVec 6) :
    encode (.andn sl d a b) = 0x8200000B + sl.toNat * 8388608 + d.toNat * 131072 + a.toNat * 2048 + b.toNat * 32 := rfl
theorem encode_shl (sl : BitVec 2) (d : BitVec 6) (a : BitVec 6) (b : BitVec 6) :
    encode (.shl sl d a b) = 0x8200000C + sl.toNat * 8388608 + d.toNat * 131072 + a.toNat * 2048 + b.toNat * 32 := rfl
theorem encode_shr (sl : BitVec 2) (d : BitVec 6) (a : BitVec 6) (b : BitVec 6) :
    encode (.shr sl d a b) = 0x8200000D + sl.toNat * 8388608 + d.toNat * 131072 + a.toNat * 2048 + b.toNat * 32 := rfl
theorem encode_rol (sl : BitVec 2) (d : BitVec 6) (a : BitVec 6) (b : BitVec 6) :
    encode (.rol sl d a b) = 0x8200000E + sl.toNat * 8388608 + d.toNat * 131072 + a.toNat * 2048 + b.toNat * 32 := rfl
theorem encode_ror (sl : BitVec 2) (d : BitVec 6) (a : BitVec 6) (b : BitVec 6) :
    encode (.ror sl d a b) = 0x8200000F + sl.toNat * 8388608 + d.toNat * 131072 + a.toNat * 2048 + b.toNat * 32 := rfl
theorem encode_seteq (sl : BitVec 2) (d : BitVec 6) (a : BitVec 6) (b : BitVec 6) :
    encode (.seteq sl d a b) = 0x82000010 + sl.toNat * 8388608 + d.toNat * 131072 + a.toNat * 2048 + b.toNat * 32 := rfl
theorem encode_setne (sl : BitVec 2) (d : BitVec 6) (a : BitVec 6) (b : BitVec 6) :
    encode (.setne sl d a b) = 0x82000011 + sl.toNat * 8388608 + d.toNat * 131072 + a.toNat * 2048 + b.toNat * 32 := rfl
theorem encode_setlt (sl : BitVec 2) (d : BitVec 6) (a : BitVec 6) (b : BitVec 6) :
    encode (.setlt sl d a b) = 0x82000012 + sl.toNat * 8388608 + d.toNat * 131072 + a.toNat * 2048 + b.toNat * 32 := rfl
theorem encode_setle (sl : BitVec 2) (d : BitVec 6) (a : BitVec 6) (b : BitVec 6) :
    encode (.setle sl d a b) = 0x82000013 + sl.toNat * 8388608 + d.toNat * 131072 + a.toNat * 2048 + b.toNat * 32 := rfl
theorem encode_absd (sl : BitVec 2) (d : BitVec 6) (a : BitVec 6) (b : BitVec 6) :
    encode (.absd sl d a b) = 0x82000014 + sl.toNat * 8388608 + d.toNat * 131072 + a.toNat * 2048 + b.toNat * 32 := rfl
theorem encode_mov (sl : BitVec 2) (d : BitVec 6) (a : BitVec 6) :
    encode (.mov sl d a) = 0x84000000 + sl.toNat * 8388608 + d.toNat * 131072 + a.toNat * 2048 := rfl
theorem encode_neg (sl : BitVec 2) (d : BitVec 6) (a : BitVec 6) :
    encode (.neg sl d a) = 0x84000001 + sl.toNat * 8388608 + d.toNat * 131072 + a.toNat * 2048 := rfl
theorem encode_abs (sl : BitVec 2) (d : BitVec 6) (a : BitVec 6) :
    encode (.abs sl d a) = 0x84000002 + sl.toNat * 8388608 + d.toNat * 131072 + a.toNat * 2048 := rfl
theorem encode_not (sl : BitVec 2) (d : BitVec 6) (a : BitVec 6) :
    encode (.not sl d a) = 0x84000003 + sl.toNat * 8388608 + d.toNat * 131072 + a.toNat * 2048 := rfl
theorem encode_clz (sl : BitVec 2) (d : BitVec 6) (a : BitVec 6) :
    encode (.clz sl d a) = 0x84000004 + sl.toNat * 8388608 + d.toNat * 131072 + a.toNat * 2048 := rfl
theorem encode_ctz (sl : BitVec 2) (d : BitVec 6) (a : BitVec 6) :
    encode (.ctz sl d a) = 0x84000005 + sl.toNat * 8388608 + d.toNat * 131072 + a.toNat * 2048 := rfl
theorem encode_popc (sl : BitVec 2) (d : BitVec 6) (a : BitVec 6) :
    encode (.popc sl d a) = 0x84000006 + sl.toNat * 8388608 + d.toNat * 131072 + a.toNat * 2048 := rfl
theorem encode_brev (sl : BitVec 2) (d : BitVec 6) (a : BitVec 6) :
    encode (.brev sl d a) = 0x84000007 + sl.toNat * 8388608 + d.toNat * 131072 + a.toNat * 2048 := rfl
theorem encode_fits (sl : BitVec 2) (d : BitVec 6) (a : BitVec 6) (b : BitVec 6) :
    encode (.fits sl d a b) = 0x84000008 + sl.toNat * 8388608 + d.toNat * 131072 + a.toNat * 2048 + b.toNat * 32 := rfl
theorem encode_getw (sl : BitVec 2) (d : BitVec 6) (a : BitVec 6) :
    encode (.getw sl d a) = 0x84000009 + sl.toNat * 8388608 + d.toNat * 131072 + a.toNat * 2048 := rfl
theorem encode_getm (sl : BitVec 2) (d : BitVec 6) (a : BitVec 6) :
    encode (.getm sl d a) = 0x8400000A + sl.toNat * 8388608 + d.toNat * 131072 + a.toNat * 2048 := rfl
theorem encode_sel (sl : BitVec 2) (d : BitVec 6) (a : BitVec 6) (b : BitVec 6) (p : BitVec 5) :
    encode (.sel sl d a b p) = 0x86000000 + sl.toNat * 8388608 + d.toNat * 131072 + a.toNat * 2048 + b.toNat * 32 + p.toNat := rfl
theorem encode_bfx (sl : BitVec 2) (d : BitVec 6) (a : BitVec 6) (p : BitVec 6) (l : BitVec 5) :
    encode (.bfx sl d a p l) = 0x88000000 + sl.toNat * 8388608 + d.toNat * 131072 + a.toNat * 2048 + p.toNat * 32 + l.toNat := rfl
theorem encode_bfi (sl : BitVec 2) (d : BitVec 6) (a : BitVec 6) (p : BitVec 6) (l : BitVec 5) :
    encode (.bfi sl d a p l) = 0x8A000000 + sl.toNat * 8388608 + d.toNat * 131072 + a.toNat * 2048 + p.toNat * 32 + l.toNat := rfl
theorem encode_addi (sl : BitVec 2) (d : BitVec 6) (a : BitVec 6) (i : BitVec 11) :
    encode (.addi sl d a i) = 0x8C000000 + sl.toNat * 8388608 + d.toNat * 131072 + a.toNat * 2048 + i.toNat := rfl
theorem encode_muli (sl : BitVec 2) (d : BitVec 6) (a : BitVec 6) (i : BitVec 11) :
    encode (.muli sl d a i) = 0x8E000000 + sl.toNat * 8388608 + d.toNat * 131072 + a.toNat * 2048 + i.toNat := rfl
theorem encode_andi (sl : BitVec 2) (d : BitVec 6) (a : BitVec 6) (i : BitVec 11) :
    encode (.andi sl d a i) = 0x90000000 + sl.toNat * 8388608 + d.toNat * 131072 + a.toNat * 2048 + i.toNat := rfl
theorem encode_ori (sl : BitVec 2) (d : BitVec 6) (a : BitVec 6) (i : BitVec 11) :
    encode (.ori sl d a i) = 0x92000000 + sl.toNat * 8388608 + d.toNat * 131072 + a.toNat * 2048 + i.toNat := rfl
theorem encode_xori (sl : BitVec 2) (d : BitVec 6) (a : BitVec 6) (i : BitVec 11) :
    encode (.xori sl d a i) = 0x94000000 + sl.toNat * 8388608 + d.toNat * 131072 + a.toNat * 2048 + i.toNat := rfl
theorem encode_shli (sl : BitVec 2) (d : BitVec 6) (a : BitVec 6) (i : BitVec 6) :
    encode (.shli sl d a i) = 0x96000000 + sl.toNat * 8388608 + d.toNat * 131072 + a.toNat * 2048 + i.toNat := rfl
theorem encode_shri (sl : BitVec 2) (d : BitVec 6) (a : BitVec 6) (i : BitVec 6) :
    encode (.shri sl d a i) = 0x98000000 + sl.toNat * 8388608 + d.toNat * 131072 + a.toNat * 2048 + i.toNat := rfl
theorem encode_seteqi (sl : BitVec 2) (d : BitVec 6) (a : BitVec 6) (i : BitVec 11) :
    encode (.seteqi sl d a i) = 0x9A000000 + sl.toNat * 8388608 + d.toNat * 131072 + a.toNat * 2048 + i.toNat := rfl
theorem encode_setlti (sl : BitVec 2) (d : BitVec 6) (a : BitVec 6) (i : BitVec 11) :
    encode (.setlti sl d a i) = 0x9C000000 + sl.toNat * 8388608 + d.toNat * 131072 + a.toNat * 2048 + i.toNat := rfl
theorem encode_movi (sl : BitVec 2) (d : BitVec 6) (i : BitVec 17) :
    encode (.movi sl d i) = 0x9E000000 + sl.toNat * 8388608 + d.toNat * 131072 + i.toNat := rfl
theorem encode_movk (q : BitVec 2) (sl : BitVec 2) (d : BitVec 6) (i : BitVec 16) :
    encode (.movk q sl d i) = 0xA0000000 + q.toNat * 33554432 + sl.toNat * 8388608 + d.toNat * 131072 + i.toNat := rfl
theorem encode_rsz (sl : BitVec 2) (d : BitVec 6) (w : BitVec 6) :
    encode (.rsz sl d w) = 0xA8000000 + sl.toNat * 8388608 + d.toNat * 131072 + w.toNat * 32 := rfl
theorem encode_setm (sl : BitVec 2) (d : BitVec 6) (m : BitVec 6) :
    encode (.setm sl d m) = 0xA8000001 + sl.toNat * 8388608 + d.toNat * 131072 + m.toNat * 32 := rfl
theorem encode_borrow (sl : BitVec 2) (d : BitVec 6) (a : BitVec 6) (b : BitVec 6) :
    encode (.borrow sl d a b) = 0xA8000002 + sl.toNat * 8388608 + d.toNat * 131072 + a.toNat * 2048 + b.toNat * 32 := rfl
theorem encode_giveback (sl : BitVec 2) : encode (.giveback sl) = 0xA8000003 + sl.toNat * 8388608 := rfl
theorem encode_xget (sl : BitVec 2) (d : BitVec 6) (k : BitVec 6) :
    encode (.xget sl d k) = 0xA8000004 + sl.toNat * 8388608 + d.toNat * 131072 + k.toNat * 32 := rfl
theorem encode_xput (sl : BitVec 2) (k : BitVec 6) (a : BitVec 6) :
    encode (.xput sl k a) = 0xA8000005 + sl.toNat * 8388608 + k.toNat * 131072 + a.toNat * 2048 := rfl
theorem encode_twxch (sl : BitVec 2) (d : BitVec 6) (a : BitVec 6) :
    encode (.twxch sl d a) = 0xA8000006 + sl.toNat * 8388608 + d.toNat * 131072 + a.toNat * 2048 := rfl
theorem encode_mapld (sl : BitVec 2) (a : BitVec 6) :
    encode (.mapld sl a) = 0xA8000007 + sl.toNat * 8388608 + a.toNat * 2048 := rfl
theorem encode_mapq (sl : BitVec 2) (d : BitVec 6) (a : BitVec 6) :
    encode (.mapq sl d a) = 0xA8000008 + sl.toNat * 8388608 + d.toNat * 131072 + a.toNat * 2048 := rfl
theorem encode_gets (sl : BitVec 2) (d : BitVec 6) (r : BitVec 6) :
    encode (.gets sl d r) = 0xA8000009 + sl.toNat * 8388608 + d.toNat * 131072 + r.toNat * 32 := rfl
theorem encode_puts (sl : BitVec 2) (a : BitVec 6) (r : BitVec 6) :
    encode (.puts sl a r) = 0xA800000A + sl.toNat * 8388608 + a.toNat * 2048 + r.toNat * 32 := rfl
theorem encode_oxl (sl : BitVec 2) (k : BitVec 3) (a : BitVec 6) :
    encode (.oxl sl k a) = 0xA800000B + sl.toNat * 8388608 + k.toNat * 131072 + a.toNat * 2048 := rfl
theorem encode_oxr (sl : BitVec 2) (d : BitVec 6) (k : BitVec 3) :
    encode (.oxr sl d k) = 0xA800000C + sl.toNat * 8388608 + d.toNat * 131072 + k.toNat * 32 := rfl
theorem encode_oxclr (sl : BitVec 2) (m : BitVec 1) (k : BitVec 3) :
    encode (.oxclr sl m k) = 0xA800000D + sl.toNat * 8388608 + m.toNat * 4194304 + k.toNat * 131072 := rfl
theorem encode_oxi (sl : BitVec 2) (m : BitVec 1) (q : BitVec 2) (k : BitVec 3) (i : BitVec 17) :
    encode (.oxi sl m q k i) = 0xAA000000 + sl.toNat * 8388608 + m.toNat * 4194304 + q.toNat * 1048576 + k.toNat * 131072 + i.toNat := rfl
theorem encode_fadd (sl : BitVec 2) (d : BitVec 6) (a : BitVec 6) (b : BitVec 6) :
    encode (.fadd sl d a b) = 0xB0000000 + sl.toNat * 8388608 + d.toNat * 131072 + a.toNat * 2048 + b.toNat * 32 := rfl
theorem encode_fsub (sl : BitVec 2) (d : BitVec 6) (a : BitVec 6) (b : BitVec 6) :
    encode (.fsub sl d a b) = 0xB0000001 + sl.toNat * 8388608 + d.toNat * 131072 + a.toNat * 2048 + b.toNat * 32 := rfl
theorem encode_fmul (sl : BitVec 2) (d : BitVec 6) (a : BitVec 6) (b : BitVec 6) :
    encode (.fmul sl d a b) = 0xB0000002 + sl.toNat * 8388608 + d.toNat * 131072 + a.toNat * 2048 + b.toNat * 32 := rfl
theorem encode_fdiv (sl : BitVec 2) (d : BitVec 6) (a : BitVec 6) (b : BitVec 6) :
    encode (.fdiv sl d a b) = 0xB0000003 + sl.toNat * 8388608 + d.toNat * 131072 + a.toNat * 2048 + b.toNat * 32 := rfl
theorem encode_fmin (sl : BitVec 2) (d : BitVec 6) (a : BitVec 6) (b : BitVec 6) :
    encode (.fmin sl d a b) = 0xB0000004 + sl.toNat * 8388608 + d.toNat * 131072 + a.toNat * 2048 + b.toNat * 32 := rfl
theorem encode_fmax (sl : BitVec 2) (d : BitVec 6) (a : BitVec 6) (b : BitVec 6) :
    encode (.fmax sl d a b) = 0xB0000005 + sl.toNat * 8388608 + d.toNat * 131072 + a.toNat * 2048 + b.toNat * 32 := rfl
theorem encode_fseteq (sl : BitVec 2) (d : BitVec 6) (a : BitVec 6) (b : BitVec 6) :
    encode (.fseteq sl d a b) = 0xB0000006 + sl.toNat * 8388608 + d.toNat * 131072 + a.toNat * 2048 + b.toNat * 32 := rfl
theorem encode_fsetlt (sl : BitVec 2) (d : BitVec 6) (a : BitVec 6) (b : BitVec 6) :
    encode (.fsetlt sl d a b) = 0xB0000007 + sl.toNat * 8388608 + d.toNat * 131072 + a.toNat * 2048 + b.toNat * 32 := rfl
theorem encode_fsetle (sl : BitVec 2) (d : BitVec 6) (a : BitVec 6) (b : BitVec 6) :
    encode (.fsetle sl d a b) = 0xB0000008 + sl.toNat * 8388608 + d.toNat * 131072 + a.toNat * 2048 + b.toNat * 32 := rfl
theorem encode_fsetun (sl : BitVec 2) (d : BitVec 6) (a : BitVec 6) (b : BitVec 6) :
    encode (.fsetun sl d a b) = 0xB0000009 + sl.toNat * 8388608 + d.toNat * 131072 + a.toNat * 2048 + b.toNat * 32 := rfl
theorem encode_fcpys (sl : BitVec 2) (d : BitVec 6) (a : BitVec 6) (b : BitVec 6) :
    encode (.fcpys sl d a b) = 0xB000000A + sl.toNat * 8388608 + d.toNat * 131072 + a.toNat * 2048 + b.toNat * 32 := rfl
theorem encode_fabs (sl : BitVec 2) (d : BitVec 6) (a : BitVec 6) :
    encode (.fabs sl d a) = 0xB2000000 + sl.toNat * 8388608 + d.toNat * 131072 + a.toNat * 2048 := rfl
theorem encode_fneg (sl : BitVec 2) (d : BitVec 6) (a : BitVec 6) :
    encode (.fneg sl d a) = 0xB2000001 + sl.toNat * 8388608 + d.toNat * 131072 + a.toNat * 2048 := rfl
theorem encode_fcvt (sl : BitVec 2) (d : BitVec 6) (a : BitVec 6) (r : BitVec 6) :
    encode (.fcvt sl d a r) = 0xB2000002 + sl.toNat * 8388608 + d.toNat * 131072 + a.toNat * 2048 + r.toNat * 32 := rfl
theorem encode_frnd (sl : BitVec 2) (d : BitVec 6) (a : BitVec 6) (r : BitVec 6) :
    encode (.frnd sl d a r) = 0xB2000003 + sl.toNat * 8388608 + d.toNat * 131072 + a.toNat * 2048 + r.toNat * 32 := rfl
theorem encode_fclass (sl : BitVec 2) (d : BitVec 6) (a : BitVec 6) :
    encode (.fclass sl d a) = 0xB2000004 + sl.toNat * 8388608 + d.toNat * 131072 + a.toNat * 2048 := rfl
theorem encode_fsqrt (sl : BitVec 2) (d : BitVec 6) (a : BitVec 6) :
    encode (.fsqrt sl d a) = 0xB2000005 + sl.toNat * 8388608 + d.toNat * 131072 + a.toNat * 2048 := rfl
theorem encode_rcpa (sl : BitVec 2) (d : BitVec 6) (a : BitVec 6) :
    encode (.rcpa sl d a) = 0xB2000006 + sl.toNat * 8388608 + d.toNat * 131072 + a.toNat * 2048 := rfl
theorem encode_rsqa (sl : BitVec 2) (d : BitVec 6) (a : BitVec 6) :
    encode (.rsqa sl d a) = 0xB2000007 + sl.toNat * 8388608 + d.toNat * 131072 + a.toNat * 2048 := rfl
theorem encode_exp2a (sl : BitVec 2) (d : BitVec 6) (a : BitVec 6) :
    encode (.exp2a sl d a) = 0xB2000008 + sl.toNat * 8388608 + d.toNat * 131072 + a.toNat * 2048 := rfl
theorem encode_log2a (sl : BitVec 2) (d : BitVec 6) (a : BitVec 6) :
    encode (.log2a sl d a) = 0xB2000009 + sl.toNat * 8388608 + d.toNat * 131072 + a.toNat * 2048 := rfl
theorem encode_siga (sl : BitVec 2) (d : BitVec 6) (a : BitVec 6) :
    encode (.siga sl d a) = 0xB200000A + sl.toNat * 8388608 + d.toNat * 131072 + a.toNat * 2048 := rfl
theorem encode_tanha (sl : BitVec 2) (d : BitVec 6) (a : BitVec 6) :
    encode (.tanha sl d a) = 0xB200000B + sl.toNat * 8388608 + d.toNat * 131072 + a.toNat * 2048 := rfl
theorem encode_ffma (sl : BitVec 2) (d : BitVec 6) (a : BitVec 6) (b : BitVec 6) :
    encode (.ffma sl d a b) = 0xB4000000 + sl.toNat * 8388608 + d.toNat * 131072 + a.toNat * 2048 + b.toNat * 32 := rfl
theorem encode_ffms (sl : BitVec 2) (d : BitVec 6) (a : BitVec 6) (b : BitVec 6) :
    encode (.ffms sl d a b) = 0xB4000001 + sl.toNat * 8388608 + d.toNat * 131072 + a.toNat * 2048 + b.toNat * 32 := rfl
theorem encode_rcps (sl : BitVec 2) (d : BitVec 6) (a : BitVec 6) (b : BitVec 6) :
    encode (.rcps sl d a b) = 0xB4000002 + sl.toNat * 8388608 + d.toNat * 131072 + a.toNat * 2048 + b.toNat * 32 := rfl
theorem encode_rsqs (sl : BitVec 2) (d : BitVec 6) (a : BitVec 6) (b : BitVec 6) :
    encode (.rsqs sl d a b) = 0xB4000003 + sl.toNat * 8388608 + d.toNat * 131072 + a.toNat * 2048 + b.toNat * 32 := rfl
theorem encode_br (sl : BitVec 2) (c : BitVec 6) (t : BitVec 2) (o : BitVec 15) :
    encode (.br sl c t o) = 0xC0000000 + sl.toNat * 8388608 + c.toNat * 131072 + t.toNat * 32768 + o.toNat := rfl
theorem encode_call (sl : BitVec 2) (d : BitVec 6) (i : BitVec 17) :
    encode (.call sl d i) = 0xC2000000 + sl.toNat * 8388608 + d.toNat * 131072 + i.toNat := rfl
theorem encode_loop (sl : BitVec 2) (c : BitVec 6) (o : BitVec 15) :
    encode (.loop sl c o) = 0xC4008000 + sl.toNat * 8388608 + c.toNat * 131072 + o.toNat := rfl
theorem encode_jmp (sl : BitVec 2) (a : BitVec 6) : encode (.jmp sl a) = 0xC6000000 + sl.toNat * 8388608 + a.toNat * 2048 := rfl
theorem encode_callr (sl : BitVec 2) (d : BitVec 6) (a : BitVec 6) :
    encode (.callr sl d a) = 0xC6000001 + sl.toNat * 8388608 + d.toNat * 131072 + a.toNat * 2048 := rfl
theorem encode_ret (sl : BitVec 2) (a : BitVec 6) : encode (.ret sl a) = 0xC6000002 + sl.toNat * 8388608 + a.toNat * 2048 := rfl
theorem encode_yield (sl : BitVec 2) : encode (.yield sl) = 0xC6000003 + sl.toNat * 8388608 := rfl
theorem encode_exit (sl : BitVec 2) (a : BitVec 6) :
    encode (.exit sl a) = 0xC6000004 + sl.toNat * 8388608 + a.toNat * 2048 := rfl
theorem encode_trap (sl : BitVec 2) (b : BitVec 6) : encode (.trap sl b) = 0xC6000005 + sl.toNat * 8388608 + b.toNat * 32 := rfl
theorem encode_brk (sl : BitVec 2) : encode (.brk sl) = 0xC6000006 + sl.toNat * 8388608 := rfl
theorem encode_nop (sl : BitVec 2) : encode (.nop sl) = 0xC6000007 + sl.toNat * 8388608 := rfl
theorem encode_callat (sl : BitVec 2) (d : BitVec 6) (a : BitVec 6) (b : BitVec 6) :
    encode (.callat sl d a b) = 0xC6000008 + sl.toNat * 8388608 + d.toNat * 131072 + a.toNat * 2048 + b.toNat * 32 := rfl
theorem encode_send (sl : BitVec 2) (a : BitVec 6) (b : BitVec 6) :
    encode (.send sl a b) = 0xC8000000 + sl.toNat * 8388608 + a.toNat * 2048 + b.toNat * 32 := rfl
theorem encode_recv (sl : BitVec 2) (d : BitVec 6) (a : BitVec 6) (b : BitVec 6) :
    encode (.recv sl d a b) = 0xC8000001 + sl.toNat * 8388608 + d.toNat * 131072 + a.toNat * 2048 + b.toNat * 32 := rfl
theorem encode_tryrecv (sl : BitVec 2) (d : BitVec 6) (a : BitVec 6) (b : BitVec 6) :
    encode (.tryrecv sl d a b) = 0xC8000002 + sl.toNat * 8388608 + d.toNat * 131072 + a.toNat * 2048 + b.toNat * 32 := rfl
theorem encode_chstat (sl : BitVec 2) (d : BitVec 6) (b : BitVec 6) :
    encode (.chstat sl d b) = 0xC8000003 + sl.toNat * 8388608 + d.toNat * 131072 + b.toNat * 32 := rfl
theorem encode_spawn (sl : BitVec 2) (d : BitVec 6) (a : BitVec 6) (u : BitVec 1) :
    encode (.spawn sl d a u) = 0xC8000004 + sl.toNat * 8388608 + d.toNat * 131072 + a.toNat * 2048 + u.toNat * 32 := rfl
theorem encode_dep (sl : BitVec 2) (a : BitVec 6) : encode (.dep sl a) = 0xC8000005 + sl.toNat * 8388608 + a.toNat * 2048 := rfl
theorem encode_waitany (sl : BitVec 2) (d : BitVec 6) (a : BitVec 6) :
    encode (.waitany sl d a) = 0xC8000006 + sl.toNat * 8388608 + d.toNat * 131072 + a.toNat * 2048 := rfl
theorem encode_waitall (sl : BitVec 2) (d : BitVec 6) (a : BitVec 6) :
    encode (.waitall sl d a) = 0xC8000007 + sl.toNat * 8388608 + d.toNat * 131072 + a.toNat * 2048 := rfl
theorem encode_ffr (sl : BitVec 2) (d : BitVec 6) (a : BitVec 6) :
    encode (.ffr sl d a) = 0xC8000008 + sl.toNat * 8388608 + d.toNat * 131072 + a.toNat * 2048 := rfl
theorem encode_tagclr (sl : BitVec 2) (a : BitVec 6) :
    encode (.tagclr sl a) = 0xC8000009 + sl.toNat * 8388608 + a.toNat * 2048 := rfl
theorem encode_bari (sl : BitVec 2) (d : BitVec 6) (a : BitVec 6) (b : BitVec 6) :
    encode (.bari sl d a b) = 0xC800000A + sl.toNat * 8388608 + d.toNat * 131072 + a.toNat * 2048 + b.toNat * 32 := rfl
theorem encode_arrive (sl : BitVec 2) (d : BitVec 6) (a : BitVec 6) (b : BitVec 6) :
    encode (.arrive sl d a b) = 0xC800000B + sl.toNat * 8388608 + d.toNat * 131072 + a.toNat * 2048 + b.toNat * 32 := rfl
theorem encode_waitb (sl : BitVec 2) (d : BitVec 6) (a : BitVec 6) (b : BitVec 6) :
    encode (.waitb sl d a b) = 0xC800000C + sl.toNat * 8388608 + d.toNat * 131072 + a.toNat * 2048 + b.toNat * 32 := rfl
theorem encode_waitch (sl : BitVec 2) (d : BitVec 6) (a : BitVec 6) (b : BitVec 6) :
    encode (.waitch sl d a b) = 0xC800000D + sl.toNat * 8388608 + d.toNat * 131072 + a.toNat * 2048 + b.toNat * 32 := rfl
theorem encode_push (sl : BitVec 2) (d : BitVec 6) (q : BitVec 6) (b : BitVec 6) :
    encode (.push sl d q b) = 0xC800000E + sl.toNat * 8388608 + d.toNat * 131072 + q.toNat * 2048 + b.toNat * 32 := rfl
theorem encode_qstat (sl : BitVec 2) (d : BitVec 6) (q : BitVec 6) :
    encode (.qstat sl d q) = 0xC800000F + sl.toNat * 8388608 + d.toNat * 131072 + q.toNat * 32 := rfl
theorem encode_ld (sl : BitVec 2) (d : BitVec 6) (a : BitVec 6) (i : BitVec 11) :
    encode (.ld sl d a i) = 0xD0000000 + sl.toNat * 8388608 + d.toNat * 131072 + a.toNat * 2048 + i.toNat := rfl
theorem encode_st (sl : BitVec 2) (d : BitVec 6) (a : BitVec 6) (i : BitVec 11) :
    encode (.st sl d a i) = 0xD2000000 + sl.toNat * 8388608 + d.toNat * 131072 + a.toNat * 2048 + i.toNat := rfl
theorem encode_lda (sl : BitVec 2) (d : BitVec 6) (a : BitVec 6) (i : BitVec 11) :
    encode (.lda sl d a i) = 0xD4000000 + sl.toNat * 8388608 + d.toNat * 131072 + a.toNat * 2048 + i.toNat := rfl
theorem encode_stl (sl : BitVec 2) (d : BitVec 6) (a : BitVec 6) (i : BitVec 11) :
    encode (.stl sl d a i) = 0xD6000000 + sl.toNat * 8388608 + d.toNat * 131072 + a.toNat * 2048 + i.toNat := rfl
theorem encode_spill (sl : BitVec 2) (d : BitVec 6) (a : BitVec 6) (b : BitVec 6) :
    encode (.spill sl d a b) = 0xD8000000 + sl.toNat * 8388608 + d.toNat * 131072 + a.toNat * 2048 + b.toNat * 32 := rfl
theorem encode_fill (sl : BitVec 2) (d : BitVec 6) (a : BitVec 6) (b : BitVec 6) :
    encode (.fill sl d a b) = 0xD8000001 + sl.toNat * 8388608 + d.toNat * 131072 + a.toNat * 2048 + b.toNat * 32 := rfl
theorem encode_pf (sl : BitVec 2) (a : BitVec 6) (b : BitVec 6) :
    encode (.pf sl a b) = 0xD8000002 + sl.toNat * 8388608 + a.toNat * 2048 + b.toNat * 32 := rfl
theorem encode_flush (sl : BitVec 2) (d : BitVec 6) (a : BitVec 6) (b : BitVec 6) :
    encode (.flush sl d a b) = 0xD8000003 + sl.toNat * 8388608 + d.toNat * 131072 + a.toNat * 2048 + b.toNat * 32 := rfl
theorem encode_inv (sl : BitVec 2) (d : BitVec 6) (a : BitVec 6) (b : BitVec 6) :
    encode (.inv sl d a b) = 0xD8000004 + sl.toNat * 8388608 + d.toNat * 131072 + a.toNat * 2048 + b.toNat * 32 := rfl
theorem encode_fence (sl : BitVec 2) (d : BitVec 6) (b : BitVec 6) :
    encode (.fence sl d b) = 0xD8000005 + sl.toNat * 8388608 + d.toNat * 131072 + b.toNat * 32 := rfl
theorem encode_ldx (sl : BitVec 2) (d : BitVec 6) (a : BitVec 6) (b : BitVec 6) :
    encode (.ldx sl d a b) = 0xD8000006 + sl.toNat * 8388608 + d.toNat * 131072 + a.toNat * 2048 + b.toNat * 32 := rfl
theorem encode_stx (sl : BitVec 2) (d : BitVec 6) (a : BitVec 6) (b : BitVec 6) :
    encode (.stx sl d a b) = 0xD8000007 + sl.toNat * 8388608 + d.toNat * 131072 + a.toNat * 2048 + b.toNat * 32 := rfl
theorem encode_stc (sl : BitVec 2) (d : BitVec 6) (a : BitVec 6) (b : BitVec 6) :
    encode (.stc sl d a b) = 0xD8000008 + sl.toNat * 8388608 + d.toNat * 131072 + a.toNat * 2048 + b.toNat * 32 := rfl
theorem encode_aadd (sl : BitVec 2) (d : BitVec 6) (a : BitVec 6) (b : BitVec 6) :
    encode (.aadd sl d a b) = 0xDA000000 + sl.toNat * 8388608 + d.toNat * 131072 + a.toNat * 2048 + b.toNat * 32 := rfl
theorem encode_aand (sl : BitVec 2) (d : BitVec 6) (a : BitVec 6) (b : BitVec 6) :
    encode (.aand sl d a b) = 0xDA000001 + sl.toNat * 8388608 + d.toNat * 131072 + a.toNat * 2048 + b.toNat * 32 := rfl
theorem encode_aor (sl : BitVec 2) (d : BitVec 6) (a : BitVec 6) (b : BitVec 6) :
    encode (.aor sl d a b) = 0xDA000002 + sl.toNat * 8388608 + d.toNat * 131072 + a.toNat * 2048 + b.toNat * 32 := rfl
theorem encode_axor (sl : BitVec 2) (d : BitVec 6) (a : BitVec 6) (b : BitVec 6) :
    encode (.axor sl d a b) = 0xDA000003 + sl.toNat * 8388608 + d.toNat * 131072 + a.toNat * 2048 + b.toNat * 32 := rfl
theorem encode_amin (sl : BitVec 2) (d : BitVec 6) (a : BitVec 6) (b : BitVec 6) :
    encode (.amin sl d a b) = 0xDA000004 + sl.toNat * 8388608 + d.toNat * 131072 + a.toNat * 2048 + b.toNat * 32 := rfl
theorem encode_amax (sl : BitVec 2) (d : BitVec 6) (a : BitVec 6) (b : BitVec 6) :
    encode (.amax sl d a b) = 0xDA000005 + sl.toNat * 8388608 + d.toNat * 131072 + a.toNat * 2048 + b.toNat * 32 := rfl
theorem encode_aswp (sl : BitVec 2) (d : BitVec 6) (a : BitVec 6) (b : BitVec 6) :
    encode (.aswp sl d a b) = 0xDA000006 + sl.toNat * 8388608 + d.toNat * 131072 + a.toNat * 2048 + b.toNat * 32 := rfl
theorem encode_acas (sl : BitVec 2) (d : BitVec 6) (a : BitVec 6) (b : BitVec 6) :
    encode (.acas sl d a b) = 0xDA000007 + sl.toNat * 8388608 + d.toNat * 131072 + a.toNat * 2048 + b.toNat * 32 := rfl
theorem encode_faadd (sl : BitVec 2) (d : BitVec 6) (a : BitVec 6) (b : BitVec 6) :
    encode (.faadd sl d a b) = 0xDA000008 + sl.toNat * 8388608 + d.toNat * 131072 + a.toNat * 2048 + b.toNat * 32 := rfl
theorem encode_lock (sl : BitVec 2) (d : BitVec 6) (a : BitVec 6) :
    encode (.lock sl d a) = 0xDC000000 + sl.toNat * 8388608 + d.toNat * 131072 + a.toNat * 2048 := rfl
theorem encode_unlock (sl : BitVec 2) (d : BitVec 6) (a : BitVec 6) :
    encode (.unlock sl d a) = 0xDC000001 + sl.toNat * 8388608 + d.toNat * 131072 + a.toNat * 2048 := rfl
theorem encode_hold (sl : BitVec 2) (d : BitVec 6) (a : BitVec 6) (b : BitVec 6) :
    encode (.hold sl d a b) = 0xDC000002 + sl.toNat * 8388608 + d.toNat * 131072 + a.toNat * 2048 + b.toNat * 32 := rfl
theorem encode_will (sl : BitVec 2) (d : BitVec 6) (a : BitVec 6) (b : BitVec 6) :
    encode (.will sl d a b) = 0xDC000003 + sl.toNat * 8388608 + d.toNat * 131072 + a.toNat * 2048 + b.toNat * 32 := rfl
theorem encode_relh (sl : BitVec 2) (d : BitVec 6) (a : BitVec 6) :
    encode (.relh sl d a) = 0xDC000004 + sl.toNat * 8388608 + d.toNat * 131072 + a.toNat * 2048 := rfl
theorem encode_convey (sl : BitVec 2) (d : BitVec 6) (a : BitVec 6) :
    encode (.convey sl d a) = 0xDC000005 + sl.toNat * 8388608 + d.toNat * 131072 + a.toNat * 2048 := rfl
theorem encode_estq (sl : BitVec 2) (d : BitVec 6) (a : BitVec 6) (b : BitVec 6) :
    encode (.estq sl d a b) = 0xDC000006 + sl.toNat * 8388608 + d.toNat * 131072 + a.toNat * 2048 + b.toNat * 32 := rfl
theorem encode_prmk (sl : BitVec 2) (a : BitVec 6) :
    encode (.prmk sl a) = 0xDC000007 + sl.toNat * 8388608 + a.toNat * 2048 := rfl
theorem encode_keep (sl : BitVec 2) (d : BitVec 6) (a : BitVec 6) (b : BitVec 6) :
    encode (.keep sl d a b) = 0xDC000008 + sl.toNat * 8388608 + d.toNat * 131072 + a.toNat * 2048 + b.toNat * 32 := rfl
theorem encode_awaitp (sl : BitVec 2) (d : BitVec 6) (a : BitVec 6) :
    encode (.awaitp sl d a) = 0xDC000009 + sl.toNat * 8388608 + d.toNat * 131072 + a.toNat * 2048 := rfl
theorem encode_prmq (sl : BitVec 2) (d : BitVec 6) (a : BitVec 6) :
    encode (.prmq sl d a) = 0xDC00000A + sl.toNat * 8388608 + d.toNat * 131072 + a.toNat * 2048 := rfl
theorem encode_chain (sl : BitVec 2) (d : BitVec 6) (a : BitVec 6) (b : BitVec 6) :
    encode (.chain sl d a b) = 0xE0000000 + sl.toNat * 8388608 + d.toNat * 131072 + a.toNat * 2048 + b.toNat * 32 := rfl
theorem encode_reduce (sl : BitVec 2) (d : BitVec 6) (a : BitVec 6) (b : BitVec 6) :
    encode (.reduce sl d a b) = 0xE0000001 + sl.toNat * 8388608 + d.toNat * 131072 + a.toNat * 2048 + b.toNat * 32 := rfl
theorem encode_gather (sl : BitVec 2) (d : BitVec 6) (a : BitVec 6) (b : BitVec 6) :
    encode (.gather sl d a b) = 0xE0000002 + sl.toNat * 8388608 + d.toNat * 131072 + a.toNat * 2048 + b.toNat * 32 := rfl
theorem encode_scatter (sl : BitVec 2) (d : BitVec 6) (a : BitVec 6) (b : BitVec 6) :
    encode (.scatter sl d a b) = 0xE0000003 + sl.toNat * 8388608 + d.toNat * 131072 + a.toNat * 2048 + b.toNat * 32 := rfl
theorem encode_cpyb (sl : BitVec 2) (d : BitVec 6) (a : BitVec 6) (b : BitVec 6) :
    encode (.cpyb sl d a b) = 0xE0000004 + sl.toNat * 8388608 + d.toNat * 131072 + a.toNat * 2048 + b.toNat * 32 := rfl
theorem encode_fills (sl : BitVec 2) (d : BitVec 6) (a : BitVec 6) (b : BitVec 6) :
    encode (.fills sl d a b) = 0xE0000005 + sl.toNat * 8388608 + d.toNat * 131072 + a.toNat * 2048 + b.toNat * 32 := rfl
theorem encode_setf (sl : BitVec 2) (a : BitVec 6) (b : BitVec 6) :
    encode (.setf sl a b) = 0xE0000006 + sl.toNat * 8388608 + a.toNat * 2048 + b.toNat * 32 := rfl
theorem encode_getf (sl : BitVec 2) (d : BitVec 6) (b : BitVec 6) :
    encode (.getf sl d b) = 0xE0000007 + sl.toNat * 8388608 + d.toNat * 131072 + b.toNat * 32 := rfl
theorem encode_xform (sl : BitVec 2) (d : BitVec 6) (a : BitVec 6) (b : BitVec 6) :
    encode (.xform sl d a b) = 0xE0000008 + sl.toNat * 8388608 + d.toNat * 131072 + a.toNat * 2048 + b.toNat * 32 := rfl
theorem encode_srand (sl : BitVec 2) (a : BitVec 6) :
    encode (.srand sl a) = 0xE0000009 + sl.toNat * 8388608 + a.toNat * 2048 := rfl
theorem encode_licq (sl : BitVec 2) (d : BitVec 6) :
    encode (.licq sl d) = 0xE8000000 + sl.toNat * 8388608 + d.toNat * 131072 := rfl
theorem encode_licw (sl : BitVec 2) (d : BitVec 6) :
    encode (.licw sl d) = 0xE8000001 + sl.toNat * 8388608 + d.toNat * 131072 := rfl
theorem encode_licr (sl : BitVec 2) (d : BitVec 6) :
    encode (.licr sl d) = 0xE8000002 + sl.toNat * 8388608 + d.toNat * 131072 := rfl
theorem encode_lics (sl : BitVec 2) (d : BitVec 6) :
    encode (.lics sl d) = 0xE8000003 + sl.toNat * 8388608 + d.toNat * 131072 := rfl
theorem encode_mma (sl : BitVec 2) (d : BitVec 6) (a : BitVec 6) (b : BitVec 6) :
    encode (.mma sl d a b) = 0xE8000004 + sl.toNat * 8388608 + d.toNat * 131072 + a.toNat * 2048 + b.toNat * 32 := rfl
theorem encode_mmad (sl : BitVec 2) (d : BitVec 6) (a : BitVec 6) (b : BitVec 6) :
    encode (.mmad sl d a b) = 0xE8000005 + sl.toNat * 8388608 + d.toNat * 131072 + a.toNat * 2048 + b.toNat * 32 := rfl
theorem encode_topk (sl : BitVec 2) (d : BitVec 6) (a : BitVec 6) (b : BitVec 6) :
    encode (.topk sl d a b) = 0xE8000006 + sl.toNat * 8388608 + d.toNat * 131072 + a.toNat * 2048 + b.toNat * 32 := rfl
theorem encode_aclr (sl : BitVec 2) (m : BitVec 4) : encode (.aclr sl m) = 0xE8000007 + sl.toNat * 8388608 + m.toNat * 32 := rfl
theorem encode_drn (sl : BitVec 2) (d : BitVec 6) (a : BitVec 6) (b : BitVec 6) :
    encode (.drn sl d a b) = 0xE8000008 + sl.toNat * 8388608 + d.toNat * 131072 + a.toNat * 2048 + b.toNat * 32 := rfl
theorem encode_drn2 (sl : BitVec 2) (d : BitVec 6) (a : BitVec 6) (b : BitVec 6) :
    encode (.drn2 sl d a b) = 0xE8000009 + sl.toNat * 8388608 + d.toNat * 131072 + a.toNat * 2048 + b.toNat * 32 := rfl
theorem encode_asave (sl : BitVec 2) (d : BitVec 6) (a : BitVec 6) (b : BitVec 6) :
    encode (.asave sl d a b) = 0xE800000A + sl.toNat * 8388608 + d.toNat * 131072 + a.toNat * 2048 + b.toNat * 32 := rfl
theorem encode_arst (sl : BitVec 2) (d : BitVec 6) (a : BitVec 6) (b : BitVec 6) :
    encode (.arst sl d a b) = 0xE800000B + sl.toNat * 8388608 + d.toNat * 131072 + a.toNat * 2048 + b.toNat * 32 := rfl
theorem encode_ppt (sl : BitVec 2) (m : BitVec 4) : encode (.ppt sl m) = 0xE800000C + sl.toNat * 8388608 + m.toNat * 32 := rfl
theorem encode_mwait (sl : BitVec 2) (d : BitVec 6) (b : BitVec 6) :
    encode (.mwait sl d b) = 0xE800000D + sl.toNat * 8388608 + d.toNat * 131072 + b.toNat * 32 := rfl
theorem encode_sret (sl : BitVec 2) (a : BitVec 6) (b : BitVec 6) :
    encode (.sret sl a b) = 0xF0000000 + sl.toNat * 8388608 + a.toNat * 2048 + b.toNat * 32 := rfl
theorem encode_getp (sl : BitVec 2) (d : BitVec 6) (a : BitVec 6) (b : BitVec 6) :
    encode (.getp sl d a b) = 0xF0000001 + sl.toNat * 8388608 + d.toNat * 131072 + a.toNat * 2048 + b.toNat * 32 := rfl
theorem encode_putp (sl : BitVec 2) (d : BitVec 6) (a : BitVec 6) (b : BitVec 6) :
    encode (.putp sl d a b) = 0xF0000002 + sl.toNat * 8388608 + d.toNat * 131072 + a.toNat * 2048 + b.toNat * 32 := rfl
theorem encode_tlbi (sl : BitVec 2) (a : BitVec 6) (b : BitVec 6) :
    encode (.tlbi sl a b) = 0xF0000003 + sl.toNat * 8388608 + a.toNat * 2048 + b.toNat * 32 := rfl
theorem encode_ckpt (sl : BitVec 2) (d : BitVec 6) (b : BitVec 6) :
    encode (.ckpt sl d b) = 0xF0000004 + sl.toNat * 8388608 + d.toNat * 131072 + b.toNat * 32 := rfl
theorem encode_kill (sl : BitVec 2) (d : BitVec 6) (a : BitVec 6) (y : BitVec 1) (h : BitVec 1) :
    encode (.kill sl d a y h) = 0xF0000005 + sl.toNat * 8388608 + d.toNat * 131072 + a.toNat * 2048 + y.toNat * 64 + h.toNat * 32 := rfl
theorem encode_slots (sl : BitVec 2) (d : BitVec 6) :
    encode (.slots sl d) = 0xF0000006 + sl.toNat * 8388608 + d.toNat * 131072 := rfl
theorem encode_licf (sl : BitVec 2) (d : BitVec 6) (a : BitVec 6) (b : BitVec 6) :
    encode (.licf sl d a b) = 0xF0000007 + sl.toNat * 8388608 + d.toNat * 131072 + a.toNat * 2048 + b.toNat * 32 := rfl
theorem encode_ibpeek (sl : BitVec 2) (d : BitVec 6) (b : BitVec 6) :
    encode (.ibpeek sl d b) = 0xF0000008 + sl.toNat * 8388608 + d.toNat * 131072 + b.toNat * 32 := rfl
theorem encode_ibtake (sl : BitVec 2) (d : BitVec 6) (b : BitVec 6) :
    encode (.ibtake sl d b) = 0xF0000009 + sl.toNat * 8388608 + d.toNat * 131072 + b.toNat * 32 := rfl
theorem encode_defer (sl : BitVec 2) (d : BitVec 6) :
    encode (.defer sl d) = 0xF000000A + sl.toNat * 8388608 + d.toNat * 131072 := rfl
theorem encode_resume (sl : BitVec 2) (d : BitVec 6) (a : BitVec 6) :
    encode (.resume sl d a) = 0xF000000B + sl.toNat * 8388608 + d.toNat * 131072 + a.toNat * 2048 := rfl
theorem encode_evict (sl : BitVec 2) (d : BitVec 6) (a : BitVec 6) (b : BitVec 6) :
    encode (.evict sl d a b) = 0xF000000C + sl.toNat * 8388608 + d.toNat * 131072 + a.toNat * 2048 + b.toNat * 32 := rfl
theorem encode_trace (sl : BitVec 2) (a : BitVec 6) (b : BitVec 6) :
    encode (.trace sl a b) = 0xF000000D + sl.toNat * 8388608 + a.toNat * 2048 + b.toNat * 32 := rfl
theorem encode_addCompact (d : BitVec 5) (a : BitVec 5) : encode (.addCompact d a) = 0x0400 + d.toNat * 32 + a.toNat := rfl
theorem encode_subCompact (d : BitVec 5) (a : BitVec 5) : encode (.subCompact d a) = 0x0800 + d.toNat * 32 + a.toNat := rfl
theorem encode_andCompact (d : BitVec 5) (a : BitVec 5) : encode (.andCompact d a) = 0x0C00 + d.toNat * 32 + a.toNat := rfl
theorem encode_orCompact (d : BitVec 5) (a : BitVec 5) : encode (.orCompact d a) = 0x1000 + d.toNat * 32 + a.toNat := rfl
theorem encode_xorCompact (d : BitVec 5) (a : BitVec 5) : encode (.xorCompact d a) = 0x1400 + d.toNat * 32 + a.toNat := rfl
theorem encode_movCompact (d : BitVec 5) (a : BitVec 5) : encode (.movCompact d a) = 0x1800 + d.toNat * 32 + a.toNat := rfl
theorem encode_addiCompact (d : BitVec 5) (i : BitVec 5) : encode (.addiCompact d i) = 0x1C00 + d.toNat * 32 + i.toNat := rfl
theorem encode_shliCompact (d : BitVec 5) (i : BitVec 5) : encode (.shliCompact d i) = 0x2000 + d.toNat * 32 + i.toNat := rfl
theorem encode_shriCompact (d : BitVec 5) (i : BitVec 5) : encode (.shriCompact d i) = 0x2400 + d.toNat * 32 + i.toNat := rfl
theorem encode_seteqCompact (d : BitVec 5) (a : BitVec 5) : encode (.seteqCompact d a) = 0x2800 + d.toNat * 32 + a.toNat := rfl
theorem encode_setltCompact (d : BitVec 5) (a : BitVec 5) : encode (.setltCompact d a) = 0x2C00 + d.toNat * 32 + a.toNat := rfl
theorem encode_ldCompact (d : BitVec 5) (a : BitVec 5) : encode (.ldCompact d a) = 0x3000 + d.toNat * 32 + a.toNat := rfl
theorem encode_stCompact (d : BitVec 5) (a : BitVec 5) : encode (.stCompact d a) = 0x3400 + d.toNat * 32 + a.toNat := rfl
theorem encode_brz (d : BitVec 5) (o : BitVec 5) : encode (.brz d o) = 0x3800 + d.toNat * 32 + o.toNat := rfl
theorem encode_brnz (d : BitVec 5) (o : BitVec 5) : encode (.brnz d o) = 0x3C00 + d.toNat * 32 + o.toNat := rfl
theorem encode_nopCompact : encode .nopCompact = 0x4000 := rfl
theorem encode_yieldCompact : encode .yieldCompact = 0x4400 := rfl
theorem encode_faddCompact (d : BitVec 5) (a : BitVec 5) : encode (.faddCompact d a) = 0x4800 + d.toNat * 32 + a.toNat := rfl
theorem encode_fmulCompact (d : BitVec 5) (a : BitVec 5) : encode (.fmulCompact d a) = 0x4C00 + d.toNat * 32 + a.toNat := rfl

end Sys2Proof
end

