-- ==== Sys2Proof/Laws/Memory.lean ====
section
/-! SUPPORT. Laws/Memory.lean: the byte store. Every operation that changes it keeps its one form; a read after a write gives
what was written, and a write leaves every other address alone. -/

namespace Sys2Proof.Machine

/-! ## One byte -/

theorem memWfFrom_mono {m : List Host.Cell} {lo lo' : Nat} (h : memWfFrom lo m = true) (hl : lo' ≤ lo) : memWfFrom lo' m = true := by
  cases m with
  | nil => rfl
  | cons c r => simp only [memWfFrom, Bool.and_eq_true, decide_eq_true_eq] at h ⊢; exact ⟨⟨by omega, h.1.2⟩, h.2⟩

/-- An address below the list is not listed. -/
theorem memRead_below {m : List Host.Cell} {lo a : Nat} (h : memWfFrom lo m = true) (ha : a < lo) : memRead m a = 0 := by
  induction m generalizing lo with
  | nil => rfl
  | cons c r ih =>
    simp only [memWfFrom, Bool.and_eq_true, decide_eq_true_eq] at h
    simp only [memRead, if_neg (show ¬ c.1 = a by omega)]
    exact ih h.2 (by omega)

theorem memWfFrom_write {m : List Host.Cell} {lo a : Nat} (v : Byte) (h : memWfFrom lo m = true) (ha : lo ≤ a) :
    memWfFrom lo (memWrite m a v) = true := by
  induction m generalizing lo with
  | nil => simp only [memWrite]; split_ifs with hv; · rfl
           simp [memWfFrom, ha]; exact hv
  | cons c r ih =>
    have h' := h
    simp only [memWfFrom, Bool.and_eq_true, decide_eq_true_eq, bne_iff_ne] at h
    simp only [memWrite]
    split_ifs with h1 h2 h3 h4
    · exact memWfFrom_mono h.2 (by omega)
    · subst h1; simp [memWfFrom, h.1.1, h.2]; exact h2
    · exact h'
    · simp only [memWfFrom, Bool.and_eq_true, decide_eq_true_eq, bne_iff_ne]; exact ⟨⟨ha, h4⟩, ⟨by omega, h.1.2⟩, h.2⟩
    · simp only [memWfFrom, Bool.and_eq_true, decide_eq_true_eq, bne_iff_ne]; exact ⟨h.1, ih h.2 (by omega)⟩

/-- Writing a byte keeps the form. -/
theorem memWf_write {m : List Host.Cell} (h : memWf m = true) (a : Nat) (v : Byte) : memWf (memWrite m a v) = true :=
  memWfFrom_write v h (Nat.zero_le a)

theorem memRead_writeFrom {m : List Host.Cell} {lo : Nat} (h : memWfFrom lo m = true) (a b : Nat) (v : Byte) :
    memRead (memWrite m a v) b = if a = b then v else memRead m b := by
  induction m generalizing lo with
  | nil => simp only [memWrite]; split_ifs with hv hb hb
           · exact hv.symm
           · rfl
           · simp [memRead, hb]
           · simp [memRead, hb]
  | cons c r ih =>
    simp only [memWfFrom, Bool.and_eq_true, decide_eq_true_eq] at h
    have low : ∀ x, x ≤ c.1 → memRead r x = 0 := fun x hx => memRead_below h.2 (by omega)
    simp only [memWrite]
    by_cases h1 : a = c.1
    · rw [if_pos h1]
      by_cases h2 : v = 0 <;> by_cases hb : a = b
      · rw [if_pos h2, if_pos hb, ← hb, low a (by omega), h2]
      · rw [if_pos h2, if_neg hb]; simp only [memRead]; rw [if_neg (by omega)]
      · rw [if_neg h2, if_pos hb]; simp only [memRead]; rw [if_pos hb]
      · rw [if_neg h2, if_neg hb]; simp only [memRead]; rw [if_neg hb, if_neg (by omega)]
    · rw [if_neg h1]
      by_cases h3 : a < c.1
      · rw [if_pos h3]
        by_cases h2 : v = 0 <;> by_cases hb : a = b
        · rw [if_pos h2, if_pos hb, h2, ← hb]; simp only [memRead]; rw [if_neg (by omega), low a (by omega)]
        · rw [if_pos h2, if_neg hb]
        · rw [if_neg h2, if_pos hb]; simp only [memRead]; rw [if_pos hb]
        · rw [if_neg h2, if_neg hb]; simp only [memRead]; rw [if_neg hb]
      · rw [if_neg h3]; simp only [memRead]; rw [ih h.2]
        by_cases hb : a = b
        · rw [if_pos hb, if_neg (by omega), if_pos hb]
        · rw [if_neg hb, if_neg hb]

/-- A read after a write of one byte: what was written at that address, what was there before at every other. -/
theorem memRead_write {m : List Host.Cell} (h : memWf m = true) (a b : Nat) (v : Byte) :
    memRead (memWrite m a v) b = if a = b then v else memRead m b := memRead_writeFrom h a b v

/-! ## Several bytes -/

theorem memWf_writeLE (n : Nat) : ∀ {m : List Host.Cell} (a v : Nat), memWf m = true → memWf (memWriteLE m a n v) = true := by
  induction n with
  | zero => exact fun _ _ h => h
  | succ n ih => exact fun a v h => ih (a + 1) (v / 256) (memWf_write h a _)

theorem memWf_writeMask (n : Nat) :
    ∀ {m : List Host.Cell} (a v mask : Nat), memWf m = true → memWf (memWriteMask m a n v mask) = true := by
  induction n with
  | zero => exact fun _ _ _ h => h
  | succ n ih =>
    intro m a v mask h
    refine ih (a + 1) (v / 256) (mask / 2) ?_
    split
    · exact memWf_write h a _
    · exact h

theorem memWf_placeBytes (bs : List Byte) : ∀ {m : List Host.Cell} (a : Nat), memWf m = true → memWf (placeBytes m a bs) = true := by
  induction bs with
  | nil => exact fun _ h => h
  | cons b r ih => exact fun a h => ih (a + 1) (memWf_write h a b)

theorem memWfFrom_filter {m : List Host.Cell} {lo : Nat} (p : Host.Cell → Bool) (h : memWfFrom lo m = true) :
    memWfFrom lo (m.filter p) = true := by
  induction m generalizing lo with
  | nil => rfl
  | cons c r ih =>
    simp only [memWfFrom, Bool.and_eq_true, decide_eq_true_eq] at h
    rw [List.filter_cons]
    split
    · simp only [memWfFrom, Bool.and_eq_true, decide_eq_true_eq]; exact ⟨h.1, ih h.2⟩
    · exact memWfFrom_mono (ih h.2) (by omega)

/-- Removing entries keeps the form. -/
theorem memWf_filter {m : List Host.Cell} (p : Host.Cell → Bool) (h : memWf m = true) : memWf (m.filter p) = true :=
  memWfFrom_filter p h

/-- A byte outside the bytes of a write keeps its value. -/
theorem memRead_writeLE_other (n : Nat) : ∀ {m : List Host.Cell} (a v b : Nat), memWf m = true → (b < a ∨ a + n ≤ b) →
    memRead (memWriteLE m a n v) b = memRead m b := by
  induction n with
  | zero => intro m a v b _ _; rfl
  | succ n ih =>
    intro m a v b h hb
    rw [memWriteLE, ih (a + 1) (v / 256) b (memWf_write h a _) (by omega), memRead_write h, if_neg (by omega)]

/-- Byte `i` of a write is byte `i` of the value. -/
theorem memRead_writeLE (n : Nat) : ∀ {m : List Host.Cell} (a v i : Nat), memWf m = true → i < n →
    memRead (memWriteLE m a n v) (a + i) = BitVec.ofNat 8 (v / 256 ^ i) := by
  induction n with
  | zero => intro m a v i _ hi; omega
  | succ n ih =>
    intro m a v i h hi
    rw [memWriteLE]
    cases i with
    | zero => rw [memRead_writeLE_other n (a + 1) _ (a + 0) (memWf_write h a _) (by omega), memRead_write h, if_pos (by omega)]; simp
    | succ i =>
      rw [show a + (i + 1) = (a + 1) + i by omega, ih (a + 1) (v / 256) i (memWf_write h a _) (by omega), Nat.div_div_eq_div_mul,
        show 256 * 256 ^ i = 256 ^ (i + 1) by rw [Nat.pow_succ, Nat.mul_comm]]

/-- Reading a number back that was written. -/
theorem memReadLE_writeLE (n : Nat) : ∀ {m : List Host.Cell} (a v : Nat), memWf m = true →
    memReadLE (memWriteLE m a n v) a n = v % 256 ^ n := by
  induction n with
  | zero => intro m a v _; simp [memReadLE, Nat.mod_one]
  | succ n ih =>
    intro m a v h
    rw [memReadLE, memWriteLE, memRead_writeLE_other n (a + 1) _ a (memWf_write h a _) (by omega), memRead_write h, if_pos rfl,
      ih (a + 1) (v / 256) (memWf_write h a _), BitVec.toNat_ofNat, Nat.pow_succ 256 n, Nat.mul_comm (256 ^ n) 256, Nat.mod_mul]

/-- A read elsewhere is not changed. -/
theorem memReadLE_writeLE_other (n k : Nat) : ∀ {m : List Host.Cell} (a b v : Nat), memWf m = true → (b + k ≤ a ∨ a + n ≤ b) →
    memReadLE (memWriteLE m a n v) b k = memReadLE m b k := by
  induction k with
  | zero => intro m a b v _ _; rfl
  | succ k ih =>
    intro m a b v h hb
    rw [memReadLE, memReadLE, memRead_writeLE_other n a v b h (by omega), ih a (b + 1) v h (by omega)]

/-! ## The operations of the state that write storage -/

theorem memOk_reset : memWf State.reset.mem = true := rfl

theorem memOk_chanWrite {s : State} (h : memWf s.mem = true) (a n v : Nat) : memWf (chanWrite s a n v).mem = true :=
  memWf_writeLE n a v h

theorem memOk_foldl {α : Type} {f : State → α → State} (hf : ∀ {s : State}, memWf s.mem = true → ∀ x, memWf (f s x).mem = true)
    (l : List α) : ∀ {s : State}, memWf s.mem = true → memWf (l.foldl f s).mem = true := by
  induction l with
  | nil => exact fun h => h
  | cons x r ih => exact fun h => ih (hf h x)

theorem memOk_logWords (ws : List Nat) : ∀ {s : State} (pa : Nat), memWf s.mem = true → memWf (logWords s pa ws).mem = true := by
  induction ws with
  | nil => exact fun _ h => h
  | cons w r ih => exact fun pa h => ih (pa + 8) (memOk_chanWrite h pa 8 w)

theorem memOk_setLogs {s : State} (h : memWf s.mem = true) (l : Table (List LogEntry)) : memWf (setLogs s l).mem = true := h

theorem memOk_logPut {s : State} (h : memWf s.mem = true) (ch pa : Nat) (e : LogEntry) : memWf (logPut s ch pa e).mem = true := by
  unfold logPut
  exact memOk_setLogs (memOk_logWords (logBytes e) pa h) _

theorem memOk_ovf {s : State} (h : memWf s.mem = true) (l : List Nat) : memWf { s with logOvf := l }.mem = true := h

theorem memOk_ite {s t : State} {c : Prop} [Decidable c] (hs : memWf s.mem = true) (ht : memWf t.mem = true) :
    memWf (if c then s else t).mem = true := by split <;> assumption

theorem memOk_logAppend {s : State} (h : memWf s.mem = true) (ch a old : Nat) (i : Interval) : memWf (logAppend s ch a old i).mem = true := by
  exact memOk_ite h (memOk_ite (memOk_ovf h _) (memOk_logPut h _ _ _))

theorem memOk_logLine {s : State} (h : memWf s.mem = true) (a : Nat) (ctx : Option (BitVec 16)) : memWf (logLine s a ctx).mem = true := by
  unfold logLine
  split
  · exact h
  · split
    · exact memOk_logAppend h _ _ _ _
    · exact h

theorem memOk_storeHome {s : State} (h : memWf s.mem = true) (a data poison : Nat) (ctx : Option (BitVec 16)) :
    memWf (storeHome s a data poison ctx).mem = true := by
  dsimp only [storeHome]; exact memWf_writeLE 128 a data (memOk_logLine h a ctx)

theorem memOk_pushChunk {s : State} (h : memWf s.mem = true) (t k : Nat) : memWf (pushChunk s t k).mem = true := by
  dsimp only [pushChunk, setPoolFree, setCtrl]; exact memOk_chanWrite h _ _ _

theorem memOk_writeChunk {s : State} (h : memWf s.mem = true) (t : Nat) (c : Nat × BitVec 256 × BitVec 32) :
    memWf (writeChunk s t c).mem = true := by
  dsimp only [writeChunk]; exact memOk_chanWrite h _ _ _

theorem memOk_popChunks (t n : Nat) : ∀ {s u : State} {ks : List Nat}, memWf s.mem = true → popChunks s t n = some (u, ks) →
    memWf u.mem = true := by
  induction n with
  | zero => intro s u ks h e; cases e; exact h
  | succ n ih =>
    intro s u ks h e
    unfold popChunks at e
    split at e
    · cases e
    · rename_i v k hv
      have hvm : memWf v.mem = true := by
        unfold popChunk at hv
        dsimp only at hv
        split at hv
        · cases hv
        · cases hv; exact h
      split at e
      · cases e
      · rename_i w ks' hw
        cases e
        exact ih hvm hw

theorem memOk_poolStore {s u : State} (h : memWf s.mem = true) (a data poison : Nat) (hot : Bool) (ctx : Option (BitVec 16))
    (e : poolStore s a data poison hot ctx = some u) : memWf u.mem = true := by
  unfold poolStore at e
  dsimp only at e
  split at e
  · cases e
  · rename_i v new hv
    cases e
    refine memOk_chanWrite (memOk_foldl (fun h _ => memOk_writeChunk h _ _) _ ?_) _ _ _
    exact memOk_foldl (fun h _ => memOk_pushChunk h _ _) _ (memOk_popChunks _ _ (memOk_logLine h _ _) hv)

@[simp] theorem dropPool_mem (s : State) (a : Nat) : (dropPool s a).mem = s.mem := rfl

@[simp] theorem setCtrl_mem (s : State) (off : Nat) (v : Word) : (setCtrl s off v).mem = s.mem := rfl

@[simp] theorem inboxSendBy_mem (s : State) (n : Nat) (by_ : Option (Nat × Nat)) (head data aux : Word) :
    (inboxSendBy s n by_ head data aux).mem = s.mem := rfl

@[simp] theorem inboxSend_mem (s : State) (n : Nat) (head data aux : Word) : (inboxSend s n head data aux).mem = s.mem := rfl

@[simp] theorem poolPress_mem (s : State) (t a : Nat) : (poolPress s t a).mem = s.mem := by
  unfold poolPress
  dsimp only
  split <;> simp

/-- A line that finds no chunks stays in the LLC: storage keeps what it holds. -/
@[simp] theorem poolKeep_mem (s : State) (a : Nat) : (poolKeep s a).mem = s.mem := by
  unfold poolKeep
  dsimp only
  split
  · rfl
  · split
    · split <;> rfl
    · exact poolPress_mem _ _ _

theorem memOk_llcEvict {s : State} (h : memWf s.mem = true) (l : Line) : memWf (llcEvict s l).mem = true := by
  unfold llcEvict
  split
  · dsimp only
    split
    · exact h
    · exact memOk_storeHome h _ _ _ _
  · split
    · exact h
    · split
      · rename_i u e
        simpa using memOk_poolStore h _ _ _ _ _ e
      · simpa using h

theorem memOk_llcRoom {s : State} (h : memWf s.mem = true) (a : Nat) : memWf (llcRoom s a).mem = true := by
  unfold llcRoom
  dsimp only
  split
  · exact h
  · split
    · exact memOk_llcEvict (s := s.ticked) h _
    · exact h

@[simp] theorem metaCheck_mem (s : State) (a : Nat) : (metaCheck s a).mem = s.mem := by
  unfold metaCheck machineCheck
  dsimp only
  split
  · split <;> rfl
  · rfl

theorem memOk_homePut {s : State} (h : memWf s.mem = true) (l : Line) : memWf (homePut s l).mem = true := by
  unfold homePut
  split
  · exact memOk_storeHome h _ _ _ _
  · dsimp only
    split
    · simpa using h
    · exact h

theorem memOk_homeWrite {s : State} (h : memWf s.mem = true) (a data mask poison : Nat) (ctx : Option (BitVec 16)) :
    memWf (homeWrite s a data mask poison ctx).mem = true := memOk_homePut (memOk_llcRoom (by simpa using h) a) _

theorem memOk_elemWrite {s : State} (h : memWf s.mem = true) (n bank : Nat) (f : Fmt) (i bits : Nat) :
    memWf (elemWrite s n bank f i bits).mem = true := memWf_writeLE _ _ _ h

theorem memOk_byteWrite {s : State} (h : memWf s.mem = true) (a v : Nat) : memWf (byteWrite s a v).mem = true := memWf_writeLE _ _ _ h

theorem memOk_bringUp {s : State} (h : memWf s.mem = true) (n : Nat) : memWf (bringUp s n).mem = true := memWf_filter _ h

theorem memOk_withFetchWord {s : State} (h : memWf s.mem = true) (nbits w : Nat) : memWf (s.withFetchWord nbits w).mem = true :=
  memWf_placeBytes _ 0 h

end Sys2Proof.Machine
end

