-- ==== Sys2Proof/Laws/Ops.lean ====
section
/-! SUPPORT. Laws/Ops.lean: what the shared operations of an instruction answer, in the words of Safety.lean. -/

namespace Sys2Proof.Machine

theorem usable_running {s : State} {r w : List Nat} {q : List KindReq} (h : usable s r w q = true) : s.running = true := by
  simp [usable] at h; exact h.1.1.1.1

/-- The checks of an instruction that may act pass. -/
theorem pre_usable {s : State} {r w : List Nat} {q : List KindReq} (h : usable s r w q = true) (e : Eff) : pre s r w q e = e := by
  simp only [usable, Bool.and_eq_true, Option.isNone_iff_eq_none] at h
  obtain ⟨⟨⟨⟨-, h1⟩, h2⟩, h3⟩, h4⟩ := h
  simp [pre, h1, h2, h3, h4]

/-- With nothing in flight an effect outside the names acts; if it waits, it keeps the operand values it read. -/
theorem settle_quiet {s : State} (h : s.quiet = true) (r : List Nat) (e : Eff) : settle s r e = holdLatch s r e := by
  have : s.me.pending = [] := by simpa [State.quiet] using h
  simp [settle, this]

@[simp] theorem holdLatch_done (s t : State) (r : List Nat) : holdLatch s r (.done t) = .done t := rfl
@[simp] theorem holdLatch_jump (s t : State) (r : List Nat) (p : Word) : holdLatch s r (.jump t p) = .jump t p := rfl
@[simp] theorem holdLatch_leave (s t : State) (r : List Nat) : holdLatch s r (.leave t) = .leave t := rfl
@[simp] theorem holdLatch_trap (s : State) (r : List Nat) (c : Cause) (v : Word) : holdLatch s r (.trap c v) = .trap c v := rfl
@[simp] theorem holdLatch_trapIn (s t : State) (r : List Nat) (c : Cause) (v : Word) : holdLatch s r (.trapIn t c v) = .trapIn t c v := rfl
@[simp] theorem holdLatch_block (s t : State) (r : List Nat) (w : Wait) (a : Word) :
    holdLatch s r (.block t w a) = .block (latchOn s t r) w a := rfl
@[simp] theorem holdLatch_stall (s t : State) (r : List Nat) : holdLatch s r (.stall t) = .stall (latchOn s t r) := rfl

theorem quiet_pending {s : State} (h : s.quiet = true) : s.me.pending = [] := by simpa [State.quiet] using h

theorem toSigned_modPow (p w : Nat) (h : p < 2 ^ w) : modPow (toSigned w p) w = p := by
  unfold modPow toSigned
  have hp : p % 2 ^ w = p := Nat.mod_eq_of_lt h
  rw [hp]
  split
  · have : ((p : Int) - ((2 ^ w : Nat) : Int)) % ((2 ^ w : Nat) : Int) = (p : Int) := by
      rw [Int.sub_emod_right]; omega
    rw [this]; rfl
  · have : (p : Int) % ((2 ^ w : Nat) : Int) = (p : Int) := by omega
    rw [this]; rfl

theorem modPow_lt (x : Int) (w : Nat) : modPow x w < 2 ^ w := by
  have h0 : (0 : Int) < ((2 ^ w : Nat) : Int) := by exact_mod_cast Nat.two_pow_pos w
  have h1 := Int.emod_nonneg x (Int.ne_of_gt h0)
  have h2 := Int.emod_lt_of_pos x h0
  unfold modPow; omega

/-- Reading a pattern in a kind loses nothing of it. -/
theorem modPow_readPat (k : Kind) (w p : Nat) (h : p < 2 ^ w) : modPow (readPat k w p) w = p := by
  unfold readPat
  split
  · exact toSigned_modPow p w h
  · have : p % 2 ^ w = p := Nat.mod_eq_of_lt h
    rw [this]; unfold modPow
    have : (p : Int) % ((2 ^ w : Nat) : Int) = (p : Int) := by omega
    rw [this]; rfl

theorem range_le (k : Kind) (w : Nat) : rangeLo k w ≤ rangeHi k w := by
  have h1 : 0 < 2 ^ w := Nat.two_pow_pos w
  have h2 : 0 < 2 ^ (w - 1) := Nat.two_pow_pos (w - 1)
  unfold rangeLo rangeHi
  split <;> omega

/-- Fitting a value, then taking its pattern, is `storedBits`. -/
theorem fitInt_stored (i : Info) (x : Int) :
    (fitInt i.kind i.width i.mode x).map (fun y => modPow y i.width) =
      if i.mode = .trap ∧ representable i.kind i.width x = false then none else some (storedBits i x) := by
  have hr := range_le i.kind i.width
  unfold fitInt storedBits
  by_cases h : representable i.kind i.width x = true
  · have h' := h
    simp only [representable, Bool.and_eq_true, decide_eq_true_eq] at h'
    have : max (rangeLo i.kind i.width) (min (rangeHi i.kind i.width) x) = x := by omega
    simp [h, this]
  · have h' := h
    simp only [representable, Bool.and_eq_true, decide_eq_true_eq] at h'
    cases hm : i.mode
    · simp [h, modPow_readPat _ _ _ (modPow_lt x i.width)]
    · have : max (rangeLo i.kind i.width) (min (rangeHi i.kind i.width) x)
          = if x < rangeLo i.kind i.width then rangeLo i.kind i.width else rangeHi i.kind i.width := by
        split <;> omega
      simp [h, this]
    · simp [h]

/-- Storing a value that fits. -/
theorem putI_fits {s : State} {d : Nat} {x : Int} (h : fitsIn s d x = true) (l : Nat) : putI s d l x = .done (intOut s d l x) := by
  unfold putI intOut
  by_cases hd : d = 63
  · simp [hd, putBits]
  · have e := fitInt_stored (info s d) x
    simp only [fitsIn, Bool.or_eq_true, beq_iff_eq, bne_iff_ne, hd, false_or] at h
    have : ¬((info s d).mode = .trap ∧ representable (info s d).kind (info s d).width x = false) := by
      rintro ⟨a, b⟩; rcases h with h | h
      · exact h a
      · simp [b] at h
    rw [if_neg this] at e
    obtain ⟨y, hy, hy'⟩ := Option.map_eq_some_iff.mp e
    simp [hd, hy, hy']

/-- Storing a value that does not fit in mode trap. -/
theorem putI_trap {s : State} {d : Nat} {x : Int} (h : fitsIn s d x = false) (l : Nat) : putI s d l x = .trap .width (widthVal x d) := by
  unfold putI
  simp only [fitsIn, Bool.or_eq_false_iff, beq_eq_false_iff_ne, bne_eq_false_iff_eq] at h
  obtain ⟨⟨hd, hm⟩, hr⟩ := h
  simp [hd, fitInt, hm, hr]

theorem putILate_fits {s : State} {d : Nat} {x : Int} (h : fitsIn s d x = true) : putILate s d x = .done (lateOut s d x) := by
  unfold putILate lateOut
  by_cases hd : d = 63
  · simp [hd, putLate]
  · have e := fitInt_stored (info s d) x
    simp only [fitsIn, Bool.or_eq_true, beq_iff_eq, bne_iff_ne, hd, false_or] at h
    have : ¬((info s d).mode = .trap ∧ representable (info s d).kind (info s d).width x = false) := by
      rintro ⟨a, b⟩; rcases h with h | h
      · exact h a
      · simp [b] at h
    rw [if_neg this] at e
    obtain ⟨y, hy, hy'⟩ := Option.map_eq_some_iff.mp e
    simp [hd, hy, hy']

theorem putILate_trap {s : State} {d : Nat} {x : Int} (h : fitsIn s d x = false) : putILate s d x = .trap .width (widthVal x d) := by
  unfold putILate
  simp only [fitsIn, Bool.or_eq_false_iff, beq_eq_false_iff_ne, bne_eq_false_iff_eq] at h
  obtain ⟨⟨hd, hm⟩, hr⟩ := h
  simp [hd, fitInt, hm, hr]

theorem putF_pass {s : State} {r : Nat × Nat} (h : flagsPass s r = true) (d l : Nat) : putF s d l r = .done (floatOut s d l r) := by
  unfold putF floatOut
  simp only [flagsPass, Bool.or_eq_true, beq_iff_eq, Bool.not_eq_true'] at h
  have : ¬(r.2 ≠ 0 ∧ s.me.amode.getLsbD 6 = true) := by
    rintro ⟨a, b⟩; rcases h with h | h
    · exact a h
    · rw [h] at b; exact Bool.noConfusion b
  rw [if_neg this]

/-- An effect of a thread that is no redundant copy happens at once. -/
theorem externalOr_single {s : State} (h : s.single = true) (waits : State → Eff) (hash : List Nat) (perform : State → Access)
    (deliver : State → Nat → Eff) : externalOr waits s hash perform deliver = plainEffect waits s perform deliver := by
  have : (s.thread s.me.img).copy = none := by simpa [State.single] using h
  simp only [externalOr, this]

theorem external_single {s : State} (h : s.single = true) (hash : List Nat) (perform : State → Access) (deliver : State → Nat → Eff) :
    external s hash perform deliver = match perform s with
      | .ok t v p pa => if p ≠ 0 then .trapIn t .poison (poisonVal pa) else deliver t v
      | .wait t => .stall t
      | .trap c v => .trap c v
      | .remote t _ _ => .stall t := externalOr_single h .stall hash perform deliver

/-- So does one at an address, be it in the core's own scratchpad or elsewhere. -/
theorem effectAt_single {s : State} (h : s.single = true) (va : Nat) (hash : List Nat) (perform : State → Access) (deliver : State → Nat → Eff) :
    effectAt s va hash perform deliver = plainEffect .stall s perform deliver := by
  unfold effectAt
  split
  · rfl
  · exact externalOr_single h .stall hash perform deliver

/-- What a running slot's instruction answers. -/
theorem run_running {i : Instr} {s : State} (h : s.running = true) (hw : i.wf = true) (len sl : Nat) (body : State → Eff) :
    run i len sl body s = .next (finish s len sl (encode i) (body s)) := by
  simp [run, h, hw]

theorem run32_running {i : Instr} {s : State} (h : s.running = true) (hw : i.wf = true) (sl : BitVec 2) (body : State → Eff) :
    run32 i sl body s = .next (finish s 4 sl.toNat (encode i) (body s)) := run_running h hw 4 sl.toNat body

theorem run16_running {i : Instr} {s : State} (h : s.running = true) (hw : i.wf = true) (body : State → Eff) :
    run16 i body s = .next (finish s 2 0 (encode i) (body s)) := run_running h hw 2 0 body

theorem finish_done (s t : State) (sl : BitVec 2) (w : Nat) : finish s 4 sl.toNat w (.done t) = next32 s sl t := rfl
theorem finish_done16 (s t : State) (w : Nat) : finish s 2 0 w (.done t) = next16 s t := rfl
theorem finish_trap (s : State) (sl w : Nat) (c : Cause) (v : Word) : finish s 4 sl w (.trap c v) = trap32 s c v := rfl
theorem finish_trap16 (s : State) (sl w : Nat) (c : Cause) (v : Word) : finish s 2 sl w (.trap c v) = trap16 s c v := rfl

end Sys2Proof.Machine
end

