-- ==== Sys2Proof/Laws/PerInstr.lean ====
section
/-! SUPPORT. Laws/PerInstr.lean: the family Length. An encoded instruction has one length, and its word says so (R100). -/

namespace Sys2Proof.Laws.Length

/-- R100: a 32-bit instruction has no compact form of its own and its word has bit 31 set; a compact instruction's parcel has
bit 15 clear. -/
def Statement (i : Instr) : Prop :=
  (i.is32 = true → i.isCompact = false ∧ 2 ^ 31 ≤ encode i ∧ encode i < 2 ^ 32) ∧ (i.isCompact = true → encode i < 2 ^ 15)

theorem of_long {i : Instr} (hc : i.isCompact = false) (h1 : 2 ^ 31 ≤ encode i) (h2 : encode i < 2 ^ 32) : Statement i :=
  ⟨fun _ => ⟨hc, h1, h2⟩, fun h => absurd h (by simp [hc])⟩

theorem of_short {i : Instr} (hl : i.is32 = false) (h : encode i < 2 ^ 15) : Statement i :=
  ⟨fun h => absurd h (by simp [hl]), fun _ => h⟩

theorem of_event {i : Instr} (hl : i.is32 = false) (hc : i.isCompact = false) : Statement i :=
  ⟨fun h => absurd h (by simp [hl]), fun h => absurd h (by simp [hc])⟩

theorem add (sl : BitVec 2) (d : BitVec 6) (a : BitVec 6) (b : BitVec 6) : Statement (.add sl d a b) := by
  have := sl.isLt; have := d.isLt; have := a.isLt; have := b.isLt; exact of_long rfl (by rw [encode_add]; omega) (by rw [encode_add]; omega)
theorem sub (sl : BitVec 2) (d : BitVec 6) (a : BitVec 6) (b : BitVec 6) : Statement (.sub sl d a b) := by
  have := sl.isLt; have := d.isLt; have := a.isLt; have := b.isLt; exact of_long rfl (by rw [encode_sub]; omega) (by rw [encode_sub]; omega)
theorem mul (sl : BitVec 2) (d : BitVec 6) (a : BitVec 6) (b : BitVec 6) : Statement (.mul sl d a b) := by
  have := sl.isLt; have := d.isLt; have := a.isLt; have := b.isLt; exact of_long rfl (by rw [encode_mul]; omega) (by rw [encode_mul]; omega)
theorem mulh (sl : BitVec 2) (d : BitVec 6) (a : BitVec 6) (b : BitVec 6) : Statement (.mulh sl d a b) := by
  have := sl.isLt; have := d.isLt; have := a.isLt; have := b.isLt; exact of_long rfl (by rw [encode_mulh]; omega) (by rw [encode_mulh]; omega)
theorem div (sl : BitVec 2) (d : BitVec 6) (a : BitVec 6) (b : BitVec 6) : Statement (.div sl d a b) := by
  have := sl.isLt; have := d.isLt; have := a.isLt; have := b.isLt; exact of_long rfl (by rw [encode_div]; omega) (by rw [encode_div]; omega)
theorem rem (sl : BitVec 2) (d : BitVec 6) (a : BitVec 6) (b : BitVec 6) : Statement (.rem sl d a b) := by
  have := sl.isLt; have := d.isLt; have := a.isLt; have := b.isLt; exact of_long rfl (by rw [encode_rem]; omega) (by rw [encode_rem]; omega)
theorem min (sl : BitVec 2) (d : BitVec 6) (a : BitVec 6) (b : BitVec 6) : Statement (.min sl d a b) := by
  have := sl.isLt; have := d.isLt; have := a.isLt; have := b.isLt; exact of_long rfl (by rw [encode_min]; omega) (by rw [encode_min]; omega)
theorem max (sl : BitVec 2) (d : BitVec 6) (a : BitVec 6) (b : BitVec 6) : Statement (.max sl d a b) := by
  have := sl.isLt; have := d.isLt; have := a.isLt; have := b.isLt; exact of_long rfl (by rw [encode_max]; omega) (by rw [encode_max]; omega)
theorem and (sl : BitVec 2) (d : BitVec 6) (a : BitVec 6) (b : BitVec 6) : Statement (.and sl d a b) := by
  have := sl.isLt; have := d.isLt; have := a.isLt; have := b.isLt; exact of_long rfl (by rw [encode_and]; omega) (by rw [encode_and]; omega)
theorem or (sl : BitVec 2) (d : BitVec 6) (a : BitVec 6) (b : BitVec 6) : Statement (.or sl d a b) := by
  have := sl.isLt; have := d.isLt; have := a.isLt; have := b.isLt; exact of_long rfl (by rw [encode_or]; omega) (by rw [encode_or]; omega)
theorem xor (sl : BitVec 2) (d : BitVec 6) (a : BitVec 6) (b : BitVec 6) : Statement (.xor sl d a b) := by
  have := sl.isLt; have := d.isLt; have := a.isLt; have := b.isLt; exact of_long rfl (by rw [encode_xor]; omega) (by rw [encode_xor]; omega)
theorem andn (sl : BitVec 2) (d : BitVec 6) (a : BitVec 6) (b : BitVec 6) : Statement (.andn sl d a b) := by
  have := sl.isLt; have := d.isLt; have := a.isLt; have := b.isLt; exact of_long rfl (by rw [encode_andn]; omega) (by rw [encode_andn]; omega)
theorem shl (sl : BitVec 2) (d : BitVec 6) (a : BitVec 6) (b : BitVec 6) : Statement (.shl sl d a b) := by
  have := sl.isLt; have := d.isLt; have := a.isLt; have := b.isLt; exact of_long rfl (by rw [encode_shl]; omega) (by rw [encode_shl]; omega)
theorem shr (sl : BitVec 2) (d : BitVec 6) (a : BitVec 6) (b : BitVec 6) : Statement (.shr sl d a b) := by
  have := sl.isLt; have := d.isLt; have := a.isLt; have := b.isLt; exact of_long rfl (by rw [encode_shr]; omega) (by rw [encode_shr]; omega)
theorem rol (sl : BitVec 2) (d : BitVec 6) (a : BitVec 6) (b : BitVec 6) : Statement (.rol sl d a b) := by
  have := sl.isLt; have := d.isLt; have := a.isLt; have := b.isLt; exact of_long rfl (by rw [encode_rol]; omega) (by rw [encode_rol]; omega)
theorem ror (sl : BitVec 2) (d : BitVec 6) (a : BitVec 6) (b : BitVec 6) : Statement (.ror sl d a b) := by
  have := sl.isLt; have := d.isLt; have := a.isLt; have := b.isLt; exact of_long rfl (by rw [encode_ror]; omega) (by rw [encode_ror]; omega)
theorem seteq (sl : BitVec 2) (d : BitVec 6) (a : BitVec 6) (b : BitVec 6) : Statement (.seteq sl d a b) := by
  have := sl.isLt; have := d.isLt; have := a.isLt; have := b.isLt; exact of_long rfl (by rw [encode_seteq]; omega) (by rw [encode_seteq]; omega)
theorem setne (sl : BitVec 2) (d : BitVec 6) (a : BitVec 6) (b : BitVec 6) : Statement (.setne sl d a b) := by
  have := sl.isLt; have := d.isLt; have := a.isLt; have := b.isLt; exact of_long rfl (by rw [encode_setne]; omega) (by rw [encode_setne]; omega)
theorem setlt (sl : BitVec 2) (d : BitVec 6) (a : BitVec 6) (b : BitVec 6) : Statement (.setlt sl d a b) := by
  have := sl.isLt; have := d.isLt; have := a.isLt; have := b.isLt; exact of_long rfl (by rw [encode_setlt]; omega) (by rw [encode_setlt]; omega)
theorem setle (sl : BitVec 2) (d : BitVec 6) (a : BitVec 6) (b : BitVec 6) : Statement (.setle sl d a b) := by
  have := sl.isLt; have := d.isLt; have := a.isLt; have := b.isLt; exact of_long rfl (by rw [encode_setle]; omega) (by rw [encode_setle]; omega)
theorem absd (sl : BitVec 2) (d : BitVec 6) (a : BitVec 6) (b : BitVec 6) : Statement (.absd sl d a b) := by
  have := sl.isLt; have := d.isLt; have := a.isLt; have := b.isLt; exact of_long rfl (by rw [encode_absd]; omega) (by rw [encode_absd]; omega)
theorem mov (sl : BitVec 2) (d : BitVec 6) (a : BitVec 6) : Statement (.mov sl d a) := by
  have := sl.isLt; have := d.isLt; have := a.isLt; exact of_long rfl (by rw [encode_mov]; omega) (by rw [encode_mov]; omega)
theorem neg (sl : BitVec 2) (d : BitVec 6) (a : BitVec 6) : Statement (.neg sl d a) := by
  have := sl.isLt; have := d.isLt; have := a.isLt; exact of_long rfl (by rw [encode_neg]; omega) (by rw [encode_neg]; omega)
theorem abs (sl : BitVec 2) (d : BitVec 6) (a : BitVec 6) : Statement (.abs sl d a) := by
  have := sl.isLt; have := d.isLt; have := a.isLt; exact of_long rfl (by rw [encode_abs]; omega) (by rw [encode_abs]; omega)
theorem not (sl : BitVec 2) (d : BitVec 6) (a : BitVec 6) : Statement (.not sl d a) := by
  have := sl.isLt; have := d.isLt; have := a.isLt; exact of_long rfl (by rw [encode_not]; omega) (by rw [encode_not]; omega)
theorem clz (sl : BitVec 2) (d : BitVec 6) (a : BitVec 6) : Statement (.clz sl d a) := by
  have := sl.isLt; have := d.isLt; have := a.isLt; exact of_long rfl (by rw [encode_clz]; omega) (by rw [encode_clz]; omega)
theorem ctz (sl : BitVec 2) (d : BitVec 6) (a : BitVec 6) : Statement (.ctz sl d a) := by
  have := sl.isLt; have := d.isLt; have := a.isLt; exact of_long rfl (by rw [encode_ctz]; omega) (by rw [encode_ctz]; omega)
theorem popc (sl : BitVec 2) (d : BitVec 6) (a : BitVec 6) : Statement (.popc sl d a) := by
  have := sl.isLt; have := d.isLt; have := a.isLt; exact of_long rfl (by rw [encode_popc]; omega) (by rw [encode_popc]; omega)
theorem brev (sl : BitVec 2) (d : BitVec 6) (a : BitVec 6) : Statement (.brev sl d a) := by
  have := sl.isLt; have := d.isLt; have := a.isLt; exact of_long rfl (by rw [encode_brev]; omega) (by rw [encode_brev]; omega)
theorem fits (sl : BitVec 2) (d : BitVec 6) (a : BitVec 6) (b : BitVec 6) : Statement (.fits sl d a b) := by
  have := sl.isLt; have := d.isLt; have := a.isLt; have := b.isLt; exact of_long rfl (by rw [encode_fits]; omega) (by rw [encode_fits]; omega)
theorem getw (sl : BitVec 2) (d : BitVec 6) (a : BitVec 6) : Statement (.getw sl d a) := by
  have := sl.isLt; have := d.isLt; have := a.isLt; exact of_long rfl (by rw [encode_getw]; omega) (by rw [encode_getw]; omega)
theorem getm (sl : BitVec 2) (d : BitVec 6) (a : BitVec 6) : Statement (.getm sl d a) := by
  have := sl.isLt; have := d.isLt; have := a.isLt; exact of_long rfl (by rw [encode_getm]; omega) (by rw [encode_getm]; omega)
theorem sel (sl : BitVec 2) (d : BitVec 6) (a : BitVec 6) (b : BitVec 6) (p : BitVec 5) : Statement (.sel sl d a b p) := by
  have := sl.isLt; have := d.isLt; have := a.isLt; have := b.isLt; have := p.isLt; exact of_long rfl (by rw [encode_sel]; omega) (by rw [encode_sel]; omega)
theorem bfx (sl : BitVec 2) (d : BitVec 6) (a : BitVec 6) (p : BitVec 6) (l : BitVec 5) : Statement (.bfx sl d a p l) := by
  have := sl.isLt; have := d.isLt; have := a.isLt; have := p.isLt; have := l.isLt; exact of_long rfl (by rw [encode_bfx]; omega) (by rw [encode_bfx]; omega)
theorem bfi (sl : BitVec 2) (d : BitVec 6) (a : BitVec 6) (p : BitVec 6) (l : BitVec 5) : Statement (.bfi sl d a p l) := by
  have := sl.isLt; have := d.isLt; have := a.isLt; have := p.isLt; have := l.isLt; exact of_long rfl (by rw [encode_bfi]; omega) (by rw [encode_bfi]; omega)
theorem addi (sl : BitVec 2) (d : BitVec 6) (a : BitVec 6) (i : BitVec 11) : Statement (.addi sl d a i) := by
  have := sl.isLt; have := d.isLt; have := a.isLt; have := i.isLt; exact of_long rfl (by rw [encode_addi]; omega) (by rw [encode_addi]; omega)
theorem muli (sl : BitVec 2) (d : BitVec 6) (a : BitVec 6) (i : BitVec 11) : Statement (.muli sl d a i) := by
  have := sl.isLt; have := d.isLt; have := a.isLt; have := i.isLt; exact of_long rfl (by rw [encode_muli]; omega) (by rw [encode_muli]; omega)
theorem andi (sl : BitVec 2) (d : BitVec 6) (a : BitVec 6) (i : BitVec 11) : Statement (.andi sl d a i) := by
  have := sl.isLt; have := d.isLt; have := a.isLt; have := i.isLt; exact of_long rfl (by rw [encode_andi]; omega) (by rw [encode_andi]; omega)
theorem ori (sl : BitVec 2) (d : BitVec 6) (a : BitVec 6) (i : BitVec 11) : Statement (.ori sl d a i) := by
  have := sl.isLt; have := d.isLt; have := a.isLt; have := i.isLt; exact of_long rfl (by rw [encode_ori]; omega) (by rw [encode_ori]; omega)
theorem xori (sl : BitVec 2) (d : BitVec 6) (a : BitVec 6) (i : BitVec 11) : Statement (.xori sl d a i) := by
  have := sl.isLt; have := d.isLt; have := a.isLt; have := i.isLt; exact of_long rfl (by rw [encode_xori]; omega) (by rw [encode_xori]; omega)
theorem shli (sl : BitVec 2) (d : BitVec 6) (a : BitVec 6) (i : BitVec 6) : Statement (.shli sl d a i) := by
  have := sl.isLt; have := d.isLt; have := a.isLt; have := i.isLt; exact of_long rfl (by rw [encode_shli]; omega) (by rw [encode_shli]; omega)
theorem shri (sl : BitVec 2) (d : BitVec 6) (a : BitVec 6) (i : BitVec 6) : Statement (.shri sl d a i) := by
  have := sl.isLt; have := d.isLt; have := a.isLt; have := i.isLt; exact of_long rfl (by rw [encode_shri]; omega) (by rw [encode_shri]; omega)
theorem seteqi (sl : BitVec 2) (d : BitVec 6) (a : BitVec 6) (i : BitVec 11) : Statement (.seteqi sl d a i) := by
  have := sl.isLt; have := d.isLt; have := a.isLt; have := i.isLt; exact of_long rfl (by rw [encode_seteqi]; omega) (by rw [encode_seteqi]; omega)
theorem setlti (sl : BitVec 2) (d : BitVec 6) (a : BitVec 6) (i : BitVec 11) : Statement (.setlti sl d a i) := by
  have := sl.isLt; have := d.isLt; have := a.isLt; have := i.isLt; exact of_long rfl (by rw [encode_setlti]; omega) (by rw [encode_setlti]; omega)
theorem movi (sl : BitVec 2) (d : BitVec 6) (i : BitVec 17) : Statement (.movi sl d i) := by
  have := sl.isLt; have := d.isLt; have := i.isLt; exact of_long rfl (by rw [encode_movi]; omega) (by rw [encode_movi]; omega)
theorem movk (q : BitVec 2) (sl : BitVec 2) (d : BitVec 6) (i : BitVec 16) : Statement (.movk q sl d i) := by
  have := q.isLt; have := sl.isLt; have := d.isLt; have := i.isLt; exact of_long rfl (by rw [encode_movk]; omega) (by rw [encode_movk]; omega)
theorem rsz (sl : BitVec 2) (d : BitVec 6) (w : BitVec 6) : Statement (.rsz sl d w) := by
  have := sl.isLt; have := d.isLt; have := w.isLt; exact of_long rfl (by rw [encode_rsz]; omega) (by rw [encode_rsz]; omega)
theorem setm (sl : BitVec 2) (d : BitVec 6) (m : BitVec 6) : Statement (.setm sl d m) := by
  have := sl.isLt; have := d.isLt; have := m.isLt; exact of_long rfl (by rw [encode_setm]; omega) (by rw [encode_setm]; omega)
theorem borrow (sl : BitVec 2) (d : BitVec 6) (a : BitVec 6) (b : BitVec 6) : Statement (.borrow sl d a b) := by
  have := sl.isLt; have := d.isLt; have := a.isLt; have := b.isLt; exact of_long rfl (by rw [encode_borrow]; omega) (by rw [encode_borrow]; omega)
theorem giveback (sl : BitVec 2) : Statement (.giveback sl) := by
  have := sl.isLt; exact of_long rfl (by rw [encode_giveback]; omega) (by rw [encode_giveback]; omega)
theorem xget (sl : BitVec 2) (d : BitVec 6) (k : BitVec 6) : Statement (.xget sl d k) := by
  have := sl.isLt; have := d.isLt; have := k.isLt; exact of_long rfl (by rw [encode_xget]; omega) (by rw [encode_xget]; omega)
theorem xput (sl : BitVec 2) (k : BitVec 6) (a : BitVec 6) : Statement (.xput sl k a) := by
  have := sl.isLt; have := k.isLt; have := a.isLt; exact of_long rfl (by rw [encode_xput]; omega) (by rw [encode_xput]; omega)
theorem twxch (sl : BitVec 2) (d : BitVec 6) (a : BitVec 6) : Statement (.twxch sl d a) := by
  have := sl.isLt; have := d.isLt; have := a.isLt; exact of_long rfl (by rw [encode_twxch]; omega) (by rw [encode_twxch]; omega)
theorem mapld (sl : BitVec 2) (a : BitVec 6) : Statement (.mapld sl a) := by
  have := sl.isLt; have := a.isLt; exact of_long rfl (by rw [encode_mapld]; omega) (by rw [encode_mapld]; omega)
theorem mapq (sl : BitVec 2) (d : BitVec 6) (a : BitVec 6) : Statement (.mapq sl d a) := by
  have := sl.isLt; have := d.isLt; have := a.isLt; exact of_long rfl (by rw [encode_mapq]; omega) (by rw [encode_mapq]; omega)
theorem gets (sl : BitVec 2) (d : BitVec 6) (r : BitVec 6) : Statement (.gets sl d r) := by
  have := sl.isLt; have := d.isLt; have := r.isLt; exact of_long rfl (by rw [encode_gets]; omega) (by rw [encode_gets]; omega)
theorem puts (sl : BitVec 2) (a : BitVec 6) (r : BitVec 6) : Statement (.puts sl a r) := by
  have := sl.isLt; have := a.isLt; have := r.isLt; exact of_long rfl (by rw [encode_puts]; omega) (by rw [encode_puts]; omega)
theorem oxl (sl : BitVec 2) (k : BitVec 3) (a : BitVec 6) : Statement (.oxl sl k a) := by
  have := sl.isLt; have := k.isLt; have := a.isLt; exact of_long rfl (by rw [encode_oxl]; omega) (by rw [encode_oxl]; omega)
theorem oxr (sl : BitVec 2) (d : BitVec 6) (k : BitVec 3) : Statement (.oxr sl d k) := by
  have := sl.isLt; have := d.isLt; have := k.isLt; exact of_long rfl (by rw [encode_oxr]; omega) (by rw [encode_oxr]; omega)
theorem oxclr (sl : BitVec 2) (m : BitVec 1) (k : BitVec 3) : Statement (.oxclr sl m k) := by
  have := sl.isLt; have := m.isLt; have := k.isLt; exact of_long rfl (by rw [encode_oxclr]; omega) (by rw [encode_oxclr]; omega)
theorem oxi (sl : BitVec 2) (m : BitVec 1) (q : BitVec 2) (k : BitVec 3) (i : BitVec 17) : Statement (.oxi sl m q k i) := by
  have := sl.isLt; have := m.isLt; have := q.isLt; have := k.isLt; have := i.isLt; exact of_long rfl (by rw [encode_oxi]; omega) (by rw [encode_oxi]; omega)
theorem fadd (sl : BitVec 2) (d : BitVec 6) (a : BitVec 6) (b : BitVec 6) : Statement (.fadd sl d a b) := by
  have := sl.isLt; have := d.isLt; have := a.isLt; have := b.isLt; exact of_long rfl (by rw [encode_fadd]; omega) (by rw [encode_fadd]; omega)
theorem fsub (sl : BitVec 2) (d : BitVec 6) (a : BitVec 6) (b : BitVec 6) : Statement (.fsub sl d a b) := by
  have := sl.isLt; have := d.isLt; have := a.isLt; have := b.isLt; exact of_long rfl (by rw [encode_fsub]; omega) (by rw [encode_fsub]; omega)
theorem fmul (sl : BitVec 2) (d : BitVec 6) (a : BitVec 6) (b : BitVec 6) : Statement (.fmul sl d a b) := by
  have := sl.isLt; have := d.isLt; have := a.isLt; have := b.isLt; exact of_long rfl (by rw [encode_fmul]; omega) (by rw [encode_fmul]; omega)
theorem fdiv (sl : BitVec 2) (d : BitVec 6) (a : BitVec 6) (b : BitVec 6) : Statement (.fdiv sl d a b) := by
  have := sl.isLt; have := d.isLt; have := a.isLt; have := b.isLt; exact of_long rfl (by rw [encode_fdiv]; omega) (by rw [encode_fdiv]; omega)
theorem fmin (sl : BitVec 2) (d : BitVec 6) (a : BitVec 6) (b : BitVec 6) : Statement (.fmin sl d a b) := by
  have := sl.isLt; have := d.isLt; have := a.isLt; have := b.isLt; exact of_long rfl (by rw [encode_fmin]; omega) (by rw [encode_fmin]; omega)
theorem fmax (sl : BitVec 2) (d : BitVec 6) (a : BitVec 6) (b : BitVec 6) : Statement (.fmax sl d a b) := by
  have := sl.isLt; have := d.isLt; have := a.isLt; have := b.isLt; exact of_long rfl (by rw [encode_fmax]; omega) (by rw [encode_fmax]; omega)
theorem fseteq (sl : BitVec 2) (d : BitVec 6) (a : BitVec 6) (b : BitVec 6) : Statement (.fseteq sl d a b) := by
  have := sl.isLt; have := d.isLt; have := a.isLt; have := b.isLt; exact of_long rfl (by rw [encode_fseteq]; omega) (by rw [encode_fseteq]; omega)
theorem fsetlt (sl : BitVec 2) (d : BitVec 6) (a : BitVec 6) (b : BitVec 6) : Statement (.fsetlt sl d a b) := by
  have := sl.isLt; have := d.isLt; have := a.isLt; have := b.isLt; exact of_long rfl (by rw [encode_fsetlt]; omega) (by rw [encode_fsetlt]; omega)
theorem fsetle (sl : BitVec 2) (d : BitVec 6) (a : BitVec 6) (b : BitVec 6) : Statement (.fsetle sl d a b) := by
  have := sl.isLt; have := d.isLt; have := a.isLt; have := b.isLt; exact of_long rfl (by rw [encode_fsetle]; omega) (by rw [encode_fsetle]; omega)
theorem fsetun (sl : BitVec 2) (d : BitVec 6) (a : BitVec 6) (b : BitVec 6) : Statement (.fsetun sl d a b) := by
  have := sl.isLt; have := d.isLt; have := a.isLt; have := b.isLt; exact of_long rfl (by rw [encode_fsetun]; omega) (by rw [encode_fsetun]; omega)
theorem fcpys (sl : BitVec 2) (d : BitVec 6) (a : BitVec 6) (b : BitVec 6) : Statement (.fcpys sl d a b) := by
  have := sl.isLt; have := d.isLt; have := a.isLt; have := b.isLt; exact of_long rfl (by rw [encode_fcpys]; omega) (by rw [encode_fcpys]; omega)
theorem fabs (sl : BitVec 2) (d : BitVec 6) (a : BitVec 6) : Statement (.fabs sl d a) := by
  have := sl.isLt; have := d.isLt; have := a.isLt; exact of_long rfl (by rw [encode_fabs]; omega) (by rw [encode_fabs]; omega)
theorem fneg (sl : BitVec 2) (d : BitVec 6) (a : BitVec 6) : Statement (.fneg sl d a) := by
  have := sl.isLt; have := d.isLt; have := a.isLt; exact of_long rfl (by rw [encode_fneg]; omega) (by rw [encode_fneg]; omega)
theorem fcvt (sl : BitVec 2) (d : BitVec 6) (a : BitVec 6) (r : BitVec 6) : Statement (.fcvt sl d a r) := by
  have := sl.isLt; have := d.isLt; have := a.isLt; have := r.isLt; exact of_long rfl (by rw [encode_fcvt]; omega) (by rw [encode_fcvt]; omega)
theorem frnd (sl : BitVec 2) (d : BitVec 6) (a : BitVec 6) (r : BitVec 6) : Statement (.frnd sl d a r) := by
  have := sl.isLt; have := d.isLt; have := a.isLt; have := r.isLt; exact of_long rfl (by rw [encode_frnd]; omega) (by rw [encode_frnd]; omega)
theorem fclass (sl : BitVec 2) (d : BitVec 6) (a : BitVec 6) : Statement (.fclass sl d a) := by
  have := sl.isLt; have := d.isLt; have := a.isLt; exact of_long rfl (by rw [encode_fclass]; omega) (by rw [encode_fclass]; omega)
theorem fsqrt (sl : BitVec 2) (d : BitVec 6) (a : BitVec 6) : Statement (.fsqrt sl d a) := by
  have := sl.isLt; have := d.isLt; have := a.isLt; exact of_long rfl (by rw [encode_fsqrt]; omega) (by rw [encode_fsqrt]; omega)
theorem rcpa (sl : BitVec 2) (d : BitVec 6) (a : BitVec 6) : Statement (.rcpa sl d a) := by
  have := sl.isLt; have := d.isLt; have := a.isLt; exact of_long rfl (by rw [encode_rcpa]; omega) (by rw [encode_rcpa]; omega)
theorem rsqa (sl : BitVec 2) (d : BitVec 6) (a : BitVec 6) : Statement (.rsqa sl d a) := by
  have := sl.isLt; have := d.isLt; have := a.isLt; exact of_long rfl (by rw [encode_rsqa]; omega) (by rw [encode_rsqa]; omega)
theorem exp2a (sl : BitVec 2) (d : BitVec 6) (a : BitVec 6) : Statement (.exp2a sl d a) := by
  have := sl.isLt; have := d.isLt; have := a.isLt; exact of_long rfl (by rw [encode_exp2a]; omega) (by rw [encode_exp2a]; omega)
theorem log2a (sl : BitVec 2) (d : BitVec 6) (a : BitVec 6) : Statement (.log2a sl d a) := by
  have := sl.isLt; have := d.isLt; have := a.isLt; exact of_long rfl (by rw [encode_log2a]; omega) (by rw [encode_log2a]; omega)
theorem siga (sl : BitVec 2) (d : BitVec 6) (a : BitVec 6) : Statement (.siga sl d a) := by
  have := sl.isLt; have := d.isLt; have := a.isLt; exact of_long rfl (by rw [encode_siga]; omega) (by rw [encode_siga]; omega)
theorem tanha (sl : BitVec 2) (d : BitVec 6) (a : BitVec 6) : Statement (.tanha sl d a) := by
  have := sl.isLt; have := d.isLt; have := a.isLt; exact of_long rfl (by rw [encode_tanha]; omega) (by rw [encode_tanha]; omega)
theorem ffma (sl : BitVec 2) (d : BitVec 6) (a : BitVec 6) (b : BitVec 6) : Statement (.ffma sl d a b) := by
  have := sl.isLt; have := d.isLt; have := a.isLt; have := b.isLt; exact of_long rfl (by rw [encode_ffma]; omega) (by rw [encode_ffma]; omega)
theorem ffms (sl : BitVec 2) (d : BitVec 6) (a : BitVec 6) (b : BitVec 6) : Statement (.ffms sl d a b) := by
  have := sl.isLt; have := d.isLt; have := a.isLt; have := b.isLt; exact of_long rfl (by rw [encode_ffms]; omega) (by rw [encode_ffms]; omega)
theorem rcps (sl : BitVec 2) (d : BitVec 6) (a : BitVec 6) (b : BitVec 6) : Statement (.rcps sl d a b) := by
  have := sl.isLt; have := d.isLt; have := a.isLt; have := b.isLt; exact of_long rfl (by rw [encode_rcps]; omega) (by rw [encode_rcps]; omega)
theorem rsqs (sl : BitVec 2) (d : BitVec 6) (a : BitVec 6) (b : BitVec 6) : Statement (.rsqs sl d a b) := by
  have := sl.isLt; have := d.isLt; have := a.isLt; have := b.isLt; exact of_long rfl (by rw [encode_rsqs]; omega) (by rw [encode_rsqs]; omega)
theorem br (sl : BitVec 2) (c : BitVec 6) (t : BitVec 2) (o : BitVec 15) : Statement (.br sl c t o) := by
  have := sl.isLt; have := c.isLt; have := t.isLt; have := o.isLt; exact of_long rfl (by rw [encode_br]; omega) (by rw [encode_br]; omega)
theorem call (sl : BitVec 2) (d : BitVec 6) (i : BitVec 17) : Statement (.call sl d i) := by
  have := sl.isLt; have := d.isLt; have := i.isLt; exact of_long rfl (by rw [encode_call]; omega) (by rw [encode_call]; omega)
theorem loop (sl : BitVec 2) (c : BitVec 6) (o : BitVec 15) : Statement (.loop sl c o) := by
  have := sl.isLt; have := c.isLt; have := o.isLt; exact of_long rfl (by rw [encode_loop]; omega) (by rw [encode_loop]; omega)
theorem jmp (sl : BitVec 2) (a : BitVec 6) : Statement (.jmp sl a) := by
  have := sl.isLt; have := a.isLt; exact of_long rfl (by rw [encode_jmp]; omega) (by rw [encode_jmp]; omega)
theorem callr (sl : BitVec 2) (d : BitVec 6) (a : BitVec 6) : Statement (.callr sl d a) := by
  have := sl.isLt; have := d.isLt; have := a.isLt; exact of_long rfl (by rw [encode_callr]; omega) (by rw [encode_callr]; omega)
theorem ret (sl : BitVec 2) (a : BitVec 6) : Statement (.ret sl a) := by
  have := sl.isLt; have := a.isLt; exact of_long rfl (by rw [encode_ret]; omega) (by rw [encode_ret]; omega)
theorem yield (sl : BitVec 2) : Statement (.yield sl) := by
  have := sl.isLt; exact of_long rfl (by rw [encode_yield]; omega) (by rw [encode_yield]; omega)
theorem exit (sl : BitVec 2) (a : BitVec 6) : Statement (.exit sl a) := by
  have := sl.isLt; have := a.isLt; exact of_long rfl (by rw [encode_exit]; omega) (by rw [encode_exit]; omega)
theorem trap (sl : BitVec 2) (b : BitVec 6) : Statement (.trap sl b) := by
  have := sl.isLt; have := b.isLt; exact of_long rfl (by rw [encode_trap]; omega) (by rw [encode_trap]; omega)
theorem brk (sl : BitVec 2) : Statement (.brk sl) := by
  have := sl.isLt; exact of_long rfl (by rw [encode_brk]; omega) (by rw [encode_brk]; omega)
theorem nop (sl : BitVec 2) : Statement (.nop sl) := by
  have := sl.isLt; exact of_long rfl (by rw [encode_nop]; omega) (by rw [encode_nop]; omega)
theorem callat (sl : BitVec 2) (d : BitVec 6) (a : BitVec 6) (b : BitVec 6) : Statement (.callat sl d a b) := by
  have := sl.isLt; have := d.isLt; have := a.isLt; have := b.isLt; exact of_long rfl (by rw [encode_callat]; omega) (by rw [encode_callat]; omega)
theorem send (sl : BitVec 2) (a : BitVec 6) (b : BitVec 6) : Statement (.send sl a b) := by
  have := sl.isLt; have := a.isLt; have := b.isLt; exact of_long rfl (by rw [encode_send]; omega) (by rw [encode_send]; omega)
theorem recv (sl : BitVec 2) (d : BitVec 6) (a : BitVec 6) (b : BitVec 6) : Statement (.recv sl d a b) := by
  have := sl.isLt; have := d.isLt; have := a.isLt; have := b.isLt; exact of_long rfl (by rw [encode_recv]; omega) (by rw [encode_recv]; omega)
theorem tryrecv (sl : BitVec 2) (d : BitVec 6) (a : BitVec 6) (b : BitVec 6) : Statement (.tryrecv sl d a b) := by
  have := sl.isLt; have := d.isLt; have := a.isLt; have := b.isLt; exact of_long rfl (by rw [encode_tryrecv]; omega) (by rw [encode_tryrecv]; omega)
theorem chstat (sl : BitVec 2) (d : BitVec 6) (b : BitVec 6) : Statement (.chstat sl d b) := by
  have := sl.isLt; have := d.isLt; have := b.isLt; exact of_long rfl (by rw [encode_chstat]; omega) (by rw [encode_chstat]; omega)
theorem spawn (sl : BitVec 2) (d : BitVec 6) (a : BitVec 6) (u : BitVec 1) : Statement (.spawn sl d a u) := by
  have := sl.isLt; have := d.isLt; have := a.isLt; have := u.isLt; exact of_long rfl (by rw [encode_spawn]; omega) (by rw [encode_spawn]; omega)
theorem dep (sl : BitVec 2) (a : BitVec 6) : Statement (.dep sl a) := by
  have := sl.isLt; have := a.isLt; exact of_long rfl (by rw [encode_dep]; omega) (by rw [encode_dep]; omega)
theorem waitany (sl : BitVec 2) (d : BitVec 6) (a : BitVec 6) : Statement (.waitany sl d a) := by
  have := sl.isLt; have := d.isLt; have := a.isLt; exact of_long rfl (by rw [encode_waitany]; omega) (by rw [encode_waitany]; omega)
theorem waitall (sl : BitVec 2) (d : BitVec 6) (a : BitVec 6) : Statement (.waitall sl d a) := by
  have := sl.isLt; have := d.isLt; have := a.isLt; exact of_long rfl (by rw [encode_waitall]; omega) (by rw [encode_waitall]; omega)
theorem ffr (sl : BitVec 2) (d : BitVec 6) (a : BitVec 6) : Statement (.ffr sl d a) := by
  have := sl.isLt; have := d.isLt; have := a.isLt; exact of_long rfl (by rw [encode_ffr]; omega) (by rw [encode_ffr]; omega)
theorem tagclr (sl : BitVec 2) (a : BitVec 6) : Statement (.tagclr sl a) := by
  have := sl.isLt; have := a.isLt; exact of_long rfl (by rw [encode_tagclr]; omega) (by rw [encode_tagclr]; omega)
theorem bari (sl : BitVec 2) (d : BitVec 6) (a : BitVec 6) (b : BitVec 6) : Statement (.bari sl d a b) := by
  have := sl.isLt; have := d.isLt; have := a.isLt; have := b.isLt; exact of_long rfl (by rw [encode_bari]; omega) (by rw [encode_bari]; omega)
theorem arrive (sl : BitVec 2) (d : BitVec 6) (a : BitVec 6) (b : BitVec 6) : Statement (.arrive sl d a b) := by
  have := sl.isLt; have := d.isLt; have := a.isLt; have := b.isLt; exact of_long rfl (by rw [encode_arrive]; omega) (by rw [encode_arrive]; omega)
theorem waitb (sl : BitVec 2) (d : BitVec 6) (a : BitVec 6) (b : BitVec 6) : Statement (.waitb sl d a b) := by
  have := sl.isLt; have := d.isLt; have := a.isLt; have := b.isLt; exact of_long rfl (by rw [encode_waitb]; omega) (by rw [encode_waitb]; omega)
theorem waitch (sl : BitVec 2) (d : BitVec 6) (a : BitVec 6) (b : BitVec 6) : Statement (.waitch sl d a b) := by
  have := sl.isLt; have := d.isLt; have := a.isLt; have := b.isLt; exact of_long rfl (by rw [encode_waitch]; omega) (by rw [encode_waitch]; omega)
theorem push (sl : BitVec 2) (d : BitVec 6) (q : BitVec 6) (b : BitVec 6) : Statement (.push sl d q b) := by
  have := sl.isLt; have := d.isLt; have := q.isLt; have := b.isLt; exact of_long rfl (by rw [encode_push]; omega) (by rw [encode_push]; omega)
theorem qstat (sl : BitVec 2) (d : BitVec 6) (q : BitVec 6) : Statement (.qstat sl d q) := by
  have := sl.isLt; have := d.isLt; have := q.isLt; exact of_long rfl (by rw [encode_qstat]; omega) (by rw [encode_qstat]; omega)
theorem ld (sl : BitVec 2) (d : BitVec 6) (a : BitVec 6) (i : BitVec 11) : Statement (.ld sl d a i) := by
  have := sl.isLt; have := d.isLt; have := a.isLt; have := i.isLt; exact of_long rfl (by rw [encode_ld]; omega) (by rw [encode_ld]; omega)
theorem st (sl : BitVec 2) (d : BitVec 6) (a : BitVec 6) (i : BitVec 11) : Statement (.st sl d a i) := by
  have := sl.isLt; have := d.isLt; have := a.isLt; have := i.isLt; exact of_long rfl (by rw [encode_st]; omega) (by rw [encode_st]; omega)
theorem lda (sl : BitVec 2) (d : BitVec 6) (a : BitVec 6) (i : BitVec 11) : Statement (.lda sl d a i) := by
  have := sl.isLt; have := d.isLt; have := a.isLt; have := i.isLt; exact of_long rfl (by rw [encode_lda]; omega) (by rw [encode_lda]; omega)
theorem stl (sl : BitVec 2) (d : BitVec 6) (a : BitVec 6) (i : BitVec 11) : Statement (.stl sl d a i) := by
  have := sl.isLt; have := d.isLt; have := a.isLt; have := i.isLt; exact of_long rfl (by rw [encode_stl]; omega) (by rw [encode_stl]; omega)
theorem spill (sl : BitVec 2) (d : BitVec 6) (a : BitVec 6) (b : BitVec 6) : Statement (.spill sl d a b) := by
  have := sl.isLt; have := d.isLt; have := a.isLt; have := b.isLt; exact of_long rfl (by rw [encode_spill]; omega) (by rw [encode_spill]; omega)
theorem fill (sl : BitVec 2) (d : BitVec 6) (a : BitVec 6) (b : BitVec 6) : Statement (.fill sl d a b) := by
  have := sl.isLt; have := d.isLt; have := a.isLt; have := b.isLt; exact of_long rfl (by rw [encode_fill]; omega) (by rw [encode_fill]; omega)
theorem pf (sl : BitVec 2) (a : BitVec 6) (b : BitVec 6) : Statement (.pf sl a b) := by
  have := sl.isLt; have := a.isLt; have := b.isLt; exact of_long rfl (by rw [encode_pf]; omega) (by rw [encode_pf]; omega)
theorem flush (sl : BitVec 2) (d : BitVec 6) (a : BitVec 6) (b : BitVec 6) : Statement (.flush sl d a b) := by
  have := sl.isLt; have := d.isLt; have := a.isLt; have := b.isLt; exact of_long rfl (by rw [encode_flush]; omega) (by rw [encode_flush]; omega)
theorem inv (sl : BitVec 2) (d : BitVec 6) (a : BitVec 6) (b : BitVec 6) : Statement (.inv sl d a b) := by
  have := sl.isLt; have := d.isLt; have := a.isLt; have := b.isLt; exact of_long rfl (by rw [encode_inv]; omega) (by rw [encode_inv]; omega)
theorem fence (sl : BitVec 2) (d : BitVec 6) (b : BitVec 6) : Statement (.fence sl d b) := by
  have := sl.isLt; have := d.isLt; have := b.isLt; exact of_long rfl (by rw [encode_fence]; omega) (by rw [encode_fence]; omega)
theorem ldx (sl : BitVec 2) (d : BitVec 6) (a : BitVec 6) (b : BitVec 6) : Statement (.ldx sl d a b) := by
  have := sl.isLt; have := d.isLt; have := a.isLt; have := b.isLt; exact of_long rfl (by rw [encode_ldx]; omega) (by rw [encode_ldx]; omega)
theorem stx (sl : BitVec 2) (d : BitVec 6) (a : BitVec 6) (b : BitVec 6) : Statement (.stx sl d a b) := by
  have := sl.isLt; have := d.isLt; have := a.isLt; have := b.isLt; exact of_long rfl (by rw [encode_stx]; omega) (by rw [encode_stx]; omega)
theorem stc (sl : BitVec 2) (d : BitVec 6) (a : BitVec 6) (b : BitVec 6) : Statement (.stc sl d a b) := by
  have := sl.isLt; have := d.isLt; have := a.isLt; have := b.isLt; exact of_long rfl (by rw [encode_stc]; omega) (by rw [encode_stc]; omega)
theorem aadd (sl : BitVec 2) (d : BitVec 6) (a : BitVec 6) (b : BitVec 6) : Statement (.aadd sl d a b) := by
  have := sl.isLt; have := d.isLt; have := a.isLt; have := b.isLt; exact of_long rfl (by rw [encode_aadd]; omega) (by rw [encode_aadd]; omega)
theorem aand (sl : BitVec 2) (d : BitVec 6) (a : BitVec 6) (b : BitVec 6) : Statement (.aand sl d a b) := by
  have := sl.isLt; have := d.isLt; have := a.isLt; have := b.isLt; exact of_long rfl (by rw [encode_aand]; omega) (by rw [encode_aand]; omega)
theorem aor (sl : BitVec 2) (d : BitVec 6) (a : BitVec 6) (b : BitVec 6) : Statement (.aor sl d a b) := by
  have := sl.isLt; have := d.isLt; have := a.isLt; have := b.isLt; exact of_long rfl (by rw [encode_aor]; omega) (by rw [encode_aor]; omega)
theorem axor (sl : BitVec 2) (d : BitVec 6) (a : BitVec 6) (b : BitVec 6) : Statement (.axor sl d a b) := by
  have := sl.isLt; have := d.isLt; have := a.isLt; have := b.isLt; exact of_long rfl (by rw [encode_axor]; omega) (by rw [encode_axor]; omega)
theorem amin (sl : BitVec 2) (d : BitVec 6) (a : BitVec 6) (b : BitVec 6) : Statement (.amin sl d a b) := by
  have := sl.isLt; have := d.isLt; have := a.isLt; have := b.isLt; exact of_long rfl (by rw [encode_amin]; omega) (by rw [encode_amin]; omega)
theorem amax (sl : BitVec 2) (d : BitVec 6) (a : BitVec 6) (b : BitVec 6) : Statement (.amax sl d a b) := by
  have := sl.isLt; have := d.isLt; have := a.isLt; have := b.isLt; exact of_long rfl (by rw [encode_amax]; omega) (by rw [encode_amax]; omega)
theorem aswp (sl : BitVec 2) (d : BitVec 6) (a : BitVec 6) (b : BitVec 6) : Statement (.aswp sl d a b) := by
  have := sl.isLt; have := d.isLt; have := a.isLt; have := b.isLt; exact of_long rfl (by rw [encode_aswp]; omega) (by rw [encode_aswp]; omega)
theorem acas (sl : BitVec 2) (d : BitVec 6) (a : BitVec 6) (b : BitVec 6) : Statement (.acas sl d a b) := by
  have := sl.isLt; have := d.isLt; have := a.isLt; have := b.isLt; exact of_long rfl (by rw [encode_acas]; omega) (by rw [encode_acas]; omega)
theorem faadd (sl : BitVec 2) (d : BitVec 6) (a : BitVec 6) (b : BitVec 6) : Statement (.faadd sl d a b) := by
  have := sl.isLt; have := d.isLt; have := a.isLt; have := b.isLt; exact of_long rfl (by rw [encode_faadd]; omega) (by rw [encode_faadd]; omega)
theorem lock (sl : BitVec 2) (d : BitVec 6) (a : BitVec 6) : Statement (.lock sl d a) := by
  have := sl.isLt; have := d.isLt; have := a.isLt; exact of_long rfl (by rw [encode_lock]; omega) (by rw [encode_lock]; omega)
theorem unlock (sl : BitVec 2) (d : BitVec 6) (a : BitVec 6) : Statement (.unlock sl d a) := by
  have := sl.isLt; have := d.isLt; have := a.isLt; exact of_long rfl (by rw [encode_unlock]; omega) (by rw [encode_unlock]; omega)
theorem hold (sl : BitVec 2) (d : BitVec 6) (a : BitVec 6) (b : BitVec 6) : Statement (.hold sl d a b) := by
  have := sl.isLt; have := d.isLt; have := a.isLt; have := b.isLt; exact of_long rfl (by rw [encode_hold]; omega) (by rw [encode_hold]; omega)
theorem will (sl : BitVec 2) (d : BitVec 6) (a : BitVec 6) (b : BitVec 6) : Statement (.will sl d a b) := by
  have := sl.isLt; have := d.isLt; have := a.isLt; have := b.isLt; exact of_long rfl (by rw [encode_will]; omega) (by rw [encode_will]; omega)
theorem relh (sl : BitVec 2) (d : BitVec 6) (a : BitVec 6) : Statement (.relh sl d a) := by
  have := sl.isLt; have := d.isLt; have := a.isLt; exact of_long rfl (by rw [encode_relh]; omega) (by rw [encode_relh]; omega)
theorem convey (sl : BitVec 2) (d : BitVec 6) (a : BitVec 6) : Statement (.convey sl d a) := by
  have := sl.isLt; have := d.isLt; have := a.isLt; exact of_long rfl (by rw [encode_convey]; omega) (by rw [encode_convey]; omega)
theorem estq (sl : BitVec 2) (d : BitVec 6) (a : BitVec 6) (b : BitVec 6) : Statement (.estq sl d a b) := by
  have := sl.isLt; have := d.isLt; have := a.isLt; have := b.isLt; exact of_long rfl (by rw [encode_estq]; omega) (by rw [encode_estq]; omega)
theorem prmk (sl : BitVec 2) (a : BitVec 6) : Statement (.prmk sl a) := by
  have := sl.isLt; have := a.isLt; exact of_long rfl (by rw [encode_prmk]; omega) (by rw [encode_prmk]; omega)
theorem keep (sl : BitVec 2) (d : BitVec 6) (a : BitVec 6) (b : BitVec 6) : Statement (.keep sl d a b) := by
  have := sl.isLt; have := d.isLt; have := a.isLt; have := b.isLt; exact of_long rfl (by rw [encode_keep]; omega) (by rw [encode_keep]; omega)
theorem awaitp (sl : BitVec 2) (d : BitVec 6) (a : BitVec 6) : Statement (.awaitp sl d a) := by
  have := sl.isLt; have := d.isLt; have := a.isLt; exact of_long rfl (by rw [encode_awaitp]; omega) (by rw [encode_awaitp]; omega)
theorem prmq (sl : BitVec 2) (d : BitVec 6) (a : BitVec 6) : Statement (.prmq sl d a) := by
  have := sl.isLt; have := d.isLt; have := a.isLt; exact of_long rfl (by rw [encode_prmq]; omega) (by rw [encode_prmq]; omega)
theorem chain (sl : BitVec 2) (d : BitVec 6) (a : BitVec 6) (b : BitVec 6) : Statement (.chain sl d a b) := by
  have := sl.isLt; have := d.isLt; have := a.isLt; have := b.isLt; exact of_long rfl (by rw [encode_chain]; omega) (by rw [encode_chain]; omega)
theorem reduce (sl : BitVec 2) (d : BitVec 6) (a : BitVec 6) (b : BitVec 6) : Statement (.reduce sl d a b) := by
  have := sl.isLt; have := d.isLt; have := a.isLt; have := b.isLt; exact of_long rfl (by rw [encode_reduce]; omega) (by rw [encode_reduce]; omega)
theorem gather (sl : BitVec 2) (d : BitVec 6) (a : BitVec 6) (b : BitVec 6) : Statement (.gather sl d a b) := by
  have := sl.isLt; have := d.isLt; have := a.isLt; have := b.isLt; exact of_long rfl (by rw [encode_gather]; omega) (by rw [encode_gather]; omega)
theorem scatter (sl : BitVec 2) (d : BitVec 6) (a : BitVec 6) (b : BitVec 6) : Statement (.scatter sl d a b) := by
  have := sl.isLt; have := d.isLt; have := a.isLt; have := b.isLt; exact of_long rfl (by rw [encode_scatter]; omega) (by rw [encode_scatter]; omega)
theorem cpyb (sl : BitVec 2) (d : BitVec 6) (a : BitVec 6) (b : BitVec 6) : Statement (.cpyb sl d a b) := by
  have := sl.isLt; have := d.isLt; have := a.isLt; have := b.isLt; exact of_long rfl (by rw [encode_cpyb]; omega) (by rw [encode_cpyb]; omega)
theorem fills (sl : BitVec 2) (d : BitVec 6) (a : BitVec 6) (b : BitVec 6) : Statement (.fills sl d a b) := by
  have := sl.isLt; have := d.isLt; have := a.isLt; have := b.isLt; exact of_long rfl (by rw [encode_fills]; omega) (by rw [encode_fills]; omega)
theorem setf (sl : BitVec 2) (a : BitVec 6) (b : BitVec 6) : Statement (.setf sl a b) := by
  have := sl.isLt; have := a.isLt; have := b.isLt; exact of_long rfl (by rw [encode_setf]; omega) (by rw [encode_setf]; omega)
theorem getf (sl : BitVec 2) (d : BitVec 6) (b : BitVec 6) : Statement (.getf sl d b) := by
  have := sl.isLt; have := d.isLt; have := b.isLt; exact of_long rfl (by rw [encode_getf]; omega) (by rw [encode_getf]; omega)
theorem xform (sl : BitVec 2) (d : BitVec 6) (a : BitVec 6) (b : BitVec 6) : Statement (.xform sl d a b) := by
  have := sl.isLt; have := d.isLt; have := a.isLt; have := b.isLt; exact of_long rfl (by rw [encode_xform]; omega) (by rw [encode_xform]; omega)
theorem srand (sl : BitVec 2) (a : BitVec 6) : Statement (.srand sl a) := by
  have := sl.isLt; have := a.isLt; exact of_long rfl (by rw [encode_srand]; omega) (by rw [encode_srand]; omega)
theorem licq (sl : BitVec 2) (d : BitVec 6) : Statement (.licq sl d) := by
  have := sl.isLt; have := d.isLt; exact of_long rfl (by rw [encode_licq]; omega) (by rw [encode_licq]; omega)
theorem licw (sl : BitVec 2) (d : BitVec 6) : Statement (.licw sl d) := by
  have := sl.isLt; have := d.isLt; exact of_long rfl (by rw [encode_licw]; omega) (by rw [encode_licw]; omega)
theorem licr (sl : BitVec 2) (d : BitVec 6) : Statement (.licr sl d) := by
  have := sl.isLt; have := d.isLt; exact of_long rfl (by rw [encode_licr]; omega) (by rw [encode_licr]; omega)
theorem lics (sl : BitVec 2) (d : BitVec 6) : Statement (.lics sl d) := by
  have := sl.isLt; have := d.isLt; exact of_long rfl (by rw [encode_lics]; omega) (by rw [encode_lics]; omega)
theorem mma (sl : BitVec 2) (d : BitVec 6) (a : BitVec 6) (b : BitVec 6) : Statement (.mma sl d a b) := by
  have := sl.isLt; have := d.isLt; have := a.isLt; have := b.isLt; exact of_long rfl (by rw [encode_mma]; omega) (by rw [encode_mma]; omega)
theorem mmad (sl : BitVec 2) (d : BitVec 6) (a : BitVec 6) (b : BitVec 6) : Statement (.mmad sl d a b) := by
  have := sl.isLt; have := d.isLt; have := a.isLt; have := b.isLt; exact of_long rfl (by rw [encode_mmad]; omega) (by rw [encode_mmad]; omega)
theorem topk (sl : BitVec 2) (d : BitVec 6) (a : BitVec 6) (b : BitVec 6) : Statement (.topk sl d a b) := by
  have := sl.isLt; have := d.isLt; have := a.isLt; have := b.isLt; exact of_long rfl (by rw [encode_topk]; omega) (by rw [encode_topk]; omega)
theorem aclr (sl : BitVec 2) (m : BitVec 4) : Statement (.aclr sl m) := by
  have := sl.isLt; have := m.isLt; exact of_long rfl (by rw [encode_aclr]; omega) (by rw [encode_aclr]; omega)
theorem drn (sl : BitVec 2) (d : BitVec 6) (a : BitVec 6) (b : BitVec 6) : Statement (.drn sl d a b) := by
  have := sl.isLt; have := d.isLt; have := a.isLt; have := b.isLt; exact of_long rfl (by rw [encode_drn]; omega) (by rw [encode_drn]; omega)
theorem drn2 (sl : BitVec 2) (d : BitVec 6) (a : BitVec 6) (b : BitVec 6) : Statement (.drn2 sl d a b) := by
  have := sl.isLt; have := d.isLt; have := a.isLt; have := b.isLt; exact of_long rfl (by rw [encode_drn2]; omega) (by rw [encode_drn2]; omega)
theorem asave (sl : BitVec 2) (d : BitVec 6) (a : BitVec 6) (b : BitVec 6) : Statement (.asave sl d a b) := by
  have := sl.isLt; have := d.isLt; have := a.isLt; have := b.isLt; exact of_long rfl (by rw [encode_asave]; omega) (by rw [encode_asave]; omega)
theorem arst (sl : BitVec 2) (d : BitVec 6) (a : BitVec 6) (b : BitVec 6) : Statement (.arst sl d a b) := by
  have := sl.isLt; have := d.isLt; have := a.isLt; have := b.isLt; exact of_long rfl (by rw [encode_arst]; omega) (by rw [encode_arst]; omega)
theorem ppt (sl : BitVec 2) (m : BitVec 4) : Statement (.ppt sl m) := by
  have := sl.isLt; have := m.isLt; exact of_long rfl (by rw [encode_ppt]; omega) (by rw [encode_ppt]; omega)
theorem mwait (sl : BitVec 2) (d : BitVec 6) (b : BitVec 6) : Statement (.mwait sl d b) := by
  have := sl.isLt; have := d.isLt; have := b.isLt; exact of_long rfl (by rw [encode_mwait]; omega) (by rw [encode_mwait]; omega)
theorem sret (sl : BitVec 2) (a : BitVec 6) (b : BitVec 6) : Statement (.sret sl a b) := by
  have := sl.isLt; have := a.isLt; have := b.isLt; exact of_long rfl (by rw [encode_sret]; omega) (by rw [encode_sret]; omega)
theorem getp (sl : BitVec 2) (d : BitVec 6) (a : BitVec 6) (b : BitVec 6) : Statement (.getp sl d a b) := by
  have := sl.isLt; have := d.isLt; have := a.isLt; have := b.isLt; exact of_long rfl (by rw [encode_getp]; omega) (by rw [encode_getp]; omega)
theorem putp (sl : BitVec 2) (d : BitVec 6) (a : BitVec 6) (b : BitVec 6) : Statement (.putp sl d a b) := by
  have := sl.isLt; have := d.isLt; have := a.isLt; have := b.isLt; exact of_long rfl (by rw [encode_putp]; omega) (by rw [encode_putp]; omega)
theorem tlbi (sl : BitVec 2) (a : BitVec 6) (b : BitVec 6) : Statement (.tlbi sl a b) := by
  have := sl.isLt; have := a.isLt; have := b.isLt; exact of_long rfl (by rw [encode_tlbi]; omega) (by rw [encode_tlbi]; omega)
theorem ckpt (sl : BitVec 2) (d : BitVec 6) (b : BitVec 6) : Statement (.ckpt sl d b) := by
  have := sl.isLt; have := d.isLt; have := b.isLt; exact of_long rfl (by rw [encode_ckpt]; omega) (by rw [encode_ckpt]; omega)
theorem kill (sl : BitVec 2) (d : BitVec 6) (a : BitVec 6) (y : BitVec 1) (h : BitVec 1) : Statement (.kill sl d a y h) := by
  have := sl.isLt; have := d.isLt; have := a.isLt; have := y.isLt; have := h.isLt; exact of_long rfl (by rw [encode_kill]; omega) (by rw [encode_kill]; omega)
theorem slots (sl : BitVec 2) (d : BitVec 6) : Statement (.slots sl d) := by
  have := sl.isLt; have := d.isLt; exact of_long rfl (by rw [encode_slots]; omega) (by rw [encode_slots]; omega)
theorem licf (sl : BitVec 2) (d : BitVec 6) (a : BitVec 6) (b : BitVec 6) : Statement (.licf sl d a b) := by
  have := sl.isLt; have := d.isLt; have := a.isLt; have := b.isLt; exact of_long rfl (by rw [encode_licf]; omega) (by rw [encode_licf]; omega)
theorem ibpeek (sl : BitVec 2) (d : BitVec 6) (b : BitVec 6) : Statement (.ibpeek sl d b) := by
  have := sl.isLt; have := d.isLt; have := b.isLt; exact of_long rfl (by rw [encode_ibpeek]; omega) (by rw [encode_ibpeek]; omega)
theorem ibtake (sl : BitVec 2) (d : BitVec 6) (b : BitVec 6) : Statement (.ibtake sl d b) := by
  have := sl.isLt; have := d.isLt; have := b.isLt; exact of_long rfl (by rw [encode_ibtake]; omega) (by rw [encode_ibtake]; omega)
theorem defer (sl : BitVec 2) (d : BitVec 6) : Statement (.defer sl d) := by
  have := sl.isLt; have := d.isLt; exact of_long rfl (by rw [encode_defer]; omega) (by rw [encode_defer]; omega)
theorem resume (sl : BitVec 2) (d : BitVec 6) (a : BitVec 6) : Statement (.resume sl d a) := by
  have := sl.isLt; have := d.isLt; have := a.isLt; exact of_long rfl (by rw [encode_resume]; omega) (by rw [encode_resume]; omega)
theorem evict (sl : BitVec 2) (d : BitVec 6) (a : BitVec 6) (b : BitVec 6) : Statement (.evict sl d a b) := by
  have := sl.isLt; have := d.isLt; have := a.isLt; have := b.isLt; exact of_long rfl (by rw [encode_evict]; omega) (by rw [encode_evict]; omega)
theorem trace (sl : BitVec 2) (a : BitVec 6) (b : BitVec 6) : Statement (.trace sl a b) := by
  have := sl.isLt; have := a.isLt; have := b.isLt; exact of_long rfl (by rw [encode_trace]; omega) (by rw [encode_trace]; omega)
theorem addCompact (d : BitVec 5) (a : BitVec 5) : Statement (.addCompact d a) := by
  have := d.isLt; have := a.isLt; exact of_short rfl (by rw [encode_addCompact]; omega)
theorem subCompact (d : BitVec 5) (a : BitVec 5) : Statement (.subCompact d a) := by
  have := d.isLt; have := a.isLt; exact of_short rfl (by rw [encode_subCompact]; omega)
theorem andCompact (d : BitVec 5) (a : BitVec 5) : Statement (.andCompact d a) := by
  have := d.isLt; have := a.isLt; exact of_short rfl (by rw [encode_andCompact]; omega)
theorem orCompact (d : BitVec 5) (a : BitVec 5) : Statement (.orCompact d a) := by
  have := d.isLt; have := a.isLt; exact of_short rfl (by rw [encode_orCompact]; omega)
theorem xorCompact (d : BitVec 5) (a : BitVec 5) : Statement (.xorCompact d a) := by
  have := d.isLt; have := a.isLt; exact of_short rfl (by rw [encode_xorCompact]; omega)
theorem movCompact (d : BitVec 5) (a : BitVec 5) : Statement (.movCompact d a) := by
  have := d.isLt; have := a.isLt; exact of_short rfl (by rw [encode_movCompact]; omega)
theorem addiCompact (d : BitVec 5) (i : BitVec 5) : Statement (.addiCompact d i) := by
  have := d.isLt; have := i.isLt; exact of_short rfl (by rw [encode_addiCompact]; omega)
theorem shliCompact (d : BitVec 5) (i : BitVec 5) : Statement (.shliCompact d i) := by
  have := d.isLt; have := i.isLt; exact of_short rfl (by rw [encode_shliCompact]; omega)
theorem shriCompact (d : BitVec 5) (i : BitVec 5) : Statement (.shriCompact d i) := by
  have := d.isLt; have := i.isLt; exact of_short rfl (by rw [encode_shriCompact]; omega)
theorem seteqCompact (d : BitVec 5) (a : BitVec 5) : Statement (.seteqCompact d a) := by
  have := d.isLt; have := a.isLt; exact of_short rfl (by rw [encode_seteqCompact]; omega)
theorem setltCompact (d : BitVec 5) (a : BitVec 5) : Statement (.setltCompact d a) := by
  have := d.isLt; have := a.isLt; exact of_short rfl (by rw [encode_setltCompact]; omega)
theorem ldCompact (d : BitVec 5) (a : BitVec 5) : Statement (.ldCompact d a) := by
  have := d.isLt; have := a.isLt; exact of_short rfl (by rw [encode_ldCompact]; omega)
theorem stCompact (d : BitVec 5) (a : BitVec 5) : Statement (.stCompact d a) := by
  have := d.isLt; have := a.isLt; exact of_short rfl (by rw [encode_stCompact]; omega)
theorem brz (d : BitVec 5) (o : BitVec 5) : Statement (.brz d o) := by
  have := d.isLt; have := o.isLt; exact of_short rfl (by rw [encode_brz]; omega)
theorem brnz (d : BitVec 5) (o : BitVec 5) : Statement (.brnz d o) := by
  have := d.isLt; have := o.isLt; exact of_short rfl (by rw [encode_brnz]; omega)
theorem nopCompact : Statement .nopCompact := of_short rfl (by rw [encode_nopCompact]; omega)
theorem yieldCompact : Statement .yieldCompact := of_short rfl (by rw [encode_yieldCompact]; omega)
theorem faddCompact (d : BitVec 5) (a : BitVec 5) : Statement (.faddCompact d a) := by
  have := d.isLt; have := a.isLt; exact of_short rfl (by rw [encode_faddCompact]; omega)
theorem fmulCompact (d : BitVec 5) (a : BitVec 5) : Statement (.fmulCompact d a) := by
  have := d.isLt; have := a.isLt; exact of_short rfl (by rw [encode_fmulCompact]; omega)
theorem submissionPlaceWait (core : Nat) : Statement (.submissionPlaceWait core) := of_event rfl rfl
theorem taskCounterDecrement (task : Nat) (bereaved : Bool) : Statement (.taskCounterDecrement task bereaved) := of_event rfl rfl
theorem dealTask (core : Nat) : Statement (.dealTask core) := of_event rfl rfl
theorem dealResume (idx : Nat) : Statement (.dealResume idx) := of_event rfl rfl
theorem slotFill (core : Nat) : Statement (.slotFill core) := of_event rfl rfl
theorem resumeAfterWriteback (core : Nat) (idx : Nat) : Statement (.resumeAfterWriteback core idx) := of_event rfl rfl
theorem agePromote (core : Nat) (idx : Nat) : Statement (.agePromote core idx) := of_event rfl rfl
theorem callEntryTake (core : Nat) : Statement (.callEntryTake core) := of_event rfl rfl
theorem overflowEnter (tower : Nat) : Statement (.overflowEnter tower) := of_event rfl rfl
theorem successorStart (task : Nat) : Statement (.successorStart task) := of_event rfl rfl
theorem wakeRecheck (core : Nat) (slot : Nat) : Statement (.wakeRecheck core slot) := of_event rfl rfl
theorem rowFill (core : Nat) (slot : Nat) (bad : Bool) : Statement (.rowFill core slot bad) := of_event rfl rfl
theorem rowIdleWriteback (core : Nat) (idx : Nat) : Statement (.rowIdleWriteback core idx) := of_event rfl rfl
theorem repackComplete (core : Nat) : Statement (.repackComplete core) := of_event rfl rfl
theorem messageDeliver (core : Nat) (chan : Nat) (idx : Nat) : Statement (.messageDeliver core chan idx) := of_event rfl rfl
theorem fabricMsgReceive (p : Packet) : Statement (.fabricMsgReceive p) := of_event rfl rfl
theorem putReceive (p : Packet) : Statement (.putReceive p) := of_event rfl rfl
theorem cputReceive (p : Packet) : Statement (.cputReceive p) := of_event rfl rfl
theorem atomReceive (p : Packet) : Statement (.atomReceive p) := of_event rfl rfl
theorem replyReceive (p : Packet) : Statement (.replyReceive p) := of_event rfl rfl
theorem nameWindowWrite (pa : Nat) (size : Nat) (value : Word) (by_ : Nat) : Statement (.nameWindowWrite pa size value by_) := of_event rfl rfl
theorem nameWindowRead (pa : Nat) (size : Nat) (by_ : Nat) : Statement (.nameWindowRead pa size by_) := of_event rfl rfl
theorem rawRowAccess (pa : Nat) (store : Bool) (value : Word) (by_ : Nat) : Statement (.rawRowAccess pa store value by_) := of_event rfl rfl
theorem accWindowRead (pa : Nat) (size : Nat) (by_ : Nat) : Statement (.accWindowRead pa size by_) := of_event rfl rfl
theorem accWindowWrite (pa : Nat) (size : Nat) (value : Word) (by_ : Nat) : Statement (.accWindowWrite pa size value by_) := of_event rfl rfl
theorem inboxEntryEnter (core : Nat) : Statement (.inboxEntryEnter core) := of_event rfl rfl
theorem setfTakeEffect (core : Nat) (idx : Nat) : Statement (.setfTakeEffect core idx) := of_event rfl rfl
theorem streamCommandStart (core : Nat) (idx : Nat) : Statement (.streamCommandStart core idx) := of_event rfl rfl
theorem streamCommandComplete (core : Nat) (idx : Nat) : Statement (.streamCommandComplete core idx) := of_event rfl rfl
theorem chunkWaitRelease (core : Nat) (idx : Nat) : Statement (.chunkWaitRelease core idx) := of_event rfl rfl
theorem copyCommandStart (core : Nat) (idx : Nat) : Statement (.copyCommandStart core idx) := of_event rfl rfl
theorem copyCommandComplete (core : Nat) (idx : Nat) : Statement (.copyCommandComplete core idx) := of_event rfl rfl
theorem collCommandStart (core : Nat) (idx : Nat) : Statement (.collCommandStart core idx) := of_event rfl rfl
theorem collPacketReceive (core : Nat) (p : Packet) : Statement (.collPacketReceive core p) := of_event rfl rfl
theorem collAbortReceive (core : Nat) (p : Packet) : Statement (.collAbortReceive core p) := of_event rfl rfl
theorem chunkLand (core : Nat) (idx : Nat) (chunk : Nat) : Statement (.chunkLand core idx chunk) := of_event rfl rfl
theorem inswitchTimeout (core : Nat) (idx : Nat) : Statement (.inswitchTimeout core idx) := of_event rfl rfl
theorem hostRecordSend (core : Nat) (idx : Nat) : Statement (.hostRecordSend core idx) := of_event rfl rfl
theorem xformStart (core : Nat) (idx : Nat) : Statement (.xformStart core idx) := of_event rfl rfl
theorem xformComplete (core : Nat) (idx : Nat) : Statement (.xformComplete core idx) := of_event rfl rfl
theorem matrixCommandStart (core : Nat) (idx : Nat) : Statement (.matrixCommandStart core idx) := of_event rfl rfl
theorem mcastWaitExpire (core : Nat) (idx : Nat) : Statement (.mcastWaitExpire core idx) := of_event rfl rfl
theorem mmaComplete (core : Nat) (idx : Nat) : Statement (.mmaComplete core idx) := of_event rfl rfl
theorem topkComplete (core : Nat) (idx : Nat) : Statement (.topkComplete core idx) := of_event rfl rfl
theorem drainComplete (core : Nat) (idx : Nat) : Statement (.drainComplete core idx) := of_event rfl rfl
theorem accSaveComplete (core : Nat) (idx : Nat) : Statement (.accSaveComplete core idx) := of_event rfl rfl
theorem accRestoreComplete (core : Nat) (idx : Nat) : Statement (.accRestoreComplete core idx) := of_event rfl rfl
theorem mwaitMarkerFire (core : Nat) (idx : Nat) : Statement (.mwaitMarkerFire core idx) := of_event rfl rfl
theorem engineFaultPark (core : Nat) (idx : Nat) : Statement (.engineFaultPark core idx) := of_event rfl rfl
theorem engparkResume (core : Nat) (place : Nat) : Statement (.engparkResume core place) := of_event rfl rfl
theorem engparkKill (core : Nat) (place : Nat) : Statement (.engparkKill core place) := of_event rfl rfl
theorem licenceTermEnd (pair : Nat) : Statement (.licenceTermEnd pair) := of_event rfl rfl
theorem licenceDrainGrant (pair : Nat) : Statement (.licenceDrainGrant pair) := of_event rfl rfl
theorem timerExpire (core : Nat) (slot : Nat) : Statement (.timerExpire core slot) := of_event rfl rfl
theorem preemptTake (core : Nat) (slot : Nat) : Statement (.preemptTake core slot) := of_event rfl rfl
theorem preemptForce (core : Nat) (slot : Nat) : Statement (.preemptForce core slot) := of_event rfl rfl
theorem systemEventBegin (core : Nat) : Statement (.systemEventBegin core) := of_event rfl rfl
theorem systemSlotRestart (core : Nat) : Statement (.systemSlotRestart core) := of_event rfl rfl
theorem conveyEntry (idx : Nat) : Statement (.conveyEntry idx) := of_event rfl rfl
theorem hostSubmit (queue : Nat) (cmd : BitVec 512) : Statement (.hostSubmit queue cmd) := of_event rfl rfl
theorem hostDecr (queue : Nat) (cmd : BitVec 512) : Statement (.hostDecr queue cmd) := of_event rfl rfl
theorem hostClose (queue : Nat) (cmd : BitVec 512) : Statement (.hostClose queue cmd) := of_event rfl rfl
theorem hostReset (queue : Nat) (cmd : BitVec 512) : Statement (.hostReset queue cmd) := of_event rfl rfl
theorem hqctlOpen (queue : Nat) (value : Word) : Statement (.hqctlOpen queue value) := of_event rfl rfl
theorem hqctlTeardownSoft (queue : Nat) (value : Word) : Statement (.hqctlTeardownSoft queue value) := of_event rfl rfl
theorem hqctlTeardownHard (queue : Nat) (value : Word) : Statement (.hqctlTeardownHard queue value) := of_event rfl rfl
theorem teardownComplete (queue : Nat) : Statement (.teardownComplete queue) := of_event rfl rfl
theorem dualEffectCompare (task : Nat) (group : Nat) : Statement (.dualEffectCompare task group) := of_event rfl rfl
theorem dualPartnerTimeout (task : Nat) (group : Nat) : Statement (.dualPartnerTimeout task group) := of_event rfl rfl
theorem tlbshootCtx (value : Word) : Statement (.tlbshootCtx value) := of_event rfl rfl
theorem tlbshootPage (value : Word) : Statement (.tlbshootPage value) := of_event rfl rfl
theorem tlbshootAll (value : Word) : Statement (.tlbshootAll value) := of_event rfl rfl
theorem tlbshootComplete : Statement .tlbshootComplete := of_event rfl rfl
theorem poolLineWriteback (tower : Nat) (line : Nat) (bad : Bool) : Statement (.poolLineWriteback tower line bad) := of_event rfl rfl
theorem shadowRecordReplay (tower : Nat) (slice : Nat) : Statement (.shadowRecordReplay tower slice) := of_event rfl rfl
theorem poolHotExpire (tower : Nat) (line : Nat) : Statement (.poolHotExpire tower line) := of_event rfl rfl
theorem poolPush (tower : Nat) (value : Word) : Statement (.poolPush tower value) := of_event rfl rfl
theorem poolDrop (tower : Nat) (value : Word) : Statement (.poolDrop tower value) := of_event rfl rfl
theorem cklogWrite (channel : Nat) (value : Word) : Statement (.cklogWrite channel value) := of_event rfl rfl
theorem rollbackStart (value : Word) : Statement (.rollbackStart value) := of_event rfl rfl
theorem rollbackComplete : Statement .rollbackComplete := of_event rfl rfl
theorem scrubPass (line : Nat) (bad : Bool) : Statement (.scrubPass line bad) := of_event rfl rfl
theorem ctrareaWrite (core : Nat) (value : Word) : Statement (.ctrareaWrite core value) := of_event rfl rfl
theorem pwrreqStepWrite (cluster : Nat) (value : Word) : Statement (.pwrreqStepWrite cluster value) := of_event rfl rfl
theorem pwrreqGo (cluster : Nat) (value : Word) : Statement (.pwrreqGo cluster value) := of_event rfl rfl
theorem rampComplete (cluster : Nat) : Statement (.rampComplete cluster) := of_event rfl rfl
theorem currentSample (cluster : Nat) (amps : Nat) : Statement (.currentSample cluster amps) := of_event rfl rfl
theorem currentStepDown (cluster : Nat) : Statement (.currentStepDown cluster) := of_event rfl rfl
theorem thermalOffline (die : Nat) (temp : Nat) : Statement (.thermalOffline die temp) := of_event rfl rfl
theorem thermalClamp (die : Nat) (temp : Nat) : Statement (.thermalClamp die temp) := of_event rfl rfl
theorem thermalCut (die : Nat) (temp : Nat) : Statement (.thermalCut die temp) := of_event rfl rfl
theorem offlineTimeoutCut (die : Nat) : Statement (.offlineTimeoutCut die) := of_event rfl rfl
theorem thermstReadmit (die : Nat) (value : Word) : Statement (.thermstReadmit die value) := of_event rfl rfl
theorem fwdogKick (value : Word) : Statement (.fwdogKick value) := of_event rfl rfl
theorem fwdogExpire : Statement .fwdogExpire := of_event rfl rfl
theorem firmwareVerify (pss : Bool) (slh : Bool) (version : Nat) : Statement (.firmwareVerify pss slh version) := of_event rfl rfl
theorem attestationReport (nonce : BitVec 256) : Statement (.attestationReport nonce) := of_event rfl rfl
theorem endpointInstall (ep : Nat) (ctx : BitVec 16) (host : BitVec 32) : Statement (.endpointInstall ep ctx host) := of_event rfl rfl
theorem endpointRevoke (ep : Nat) : Statement (.endpointRevoke ep) := of_event rfl rfl
theorem alarmRaise (source : Nat) : Statement (.alarmRaise source) := of_event rfl rfl
theorem portLinkChange (port : Nat) (up : Bool) : Statement (.portLinkChange port up) := of_event rfl rfl
theorem ucieRetrainFail (module : Nat) : Statement (.ucieRetrainFail module) := of_event rfl rfl
theorem partctlOpen (value : Word) : Statement (.partctlOpen value) := of_event rfl rfl
theorem partctlClose (value : Word) : Statement (.partctlClose value) := of_event rfl rfl
theorem wrstGo (die : Nat) (value : Word) : Statement (.wrstGo die value) := of_event rfl rfl
theorem warmResetPhase (die : Nat) (ok : Bool) : Statement (.warmResetPhase die ok) := of_event rfl rfl
theorem dieReset (die : Nat) : Statement (.dieReset die) := of_event rfl rfl
theorem registerWrite (off : Nat) (value : Word) (by_ : Nat) : Statement (.registerWrite off value by_) := of_event rfl rfl
theorem lineWriteBack (level : Nat) (unit_ : Nat) (line : Nat) (bad : Bool) : Statement (.lineWriteBack level unit_ line bad) := of_event rfl rfl
theorem accessResultArrival (core : Nat) (slot : Nat) (idx : Nat) : Statement (.accessResultArrival core slot idx) := of_event rfl rfl
theorem ucieModuleReturn (module : Nat) : Statement (.ucieModuleReturn module) := of_event rfl rfl
theorem warmZone (die : Nat) (temp : Nat) : Statement (.warmZone die temp) := of_event rfl rfl
theorem coldStart : Statement .coldStart := of_event rfl rfl

end Sys2Proof.Laws.Length
end

