-- ==== Sys2Proof/Laws/State.lean ====
section
/-! SUPPORT. Laws/State.lean: what each update of the state leaves in each of its fields, and what the accessors of the sparse tables
read after an update. -/

namespace Sys2Proof.Machine

variable (s : State)

/-! ### modCore -/

@[simp] theorem modCore_agenda (n : Nat) (f : Core → Core) : (s.modCore n f).agenda = s.agenda := rfl
@[simp] theorem modCore_tick (n : Nat) (f : Core → Core) : (s.modCore n f).tick = s.tick := rfl
@[simp] theorem modCore_cur (n : Nat) (f : Core → Core) : (s.modCore n f).cur = s.cur := rfl
@[simp] theorem modCore_time (n : Nat) (f : Core → Core) : (s.modCore n f).time = s.time := rfl
@[simp] theorem modCore_mem (n : Nat) (f : Core → Core) : (s.modCore n f).mem = s.mem := rfl
@[simp] theorem modCore_memPoison (n : Nat) (f : Core → Core) : (s.modCore n f).memPoison = s.memPoison := rfl
@[simp] theorem modCore_llc (n : Nat) (f : Core → Core) : (s.modCore n f).llc = s.llc := rfl
@[simp] theorem modCore_pairs (n : Nat) (f : Core → Core) : (s.modCore n f).pairs = s.pairs := rfl
@[simp] theorem modCore_clusters (n : Nat) (f : Core → Core) : (s.modCore n f).clusters = s.clusters := rfl
@[simp] theorem modCore_towers (n : Nat) (f : Core → Core) : (s.modCore n f).towers = s.towers := rfl
@[simp] theorem modCore_dies (n : Nat) (f : Core → Core) : (s.modCore n f).dies = s.dies := rfl
@[simp] theorem modCore_threads (n : Nat) (f : Core → Core) : (s.modCore n f).threads = s.threads := rfl
@[simp] theorem modCore_dying (n : Nat) (f : Core → Core) : (s.modCore n f).dying = s.dying := rfl
@[simp] theorem modCore_tasks (n : Nat) (f : Core → Core) : (s.modCore n f).tasks = s.tasks := rfl
@[simp] theorem modCore_nextTask (n : Nat) (f : Core → Core) : (s.modCore n f).nextTask = s.nextTask := rfl
@[simp] theorem modCore_submissions (n : Nat) (f : Core → Core) : (s.modCore n f).submissions = s.submissions := rfl
@[simp] theorem modCore_decrements (n : Nat) (f : Core → Core) : (s.modCore n f).decrements = s.decrements := rfl
@[simp] theorem modCore_ctrl (n : Nat) (f : Core → Core) : (s.modCore n f).ctrl = s.ctrl := rfl
@[simp] theorem modCore_queues (n : Nat) (f : Core → Core) : (s.modCore n f).queues = s.queues := rfl
@[simp] theorem modCore_replies (n : Nat) (f : Core → Core) : (s.modCore n f).replies = s.replies := rfl
@[simp] theorem modCore_repliesHeld (n : Nat) (f : Core → Core) : (s.modCore n f).repliesHeld = s.repliesHeld := rfl
@[simp] theorem modCore_fabricOut (n : Nat) (f : Core → Core) : (s.modCore n f).fabricOut = s.fabricOut := rfl
@[simp] theorem modCore_fabricHeld (n : Nat) (f : Core → Core) : (s.modCore n f).fabricHeld = s.fabricHeld := rfl
@[simp] theorem modCore_flowSend (n : Nat) (f : Core → Core) : (s.modCore n f).flowSend = s.flowSend := rfl
@[simp] theorem modCore_flowRecv (n : Nat) (f : Core → Core) : (s.modCore n f).flowRecv = s.flowRecv := rfl
@[simp] theorem modCore_reorder (n : Nat) (f : Core → Core) : (s.modCore n f).reorder = s.reorder := rfl
@[simp] theorem modCore_remoteOps (n : Nat) (f : Core → Core) : (s.modCore n f).remoteOps = s.remoteOps := rfl
@[simp] theorem modCore_farWrites (n : Nat) (f : Core → Core) : (s.modCore n f).farWrites = s.farWrites := rfl
@[simp] theorem modCore_nextRemote (n : Nat) (f : Core → Core) : (s.modCore n f).nextRemote = s.nextRemote := rfl
@[simp] theorem modCore_portUp (n : Nat) (f : Core → Core) : (s.modCore n f).portUp = s.portUp := rfl
@[simp] theorem modCore_portErrors (n : Nat) (f : Core → Core) : (s.modCore n f).portErrors = s.portErrors := rfl
@[simp] theorem modCore_ucieUp (n : Nat) (f : Core → Core) : (s.modCore n f).ucieUp = s.ucieUp := rfl
@[simp] theorem modCore_partOpen (n : Nat) (f : Core → Core) : (s.modCore n f).partOpen = s.partOpen := rfl
@[simp] theorem modCore_places (n : Nat) (f : Core → Core) : (s.modCore n f).places = s.places := rfl
@[simp] theorem modCore_dual (n : Nat) (f : Core → Core) : (s.modCore n f).dual = s.dual := rfl
@[simp] theorem modCore_tlbBusy (n : Nat) (f : Core → Core) : (s.modCore n f).tlbBusy = s.tlbBusy := rfl
@[simp] theorem modCore_intervals (n : Nat) (f : Core → Core) : (s.modCore n f).intervals = s.intervals := rfl
@[simp] theorem modCore_nextCkpt (n : Nat) (f : Core → Core) : (s.modCore n f).nextCkpt = s.nextCkpt := rfl
@[simp] theorem modCore_logs (n : Nat) (f : Core → Core) : (s.modCore n f).logs = s.logs := rfl
@[simp] theorem modCore_logOvf (n : Nat) (f : Core → Core) : (s.modCore n f).logOvf = s.logOvf := rfl
@[simp] theorem modCore_rbBusy (n : Nat) (f : Core → Core) : (s.modCore n f).rbBusy = s.rbBusy := rfl
@[simp] theorem modCore_rbDone (n : Nat) (f : Core → Core) : (s.modCore n f).rbDone = s.rbDone := rfl
@[simp] theorem modCore_rbRefused (n : Nat) (f : Core → Core) : (s.modCore n f).rbRefused = s.rbRefused := rfl
@[simp] theorem modCore_rbWord (n : Nat) (f : Core → Core) : (s.modCore n f).rbWord = s.rbWord := rfl
@[simp] theorem modCore_fwUp (n : Nat) (f : Core → Core) : (s.modCore n f).fwUp = s.fwUp := rfl
@[simp] theorem modCore_fwKick (n : Nat) (f : Core → Core) : (s.modCore n f).fwKick = s.fwKick := rfl
@[simp] theorem modCore_fwRestarts (n : Nat) (f : Core → Core) : (s.modCore n f).fwRestarts = s.fwRestarts := rfl
@[simp] theorem modCore_fwMinVersion (n : Nat) (f : Core → Core) : (s.modCore n f).fwMinVersion = s.fwMinVersion := rfl
@[simp] theorem modCore_fwFailed (n : Nat) (f : Core → Core) : (s.modCore n f).fwFailed = s.fwFailed := rfl
@[simp] theorem modCore_keysUp (n : Nat) (f : Core → Core) : (s.modCore n f).keysUp = s.keysUp := rfl
@[simp] theorem modCore_epCount (n : Nat) (f : Core → Core) : (s.modCore n f).epCount = s.epCount := rfl
@[simp] theorem modCore_authFails (n : Nat) (f : Core → Core) : (s.modCore n f).authFails = s.authFails := rfl
@[simp] theorem modCore_reports (n : Nat) (f : Core → Core) : (s.modCore n f).reports = s.reports := rfl
@[simp] theorem modCore_machineChecks (n : Nat) (f : Core → Core) : (s.modCore n f).machineChecks = s.machineChecks := rfl
@[simp] theorem modCore_mcDropped (n : Nat) (f : Core → Core) : (s.modCore n f).mcDropped = s.mcDropped := rfl
@[simp] theorem modCore_mcTaken (n : Nat) (f : Core → Core) : (s.modCore n f).mcTaken = s.mcTaken := rfl
@[simp] theorem modCore_almSt (n : Nat) (f : Core → Core) : (s.modCore n f).almSt = s.almSt := rfl
@[simp] theorem modCore_fabricStopped (n : Nat) (f : Core → Core) : (s.modCore n f).fabricStopped = s.fabricStopped := rfl
@[simp] theorem modCore_get_pair (n : Nat) (f : Core → Core) (j : Nat) : (s.modCore n f).pair j = s.pair j := rfl
@[simp] theorem modCore_get_cluster (n : Nat) (f : Core → Core) (j : Nat) : (s.modCore n f).cluster j = s.cluster j := rfl
@[simp] theorem modCore_get_tower (n : Nat) (f : Core → Core) (j : Nat) : (s.modCore n f).tower j = s.tower j := rfl
@[simp] theorem modCore_get_die (n : Nat) (f : Core → Core) (j : Nat) : (s.modCore n f).die j = s.die j := rfl
@[simp] theorem modCore_get_thread (n : Nat) (f : Core → Core) (j : Nat) : (s.modCore n f).thread j = s.thread j := rfl
@[simp] theorem modCore_get_task (n : Nat) (f : Core → Core) (j : Nat) : (s.modCore n f).task j = s.task j := rfl
@[simp] theorem modCore_get_hostQueue (n : Nat) (f : Core → Core) (j : Nat) : (s.modCore n f).hostQueue j = s.hostQueue j := rfl
@[simp] theorem modCore_ctrlWord (n : Nat) (f : Core → Core) (o : Nat) (r : Word) : (s.modCore n f).ctrlWord o r = s.ctrlWord o r := rfl

/-! ### modSlot -/

@[simp] theorem modSlot_agenda (n k : Nat) (f : Slot → Slot) : (s.modSlot n k f).agenda = s.agenda := rfl
@[simp] theorem modSlot_tick (n k : Nat) (f : Slot → Slot) : (s.modSlot n k f).tick = s.tick := rfl
@[simp] theorem modSlot_cur (n k : Nat) (f : Slot → Slot) : (s.modSlot n k f).cur = s.cur := rfl
@[simp] theorem modSlot_time (n k : Nat) (f : Slot → Slot) : (s.modSlot n k f).time = s.time := rfl
@[simp] theorem modSlot_mem (n k : Nat) (f : Slot → Slot) : (s.modSlot n k f).mem = s.mem := rfl
@[simp] theorem modSlot_memPoison (n k : Nat) (f : Slot → Slot) : (s.modSlot n k f).memPoison = s.memPoison := rfl
@[simp] theorem modSlot_llc (n k : Nat) (f : Slot → Slot) : (s.modSlot n k f).llc = s.llc := rfl
@[simp] theorem modSlot_pairs (n k : Nat) (f : Slot → Slot) : (s.modSlot n k f).pairs = s.pairs := rfl
@[simp] theorem modSlot_clusters (n k : Nat) (f : Slot → Slot) : (s.modSlot n k f).clusters = s.clusters := rfl
@[simp] theorem modSlot_towers (n k : Nat) (f : Slot → Slot) : (s.modSlot n k f).towers = s.towers := rfl
@[simp] theorem modSlot_dies (n k : Nat) (f : Slot → Slot) : (s.modSlot n k f).dies = s.dies := rfl
@[simp] theorem modSlot_threads (n k : Nat) (f : Slot → Slot) : (s.modSlot n k f).threads = s.threads := rfl
@[simp] theorem modSlot_dying (n k : Nat) (f : Slot → Slot) : (s.modSlot n k f).dying = s.dying := rfl
@[simp] theorem modSlot_tasks (n k : Nat) (f : Slot → Slot) : (s.modSlot n k f).tasks = s.tasks := rfl
@[simp] theorem modSlot_nextTask (n k : Nat) (f : Slot → Slot) : (s.modSlot n k f).nextTask = s.nextTask := rfl
@[simp] theorem modSlot_submissions (n k : Nat) (f : Slot → Slot) : (s.modSlot n k f).submissions = s.submissions := rfl
@[simp] theorem modSlot_decrements (n k : Nat) (f : Slot → Slot) : (s.modSlot n k f).decrements = s.decrements := rfl
@[simp] theorem modSlot_ctrl (n k : Nat) (f : Slot → Slot) : (s.modSlot n k f).ctrl = s.ctrl := rfl
@[simp] theorem modSlot_queues (n k : Nat) (f : Slot → Slot) : (s.modSlot n k f).queues = s.queues := rfl
@[simp] theorem modSlot_replies (n k : Nat) (f : Slot → Slot) : (s.modSlot n k f).replies = s.replies := rfl
@[simp] theorem modSlot_repliesHeld (n k : Nat) (f : Slot → Slot) : (s.modSlot n k f).repliesHeld = s.repliesHeld := rfl
@[simp] theorem modSlot_fabricOut (n k : Nat) (f : Slot → Slot) : (s.modSlot n k f).fabricOut = s.fabricOut := rfl
@[simp] theorem modSlot_fabricHeld (n k : Nat) (f : Slot → Slot) : (s.modSlot n k f).fabricHeld = s.fabricHeld := rfl
@[simp] theorem modSlot_flowSend (n k : Nat) (f : Slot → Slot) : (s.modSlot n k f).flowSend = s.flowSend := rfl
@[simp] theorem modSlot_flowRecv (n k : Nat) (f : Slot → Slot) : (s.modSlot n k f).flowRecv = s.flowRecv := rfl
@[simp] theorem modSlot_reorder (n k : Nat) (f : Slot → Slot) : (s.modSlot n k f).reorder = s.reorder := rfl
@[simp] theorem modSlot_remoteOps (n k : Nat) (f : Slot → Slot) : (s.modSlot n k f).remoteOps = s.remoteOps := rfl
@[simp] theorem modSlot_farWrites (n k : Nat) (f : Slot → Slot) : (s.modSlot n k f).farWrites = s.farWrites := rfl
@[simp] theorem modSlot_nextRemote (n k : Nat) (f : Slot → Slot) : (s.modSlot n k f).nextRemote = s.nextRemote := rfl
@[simp] theorem modSlot_portUp (n k : Nat) (f : Slot → Slot) : (s.modSlot n k f).portUp = s.portUp := rfl
@[simp] theorem modSlot_portErrors (n k : Nat) (f : Slot → Slot) : (s.modSlot n k f).portErrors = s.portErrors := rfl
@[simp] theorem modSlot_ucieUp (n k : Nat) (f : Slot → Slot) : (s.modSlot n k f).ucieUp = s.ucieUp := rfl
@[simp] theorem modSlot_partOpen (n k : Nat) (f : Slot → Slot) : (s.modSlot n k f).partOpen = s.partOpen := rfl
@[simp] theorem modSlot_places (n k : Nat) (f : Slot → Slot) : (s.modSlot n k f).places = s.places := rfl
@[simp] theorem modSlot_dual (n k : Nat) (f : Slot → Slot) : (s.modSlot n k f).dual = s.dual := rfl
@[simp] theorem modSlot_tlbBusy (n k : Nat) (f : Slot → Slot) : (s.modSlot n k f).tlbBusy = s.tlbBusy := rfl
@[simp] theorem modSlot_intervals (n k : Nat) (f : Slot → Slot) : (s.modSlot n k f).intervals = s.intervals := rfl
@[simp] theorem modSlot_nextCkpt (n k : Nat) (f : Slot → Slot) : (s.modSlot n k f).nextCkpt = s.nextCkpt := rfl
@[simp] theorem modSlot_logs (n k : Nat) (f : Slot → Slot) : (s.modSlot n k f).logs = s.logs := rfl
@[simp] theorem modSlot_logOvf (n k : Nat) (f : Slot → Slot) : (s.modSlot n k f).logOvf = s.logOvf := rfl
@[simp] theorem modSlot_rbBusy (n k : Nat) (f : Slot → Slot) : (s.modSlot n k f).rbBusy = s.rbBusy := rfl
@[simp] theorem modSlot_rbDone (n k : Nat) (f : Slot → Slot) : (s.modSlot n k f).rbDone = s.rbDone := rfl
@[simp] theorem modSlot_rbRefused (n k : Nat) (f : Slot → Slot) : (s.modSlot n k f).rbRefused = s.rbRefused := rfl
@[simp] theorem modSlot_rbWord (n k : Nat) (f : Slot → Slot) : (s.modSlot n k f).rbWord = s.rbWord := rfl
@[simp] theorem modSlot_fwUp (n k : Nat) (f : Slot → Slot) : (s.modSlot n k f).fwUp = s.fwUp := rfl
@[simp] theorem modSlot_fwKick (n k : Nat) (f : Slot → Slot) : (s.modSlot n k f).fwKick = s.fwKick := rfl
@[simp] theorem modSlot_fwRestarts (n k : Nat) (f : Slot → Slot) : (s.modSlot n k f).fwRestarts = s.fwRestarts := rfl
@[simp] theorem modSlot_fwMinVersion (n k : Nat) (f : Slot → Slot) : (s.modSlot n k f).fwMinVersion = s.fwMinVersion := rfl
@[simp] theorem modSlot_fwFailed (n k : Nat) (f : Slot → Slot) : (s.modSlot n k f).fwFailed = s.fwFailed := rfl
@[simp] theorem modSlot_keysUp (n k : Nat) (f : Slot → Slot) : (s.modSlot n k f).keysUp = s.keysUp := rfl
@[simp] theorem modSlot_epCount (n k : Nat) (f : Slot → Slot) : (s.modSlot n k f).epCount = s.epCount := rfl
@[simp] theorem modSlot_authFails (n k : Nat) (f : Slot → Slot) : (s.modSlot n k f).authFails = s.authFails := rfl
@[simp] theorem modSlot_reports (n k : Nat) (f : Slot → Slot) : (s.modSlot n k f).reports = s.reports := rfl
@[simp] theorem modSlot_machineChecks (n k : Nat) (f : Slot → Slot) : (s.modSlot n k f).machineChecks = s.machineChecks := rfl
@[simp] theorem modSlot_mcDropped (n k : Nat) (f : Slot → Slot) : (s.modSlot n k f).mcDropped = s.mcDropped := rfl
@[simp] theorem modSlot_mcTaken (n k : Nat) (f : Slot → Slot) : (s.modSlot n k f).mcTaken = s.mcTaken := rfl
@[simp] theorem modSlot_almSt (n k : Nat) (f : Slot → Slot) : (s.modSlot n k f).almSt = s.almSt := rfl
@[simp] theorem modSlot_fabricStopped (n k : Nat) (f : Slot → Slot) : (s.modSlot n k f).fabricStopped = s.fabricStopped := rfl
@[simp] theorem modSlot_get_pair (n k : Nat) (f : Slot → Slot) (j : Nat) : (s.modSlot n k f).pair j = s.pair j := rfl
@[simp] theorem modSlot_get_cluster (n k : Nat) (f : Slot → Slot) (j : Nat) : (s.modSlot n k f).cluster j = s.cluster j := rfl
@[simp] theorem modSlot_get_tower (n k : Nat) (f : Slot → Slot) (j : Nat) : (s.modSlot n k f).tower j = s.tower j := rfl
@[simp] theorem modSlot_get_die (n k : Nat) (f : Slot → Slot) (j : Nat) : (s.modSlot n k f).die j = s.die j := rfl
@[simp] theorem modSlot_get_thread (n k : Nat) (f : Slot → Slot) (j : Nat) : (s.modSlot n k f).thread j = s.thread j := rfl
@[simp] theorem modSlot_get_task (n k : Nat) (f : Slot → Slot) (j : Nat) : (s.modSlot n k f).task j = s.task j := rfl
@[simp] theorem modSlot_get_hostQueue (n k : Nat) (f : Slot → Slot) (j : Nat) : (s.modSlot n k f).hostQueue j = s.hostQueue j := rfl
@[simp] theorem modSlot_ctrlWord (n k : Nat) (f : Slot → Slot) (o : Nat) (r : Word) : (s.modSlot n k f).ctrlWord o r = s.ctrlWord o r := rfl

/-! ### modThread -/

@[simp] theorem modThread_agenda (n : Nat) (f : Thread → Thread) : (s.modThread n f).agenda = s.agenda := rfl
@[simp] theorem modThread_tick (n : Nat) (f : Thread → Thread) : (s.modThread n f).tick = s.tick := rfl
@[simp] theorem modThread_cur (n : Nat) (f : Thread → Thread) : (s.modThread n f).cur = s.cur := rfl
@[simp] theorem modThread_time (n : Nat) (f : Thread → Thread) : (s.modThread n f).time = s.time := rfl
@[simp] theorem modThread_mem (n : Nat) (f : Thread → Thread) : (s.modThread n f).mem = s.mem := rfl
@[simp] theorem modThread_memPoison (n : Nat) (f : Thread → Thread) : (s.modThread n f).memPoison = s.memPoison := rfl
@[simp] theorem modThread_llc (n : Nat) (f : Thread → Thread) : (s.modThread n f).llc = s.llc := rfl
@[simp] theorem modThread_cores (n : Nat) (f : Thread → Thread) : (s.modThread n f).cores = s.cores := rfl
@[simp] theorem modThread_pairs (n : Nat) (f : Thread → Thread) : (s.modThread n f).pairs = s.pairs := rfl
@[simp] theorem modThread_clusters (n : Nat) (f : Thread → Thread) : (s.modThread n f).clusters = s.clusters := rfl
@[simp] theorem modThread_towers (n : Nat) (f : Thread → Thread) : (s.modThread n f).towers = s.towers := rfl
@[simp] theorem modThread_dies (n : Nat) (f : Thread → Thread) : (s.modThread n f).dies = s.dies := rfl
@[simp] theorem modThread_dying (n : Nat) (f : Thread → Thread) : (s.modThread n f).dying = s.dying := rfl
@[simp] theorem modThread_tasks (n : Nat) (f : Thread → Thread) : (s.modThread n f).tasks = s.tasks := rfl
@[simp] theorem modThread_nextTask (n : Nat) (f : Thread → Thread) : (s.modThread n f).nextTask = s.nextTask := rfl
@[simp] theorem modThread_submissions (n : Nat) (f : Thread → Thread) : (s.modThread n f).submissions = s.submissions := rfl
@[simp] theorem modThread_decrements (n : Nat) (f : Thread → Thread) : (s.modThread n f).decrements = s.decrements := rfl
@[simp] theorem modThread_ctrl (n : Nat) (f : Thread → Thread) : (s.modThread n f).ctrl = s.ctrl := rfl
@[simp] theorem modThread_queues (n : Nat) (f : Thread → Thread) : (s.modThread n f).queues = s.queues := rfl
@[simp] theorem modThread_replies (n : Nat) (f : Thread → Thread) : (s.modThread n f).replies = s.replies := rfl
@[simp] theorem modThread_repliesHeld (n : Nat) (f : Thread → Thread) : (s.modThread n f).repliesHeld = s.repliesHeld := rfl
@[simp] theorem modThread_fabricOut (n : Nat) (f : Thread → Thread) : (s.modThread n f).fabricOut = s.fabricOut := rfl
@[simp] theorem modThread_fabricHeld (n : Nat) (f : Thread → Thread) : (s.modThread n f).fabricHeld = s.fabricHeld := rfl
@[simp] theorem modThread_flowSend (n : Nat) (f : Thread → Thread) : (s.modThread n f).flowSend = s.flowSend := rfl
@[simp] theorem modThread_flowRecv (n : Nat) (f : Thread → Thread) : (s.modThread n f).flowRecv = s.flowRecv := rfl
@[simp] theorem modThread_reorder (n : Nat) (f : Thread → Thread) : (s.modThread n f).reorder = s.reorder := rfl
@[simp] theorem modThread_remoteOps (n : Nat) (f : Thread → Thread) : (s.modThread n f).remoteOps = s.remoteOps := rfl
@[simp] theorem modThread_farWrites (n : Nat) (f : Thread → Thread) : (s.modThread n f).farWrites = s.farWrites := rfl
@[simp] theorem modThread_nextRemote (n : Nat) (f : Thread → Thread) : (s.modThread n f).nextRemote = s.nextRemote := rfl
@[simp] theorem modThread_portUp (n : Nat) (f : Thread → Thread) : (s.modThread n f).portUp = s.portUp := rfl
@[simp] theorem modThread_portErrors (n : Nat) (f : Thread → Thread) : (s.modThread n f).portErrors = s.portErrors := rfl
@[simp] theorem modThread_ucieUp (n : Nat) (f : Thread → Thread) : (s.modThread n f).ucieUp = s.ucieUp := rfl
@[simp] theorem modThread_partOpen (n : Nat) (f : Thread → Thread) : (s.modThread n f).partOpen = s.partOpen := rfl
@[simp] theorem modThread_places (n : Nat) (f : Thread → Thread) : (s.modThread n f).places = s.places := rfl
@[simp] theorem modThread_dual (n : Nat) (f : Thread → Thread) : (s.modThread n f).dual = s.dual := rfl
@[simp] theorem modThread_tlbBusy (n : Nat) (f : Thread → Thread) : (s.modThread n f).tlbBusy = s.tlbBusy := rfl
@[simp] theorem modThread_intervals (n : Nat) (f : Thread → Thread) : (s.modThread n f).intervals = s.intervals := rfl
@[simp] theorem modThread_nextCkpt (n : Nat) (f : Thread → Thread) : (s.modThread n f).nextCkpt = s.nextCkpt := rfl
@[simp] theorem modThread_logs (n : Nat) (f : Thread → Thread) : (s.modThread n f).logs = s.logs := rfl
@[simp] theorem modThread_logOvf (n : Nat) (f : Thread → Thread) : (s.modThread n f).logOvf = s.logOvf := rfl
@[simp] theorem modThread_rbBusy (n : Nat) (f : Thread → Thread) : (s.modThread n f).rbBusy = s.rbBusy := rfl
@[simp] theorem modThread_rbDone (n : Nat) (f : Thread → Thread) : (s.modThread n f).rbDone = s.rbDone := rfl
@[simp] theorem modThread_rbRefused (n : Nat) (f : Thread → Thread) : (s.modThread n f).rbRefused = s.rbRefused := rfl
@[simp] theorem modThread_rbWord (n : Nat) (f : Thread → Thread) : (s.modThread n f).rbWord = s.rbWord := rfl
@[simp] theorem modThread_fwUp (n : Nat) (f : Thread → Thread) : (s.modThread n f).fwUp = s.fwUp := rfl
@[simp] theorem modThread_fwKick (n : Nat) (f : Thread → Thread) : (s.modThread n f).fwKick = s.fwKick := rfl
@[simp] theorem modThread_fwRestarts (n : Nat) (f : Thread → Thread) : (s.modThread n f).fwRestarts = s.fwRestarts := rfl
@[simp] theorem modThread_fwMinVersion (n : Nat) (f : Thread → Thread) : (s.modThread n f).fwMinVersion = s.fwMinVersion := rfl
@[simp] theorem modThread_fwFailed (n : Nat) (f : Thread → Thread) : (s.modThread n f).fwFailed = s.fwFailed := rfl
@[simp] theorem modThread_keysUp (n : Nat) (f : Thread → Thread) : (s.modThread n f).keysUp = s.keysUp := rfl
@[simp] theorem modThread_epCount (n : Nat) (f : Thread → Thread) : (s.modThread n f).epCount = s.epCount := rfl
@[simp] theorem modThread_authFails (n : Nat) (f : Thread → Thread) : (s.modThread n f).authFails = s.authFails := rfl
@[simp] theorem modThread_reports (n : Nat) (f : Thread → Thread) : (s.modThread n f).reports = s.reports := rfl
@[simp] theorem modThread_machineChecks (n : Nat) (f : Thread → Thread) : (s.modThread n f).machineChecks = s.machineChecks := rfl
@[simp] theorem modThread_mcDropped (n : Nat) (f : Thread → Thread) : (s.modThread n f).mcDropped = s.mcDropped := rfl
@[simp] theorem modThread_mcTaken (n : Nat) (f : Thread → Thread) : (s.modThread n f).mcTaken = s.mcTaken := rfl
@[simp] theorem modThread_almSt (n : Nat) (f : Thread → Thread) : (s.modThread n f).almSt = s.almSt := rfl
@[simp] theorem modThread_fabricStopped (n : Nat) (f : Thread → Thread) : (s.modThread n f).fabricStopped = s.fabricStopped := rfl
@[simp] theorem modThread_get_core (n : Nat) (f : Thread → Thread) (j : Nat) : (s.modThread n f).core j = s.core j := rfl
@[simp] theorem modThread_get_pair (n : Nat) (f : Thread → Thread) (j : Nat) : (s.modThread n f).pair j = s.pair j := rfl
@[simp] theorem modThread_get_cluster (n : Nat) (f : Thread → Thread) (j : Nat) : (s.modThread n f).cluster j = s.cluster j := rfl
@[simp] theorem modThread_get_tower (n : Nat) (f : Thread → Thread) (j : Nat) : (s.modThread n f).tower j = s.tower j := rfl
@[simp] theorem modThread_get_die (n : Nat) (f : Thread → Thread) (j : Nat) : (s.modThread n f).die j = s.die j := rfl
@[simp] theorem modThread_get_task (n : Nat) (f : Thread → Thread) (j : Nat) : (s.modThread n f).task j = s.task j := rfl
@[simp] theorem modThread_get_hostQueue (n : Nat) (f : Thread → Thread) (j : Nat) : (s.modThread n f).hostQueue j = s.hostQueue j := rfl
@[simp] theorem modThread_get_slot (n : Nat) (f : Thread → Thread) (i j : Nat) : (s.modThread n f).slot i j = s.slot i j := rfl
@[simp] theorem modThread_me (n : Nat) (f : Thread → Thread) : (s.modThread n f).me = s.me := rfl
@[simp] theorem modThread_ctrlWord (n : Nat) (f : Thread → Thread) (o : Nat) (r : Word) : (s.modThread n f).ctrlWord o r = s.ctrlWord o r := rfl

/-! ### modPair -/

@[simp] theorem modPair_agenda (n : Nat) (f : Pair → Pair) : (s.modPair n f).agenda = s.agenda := rfl
@[simp] theorem modPair_tick (n : Nat) (f : Pair → Pair) : (s.modPair n f).tick = s.tick := rfl
@[simp] theorem modPair_cur (n : Nat) (f : Pair → Pair) : (s.modPair n f).cur = s.cur := rfl
@[simp] theorem modPair_time (n : Nat) (f : Pair → Pair) : (s.modPair n f).time = s.time := rfl
@[simp] theorem modPair_mem (n : Nat) (f : Pair → Pair) : (s.modPair n f).mem = s.mem := rfl
@[simp] theorem modPair_memPoison (n : Nat) (f : Pair → Pair) : (s.modPair n f).memPoison = s.memPoison := rfl
@[simp] theorem modPair_llc (n : Nat) (f : Pair → Pair) : (s.modPair n f).llc = s.llc := rfl
@[simp] theorem modPair_cores (n : Nat) (f : Pair → Pair) : (s.modPair n f).cores = s.cores := rfl
@[simp] theorem modPair_clusters (n : Nat) (f : Pair → Pair) : (s.modPair n f).clusters = s.clusters := rfl
@[simp] theorem modPair_towers (n : Nat) (f : Pair → Pair) : (s.modPair n f).towers = s.towers := rfl
@[simp] theorem modPair_dies (n : Nat) (f : Pair → Pair) : (s.modPair n f).dies = s.dies := rfl
@[simp] theorem modPair_threads (n : Nat) (f : Pair → Pair) : (s.modPair n f).threads = s.threads := rfl
@[simp] theorem modPair_dying (n : Nat) (f : Pair → Pair) : (s.modPair n f).dying = s.dying := rfl
@[simp] theorem modPair_tasks (n : Nat) (f : Pair → Pair) : (s.modPair n f).tasks = s.tasks := rfl
@[simp] theorem modPair_nextTask (n : Nat) (f : Pair → Pair) : (s.modPair n f).nextTask = s.nextTask := rfl
@[simp] theorem modPair_submissions (n : Nat) (f : Pair → Pair) : (s.modPair n f).submissions = s.submissions := rfl
@[simp] theorem modPair_decrements (n : Nat) (f : Pair → Pair) : (s.modPair n f).decrements = s.decrements := rfl
@[simp] theorem modPair_ctrl (n : Nat) (f : Pair → Pair) : (s.modPair n f).ctrl = s.ctrl := rfl
@[simp] theorem modPair_queues (n : Nat) (f : Pair → Pair) : (s.modPair n f).queues = s.queues := rfl
@[simp] theorem modPair_replies (n : Nat) (f : Pair → Pair) : (s.modPair n f).replies = s.replies := rfl
@[simp] theorem modPair_repliesHeld (n : Nat) (f : Pair → Pair) : (s.modPair n f).repliesHeld = s.repliesHeld := rfl
@[simp] theorem modPair_fabricOut (n : Nat) (f : Pair → Pair) : (s.modPair n f).fabricOut = s.fabricOut := rfl
@[simp] theorem modPair_fabricHeld (n : Nat) (f : Pair → Pair) : (s.modPair n f).fabricHeld = s.fabricHeld := rfl
@[simp] theorem modPair_flowSend (n : Nat) (f : Pair → Pair) : (s.modPair n f).flowSend = s.flowSend := rfl
@[simp] theorem modPair_flowRecv (n : Nat) (f : Pair → Pair) : (s.modPair n f).flowRecv = s.flowRecv := rfl
@[simp] theorem modPair_reorder (n : Nat) (f : Pair → Pair) : (s.modPair n f).reorder = s.reorder := rfl
@[simp] theorem modPair_remoteOps (n : Nat) (f : Pair → Pair) : (s.modPair n f).remoteOps = s.remoteOps := rfl
@[simp] theorem modPair_farWrites (n : Nat) (f : Pair → Pair) : (s.modPair n f).farWrites = s.farWrites := rfl
@[simp] theorem modPair_nextRemote (n : Nat) (f : Pair → Pair) : (s.modPair n f).nextRemote = s.nextRemote := rfl
@[simp] theorem modPair_portUp (n : Nat) (f : Pair → Pair) : (s.modPair n f).portUp = s.portUp := rfl
@[simp] theorem modPair_portErrors (n : Nat) (f : Pair → Pair) : (s.modPair n f).portErrors = s.portErrors := rfl
@[simp] theorem modPair_ucieUp (n : Nat) (f : Pair → Pair) : (s.modPair n f).ucieUp = s.ucieUp := rfl
@[simp] theorem modPair_partOpen (n : Nat) (f : Pair → Pair) : (s.modPair n f).partOpen = s.partOpen := rfl
@[simp] theorem modPair_places (n : Nat) (f : Pair → Pair) : (s.modPair n f).places = s.places := rfl
@[simp] theorem modPair_dual (n : Nat) (f : Pair → Pair) : (s.modPair n f).dual = s.dual := rfl
@[simp] theorem modPair_tlbBusy (n : Nat) (f : Pair → Pair) : (s.modPair n f).tlbBusy = s.tlbBusy := rfl
@[simp] theorem modPair_intervals (n : Nat) (f : Pair → Pair) : (s.modPair n f).intervals = s.intervals := rfl
@[simp] theorem modPair_nextCkpt (n : Nat) (f : Pair → Pair) : (s.modPair n f).nextCkpt = s.nextCkpt := rfl
@[simp] theorem modPair_logs (n : Nat) (f : Pair → Pair) : (s.modPair n f).logs = s.logs := rfl
@[simp] theorem modPair_logOvf (n : Nat) (f : Pair → Pair) : (s.modPair n f).logOvf = s.logOvf := rfl
@[simp] theorem modPair_rbBusy (n : Nat) (f : Pair → Pair) : (s.modPair n f).rbBusy = s.rbBusy := rfl
@[simp] theorem modPair_rbDone (n : Nat) (f : Pair → Pair) : (s.modPair n f).rbDone = s.rbDone := rfl
@[simp] theorem modPair_rbRefused (n : Nat) (f : Pair → Pair) : (s.modPair n f).rbRefused = s.rbRefused := rfl
@[simp] theorem modPair_rbWord (n : Nat) (f : Pair → Pair) : (s.modPair n f).rbWord = s.rbWord := rfl
@[simp] theorem modPair_fwUp (n : Nat) (f : Pair → Pair) : (s.modPair n f).fwUp = s.fwUp := rfl
@[simp] theorem modPair_fwKick (n : Nat) (f : Pair → Pair) : (s.modPair n f).fwKick = s.fwKick := rfl
@[simp] theorem modPair_fwRestarts (n : Nat) (f : Pair → Pair) : (s.modPair n f).fwRestarts = s.fwRestarts := rfl
@[simp] theorem modPair_fwMinVersion (n : Nat) (f : Pair → Pair) : (s.modPair n f).fwMinVersion = s.fwMinVersion := rfl
@[simp] theorem modPair_fwFailed (n : Nat) (f : Pair → Pair) : (s.modPair n f).fwFailed = s.fwFailed := rfl
@[simp] theorem modPair_keysUp (n : Nat) (f : Pair → Pair) : (s.modPair n f).keysUp = s.keysUp := rfl
@[simp] theorem modPair_epCount (n : Nat) (f : Pair → Pair) : (s.modPair n f).epCount = s.epCount := rfl
@[simp] theorem modPair_authFails (n : Nat) (f : Pair → Pair) : (s.modPair n f).authFails = s.authFails := rfl
@[simp] theorem modPair_reports (n : Nat) (f : Pair → Pair) : (s.modPair n f).reports = s.reports := rfl
@[simp] theorem modPair_machineChecks (n : Nat) (f : Pair → Pair) : (s.modPair n f).machineChecks = s.machineChecks := rfl
@[simp] theorem modPair_mcDropped (n : Nat) (f : Pair → Pair) : (s.modPair n f).mcDropped = s.mcDropped := rfl
@[simp] theorem modPair_mcTaken (n : Nat) (f : Pair → Pair) : (s.modPair n f).mcTaken = s.mcTaken := rfl
@[simp] theorem modPair_almSt (n : Nat) (f : Pair → Pair) : (s.modPair n f).almSt = s.almSt := rfl
@[simp] theorem modPair_fabricStopped (n : Nat) (f : Pair → Pair) : (s.modPair n f).fabricStopped = s.fabricStopped := rfl
@[simp] theorem modPair_get_core (n : Nat) (f : Pair → Pair) (j : Nat) : (s.modPair n f).core j = s.core j := rfl
@[simp] theorem modPair_get_cluster (n : Nat) (f : Pair → Pair) (j : Nat) : (s.modPair n f).cluster j = s.cluster j := rfl
@[simp] theorem modPair_get_tower (n : Nat) (f : Pair → Pair) (j : Nat) : (s.modPair n f).tower j = s.tower j := rfl
@[simp] theorem modPair_get_die (n : Nat) (f : Pair → Pair) (j : Nat) : (s.modPair n f).die j = s.die j := rfl
@[simp] theorem modPair_get_thread (n : Nat) (f : Pair → Pair) (j : Nat) : (s.modPair n f).thread j = s.thread j := rfl
@[simp] theorem modPair_get_task (n : Nat) (f : Pair → Pair) (j : Nat) : (s.modPair n f).task j = s.task j := rfl
@[simp] theorem modPair_get_hostQueue (n : Nat) (f : Pair → Pair) (j : Nat) : (s.modPair n f).hostQueue j = s.hostQueue j := rfl
@[simp] theorem modPair_get_slot (n : Nat) (f : Pair → Pair) (i j : Nat) : (s.modPair n f).slot i j = s.slot i j := rfl
@[simp] theorem modPair_me (n : Nat) (f : Pair → Pair) : (s.modPair n f).me = s.me := rfl
@[simp] theorem modPair_ctrlWord (n : Nat) (f : Pair → Pair) (o : Nat) (r : Word) : (s.modPair n f).ctrlWord o r = s.ctrlWord o r := rfl

/-! ### modCluster -/

@[simp] theorem modCluster_agenda (n : Nat) (f : Cluster → Cluster) : (s.modCluster n f).agenda = s.agenda := rfl
@[simp] theorem modCluster_tick (n : Nat) (f : Cluster → Cluster) : (s.modCluster n f).tick = s.tick := rfl
@[simp] theorem modCluster_cur (n : Nat) (f : Cluster → Cluster) : (s.modCluster n f).cur = s.cur := rfl
@[simp] theorem modCluster_time (n : Nat) (f : Cluster → Cluster) : (s.modCluster n f).time = s.time := rfl
@[simp] theorem modCluster_mem (n : Nat) (f : Cluster → Cluster) : (s.modCluster n f).mem = s.mem := rfl
@[simp] theorem modCluster_memPoison (n : Nat) (f : Cluster → Cluster) : (s.modCluster n f).memPoison = s.memPoison := rfl
@[simp] theorem modCluster_llc (n : Nat) (f : Cluster → Cluster) : (s.modCluster n f).llc = s.llc := rfl
@[simp] theorem modCluster_cores (n : Nat) (f : Cluster → Cluster) : (s.modCluster n f).cores = s.cores := rfl
@[simp] theorem modCluster_pairs (n : Nat) (f : Cluster → Cluster) : (s.modCluster n f).pairs = s.pairs := rfl
@[simp] theorem modCluster_towers (n : Nat) (f : Cluster → Cluster) : (s.modCluster n f).towers = s.towers := rfl
@[simp] theorem modCluster_dies (n : Nat) (f : Cluster → Cluster) : (s.modCluster n f).dies = s.dies := rfl
@[simp] theorem modCluster_threads (n : Nat) (f : Cluster → Cluster) : (s.modCluster n f).threads = s.threads := rfl
@[simp] theorem modCluster_dying (n : Nat) (f : Cluster → Cluster) : (s.modCluster n f).dying = s.dying := rfl
@[simp] theorem modCluster_tasks (n : Nat) (f : Cluster → Cluster) : (s.modCluster n f).tasks = s.tasks := rfl
@[simp] theorem modCluster_nextTask (n : Nat) (f : Cluster → Cluster) : (s.modCluster n f).nextTask = s.nextTask := rfl
@[simp] theorem modCluster_submissions (n : Nat) (f : Cluster → Cluster) : (s.modCluster n f).submissions = s.submissions := rfl
@[simp] theorem modCluster_decrements (n : Nat) (f : Cluster → Cluster) : (s.modCluster n f).decrements = s.decrements := rfl
@[simp] theorem modCluster_ctrl (n : Nat) (f : Cluster → Cluster) : (s.modCluster n f).ctrl = s.ctrl := rfl
@[simp] theorem modCluster_queues (n : Nat) (f : Cluster → Cluster) : (s.modCluster n f).queues = s.queues := rfl
@[simp] theorem modCluster_replies (n : Nat) (f : Cluster → Cluster) : (s.modCluster n f).replies = s.replies := rfl
@[simp] theorem modCluster_repliesHeld (n : Nat) (f : Cluster → Cluster) : (s.modCluster n f).repliesHeld = s.repliesHeld := rfl
@[simp] theorem modCluster_fabricOut (n : Nat) (f : Cluster → Cluster) : (s.modCluster n f).fabricOut = s.fabricOut := rfl
@[simp] theorem modCluster_fabricHeld (n : Nat) (f : Cluster → Cluster) : (s.modCluster n f).fabricHeld = s.fabricHeld := rfl
@[simp] theorem modCluster_flowSend (n : Nat) (f : Cluster → Cluster) : (s.modCluster n f).flowSend = s.flowSend := rfl
@[simp] theorem modCluster_flowRecv (n : Nat) (f : Cluster → Cluster) : (s.modCluster n f).flowRecv = s.flowRecv := rfl
@[simp] theorem modCluster_reorder (n : Nat) (f : Cluster → Cluster) : (s.modCluster n f).reorder = s.reorder := rfl
@[simp] theorem modCluster_remoteOps (n : Nat) (f : Cluster → Cluster) : (s.modCluster n f).remoteOps = s.remoteOps := rfl
@[simp] theorem modCluster_farWrites (n : Nat) (f : Cluster → Cluster) : (s.modCluster n f).farWrites = s.farWrites := rfl
@[simp] theorem modCluster_nextRemote (n : Nat) (f : Cluster → Cluster) : (s.modCluster n f).nextRemote = s.nextRemote := rfl
@[simp] theorem modCluster_portUp (n : Nat) (f : Cluster → Cluster) : (s.modCluster n f).portUp = s.portUp := rfl
@[simp] theorem modCluster_portErrors (n : Nat) (f : Cluster → Cluster) : (s.modCluster n f).portErrors = s.portErrors := rfl
@[simp] theorem modCluster_ucieUp (n : Nat) (f : Cluster → Cluster) : (s.modCluster n f).ucieUp = s.ucieUp := rfl
@[simp] theorem modCluster_partOpen (n : Nat) (f : Cluster → Cluster) : (s.modCluster n f).partOpen = s.partOpen := rfl
@[simp] theorem modCluster_places (n : Nat) (f : Cluster → Cluster) : (s.modCluster n f).places = s.places := rfl
@[simp] theorem modCluster_dual (n : Nat) (f : Cluster → Cluster) : (s.modCluster n f).dual = s.dual := rfl
@[simp] theorem modCluster_tlbBusy (n : Nat) (f : Cluster → Cluster) : (s.modCluster n f).tlbBusy = s.tlbBusy := rfl
@[simp] theorem modCluster_intervals (n : Nat) (f : Cluster → Cluster) : (s.modCluster n f).intervals = s.intervals := rfl
@[simp] theorem modCluster_nextCkpt (n : Nat) (f : Cluster → Cluster) : (s.modCluster n f).nextCkpt = s.nextCkpt := rfl
@[simp] theorem modCluster_logs (n : Nat) (f : Cluster → Cluster) : (s.modCluster n f).logs = s.logs := rfl
@[simp] theorem modCluster_logOvf (n : Nat) (f : Cluster → Cluster) : (s.modCluster n f).logOvf = s.logOvf := rfl
@[simp] theorem modCluster_rbBusy (n : Nat) (f : Cluster → Cluster) : (s.modCluster n f).rbBusy = s.rbBusy := rfl
@[simp] theorem modCluster_rbDone (n : Nat) (f : Cluster → Cluster) : (s.modCluster n f).rbDone = s.rbDone := rfl
@[simp] theorem modCluster_rbRefused (n : Nat) (f : Cluster → Cluster) : (s.modCluster n f).rbRefused = s.rbRefused := rfl
@[simp] theorem modCluster_rbWord (n : Nat) (f : Cluster → Cluster) : (s.modCluster n f).rbWord = s.rbWord := rfl
@[simp] theorem modCluster_fwUp (n : Nat) (f : Cluster → Cluster) : (s.modCluster n f).fwUp = s.fwUp := rfl
@[simp] theorem modCluster_fwKick (n : Nat) (f : Cluster → Cluster) : (s.modCluster n f).fwKick = s.fwKick := rfl
@[simp] theorem modCluster_fwRestarts (n : Nat) (f : Cluster → Cluster) : (s.modCluster n f).fwRestarts = s.fwRestarts := rfl
@[simp] theorem modCluster_fwMinVersion (n : Nat) (f : Cluster → Cluster) : (s.modCluster n f).fwMinVersion = s.fwMinVersion := rfl
@[simp] theorem modCluster_fwFailed (n : Nat) (f : Cluster → Cluster) : (s.modCluster n f).fwFailed = s.fwFailed := rfl
@[simp] theorem modCluster_keysUp (n : Nat) (f : Cluster → Cluster) : (s.modCluster n f).keysUp = s.keysUp := rfl
@[simp] theorem modCluster_epCount (n : Nat) (f : Cluster → Cluster) : (s.modCluster n f).epCount = s.epCount := rfl
@[simp] theorem modCluster_authFails (n : Nat) (f : Cluster → Cluster) : (s.modCluster n f).authFails = s.authFails := rfl
@[simp] theorem modCluster_reports (n : Nat) (f : Cluster → Cluster) : (s.modCluster n f).reports = s.reports := rfl
@[simp] theorem modCluster_machineChecks (n : Nat) (f : Cluster → Cluster) : (s.modCluster n f).machineChecks = s.machineChecks := rfl
@[simp] theorem modCluster_mcDropped (n : Nat) (f : Cluster → Cluster) : (s.modCluster n f).mcDropped = s.mcDropped := rfl
@[simp] theorem modCluster_mcTaken (n : Nat) (f : Cluster → Cluster) : (s.modCluster n f).mcTaken = s.mcTaken := rfl
@[simp] theorem modCluster_almSt (n : Nat) (f : Cluster → Cluster) : (s.modCluster n f).almSt = s.almSt := rfl
@[simp] theorem modCluster_fabricStopped (n : Nat) (f : Cluster → Cluster) : (s.modCluster n f).fabricStopped = s.fabricStopped := rfl
@[simp] theorem modCluster_get_core (n : Nat) (f : Cluster → Cluster) (j : Nat) : (s.modCluster n f).core j = s.core j := rfl
@[simp] theorem modCluster_get_pair (n : Nat) (f : Cluster → Cluster) (j : Nat) : (s.modCluster n f).pair j = s.pair j := rfl
@[simp] theorem modCluster_get_tower (n : Nat) (f : Cluster → Cluster) (j : Nat) : (s.modCluster n f).tower j = s.tower j := rfl
@[simp] theorem modCluster_get_die (n : Nat) (f : Cluster → Cluster) (j : Nat) : (s.modCluster n f).die j = s.die j := rfl
@[simp] theorem modCluster_get_thread (n : Nat) (f : Cluster → Cluster) (j : Nat) : (s.modCluster n f).thread j = s.thread j := rfl
@[simp] theorem modCluster_get_task (n : Nat) (f : Cluster → Cluster) (j : Nat) : (s.modCluster n f).task j = s.task j := rfl
@[simp] theorem modCluster_get_hostQueue (n : Nat) (f : Cluster → Cluster) (j : Nat) : (s.modCluster n f).hostQueue j = s.hostQueue j := rfl
@[simp] theorem modCluster_get_slot (n : Nat) (f : Cluster → Cluster) (i j : Nat) : (s.modCluster n f).slot i j = s.slot i j := rfl
@[simp] theorem modCluster_me (n : Nat) (f : Cluster → Cluster) : (s.modCluster n f).me = s.me := rfl
@[simp] theorem modCluster_ctrlWord (n : Nat) (f : Cluster → Cluster) (o : Nat) (r : Word) : (s.modCluster n f).ctrlWord o r = s.ctrlWord o r := rfl

/-! ### modTower -/

@[simp] theorem modTower_agenda (n : Nat) (f : Tower → Tower) : (s.modTower n f).agenda = s.agenda := rfl
@[simp] theorem modTower_tick (n : Nat) (f : Tower → Tower) : (s.modTower n f).tick = s.tick := rfl
@[simp] theorem modTower_cur (n : Nat) (f : Tower → Tower) : (s.modTower n f).cur = s.cur := rfl
@[simp] theorem modTower_time (n : Nat) (f : Tower → Tower) : (s.modTower n f).time = s.time := rfl
@[simp] theorem modTower_mem (n : Nat) (f : Tower → Tower) : (s.modTower n f).mem = s.mem := rfl
@[simp] theorem modTower_memPoison (n : Nat) (f : Tower → Tower) : (s.modTower n f).memPoison = s.memPoison := rfl
@[simp] theorem modTower_llc (n : Nat) (f : Tower → Tower) : (s.modTower n f).llc = s.llc := rfl
@[simp] theorem modTower_cores (n : Nat) (f : Tower → Tower) : (s.modTower n f).cores = s.cores := rfl
@[simp] theorem modTower_pairs (n : Nat) (f : Tower → Tower) : (s.modTower n f).pairs = s.pairs := rfl
@[simp] theorem modTower_clusters (n : Nat) (f : Tower → Tower) : (s.modTower n f).clusters = s.clusters := rfl
@[simp] theorem modTower_dies (n : Nat) (f : Tower → Tower) : (s.modTower n f).dies = s.dies := rfl
@[simp] theorem modTower_threads (n : Nat) (f : Tower → Tower) : (s.modTower n f).threads = s.threads := rfl
@[simp] theorem modTower_dying (n : Nat) (f : Tower → Tower) : (s.modTower n f).dying = s.dying := rfl
@[simp] theorem modTower_tasks (n : Nat) (f : Tower → Tower) : (s.modTower n f).tasks = s.tasks := rfl
@[simp] theorem modTower_nextTask (n : Nat) (f : Tower → Tower) : (s.modTower n f).nextTask = s.nextTask := rfl
@[simp] theorem modTower_submissions (n : Nat) (f : Tower → Tower) : (s.modTower n f).submissions = s.submissions := rfl
@[simp] theorem modTower_decrements (n : Nat) (f : Tower → Tower) : (s.modTower n f).decrements = s.decrements := rfl
@[simp] theorem modTower_ctrl (n : Nat) (f : Tower → Tower) : (s.modTower n f).ctrl = s.ctrl := rfl
@[simp] theorem modTower_queues (n : Nat) (f : Tower → Tower) : (s.modTower n f).queues = s.queues := rfl
@[simp] theorem modTower_replies (n : Nat) (f : Tower → Tower) : (s.modTower n f).replies = s.replies := rfl
@[simp] theorem modTower_repliesHeld (n : Nat) (f : Tower → Tower) : (s.modTower n f).repliesHeld = s.repliesHeld := rfl
@[simp] theorem modTower_fabricOut (n : Nat) (f : Tower → Tower) : (s.modTower n f).fabricOut = s.fabricOut := rfl
@[simp] theorem modTower_fabricHeld (n : Nat) (f : Tower → Tower) : (s.modTower n f).fabricHeld = s.fabricHeld := rfl
@[simp] theorem modTower_flowSend (n : Nat) (f : Tower → Tower) : (s.modTower n f).flowSend = s.flowSend := rfl
@[simp] theorem modTower_flowRecv (n : Nat) (f : Tower → Tower) : (s.modTower n f).flowRecv = s.flowRecv := rfl
@[simp] theorem modTower_reorder (n : Nat) (f : Tower → Tower) : (s.modTower n f).reorder = s.reorder := rfl
@[simp] theorem modTower_remoteOps (n : Nat) (f : Tower → Tower) : (s.modTower n f).remoteOps = s.remoteOps := rfl
@[simp] theorem modTower_farWrites (n : Nat) (f : Tower → Tower) : (s.modTower n f).farWrites = s.farWrites := rfl
@[simp] theorem modTower_nextRemote (n : Nat) (f : Tower → Tower) : (s.modTower n f).nextRemote = s.nextRemote := rfl
@[simp] theorem modTower_portUp (n : Nat) (f : Tower → Tower) : (s.modTower n f).portUp = s.portUp := rfl
@[simp] theorem modTower_portErrors (n : Nat) (f : Tower → Tower) : (s.modTower n f).portErrors = s.portErrors := rfl
@[simp] theorem modTower_ucieUp (n : Nat) (f : Tower → Tower) : (s.modTower n f).ucieUp = s.ucieUp := rfl
@[simp] theorem modTower_partOpen (n : Nat) (f : Tower → Tower) : (s.modTower n f).partOpen = s.partOpen := rfl
@[simp] theorem modTower_places (n : Nat) (f : Tower → Tower) : (s.modTower n f).places = s.places := rfl
@[simp] theorem modTower_dual (n : Nat) (f : Tower → Tower) : (s.modTower n f).dual = s.dual := rfl
@[simp] theorem modTower_tlbBusy (n : Nat) (f : Tower → Tower) : (s.modTower n f).tlbBusy = s.tlbBusy := rfl
@[simp] theorem modTower_intervals (n : Nat) (f : Tower → Tower) : (s.modTower n f).intervals = s.intervals := rfl
@[simp] theorem modTower_nextCkpt (n : Nat) (f : Tower → Tower) : (s.modTower n f).nextCkpt = s.nextCkpt := rfl
@[simp] theorem modTower_logs (n : Nat) (f : Tower → Tower) : (s.modTower n f).logs = s.logs := rfl
@[simp] theorem modTower_logOvf (n : Nat) (f : Tower → Tower) : (s.modTower n f).logOvf = s.logOvf := rfl
@[simp] theorem modTower_rbBusy (n : Nat) (f : Tower → Tower) : (s.modTower n f).rbBusy = s.rbBusy := rfl
@[simp] theorem modTower_rbDone (n : Nat) (f : Tower → Tower) : (s.modTower n f).rbDone = s.rbDone := rfl
@[simp] theorem modTower_rbRefused (n : Nat) (f : Tower → Tower) : (s.modTower n f).rbRefused = s.rbRefused := rfl
@[simp] theorem modTower_rbWord (n : Nat) (f : Tower → Tower) : (s.modTower n f).rbWord = s.rbWord := rfl
@[simp] theorem modTower_fwUp (n : Nat) (f : Tower → Tower) : (s.modTower n f).fwUp = s.fwUp := rfl
@[simp] theorem modTower_fwKick (n : Nat) (f : Tower → Tower) : (s.modTower n f).fwKick = s.fwKick := rfl
@[simp] theorem modTower_fwRestarts (n : Nat) (f : Tower → Tower) : (s.modTower n f).fwRestarts = s.fwRestarts := rfl
@[simp] theorem modTower_fwMinVersion (n : Nat) (f : Tower → Tower) : (s.modTower n f).fwMinVersion = s.fwMinVersion := rfl
@[simp] theorem modTower_fwFailed (n : Nat) (f : Tower → Tower) : (s.modTower n f).fwFailed = s.fwFailed := rfl
@[simp] theorem modTower_keysUp (n : Nat) (f : Tower → Tower) : (s.modTower n f).keysUp = s.keysUp := rfl
@[simp] theorem modTower_epCount (n : Nat) (f : Tower → Tower) : (s.modTower n f).epCount = s.epCount := rfl
@[simp] theorem modTower_authFails (n : Nat) (f : Tower → Tower) : (s.modTower n f).authFails = s.authFails := rfl
@[simp] theorem modTower_reports (n : Nat) (f : Tower → Tower) : (s.modTower n f).reports = s.reports := rfl
@[simp] theorem modTower_machineChecks (n : Nat) (f : Tower → Tower) : (s.modTower n f).machineChecks = s.machineChecks := rfl
@[simp] theorem modTower_mcDropped (n : Nat) (f : Tower → Tower) : (s.modTower n f).mcDropped = s.mcDropped := rfl
@[simp] theorem modTower_mcTaken (n : Nat) (f : Tower → Tower) : (s.modTower n f).mcTaken = s.mcTaken := rfl
@[simp] theorem modTower_almSt (n : Nat) (f : Tower → Tower) : (s.modTower n f).almSt = s.almSt := rfl
@[simp] theorem modTower_fabricStopped (n : Nat) (f : Tower → Tower) : (s.modTower n f).fabricStopped = s.fabricStopped := rfl
@[simp] theorem modTower_get_core (n : Nat) (f : Tower → Tower) (j : Nat) : (s.modTower n f).core j = s.core j := rfl
@[simp] theorem modTower_get_pair (n : Nat) (f : Tower → Tower) (j : Nat) : (s.modTower n f).pair j = s.pair j := rfl
@[simp] theorem modTower_get_cluster (n : Nat) (f : Tower → Tower) (j : Nat) : (s.modTower n f).cluster j = s.cluster j := rfl
@[simp] theorem modTower_get_die (n : Nat) (f : Tower → Tower) (j : Nat) : (s.modTower n f).die j = s.die j := rfl
@[simp] theorem modTower_get_thread (n : Nat) (f : Tower → Tower) (j : Nat) : (s.modTower n f).thread j = s.thread j := rfl
@[simp] theorem modTower_get_task (n : Nat) (f : Tower → Tower) (j : Nat) : (s.modTower n f).task j = s.task j := rfl
@[simp] theorem modTower_get_hostQueue (n : Nat) (f : Tower → Tower) (j : Nat) : (s.modTower n f).hostQueue j = s.hostQueue j := rfl
@[simp] theorem modTower_get_slot (n : Nat) (f : Tower → Tower) (i j : Nat) : (s.modTower n f).slot i j = s.slot i j := rfl
@[simp] theorem modTower_me (n : Nat) (f : Tower → Tower) : (s.modTower n f).me = s.me := rfl
@[simp] theorem modTower_ctrlWord (n : Nat) (f : Tower → Tower) (o : Nat) (r : Word) : (s.modTower n f).ctrlWord o r = s.ctrlWord o r := rfl

/-! ### modDie -/

@[simp] theorem modDie_agenda (n : Nat) (f : Die → Die) : (s.modDie n f).agenda = s.agenda := rfl
@[simp] theorem modDie_tick (n : Nat) (f : Die → Die) : (s.modDie n f).tick = s.tick := rfl
@[simp] theorem modDie_cur (n : Nat) (f : Die → Die) : (s.modDie n f).cur = s.cur := rfl
@[simp] theorem modDie_time (n : Nat) (f : Die → Die) : (s.modDie n f).time = s.time := rfl
@[simp] theorem modDie_mem (n : Nat) (f : Die → Die) : (s.modDie n f).mem = s.mem := rfl
@[simp] theorem modDie_memPoison (n : Nat) (f : Die → Die) : (s.modDie n f).memPoison = s.memPoison := rfl
@[simp] theorem modDie_llc (n : Nat) (f : Die → Die) : (s.modDie n f).llc = s.llc := rfl
@[simp] theorem modDie_cores (n : Nat) (f : Die → Die) : (s.modDie n f).cores = s.cores := rfl
@[simp] theorem modDie_pairs (n : Nat) (f : Die → Die) : (s.modDie n f).pairs = s.pairs := rfl
@[simp] theorem modDie_clusters (n : Nat) (f : Die → Die) : (s.modDie n f).clusters = s.clusters := rfl
@[simp] theorem modDie_towers (n : Nat) (f : Die → Die) : (s.modDie n f).towers = s.towers := rfl
@[simp] theorem modDie_threads (n : Nat) (f : Die → Die) : (s.modDie n f).threads = s.threads := rfl
@[simp] theorem modDie_dying (n : Nat) (f : Die → Die) : (s.modDie n f).dying = s.dying := rfl
@[simp] theorem modDie_tasks (n : Nat) (f : Die → Die) : (s.modDie n f).tasks = s.tasks := rfl
@[simp] theorem modDie_nextTask (n : Nat) (f : Die → Die) : (s.modDie n f).nextTask = s.nextTask := rfl
@[simp] theorem modDie_submissions (n : Nat) (f : Die → Die) : (s.modDie n f).submissions = s.submissions := rfl
@[simp] theorem modDie_decrements (n : Nat) (f : Die → Die) : (s.modDie n f).decrements = s.decrements := rfl
@[simp] theorem modDie_ctrl (n : Nat) (f : Die → Die) : (s.modDie n f).ctrl = s.ctrl := rfl
@[simp] theorem modDie_queues (n : Nat) (f : Die → Die) : (s.modDie n f).queues = s.queues := rfl
@[simp] theorem modDie_replies (n : Nat) (f : Die → Die) : (s.modDie n f).replies = s.replies := rfl
@[simp] theorem modDie_repliesHeld (n : Nat) (f : Die → Die) : (s.modDie n f).repliesHeld = s.repliesHeld := rfl
@[simp] theorem modDie_fabricOut (n : Nat) (f : Die → Die) : (s.modDie n f).fabricOut = s.fabricOut := rfl
@[simp] theorem modDie_fabricHeld (n : Nat) (f : Die → Die) : (s.modDie n f).fabricHeld = s.fabricHeld := rfl
@[simp] theorem modDie_flowSend (n : Nat) (f : Die → Die) : (s.modDie n f).flowSend = s.flowSend := rfl
@[simp] theorem modDie_flowRecv (n : Nat) (f : Die → Die) : (s.modDie n f).flowRecv = s.flowRecv := rfl
@[simp] theorem modDie_reorder (n : Nat) (f : Die → Die) : (s.modDie n f).reorder = s.reorder := rfl
@[simp] theorem modDie_remoteOps (n : Nat) (f : Die → Die) : (s.modDie n f).remoteOps = s.remoteOps := rfl
@[simp] theorem modDie_farWrites (n : Nat) (f : Die → Die) : (s.modDie n f).farWrites = s.farWrites := rfl
@[simp] theorem modDie_nextRemote (n : Nat) (f : Die → Die) : (s.modDie n f).nextRemote = s.nextRemote := rfl
@[simp] theorem modDie_portUp (n : Nat) (f : Die → Die) : (s.modDie n f).portUp = s.portUp := rfl
@[simp] theorem modDie_portErrors (n : Nat) (f : Die → Die) : (s.modDie n f).portErrors = s.portErrors := rfl
@[simp] theorem modDie_ucieUp (n : Nat) (f : Die → Die) : (s.modDie n f).ucieUp = s.ucieUp := rfl
@[simp] theorem modDie_partOpen (n : Nat) (f : Die → Die) : (s.modDie n f).partOpen = s.partOpen := rfl
@[simp] theorem modDie_places (n : Nat) (f : Die → Die) : (s.modDie n f).places = s.places := rfl
@[simp] theorem modDie_dual (n : Nat) (f : Die → Die) : (s.modDie n f).dual = s.dual := rfl
@[simp] theorem modDie_tlbBusy (n : Nat) (f : Die → Die) : (s.modDie n f).tlbBusy = s.tlbBusy := rfl
@[simp] theorem modDie_intervals (n : Nat) (f : Die → Die) : (s.modDie n f).intervals = s.intervals := rfl
@[simp] theorem modDie_nextCkpt (n : Nat) (f : Die → Die) : (s.modDie n f).nextCkpt = s.nextCkpt := rfl
@[simp] theorem modDie_logs (n : Nat) (f : Die → Die) : (s.modDie n f).logs = s.logs := rfl
@[simp] theorem modDie_logOvf (n : Nat) (f : Die → Die) : (s.modDie n f).logOvf = s.logOvf := rfl
@[simp] theorem modDie_rbBusy (n : Nat) (f : Die → Die) : (s.modDie n f).rbBusy = s.rbBusy := rfl
@[simp] theorem modDie_rbDone (n : Nat) (f : Die → Die) : (s.modDie n f).rbDone = s.rbDone := rfl
@[simp] theorem modDie_rbRefused (n : Nat) (f : Die → Die) : (s.modDie n f).rbRefused = s.rbRefused := rfl
@[simp] theorem modDie_rbWord (n : Nat) (f : Die → Die) : (s.modDie n f).rbWord = s.rbWord := rfl
@[simp] theorem modDie_fwUp (n : Nat) (f : Die → Die) : (s.modDie n f).fwUp = s.fwUp := rfl
@[simp] theorem modDie_fwKick (n : Nat) (f : Die → Die) : (s.modDie n f).fwKick = s.fwKick := rfl
@[simp] theorem modDie_fwRestarts (n : Nat) (f : Die → Die) : (s.modDie n f).fwRestarts = s.fwRestarts := rfl
@[simp] theorem modDie_fwMinVersion (n : Nat) (f : Die → Die) : (s.modDie n f).fwMinVersion = s.fwMinVersion := rfl
@[simp] theorem modDie_fwFailed (n : Nat) (f : Die → Die) : (s.modDie n f).fwFailed = s.fwFailed := rfl
@[simp] theorem modDie_keysUp (n : Nat) (f : Die → Die) : (s.modDie n f).keysUp = s.keysUp := rfl
@[simp] theorem modDie_epCount (n : Nat) (f : Die → Die) : (s.modDie n f).epCount = s.epCount := rfl
@[simp] theorem modDie_authFails (n : Nat) (f : Die → Die) : (s.modDie n f).authFails = s.authFails := rfl
@[simp] theorem modDie_reports (n : Nat) (f : Die → Die) : (s.modDie n f).reports = s.reports := rfl
@[simp] theorem modDie_machineChecks (n : Nat) (f : Die → Die) : (s.modDie n f).machineChecks = s.machineChecks := rfl
@[simp] theorem modDie_mcDropped (n : Nat) (f : Die → Die) : (s.modDie n f).mcDropped = s.mcDropped := rfl
@[simp] theorem modDie_mcTaken (n : Nat) (f : Die → Die) : (s.modDie n f).mcTaken = s.mcTaken := rfl
@[simp] theorem modDie_almSt (n : Nat) (f : Die → Die) : (s.modDie n f).almSt = s.almSt := rfl
@[simp] theorem modDie_fabricStopped (n : Nat) (f : Die → Die) : (s.modDie n f).fabricStopped = s.fabricStopped := rfl
@[simp] theorem modDie_get_core (n : Nat) (f : Die → Die) (j : Nat) : (s.modDie n f).core j = s.core j := rfl
@[simp] theorem modDie_get_pair (n : Nat) (f : Die → Die) (j : Nat) : (s.modDie n f).pair j = s.pair j := rfl
@[simp] theorem modDie_get_cluster (n : Nat) (f : Die → Die) (j : Nat) : (s.modDie n f).cluster j = s.cluster j := rfl
@[simp] theorem modDie_get_tower (n : Nat) (f : Die → Die) (j : Nat) : (s.modDie n f).tower j = s.tower j := rfl
@[simp] theorem modDie_get_thread (n : Nat) (f : Die → Die) (j : Nat) : (s.modDie n f).thread j = s.thread j := rfl
@[simp] theorem modDie_get_task (n : Nat) (f : Die → Die) (j : Nat) : (s.modDie n f).task j = s.task j := rfl
@[simp] theorem modDie_get_hostQueue (n : Nat) (f : Die → Die) (j : Nat) : (s.modDie n f).hostQueue j = s.hostQueue j := rfl
@[simp] theorem modDie_get_slot (n : Nat) (f : Die → Die) (i j : Nat) : (s.modDie n f).slot i j = s.slot i j := rfl
@[simp] theorem modDie_me (n : Nat) (f : Die → Die) : (s.modDie n f).me = s.me := rfl
@[simp] theorem modDie_ctrlWord (n : Nat) (f : Die → Die) (o : Nat) (r : Word) : (s.modDie n f).ctrlWord o r = s.ctrlWord o r := rfl

/-! ### modTask -/

@[simp] theorem modTask_agenda (n : Nat) (f : Task → Task) : (s.modTask n f).agenda = s.agenda := rfl
@[simp] theorem modTask_tick (n : Nat) (f : Task → Task) : (s.modTask n f).tick = s.tick := rfl
@[simp] theorem modTask_cur (n : Nat) (f : Task → Task) : (s.modTask n f).cur = s.cur := rfl
@[simp] theorem modTask_time (n : Nat) (f : Task → Task) : (s.modTask n f).time = s.time := rfl
@[simp] theorem modTask_mem (n : Nat) (f : Task → Task) : (s.modTask n f).mem = s.mem := rfl
@[simp] theorem modTask_memPoison (n : Nat) (f : Task → Task) : (s.modTask n f).memPoison = s.memPoison := rfl
@[simp] theorem modTask_llc (n : Nat) (f : Task → Task) : (s.modTask n f).llc = s.llc := rfl
@[simp] theorem modTask_cores (n : Nat) (f : Task → Task) : (s.modTask n f).cores = s.cores := rfl
@[simp] theorem modTask_pairs (n : Nat) (f : Task → Task) : (s.modTask n f).pairs = s.pairs := rfl
@[simp] theorem modTask_clusters (n : Nat) (f : Task → Task) : (s.modTask n f).clusters = s.clusters := rfl
@[simp] theorem modTask_towers (n : Nat) (f : Task → Task) : (s.modTask n f).towers = s.towers := rfl
@[simp] theorem modTask_dies (n : Nat) (f : Task → Task) : (s.modTask n f).dies = s.dies := rfl
@[simp] theorem modTask_threads (n : Nat) (f : Task → Task) : (s.modTask n f).threads = s.threads := rfl
@[simp] theorem modTask_dying (n : Nat) (f : Task → Task) : (s.modTask n f).dying = s.dying := rfl
@[simp] theorem modTask_nextTask (n : Nat) (f : Task → Task) : (s.modTask n f).nextTask = s.nextTask := rfl
@[simp] theorem modTask_submissions (n : Nat) (f : Task → Task) : (s.modTask n f).submissions = s.submissions := rfl
@[simp] theorem modTask_decrements (n : Nat) (f : Task → Task) : (s.modTask n f).decrements = s.decrements := rfl
@[simp] theorem modTask_ctrl (n : Nat) (f : Task → Task) : (s.modTask n f).ctrl = s.ctrl := rfl
@[simp] theorem modTask_queues (n : Nat) (f : Task → Task) : (s.modTask n f).queues = s.queues := rfl
@[simp] theorem modTask_replies (n : Nat) (f : Task → Task) : (s.modTask n f).replies = s.replies := rfl
@[simp] theorem modTask_repliesHeld (n : Nat) (f : Task → Task) : (s.modTask n f).repliesHeld = s.repliesHeld := rfl
@[simp] theorem modTask_fabricOut (n : Nat) (f : Task → Task) : (s.modTask n f).fabricOut = s.fabricOut := rfl
@[simp] theorem modTask_fabricHeld (n : Nat) (f : Task → Task) : (s.modTask n f).fabricHeld = s.fabricHeld := rfl
@[simp] theorem modTask_flowSend (n : Nat) (f : Task → Task) : (s.modTask n f).flowSend = s.flowSend := rfl
@[simp] theorem modTask_flowRecv (n : Nat) (f : Task → Task) : (s.modTask n f).flowRecv = s.flowRecv := rfl
@[simp] theorem modTask_reorder (n : Nat) (f : Task → Task) : (s.modTask n f).reorder = s.reorder := rfl
@[simp] theorem modTask_remoteOps (n : Nat) (f : Task → Task) : (s.modTask n f).remoteOps = s.remoteOps := rfl
@[simp] theorem modTask_farWrites (n : Nat) (f : Task → Task) : (s.modTask n f).farWrites = s.farWrites := rfl
@[simp] theorem modTask_nextRemote (n : Nat) (f : Task → Task) : (s.modTask n f).nextRemote = s.nextRemote := rfl
@[simp] theorem modTask_portUp (n : Nat) (f : Task → Task) : (s.modTask n f).portUp = s.portUp := rfl
@[simp] theorem modTask_portErrors (n : Nat) (f : Task → Task) : (s.modTask n f).portErrors = s.portErrors := rfl
@[simp] theorem modTask_ucieUp (n : Nat) (f : Task → Task) : (s.modTask n f).ucieUp = s.ucieUp := rfl
@[simp] theorem modTask_partOpen (n : Nat) (f : Task → Task) : (s.modTask n f).partOpen = s.partOpen := rfl
@[simp] theorem modTask_places (n : Nat) (f : Task → Task) : (s.modTask n f).places = s.places := rfl
@[simp] theorem modTask_dual (n : Nat) (f : Task → Task) : (s.modTask n f).dual = s.dual := rfl
@[simp] theorem modTask_tlbBusy (n : Nat) (f : Task → Task) : (s.modTask n f).tlbBusy = s.tlbBusy := rfl
@[simp] theorem modTask_intervals (n : Nat) (f : Task → Task) : (s.modTask n f).intervals = s.intervals := rfl
@[simp] theorem modTask_nextCkpt (n : Nat) (f : Task → Task) : (s.modTask n f).nextCkpt = s.nextCkpt := rfl
@[simp] theorem modTask_logs (n : Nat) (f : Task → Task) : (s.modTask n f).logs = s.logs := rfl
@[simp] theorem modTask_logOvf (n : Nat) (f : Task → Task) : (s.modTask n f).logOvf = s.logOvf := rfl
@[simp] theorem modTask_rbBusy (n : Nat) (f : Task → Task) : (s.modTask n f).rbBusy = s.rbBusy := rfl
@[simp] theorem modTask_rbDone (n : Nat) (f : Task → Task) : (s.modTask n f).rbDone = s.rbDone := rfl
@[simp] theorem modTask_rbRefused (n : Nat) (f : Task → Task) : (s.modTask n f).rbRefused = s.rbRefused := rfl
@[simp] theorem modTask_rbWord (n : Nat) (f : Task → Task) : (s.modTask n f).rbWord = s.rbWord := rfl
@[simp] theorem modTask_fwUp (n : Nat) (f : Task → Task) : (s.modTask n f).fwUp = s.fwUp := rfl
@[simp] theorem modTask_fwKick (n : Nat) (f : Task → Task) : (s.modTask n f).fwKick = s.fwKick := rfl
@[simp] theorem modTask_fwRestarts (n : Nat) (f : Task → Task) : (s.modTask n f).fwRestarts = s.fwRestarts := rfl
@[simp] theorem modTask_fwMinVersion (n : Nat) (f : Task → Task) : (s.modTask n f).fwMinVersion = s.fwMinVersion := rfl
@[simp] theorem modTask_fwFailed (n : Nat) (f : Task → Task) : (s.modTask n f).fwFailed = s.fwFailed := rfl
@[simp] theorem modTask_keysUp (n : Nat) (f : Task → Task) : (s.modTask n f).keysUp = s.keysUp := rfl
@[simp] theorem modTask_epCount (n : Nat) (f : Task → Task) : (s.modTask n f).epCount = s.epCount := rfl
@[simp] theorem modTask_authFails (n : Nat) (f : Task → Task) : (s.modTask n f).authFails = s.authFails := rfl
@[simp] theorem modTask_reports (n : Nat) (f : Task → Task) : (s.modTask n f).reports = s.reports := rfl
@[simp] theorem modTask_machineChecks (n : Nat) (f : Task → Task) : (s.modTask n f).machineChecks = s.machineChecks := rfl
@[simp] theorem modTask_mcDropped (n : Nat) (f : Task → Task) : (s.modTask n f).mcDropped = s.mcDropped := rfl
@[simp] theorem modTask_mcTaken (n : Nat) (f : Task → Task) : (s.modTask n f).mcTaken = s.mcTaken := rfl
@[simp] theorem modTask_almSt (n : Nat) (f : Task → Task) : (s.modTask n f).almSt = s.almSt := rfl
@[simp] theorem modTask_fabricStopped (n : Nat) (f : Task → Task) : (s.modTask n f).fabricStopped = s.fabricStopped := rfl
@[simp] theorem modTask_get_core (n : Nat) (f : Task → Task) (j : Nat) : (s.modTask n f).core j = s.core j := rfl
@[simp] theorem modTask_get_pair (n : Nat) (f : Task → Task) (j : Nat) : (s.modTask n f).pair j = s.pair j := rfl
@[simp] theorem modTask_get_cluster (n : Nat) (f : Task → Task) (j : Nat) : (s.modTask n f).cluster j = s.cluster j := rfl
@[simp] theorem modTask_get_tower (n : Nat) (f : Task → Task) (j : Nat) : (s.modTask n f).tower j = s.tower j := rfl
@[simp] theorem modTask_get_die (n : Nat) (f : Task → Task) (j : Nat) : (s.modTask n f).die j = s.die j := rfl
@[simp] theorem modTask_get_thread (n : Nat) (f : Task → Task) (j : Nat) : (s.modTask n f).thread j = s.thread j := rfl
@[simp] theorem modTask_get_hostQueue (n : Nat) (f : Task → Task) (j : Nat) : (s.modTask n f).hostQueue j = s.hostQueue j := rfl
@[simp] theorem modTask_get_slot (n : Nat) (f : Task → Task) (i j : Nat) : (s.modTask n f).slot i j = s.slot i j := rfl
@[simp] theorem modTask_me (n : Nat) (f : Task → Task) : (s.modTask n f).me = s.me := rfl
@[simp] theorem modTask_ctrlWord (n : Nat) (f : Task → Task) (o : Nat) (r : Word) : (s.modTask n f).ctrlWord o r = s.ctrlWord o r := rfl

/-! ### modQueue -/

@[simp] theorem modQueue_agenda (n : Nat) (f : HostQueue → HostQueue) : (s.modQueue n f).agenda = s.agenda := rfl
@[simp] theorem modQueue_tick (n : Nat) (f : HostQueue → HostQueue) : (s.modQueue n f).tick = s.tick := rfl
@[simp] theorem modQueue_cur (n : Nat) (f : HostQueue → HostQueue) : (s.modQueue n f).cur = s.cur := rfl
@[simp] theorem modQueue_time (n : Nat) (f : HostQueue → HostQueue) : (s.modQueue n f).time = s.time := rfl
@[simp] theorem modQueue_mem (n : Nat) (f : HostQueue → HostQueue) : (s.modQueue n f).mem = s.mem := rfl
@[simp] theorem modQueue_memPoison (n : Nat) (f : HostQueue → HostQueue) : (s.modQueue n f).memPoison = s.memPoison := rfl
@[simp] theorem modQueue_llc (n : Nat) (f : HostQueue → HostQueue) : (s.modQueue n f).llc = s.llc := rfl
@[simp] theorem modQueue_cores (n : Nat) (f : HostQueue → HostQueue) : (s.modQueue n f).cores = s.cores := rfl
@[simp] theorem modQueue_pairs (n : Nat) (f : HostQueue → HostQueue) : (s.modQueue n f).pairs = s.pairs := rfl
@[simp] theorem modQueue_clusters (n : Nat) (f : HostQueue → HostQueue) : (s.modQueue n f).clusters = s.clusters := rfl
@[simp] theorem modQueue_towers (n : Nat) (f : HostQueue → HostQueue) : (s.modQueue n f).towers = s.towers := rfl
@[simp] theorem modQueue_dies (n : Nat) (f : HostQueue → HostQueue) : (s.modQueue n f).dies = s.dies := rfl
@[simp] theorem modQueue_threads (n : Nat) (f : HostQueue → HostQueue) : (s.modQueue n f).threads = s.threads := rfl
@[simp] theorem modQueue_dying (n : Nat) (f : HostQueue → HostQueue) : (s.modQueue n f).dying = s.dying := rfl
@[simp] theorem modQueue_tasks (n : Nat) (f : HostQueue → HostQueue) : (s.modQueue n f).tasks = s.tasks := rfl
@[simp] theorem modQueue_nextTask (n : Nat) (f : HostQueue → HostQueue) : (s.modQueue n f).nextTask = s.nextTask := rfl
@[simp] theorem modQueue_submissions (n : Nat) (f : HostQueue → HostQueue) : (s.modQueue n f).submissions = s.submissions := rfl
@[simp] theorem modQueue_decrements (n : Nat) (f : HostQueue → HostQueue) : (s.modQueue n f).decrements = s.decrements := rfl
@[simp] theorem modQueue_ctrl (n : Nat) (f : HostQueue → HostQueue) : (s.modQueue n f).ctrl = s.ctrl := rfl
@[simp] theorem modQueue_replies (n : Nat) (f : HostQueue → HostQueue) : (s.modQueue n f).replies = s.replies := rfl
@[simp] theorem modQueue_repliesHeld (n : Nat) (f : HostQueue → HostQueue) : (s.modQueue n f).repliesHeld = s.repliesHeld := rfl
@[simp] theorem modQueue_fabricOut (n : Nat) (f : HostQueue → HostQueue) : (s.modQueue n f).fabricOut = s.fabricOut := rfl
@[simp] theorem modQueue_fabricHeld (n : Nat) (f : HostQueue → HostQueue) : (s.modQueue n f).fabricHeld = s.fabricHeld := rfl
@[simp] theorem modQueue_flowSend (n : Nat) (f : HostQueue → HostQueue) : (s.modQueue n f).flowSend = s.flowSend := rfl
@[simp] theorem modQueue_flowRecv (n : Nat) (f : HostQueue → HostQueue) : (s.modQueue n f).flowRecv = s.flowRecv := rfl
@[simp] theorem modQueue_reorder (n : Nat) (f : HostQueue → HostQueue) : (s.modQueue n f).reorder = s.reorder := rfl
@[simp] theorem modQueue_remoteOps (n : Nat) (f : HostQueue → HostQueue) : (s.modQueue n f).remoteOps = s.remoteOps := rfl
@[simp] theorem modQueue_farWrites (n : Nat) (f : HostQueue → HostQueue) : (s.modQueue n f).farWrites = s.farWrites := rfl
@[simp] theorem modQueue_nextRemote (n : Nat) (f : HostQueue → HostQueue) : (s.modQueue n f).nextRemote = s.nextRemote := rfl
@[simp] theorem modQueue_portUp (n : Nat) (f : HostQueue → HostQueue) : (s.modQueue n f).portUp = s.portUp := rfl
@[simp] theorem modQueue_portErrors (n : Nat) (f : HostQueue → HostQueue) : (s.modQueue n f).portErrors = s.portErrors := rfl
@[simp] theorem modQueue_ucieUp (n : Nat) (f : HostQueue → HostQueue) : (s.modQueue n f).ucieUp = s.ucieUp := rfl
@[simp] theorem modQueue_partOpen (n : Nat) (f : HostQueue → HostQueue) : (s.modQueue n f).partOpen = s.partOpen := rfl
@[simp] theorem modQueue_places (n : Nat) (f : HostQueue → HostQueue) : (s.modQueue n f).places = s.places := rfl
@[simp] theorem modQueue_dual (n : Nat) (f : HostQueue → HostQueue) : (s.modQueue n f).dual = s.dual := rfl
@[simp] theorem modQueue_tlbBusy (n : Nat) (f : HostQueue → HostQueue) : (s.modQueue n f).tlbBusy = s.tlbBusy := rfl
@[simp] theorem modQueue_intervals (n : Nat) (f : HostQueue → HostQueue) : (s.modQueue n f).intervals = s.intervals := rfl
@[simp] theorem modQueue_nextCkpt (n : Nat) (f : HostQueue → HostQueue) : (s.modQueue n f).nextCkpt = s.nextCkpt := rfl
@[simp] theorem modQueue_logs (n : Nat) (f : HostQueue → HostQueue) : (s.modQueue n f).logs = s.logs := rfl
@[simp] theorem modQueue_logOvf (n : Nat) (f : HostQueue → HostQueue) : (s.modQueue n f).logOvf = s.logOvf := rfl
@[simp] theorem modQueue_rbBusy (n : Nat) (f : HostQueue → HostQueue) : (s.modQueue n f).rbBusy = s.rbBusy := rfl
@[simp] theorem modQueue_rbDone (n : Nat) (f : HostQueue → HostQueue) : (s.modQueue n f).rbDone = s.rbDone := rfl
@[simp] theorem modQueue_rbRefused (n : Nat) (f : HostQueue → HostQueue) : (s.modQueue n f).rbRefused = s.rbRefused := rfl
@[simp] theorem modQueue_rbWord (n : Nat) (f : HostQueue → HostQueue) : (s.modQueue n f).rbWord = s.rbWord := rfl
@[simp] theorem modQueue_fwUp (n : Nat) (f : HostQueue → HostQueue) : (s.modQueue n f).fwUp = s.fwUp := rfl
@[simp] theorem modQueue_fwKick (n : Nat) (f : HostQueue → HostQueue) : (s.modQueue n f).fwKick = s.fwKick := rfl
@[simp] theorem modQueue_fwRestarts (n : Nat) (f : HostQueue → HostQueue) : (s.modQueue n f).fwRestarts = s.fwRestarts := rfl
@[simp] theorem modQueue_fwMinVersion (n : Nat) (f : HostQueue → HostQueue) : (s.modQueue n f).fwMinVersion = s.fwMinVersion := rfl
@[simp] theorem modQueue_fwFailed (n : Nat) (f : HostQueue → HostQueue) : (s.modQueue n f).fwFailed = s.fwFailed := rfl
@[simp] theorem modQueue_keysUp (n : Nat) (f : HostQueue → HostQueue) : (s.modQueue n f).keysUp = s.keysUp := rfl
@[simp] theorem modQueue_epCount (n : Nat) (f : HostQueue → HostQueue) : (s.modQueue n f).epCount = s.epCount := rfl
@[simp] theorem modQueue_authFails (n : Nat) (f : HostQueue → HostQueue) : (s.modQueue n f).authFails = s.authFails := rfl
@[simp] theorem modQueue_reports (n : Nat) (f : HostQueue → HostQueue) : (s.modQueue n f).reports = s.reports := rfl
@[simp] theorem modQueue_machineChecks (n : Nat) (f : HostQueue → HostQueue) : (s.modQueue n f).machineChecks = s.machineChecks := rfl
@[simp] theorem modQueue_mcDropped (n : Nat) (f : HostQueue → HostQueue) : (s.modQueue n f).mcDropped = s.mcDropped := rfl
@[simp] theorem modQueue_mcTaken (n : Nat) (f : HostQueue → HostQueue) : (s.modQueue n f).mcTaken = s.mcTaken := rfl
@[simp] theorem modQueue_almSt (n : Nat) (f : HostQueue → HostQueue) : (s.modQueue n f).almSt = s.almSt := rfl
@[simp] theorem modQueue_fabricStopped (n : Nat) (f : HostQueue → HostQueue) : (s.modQueue n f).fabricStopped = s.fabricStopped := rfl
@[simp] theorem modQueue_get_core (n : Nat) (f : HostQueue → HostQueue) (j : Nat) : (s.modQueue n f).core j = s.core j := rfl
@[simp] theorem modQueue_get_pair (n : Nat) (f : HostQueue → HostQueue) (j : Nat) : (s.modQueue n f).pair j = s.pair j := rfl
@[simp] theorem modQueue_get_cluster (n : Nat) (f : HostQueue → HostQueue) (j : Nat) : (s.modQueue n f).cluster j = s.cluster j := rfl
@[simp] theorem modQueue_get_tower (n : Nat) (f : HostQueue → HostQueue) (j : Nat) : (s.modQueue n f).tower j = s.tower j := rfl
@[simp] theorem modQueue_get_die (n : Nat) (f : HostQueue → HostQueue) (j : Nat) : (s.modQueue n f).die j = s.die j := rfl
@[simp] theorem modQueue_get_thread (n : Nat) (f : HostQueue → HostQueue) (j : Nat) : (s.modQueue n f).thread j = s.thread j := rfl
@[simp] theorem modQueue_get_task (n : Nat) (f : HostQueue → HostQueue) (j : Nat) : (s.modQueue n f).task j = s.task j := rfl
@[simp] theorem modQueue_get_slot (n : Nat) (f : HostQueue → HostQueue) (i j : Nat) : (s.modQueue n f).slot i j = s.slot i j := rfl
@[simp] theorem modQueue_me (n : Nat) (f : HostQueue → HostQueue) : (s.modQueue n f).me = s.me := rfl
@[simp] theorem modQueue_ctrlWord (n : Nat) (f : HostQueue → HostQueue) (o : Nat) (r : Word) : (s.modQueue n f).ctrlWord o r = s.ctrlWord o r := rfl

/-! ### modMe -/

@[simp] theorem modMe_agenda (f : Slot → Slot) : (s.modMe f).agenda = s.agenda := rfl
@[simp] theorem modMe_tick (f : Slot → Slot) : (s.modMe f).tick = s.tick := rfl
@[simp] theorem modMe_cur (f : Slot → Slot) : (s.modMe f).cur = s.cur := rfl
@[simp] theorem modMe_time (f : Slot → Slot) : (s.modMe f).time = s.time := rfl
@[simp] theorem modMe_mem (f : Slot → Slot) : (s.modMe f).mem = s.mem := rfl
@[simp] theorem modMe_memPoison (f : Slot → Slot) : (s.modMe f).memPoison = s.memPoison := rfl
@[simp] theorem modMe_llc (f : Slot → Slot) : (s.modMe f).llc = s.llc := rfl
@[simp] theorem modMe_pairs (f : Slot → Slot) : (s.modMe f).pairs = s.pairs := rfl
@[simp] theorem modMe_clusters (f : Slot → Slot) : (s.modMe f).clusters = s.clusters := rfl
@[simp] theorem modMe_towers (f : Slot → Slot) : (s.modMe f).towers = s.towers := rfl
@[simp] theorem modMe_dies (f : Slot → Slot) : (s.modMe f).dies = s.dies := rfl
@[simp] theorem modMe_threads (f : Slot → Slot) : (s.modMe f).threads = s.threads := rfl
@[simp] theorem modMe_dying (f : Slot → Slot) : (s.modMe f).dying = s.dying := rfl
@[simp] theorem modMe_tasks (f : Slot → Slot) : (s.modMe f).tasks = s.tasks := rfl
@[simp] theorem modMe_nextTask (f : Slot → Slot) : (s.modMe f).nextTask = s.nextTask := rfl
@[simp] theorem modMe_submissions (f : Slot → Slot) : (s.modMe f).submissions = s.submissions := rfl
@[simp] theorem modMe_decrements (f : Slot → Slot) : (s.modMe f).decrements = s.decrements := rfl
@[simp] theorem modMe_ctrl (f : Slot → Slot) : (s.modMe f).ctrl = s.ctrl := rfl
@[simp] theorem modMe_queues (f : Slot → Slot) : (s.modMe f).queues = s.queues := rfl
@[simp] theorem modMe_replies (f : Slot → Slot) : (s.modMe f).replies = s.replies := rfl
@[simp] theorem modMe_repliesHeld (f : Slot → Slot) : (s.modMe f).repliesHeld = s.repliesHeld := rfl
@[simp] theorem modMe_fabricOut (f : Slot → Slot) : (s.modMe f).fabricOut = s.fabricOut := rfl
@[simp] theorem modMe_fabricHeld (f : Slot → Slot) : (s.modMe f).fabricHeld = s.fabricHeld := rfl
@[simp] theorem modMe_flowSend (f : Slot → Slot) : (s.modMe f).flowSend = s.flowSend := rfl
@[simp] theorem modMe_flowRecv (f : Slot → Slot) : (s.modMe f).flowRecv = s.flowRecv := rfl
@[simp] theorem modMe_reorder (f : Slot → Slot) : (s.modMe f).reorder = s.reorder := rfl
@[simp] theorem modMe_remoteOps (f : Slot → Slot) : (s.modMe f).remoteOps = s.remoteOps := rfl
@[simp] theorem modMe_farWrites (f : Slot → Slot) : (s.modMe f).farWrites = s.farWrites := rfl
@[simp] theorem modMe_nextRemote (f : Slot → Slot) : (s.modMe f).nextRemote = s.nextRemote := rfl
@[simp] theorem modMe_portUp (f : Slot → Slot) : (s.modMe f).portUp = s.portUp := rfl
@[simp] theorem modMe_portErrors (f : Slot → Slot) : (s.modMe f).portErrors = s.portErrors := rfl
@[simp] theorem modMe_ucieUp (f : Slot → Slot) : (s.modMe f).ucieUp = s.ucieUp := rfl
@[simp] theorem modMe_partOpen (f : Slot → Slot) : (s.modMe f).partOpen = s.partOpen := rfl
@[simp] theorem modMe_places (f : Slot → Slot) : (s.modMe f).places = s.places := rfl
@[simp] theorem modMe_dual (f : Slot → Slot) : (s.modMe f).dual = s.dual := rfl
@[simp] theorem modMe_tlbBusy (f : Slot → Slot) : (s.modMe f).tlbBusy = s.tlbBusy := rfl
@[simp] theorem modMe_intervals (f : Slot → Slot) : (s.modMe f).intervals = s.intervals := rfl
@[simp] theorem modMe_nextCkpt (f : Slot → Slot) : (s.modMe f).nextCkpt = s.nextCkpt := rfl
@[simp] theorem modMe_logs (f : Slot → Slot) : (s.modMe f).logs = s.logs := rfl
@[simp] theorem modMe_logOvf (f : Slot → Slot) : (s.modMe f).logOvf = s.logOvf := rfl
@[simp] theorem modMe_rbBusy (f : Slot → Slot) : (s.modMe f).rbBusy = s.rbBusy := rfl
@[simp] theorem modMe_rbDone (f : Slot → Slot) : (s.modMe f).rbDone = s.rbDone := rfl
@[simp] theorem modMe_rbRefused (f : Slot → Slot) : (s.modMe f).rbRefused = s.rbRefused := rfl
@[simp] theorem modMe_rbWord (f : Slot → Slot) : (s.modMe f).rbWord = s.rbWord := rfl
@[simp] theorem modMe_fwUp (f : Slot → Slot) : (s.modMe f).fwUp = s.fwUp := rfl
@[simp] theorem modMe_fwKick (f : Slot → Slot) : (s.modMe f).fwKick = s.fwKick := rfl
@[simp] theorem modMe_fwRestarts (f : Slot → Slot) : (s.modMe f).fwRestarts = s.fwRestarts := rfl
@[simp] theorem modMe_fwMinVersion (f : Slot → Slot) : (s.modMe f).fwMinVersion = s.fwMinVersion := rfl
@[simp] theorem modMe_fwFailed (f : Slot → Slot) : (s.modMe f).fwFailed = s.fwFailed := rfl
@[simp] theorem modMe_keysUp (f : Slot → Slot) : (s.modMe f).keysUp = s.keysUp := rfl
@[simp] theorem modMe_epCount (f : Slot → Slot) : (s.modMe f).epCount = s.epCount := rfl
@[simp] theorem modMe_authFails (f : Slot → Slot) : (s.modMe f).authFails = s.authFails := rfl
@[simp] theorem modMe_reports (f : Slot → Slot) : (s.modMe f).reports = s.reports := rfl
@[simp] theorem modMe_machineChecks (f : Slot → Slot) : (s.modMe f).machineChecks = s.machineChecks := rfl
@[simp] theorem modMe_mcDropped (f : Slot → Slot) : (s.modMe f).mcDropped = s.mcDropped := rfl
@[simp] theorem modMe_mcTaken (f : Slot → Slot) : (s.modMe f).mcTaken = s.mcTaken := rfl
@[simp] theorem modMe_almSt (f : Slot → Slot) : (s.modMe f).almSt = s.almSt := rfl
@[simp] theorem modMe_fabricStopped (f : Slot → Slot) : (s.modMe f).fabricStopped = s.fabricStopped := rfl
@[simp] theorem modMe_get_pair (f : Slot → Slot) (j : Nat) : (s.modMe f).pair j = s.pair j := rfl
@[simp] theorem modMe_get_cluster (f : Slot → Slot) (j : Nat) : (s.modMe f).cluster j = s.cluster j := rfl
@[simp] theorem modMe_get_tower (f : Slot → Slot) (j : Nat) : (s.modMe f).tower j = s.tower j := rfl
@[simp] theorem modMe_get_die (f : Slot → Slot) (j : Nat) : (s.modMe f).die j = s.die j := rfl
@[simp] theorem modMe_get_thread (f : Slot → Slot) (j : Nat) : (s.modMe f).thread j = s.thread j := rfl
@[simp] theorem modMe_get_task (f : Slot → Slot) (j : Nat) : (s.modMe f).task j = s.task j := rfl
@[simp] theorem modMe_get_hostQueue (f : Slot → Slot) (j : Nat) : (s.modMe f).hostQueue j = s.hostQueue j := rfl
@[simp] theorem modMe_ctrlWord (f : Slot → Slot) (o : Nat) (r : Word) : (s.modMe f).ctrlWord o r = s.ctrlWord o r := rfl

/-! ### ticked -/

@[simp] theorem ticked_agenda : (s.ticked).agenda = s.agenda := rfl
@[simp] theorem ticked_cur : (s.ticked).cur = s.cur := rfl
@[simp] theorem ticked_time : (s.ticked).time = s.time := rfl
@[simp] theorem ticked_mem : (s.ticked).mem = s.mem := rfl
@[simp] theorem ticked_memPoison : (s.ticked).memPoison = s.memPoison := rfl
@[simp] theorem ticked_llc : (s.ticked).llc = s.llc := rfl
@[simp] theorem ticked_cores : (s.ticked).cores = s.cores := rfl
@[simp] theorem ticked_pairs : (s.ticked).pairs = s.pairs := rfl
@[simp] theorem ticked_clusters : (s.ticked).clusters = s.clusters := rfl
@[simp] theorem ticked_towers : (s.ticked).towers = s.towers := rfl
@[simp] theorem ticked_dies : (s.ticked).dies = s.dies := rfl
@[simp] theorem ticked_threads : (s.ticked).threads = s.threads := rfl
@[simp] theorem ticked_dying : (s.ticked).dying = s.dying := rfl
@[simp] theorem ticked_tasks : (s.ticked).tasks = s.tasks := rfl
@[simp] theorem ticked_nextTask : (s.ticked).nextTask = s.nextTask := rfl
@[simp] theorem ticked_submissions : (s.ticked).submissions = s.submissions := rfl
@[simp] theorem ticked_decrements : (s.ticked).decrements = s.decrements := rfl
@[simp] theorem ticked_ctrl : (s.ticked).ctrl = s.ctrl := rfl
@[simp] theorem ticked_queues : (s.ticked).queues = s.queues := rfl
@[simp] theorem ticked_replies : (s.ticked).replies = s.replies := rfl
@[simp] theorem ticked_repliesHeld : (s.ticked).repliesHeld = s.repliesHeld := rfl
@[simp] theorem ticked_fabricOut : (s.ticked).fabricOut = s.fabricOut := rfl
@[simp] theorem ticked_fabricHeld : (s.ticked).fabricHeld = s.fabricHeld := rfl
@[simp] theorem ticked_flowSend : (s.ticked).flowSend = s.flowSend := rfl
@[simp] theorem ticked_flowRecv : (s.ticked).flowRecv = s.flowRecv := rfl
@[simp] theorem ticked_reorder : (s.ticked).reorder = s.reorder := rfl
@[simp] theorem ticked_remoteOps : (s.ticked).remoteOps = s.remoteOps := rfl
@[simp] theorem ticked_farWrites : (s.ticked).farWrites = s.farWrites := rfl
@[simp] theorem ticked_nextRemote : (s.ticked).nextRemote = s.nextRemote := rfl
@[simp] theorem ticked_portUp : (s.ticked).portUp = s.portUp := rfl
@[simp] theorem ticked_portErrors : (s.ticked).portErrors = s.portErrors := rfl
@[simp] theorem ticked_ucieUp : (s.ticked).ucieUp = s.ucieUp := rfl
@[simp] theorem ticked_partOpen : (s.ticked).partOpen = s.partOpen := rfl
@[simp] theorem ticked_places : (s.ticked).places = s.places := rfl
@[simp] theorem ticked_dual : (s.ticked).dual = s.dual := rfl
@[simp] theorem ticked_tlbBusy : (s.ticked).tlbBusy = s.tlbBusy := rfl
@[simp] theorem ticked_intervals : (s.ticked).intervals = s.intervals := rfl
@[simp] theorem ticked_nextCkpt : (s.ticked).nextCkpt = s.nextCkpt := rfl
@[simp] theorem ticked_logs : (s.ticked).logs = s.logs := rfl
@[simp] theorem ticked_logOvf : (s.ticked).logOvf = s.logOvf := rfl
@[simp] theorem ticked_rbBusy : (s.ticked).rbBusy = s.rbBusy := rfl
@[simp] theorem ticked_rbDone : (s.ticked).rbDone = s.rbDone := rfl
@[simp] theorem ticked_rbRefused : (s.ticked).rbRefused = s.rbRefused := rfl
@[simp] theorem ticked_rbWord : (s.ticked).rbWord = s.rbWord := rfl
@[simp] theorem ticked_fwUp : (s.ticked).fwUp = s.fwUp := rfl
@[simp] theorem ticked_fwKick : (s.ticked).fwKick = s.fwKick := rfl
@[simp] theorem ticked_fwRestarts : (s.ticked).fwRestarts = s.fwRestarts := rfl
@[simp] theorem ticked_fwMinVersion : (s.ticked).fwMinVersion = s.fwMinVersion := rfl
@[simp] theorem ticked_fwFailed : (s.ticked).fwFailed = s.fwFailed := rfl
@[simp] theorem ticked_keysUp : (s.ticked).keysUp = s.keysUp := rfl
@[simp] theorem ticked_epCount : (s.ticked).epCount = s.epCount := rfl
@[simp] theorem ticked_authFails : (s.ticked).authFails = s.authFails := rfl
@[simp] theorem ticked_reports : (s.ticked).reports = s.reports := rfl
@[simp] theorem ticked_machineChecks : (s.ticked).machineChecks = s.machineChecks := rfl
@[simp] theorem ticked_mcDropped : (s.ticked).mcDropped = s.mcDropped := rfl
@[simp] theorem ticked_mcTaken : (s.ticked).mcTaken = s.mcTaken := rfl
@[simp] theorem ticked_almSt : (s.ticked).almSt = s.almSt := rfl
@[simp] theorem ticked_fabricStopped : (s.ticked).fabricStopped = s.fabricStopped := rfl
@[simp] theorem ticked_get_core (j : Nat) : (s.ticked).core j = s.core j := rfl
@[simp] theorem ticked_get_pair (j : Nat) : (s.ticked).pair j = s.pair j := rfl
@[simp] theorem ticked_get_cluster (j : Nat) : (s.ticked).cluster j = s.cluster j := rfl
@[simp] theorem ticked_get_tower (j : Nat) : (s.ticked).tower j = s.tower j := rfl
@[simp] theorem ticked_get_die (j : Nat) : (s.ticked).die j = s.die j := rfl
@[simp] theorem ticked_get_thread (j : Nat) : (s.ticked).thread j = s.thread j := rfl
@[simp] theorem ticked_get_task (j : Nat) : (s.ticked).task j = s.task j := rfl
@[simp] theorem ticked_get_hostQueue (j : Nat) : (s.ticked).hostQueue j = s.hostQueue j := rfl
@[simp] theorem ticked_get_slot (i j : Nat) : (s.ticked).slot i j = s.slot i j := rfl
@[simp] theorem ticked_me : (s.ticked).me = s.me := rfl
@[simp] theorem ticked_ctrlWord (o : Nat) (r : Word) : (s.ticked).ctrlWord o r = s.ctrlWord o r := rfl

/-! ### The entry that was updated, and the others -/

@[simp] theorem modCore_same (n : Nat) (f : Core → Core) : (s.modCore n f).core n = f (s.core n) := Table.get_set_same _ _ _ _
theorem modCore_other (n : Nat) (f : Core → Core) (j : Nat) (h : j ≠ n) : (s.modCore n f).core j = s.core j :=
  Table.get_set_other _ _ _ h
@[simp] theorem modThread_same (n : Nat) (f : Thread → Thread) : (s.modThread n f).thread n = f (s.thread n) := Table.get_set_same _ _ _ _
theorem modThread_other (n : Nat) (f : Thread → Thread) (j : Nat) (h : j ≠ n) : (s.modThread n f).thread j = s.thread j :=
  Table.get_set_other _ _ _ h
@[simp] theorem modPair_same (n : Nat) (f : Pair → Pair) : (s.modPair n f).pair n = f (s.pair n) := Table.get_set_same _ _ _ _
theorem modPair_other (n : Nat) (f : Pair → Pair) (j : Nat) (h : j ≠ n) : (s.modPair n f).pair j = s.pair j :=
  Table.get_set_other _ _ _ h
@[simp] theorem modCluster_same (n : Nat) (f : Cluster → Cluster) : (s.modCluster n f).cluster n = f (s.cluster n) := Table.get_set_same _ _ _ _
theorem modCluster_other (n : Nat) (f : Cluster → Cluster) (j : Nat) (h : j ≠ n) : (s.modCluster n f).cluster j = s.cluster j :=
  Table.get_set_other _ _ _ h
@[simp] theorem modTower_same (n : Nat) (f : Tower → Tower) : (s.modTower n f).tower n = f (s.tower n) := Table.get_set_same _ _ _ _
theorem modTower_other (n : Nat) (f : Tower → Tower) (j : Nat) (h : j ≠ n) : (s.modTower n f).tower j = s.tower j :=
  Table.get_set_other _ _ _ h
@[simp] theorem modDie_same (n : Nat) (f : Die → Die) : (s.modDie n f).die n = f (s.die n) := Table.get_set_same _ _ _ _
theorem modDie_other (n : Nat) (f : Die → Die) (j : Nat) (h : j ≠ n) : (s.modDie n f).die j = s.die j :=
  Table.get_set_other _ _ _ h
@[simp] theorem modTask_same (n : Nat) (f : Task → Task) : (s.modTask n f).task n = f (s.task n) := Table.get_set_same _ _ _ _
theorem modTask_other (n : Nat) (f : Task → Task) (j : Nat) (h : j ≠ n) : (s.modTask n f).task j = s.task j :=
  Table.get_set_other _ _ _ h
@[simp] theorem modQueue_same (n : Nat) (f : HostQueue → HostQueue) : (s.modQueue n f).hostQueue n = f (s.hostQueue n) := Table.get_set_same _ _ _ _
theorem modQueue_other (n : Nat) (f : HostQueue → HostQueue) (j : Nat) (h : j ≠ n) : (s.modQueue n f).hostQueue j = s.hostQueue j :=
  Table.get_set_other _ _ _ h
@[simp] theorem modSlot_same (n k : Nat) (f : Slot → Slot) : (s.modSlot n k f).slot n k = f (s.slot n k) := by
  simp only [State.modSlot, State.setSlot, State.slot, State.core, State.setCore, Core.slot, Core.setSlot, Table.get_set_same]
theorem modSlot_core (n k : Nat) (f : Slot → Slot) : (s.modSlot n k f).core n = (s.core n).setSlot k (f (s.slot n k)) := by
  simp only [State.modSlot, State.setSlot, State.core, State.setCore, Table.get_set_same]
theorem modSlot_otherCore (n k : Nat) (f : Slot → Slot) (j : Nat) (h : j ≠ n) : (s.modSlot n k f).core j = s.core j :=
  Table.get_set_other _ _ _ h
theorem modSlot_other (n k : Nat) (f : Slot → Slot) (i j : Nat) (h : i ≠ n ∨ j ≠ k) : (s.modSlot n k f).slot i j = s.slot i j := by
  by_cases e : i = n
  · subst e
    have : j ≠ k := by simpa using h
    simp only [State.modSlot, State.setSlot, State.slot, State.core, State.setCore, Core.slot, Core.setSlot, Table.get_set_same]
    exact Table.get_set_other _ _ _ this
  · simp only [State.slot, modSlot_otherCore s n k f i e]
@[simp] theorem modMe_me (f : Slot → Slot) : (s.modMe f).me = f s.me := modSlot_same s _ _ f
/-- A core whose slots alone an update changes. -/
@[simp] theorem modCore_slots (n k : Nat) (f : Core → Core) (h : ∀ c, (f c).slots = c.slots) : (s.modCore n f).slot n k = s.slot n k := by
  simp only [State.slot, modCore_same, Core.slot, h]

end Sys2Proof.Machine
end

