-- ==== Sys2Proof/Tests/Slice0.lean ====
section
/-! SUPPORT. Tests/Slice0.lean: tests of the decoder, of the well-formedness checks and of single instructions, and for every
statement of Certificates/Slice0 with hypotheses a witness that meets them, clause by clause. -/

namespace Sys2Proof.Tests

open Sys2Proof.Machine

set_option Elab.async false

/-! ## Small states -/

/-- A private name. -/
def nm (w : Nat) (k : Kind := .unsigned) (m : Mode := .wrap) : NameD :=
  { width := w, kind := k, mode := m, region := .priv, declWidth := w, declMode := m, curv := false }

/-- The names of the tests: 0 to 7 unsigned of 64 bits, 8 signed of 32 that traps, 9 signed of 32 that saturates, 10 unsigned of 8
that traps, 11 unsigned of 8, 12 a flag, 13 to 15 FP32, 16 FP64, 17 and 18 FP16, 19 BF16, 20 signed of 64, 21 signed of 8,
22 and 23 unsigned of 64. -/
def names : List NameD :=
  [nm 64, nm 64, nm 64, nm 64, nm 64, nm 64, nm 64, nm 64, nm 32 .signed .trap, nm 32 .signed .sat, nm 8 .unsigned .trap, nm 8,
   nm 1 .flag, nm 32 .float32, nm 32 .float32, nm 32 .float32, nm 64 .float64, nm 16 .float16, nm 16 .float16, nm 16 .bfloat16,
   nm 64 .signed, nm 8 .signed, nm 64, nm 64]

def runs : Slot :=
  { phase := .running, pc := 0x1000, map := names, resident := 0xFFFFFFFF, img := 0x10000, handle := 5 }

/-- A table that maps the first gigabyte to itself with every right. -/
def tables : List Host.Cell := [(0x100000, 3), (0x100002, 0x20), (0x200000, 0x3D)]

/-- A thread runs in slot 0 of core 0. -/
def user : State :=
  { State.reset with
    cur := (0, 0), mem := tables, cores := [(0, { slots := [(0, runs)], ptBase := 0x100000 })]
    threads := [(0x10000, { handle := 5, state := 2, inSlot := true, started := true })] }

/-- An event runs in the system slot of core 0, under identity translation. -/
def sys : State :=
  { State.reset with cur := (0, 7), cores := [(0, { slots := [(7, { runs with img := 0, handle := 0 })], evActive := true })] }

/-- Names of the current slot given values. -/
def vals (s : State) (l : List (Nat × Nat)) : State := l.foldl (fun s x => writeBits s s.cur.1 s.cur.2 x.1 x.2) s

/-- The state of a step's answer. -/
def after (o : Host.Outcome State Fault Refusal) : State := match o with | .next t => t | _ => State.reset

/-- The bits of a pending result. -/
def result (s : State) (n : Nat) : Option Nat := (s.me.pending.find? (fun p => p.name = n)).map (fun p => p.bits.toNat)

/-- An operation's answer is the one named, and what it holds meets `P`. -/
def okA (x : Access) (P : State → Nat → Nat → Nat → Bool) : Bool := match x with | .ok t v p pa => P t v p pa | _ => false
def okX (x : Xlat) (P : State → Nat → Nat → Bool) : Bool := match x with | .ok t pa a => P t pa a | _ => false
def okE {ε α : Type} (x : Except ε α) (P : α → Bool) : Bool := match x with | .ok t => P t | .error _ => false
def okF {α : Type} (x : Fetched α) (P : State → α → Bool) : Bool := match x with | .ok t v => P t v | _ => false
def okN (x : Host.Outcome State Fault Refusal) (P : State → Bool) : Bool := match x with | .next t => P t | _ => false

/-! ## Decoding: words written out from the encodings of R102 to R105 and the tables of R111 -/

/-- Opcode map: XOR, CTZ, SEL, BFX, BFI, ADDI, MULI, ANDI, ORI, XORI, SHLI, SHRI, SETEQI, SETLTI, MOVI, MOVK. -/
theorem test_decode_integer :
    decodeTableWord 32 0b10000011010010101011011001101010 = some (.xor 2 37 22 51) ∧
    decodeTableWord 32 0b10000101010010101011000000000101 = some (.ctz 2 37 22) ∧
    decodeTableWord 32 0b10000111010010101011011001110010 = some (.sel 2 37 22 51 18) ∧
    decodeTableWord 32 0b10001001010010101011001001010010 = some (.bfx 2 37 22 18 18) ∧
    decodeTableWord 32 0b10001011010010101011001001010010 = some (.bfi 2 37 22 18 18) ∧
    decodeTableWord 32 0b10001101010010101011010101010010 = some (.addi 2 37 22 1362) ∧
    decodeTableWord 32 0b10001111010010101011010101010010 = some (.muli 2 37 22 1362) ∧
    decodeTableWord 32 0b10010001010010101011010101010010 = some (.andi 2 37 22 1362) ∧
    decodeTableWord 32 0b10010011010010101011010101010010 = some (.ori 2 37 22 1362) ∧
    decodeTableWord 32 0b10010101010010101011010101010010 = some (.xori 2 37 22 1362) ∧
    decodeTableWord 32 0b10010111010010101011000000010010 = some (.shli 2 37 22 18) ∧
    decodeTableWord 32 0b10011001010010101011000000010010 = some (.shri 2 37 22 18) ∧
    decodeTableWord 32 0b10011011010010101011010101010010 = some (.seteqi 2 37 22 1362) ∧
    decodeTableWord 32 0b10011101010010101011010101010010 = some (.setlti 2 37 22 1362) ∧
    decodeTableWord 32 0b10011111010010110101010101010010 = some (.movi 2 37 87378) ∧
    decodeTableWord 32 0b10100101010010100101010101010010 = some (.movk 2 2 37 21842) := by
  decide +kernel

/-- The words that R289's chapter writes out: L92 and L120 of the practised version. -/
theorem test_decode_examples :
    decodeTableWord 32 0xE80C4125 = some (.mmad 0 6 8 9) ∧ decodeTableWord 32 0xB4513D03 = some (.rsqs 0 40 39 40) := by
  decide +kernel

/-- Opcode map: MAPLD, OXI, FMAX, RCPA, RCPS. -/
theorem test_decode_slot_and_float :
    decodeTableWord 32 0b10101001000000001011000000000111 = some (.mapld 2 22) ∧
    decodeTableWord 32 0b10101011001001000101010101010010 = some (.oxi 2 0 2 2 21842) ∧
    decodeTableWord 32 0b10110001010010101011011001100101 = some (.fmax 2 37 22 51) ∧
    decodeTableWord 32 0b10110011010010101011000000000110 = some (.rcpa 2 37 22) ∧
    decodeTableWord 32 0b10110101010010101011011001100010 = some (.rcps 2 37 22 51) := by
  decide +kernel

/-- Opcode map: BR, CALL, LOOP, EXIT, FFR. -/
theorem test_decode_control :
    decodeTableWord 32 0b11000001010110010101010101010010 = some (.br 2 44 2 21842) ∧
    decodeTableWord 32 0b11000011010010110101010101010010 = some (.call 2 37 87378) ∧
    decodeTableWord 32 0b11000101010110001101010101010010 = some (.loop 2 44 21842) ∧
    decodeTableWord 32 0b11000111000000001011000000000100 = some (.exit 2 22) ∧
    decodeTableWord 32 0b11001001010010101011000000001000 = some (.ffr 2 37 22) := by
  decide +kernel

/-- Opcode map: LD, ST, LDA, STL, INV, AMIN, CONVEY. -/
theorem test_decode_memory_and_estate :
    decodeTableWord 32 0b11010001010010101011010101010010 = some (.ld 2 37 22 1362) ∧
    decodeTableWord 32 0b11010011010010101011010101010010 = some (.st 2 37 22 1362) ∧
    decodeTableWord 32 0b11010101010010101011010101010010 = some (.lda 2 37 22 1362) ∧
    decodeTableWord 32 0b11010111010010101011010101010010 = some (.stl 2 37 22 1362) ∧
    decodeTableWord 32 0b11011001000010001011011001100100 = some (.inv 2 4 22 51) ∧
    decodeTableWord 32 0b11011011010010101011011001100100 = some (.amin 2 37 22 51) ∧
    decodeTableWord 32 0b11011101010010101011000000000101 = some (.convey 2 37 22) := by
  decide +kernel

/-- Opcode map: FILLS, ACLR, LICF. -/
theorem test_decode_engines_and_system :
    decodeTableWord 32 0b11100001010010101011011001100101 = some (.fills 2 37 22 51) ∧
    decodeTableWord 32 0b11101001000000000000000001000111 = some (.aclr 2 2) ∧
    decodeTableWord 32 0b11110001010010101011011001100111 = some (.licf 2 37 22 51) := by
  decide +kernel

/-- Opcode map: ADDI_COMPACT, ST_COMPACT, BRZ, NOP_COMPACT, FMUL_COMPACT. -/
theorem test_decode_compact :
    decodeTableWord 16 0b0001111010110010 = some (.addiCompact 21 18) ∧
    decodeTableWord 16 0b0011011010101110 = some (.stCompact 21 14) ∧
    decodeTableWord 16 0b0011101010110010 = some (.brz 21 18) ∧
    decodeTableWord 16 0b0100000000000000 = some .nopCompact ∧
    decodeTableWord 16 0b0100111010101110 = some (.fmulCompact 21 14) := by
  decide +kernel

/-! ## Well-formedness: one ill-formed term for each check -/

/-- R104, R112: operand fields beyond the limits of their entries. -/
theorem test_ill_formed_fields : ∀ i ∈ ([.bfx 0 1 2 63 1, .bfi 0 1 2 40 24, .setm 0 1 3, .gets 0 1 11, .puts 0 1 11, .oxclr 0 1 2,
    .oxi 0 0 0 0 0x10000, .oxi 0 1 1 0 0, .fcvt 0 1 2 6, .frnd 0 1 2 6, .br 0 62 3 0, .loop 0 63 0, .callat 0 16 1 2,
    .callat 0 62 1 2, .recv 0 1 2 16, .tryrecv 0 1 2 16, .chstat 0 1 16, .bari 0 1 2 1, .bari 0 2 2 0, .arrive 0 1 2 8, .push 0 1 3 2,
    .qstat 0 1 3, .spill 0 1 2 0, .fill 0 1 2 0, .pf 0 1 3, .flush 0 8 1 2, .inv 0 9 1 2,
    .fence 0 8 0, .fence 0 0 3, .estq 0 1 2 3, .setf 0 1 16, .getf 0 1 16, .xform 0 1 2 5, .asave 0 8 0 1, .asave 0 0 1 2,
    .arst 0 8 0 1, .arst 0 0 1 2, .sret 0 1 3, .getp 0 1 2 15, .putp 0 1 2 15, .tlbi 0 1 3, .ckpt 0 1 2, .ibpeek 0 1 4,
    .ibtake 0 1 2, .evict 0 1 2 2, .trace 0 1 16] : List Instr), i.wf = false := by
  decide +kernel

/-- R12, R13, R17: events of units that the device does not have. -/
theorem test_ill_formed_events : ∀ i ∈ ([.submissionPlaceWait 1024, .dealTask 1024, .slotFill 1024, .resumeAfterWriteback 1024 0,
    .agePromote 1024 0, .callEntryTake 1024, .overflowEnter 2, .wakeRecheck 1024 0, .wakeRecheck 0 8, .rowFill 1024 0 true,
    .rowFill 0 8 true, .rowIdleWriteback 1024 0, .repackComplete 1024, .messageDeliver 1024 0 0, .messageDeliver 0 16 0,
    .inboxEntryEnter 1024, .setfTakeEffect 1024 0, .streamCommandStart 1024 0, .streamCommandComplete 1024 0,
    .chunkWaitRelease 1024 0, .copyCommandStart 1024 0, .copyCommandComplete 1024 0, .collCommandStart 1024 0, .chunkLand 1024 0 0,
    .inswitchTimeout 1024 0, .hostRecordSend 1024 0, .xformStart 1024 0, .xformComplete 1024 0, .matrixCommandStart 1024 0,
    .mcastWaitExpire 1024 0, .mmaComplete 1024 0, .topkComplete 1024 0, .drainComplete 1024 0, .accSaveComplete 1024 0,
    .accRestoreComplete 1024 0, .mwaitMarkerFire 1024 0, .engineFaultPark 1024 0, .engparkResume 1024 0, .engparkResume 0 16,
    .engparkKill 1024 0, .engparkKill 0 16, .licenceTermEnd 512, .licenceDrainGrant 512, .timerExpire 1024 0, .timerExpire 0 8,
    .preemptTake 1024 0, .preemptTake 0 8, .preemptForce 1024 0, .preemptForce 0 8, .systemEventBegin 1024,
    .systemSlotRestart 1024] : List Instr), i.wf = false := by
  decide +kernel

theorem test_ill_formed_platform_events : ∀ i ∈ ([.hostSubmit 4096 0, .hostDecr 4096 0, .hostClose 4096 0, .hostReset 4096 0,
    .hqctlOpen 4096 0, .hqctlTeardownSoft 4096 0, .hqctlTeardownHard 4096 0, .teardownComplete 4096,
    .poolLineWriteback 2 0 false, .shadowRecordReplay 2 0, .poolHotExpire 2 0, .poolPush 2 0, .poolDrop 2 0, .cklogWrite 1024 0,
    .ctrareaWrite 1024 0, .pwrreqStepWrite 128 0, .pwrreqGo 128 0, .rampComplete 128, .currentSample 128 0, .currentStepDown 128,
    .thermalOffline 4 0, .thermalClamp 4 0, .thermalCut 4 0, .offlineTimeoutCut 4, .thermstReadmit 4 0, .portLinkChange 32 true,
    .wrstGo 4 0, .warmResetPhase 4 true, .dieReset 4, .accessResultArrival 1024 0 0, .accessResultArrival 0 8 0,
    .warmZone 4 0] : List Instr), i.wf = false := by
  decide +kernel

/-- An ill-formed term that reaches exec traps ILLEGAL with its word (R112). -/
theorem test_ill_formed_traps : (after (exec (.setm 0 1 3) user)).me.trCause = 0x101 ∧
    (after (exec (.setm 0 1 3) user)).me.trVal = BitVec.ofNat 64 (encode (.setm 0 1 3)) := by
  decide +kernel

/-! ## Single instructions: expected values by hand from the rules -/

/-- R64, R121: an unsigned sum wraps at its width. -/
theorem test_add_wraps : result (after (exec (.add 0 11 11 0) (vals user [(11, 250), (0, 10)]))) 11 = some 4 := by decide +kernel
/-- R64: a saturating name takes the bound of its range. -/
theorem test_add_saturates : result (after (exec (.add 0 9 9 0) (vals user [(9, 0x7FFFFFFF), (0, 1)]))) 9 = some 0x7FFFFFFF := by
  decide +kernel
/-- R64, R115: a trapping name traps WIDTH (code 3, a 32-bit instruction) with the value and the index. -/
theorem test_add_traps : (after (exec (.add 0 10 10 0) (vals user [(10, 255), (0, 1)]))).me.trCause = 0x103 ∧
    (after (exec (.add 0 10 10 0) (vals user [(10, 255), (0, 1)]))).me.trVal = 256 * 64 + 10 := by decide +kernel
/-- R121: SUB into a signed name. -/
theorem test_sub_negative : result (after (exec (.sub 0 21 0 1) (vals user [(0, 3), (1, 5)]))) 21 = some 0xFE := by decide +kernel
/-- R121: MULH takes the bits above 64 of the exact product. -/
theorem test_mulh : result (after (exec (.mulh 0 2 0 1) (vals user [(0, 2 ^ 63), (1, 6)]))) 2 = some 3 := by decide +kernel
/-- R122: division truncates towards zero; the remainder has the sign of the dividend. -/
theorem test_div_rem : result (after (exec (.div 0 21 20 0) (vals user [(20, 2 ^ 64 - 7), (0, 2)]))) 21 = some 0xFD ∧
    result (after (exec (.rem 0 21 20 0) (vals user [(20, 2 ^ 64 - 7), (0, 2)]))) 21 = some 0xFF := by decide +kernel
/-- R122: a zero divisor traps DIVZERO with the destination's index. -/
theorem test_div_zero : (after (exec (.div 0 2 0 1) user)).me.trCause = 0x104 ∧ (after (exec (.div 0 2 0 1) user)).me.trVal = 2 := by
  decide +kernel
/-- R121: SHR of a negative value floors; ROL turns within the width. -/
theorem test_shift_rotate : result (after (exec (.shr 0 21 20 0) (vals user [(20, 2 ^ 64 - 5), (0, 1)]))) 21 = some 0xFD ∧
    result (after (exec (.rol 0 11 11 0) (vals user [(11, 0x81), (0, 9)]))) 11 = some 0x03 := by decide +kernel
/-- R124: the counts are of the operand's width. -/
theorem test_counts : result (after (exec (.clz 0 0 11) (vals user [(11, 1)]))) 0 = some 7 ∧
    result (after (exec (.ctz 0 0 11) (vals user [(11, 0)]))) 0 = some 8 := by decide +kernel
/-- R126, R127: BFX takes a field, MOVK replaces a halfword. -/
theorem test_fields : result (after (exec (.bfx 0 1 0 4 7) (vals user [(0, 0xABCD)]))) 1 = some 0xBC ∧
    result (after (exec (.movk 1 0 0 0xFFFF) (vals user [(0, 0x1234567890)]))) 0 = some 0x12FFFF7890 := by decide +kernel
/-- R117: a float name in an integer instruction traps KIND with its index. -/
theorem test_kind : (after (exec (.add 0 0 1 13) user)).me.trCause = 0x111 ∧ (after (exec (.add 0 0 1 13) user)).me.trVal = 13 := by
  decide +kernel
/-- R82, R145: 1.5 + 2.25 = 3.75 in FP32, without a flag. -/
theorem test_fadd : result (after (exec (.fadd 0 15 13 14) (vals user [(13, 0x3FC00000), (14, 0x40100000)]))) 15 = some 0x40700000 ∧
    (after (exec (.fadd 0 15 13 14) (vals user [(13, 0x3FC00000), (14, 0x40100000)]))).me.fxf = 0 := by decide +kernel
/-- R82, R83: 1 / 3 rounds to nearest with NX; a division by zero gives infinity with DZ. -/
theorem test_fdiv : result (after (exec (.fdiv 0 15 13 14) (vals user [(13, 0x3F800000), (14, 0x40400000)]))) 15 = some 0x3EAAAAAB ∧
    result (after (exec (.fdiv 0 15 13 14) (vals user [(13, 0x3F800000), (14, 0)]))) 15 = some 0x7F800000 := by decide +kernel
/-- R81: a sum above the largest FP16 value becomes infinite; R152: FNEG changes the sign only. -/
theorem test_half : result (after (exec (.fadd 0 18 17 17) (vals user [(17, 0x7BFF)]))) 18 = some 0x7C00 ∧
    result (after (exec (.fneg 0 18 17) (vals user [(17, 0x3C00)]))) 18 = some 0xBC00 := by decide +kernel
/-- R153: FCVT of 2.5 rounds to even; a NaN stores 0. -/
theorem test_fcvt : result (after (exec (.fcvt 0 20 13 0) (vals user [(13, 0x40200000)]))) 20 = some 2 ∧
    result (after (exec (.fcvt 0 20 13 0) (vals user [(13, 0x7FC00000)]))) 20 = some 0 := by decide +kernel
/-- R158: an FMA rounds once: (1 + 2^-12)^2 − 1 keeps its lowest bit. -/
theorem test_ffma : result (after (exec (.ffma 0 15 13 14) (vals user [(15, 0xBF800000), (13, 0x3F800800), (14, 0x3F800800)]))) 15
    = some 0x3A000400 := by decide +kernel
/-- R287: the inverse-distance steps of x = 4 and x = 8; of x = 0 RSQA gives infinity with DZ and RSQS keeps it. -/
theorem test_inverse_root :
    let q (x : Nat) := result (after (exec (.rsqa 0 15 13) (vals user [(13, x)]))) 15
    let r (x y : Nat) := result (after (exec (.rsqs 0 15 13 14) (vals user [(13, x), (14, y)]))) 15
    q 0x40800000 = some 0x3EFF8000 ∧ q 0x41000000 = some 0x3EB4B000 ∧ q 0 = some 0x7F800000 ∧
    r 0x40800000 0x3EFF8000 = some 0x3EFFFFA0 ∧ r 0x41000000 0x3EB4B000 = some 0x3EB504B7 ∧ r 0 0x7F800000 = some 0x7F800000 := by
  decide +kernel
/-- R142, R143: OXI inserts a quarter of an extension register, OXR reads it. -/
theorem test_ox : (after (exec (.oxi 0 0 1 3 0xBEEF) user)).me.ox = 0xBEEF <<< (64 * 3 + 16) ∧
    result (after (exec (.oxr 0 0 3) { user with cores := [(0, { slots := [(0, { runs with ox := 7 <<< 192 })] })] })) 0 = some 7 := by
  decide +kernel
/-- R103, R160: offsets count halfwords from the instruction. -/
theorem test_branch : (after (exec (.br 0 0 0 3) user)).me.pc = 0x1006 ∧ (after (exec (.br 0 0 1 3) user)).me.pc = 0x1004 ∧
    (after (exec (.brz 0 31) user)).me.pc = 0xFFE := by decide +kernel
/-- R161: CALL puts the address of the next instruction into its name. -/
theorem test_call : result (after (exec (.call 0 1 0x100) user)) 1 = some 0x1004 ∧ (after (exec (.call 0 1 0x100) user)).me.pc = 0x1200 := by
  decide +kernel
/-- R166, R295: TRAP holds the slot with SYSCALL (code 0x10) and its number; its TRAP event is pending. -/
theorem test_trap : (after (exec (.trap 0 9) user)).me.trCause = 0x110 ∧ (after (exec (.trap 0 9) user)).me.trVal = 9 ∧
    (after (exec (.trap 0 9) user)).me.trPc = 0x1000 ∧ ((after (exec (.trap 0 9) user)).core 0).trapPend = 1 := by decide +kernel
/-- R308: a system instruction traps PRIV (code 2) in a user slot. -/
theorem test_priv : (after (exec (.slots 0 0) user)).me.trCause = 0x102 := by decide +kernel
/-- R106: a slip of 3 leaves turn + 4 as the first turn. -/
theorem test_slip : (after (exec (.nop 3) user)).me.nextTurn = 4 := by decide +kernel
/-- R186, R190: a store of 0x1234 as 16 bits, read back as two bytes: little-endian. -/
theorem test_store_load : result (after (exec (.ld 0 11 0 0) (after (exec (.st 0 17 0 0) (vals user [(0, 0x4000), (17, 0x1234)]))))) 11
    = some 0x34 := by decide +kernel
/-- R186: a misaligned address traps MISALIGN with it. -/
theorem test_misaligned : (after (exec (.ld 0 1 0 0) (vals user [(0, 0x4001)]))).me.trCause = 0x106 ∧
    (after (exec (.ld 0 1 0 0) (vals user [(0, 0x4001)]))).me.trVal = 0x4001 := by decide +kernel
/-- R345: an address without a translation traps PFLOAD and PFSTORE. -/
theorem test_page_faults : (after (exec (.ld 0 1 0 0) (vals user [(0, 0x40000000)]))).me.trCause = 0x107 ∧
    (after (exec (.st 0 1 0 0) (vals user [(0, 0x40000000)]))).me.trCause = 0x108 := by decide +kernel
/-- R196: AADD answers the old word and leaves the sum. -/
theorem test_aadd : result (after (exec (.aadd 0 1 0 2) (vals sys [(0, 0x4000), (2, 5)]))) 1 = some 0 ∧
    (cacheLoad (after (exec (.aadd 0 1 0 2) (vals sys [(0, 0x4000), (2, 5)]))) 0 0x4000 0 8 0).2 = (5, 0) := by decide +kernel
/-- R201: LOCK of a free word puts the handle there with status 1. -/
theorem test_lock : result (after (exec (.lock 0 1 0) (vals user [(0, 0x4000)]))) 1 = some 1 ∧
    (physRead (after (exec (.lock 0 1 0) (vals user [(0, 0x4000)]))) 0x4000 8).1 = 5 := by decide +kernel
/-- R174: an empty channel: TRYRECV puts 0, RECV blocks. -/
theorem test_empty_channel : result (after (exec (.tryrecv 0 2 0 3) user)) 2 = some 0 ∧ (after (exec (.recv 0 2 0 3) user)).me.wait = .recv := by
  decide +kernel
/-- R246: LICQ of a free licence puts 1. -/
theorem test_licence : result (after (exec (.licq 0 1) user)) 1 = some 1 ∧ (after (exec (.licq 0 1) user)).pair 0 ≠ user.pair 0 := by
  decide +kernel
/-- R100, R102: a step runs the word placed where it fetches, and its result is pending; the pc moves on. -/
theorem test_step_runs_word : result ({ after (step (State.reset.withFetchWord 32 0x9E06002A)) with cur := (0, 7) }) 3 = some 42 ∧
    ((after (step (State.reset.withFetchWord 32 0x9E06002A))).slot 0 7).pc = 4 := by decide +kernel
/-- R105: a compact instruction takes two bytes. -/
theorem test_step_runs_parcel : ((after (step (State.reset.withFetchWord 16 0x4000))).slot 0 7).pc = 2 := by decide +kernel

/-! ## Witnesses: states and operands that meet the hypotheses of each statement, clause by clause -/

/-- A NOP of 32 bits, or a compact NOP, or nothing stands where core 0's system slot fetches, and its turn has come. -/
def fetches (nbits w : Nat) : State :=
  let s := startCycle (State.reset.withFetchWord nbits w) 0
  { s with agenda := [.issue 0] }

def three : List Nat → List KindReq := fun l => l.map (fun n => (n, intK))

theorem witness_EncodeDecode : (Instr.bfx 3 63 63 32 31).wf = true ∧ (Instr.bfx 3 63 63 32 31).is32 = true ∧ Instr.yieldCompact.wf = true ∧
    Instr.yieldCompact.isCompact = true := by decide +kernel

theorem witness_InstructionLengths :
    okF (fetchParcel (fetches 16 0x7FFF) 0 7 0 false) (fun _ p => p == 0x7FFF) = true ∧
    okF (fetchParcel (fetches 32 0x80000001) 0 7 0 false) (fun t p => p == 0x8000 &&
      okF (fetchParcel t 0 7 2 true) (fun _ q => q == 1)) = true ∧
    okF (fetchParcel State.reset 0 7 0 false) (fun _ p => p == 0) = true := by decide +kernel

theorem witness_StepRunsDecoded :
    let s := fetches 32 0xC6000007
    let n := fetches 32 0
    let t (s : State) := beginTurn { s with agenda := [] } 0 7
    s.agenda = [.issue 0] ∧ turnOf s 0 = 7 ∧ mayIssue (t s) 0 7 = true ∧
    okF (fetchInstr (t s) 0 7 0) (fun _ i => i == .nop 0) = true ∧ okF (fetchBytes (t s) 0 7 0) (fun _ b => b == [0, 0xC6, 7, 0]) = true ∧
    (match fetchInstr (t n) 0 7 0 with | .trap _ c v l => c == .illegal && v == 0 && !l | _ => false) = true ∧
    (match fetchInstr { sys with ucieUp := 0 } 0 7 0x4000000000 with | .wait _ => true | _ => false) = true ∧
    mayIssue (beginTurn State.reset 0 0) 0 0 = false ∧ isEvent .coldStart = true ∧
    (State.reset.withFetchWord 32 0).agenda = [.cycle 0] := by decide +kernel

theorem witness_ExecAnswers : isEvent .coldStart = true ∧ user.running = true := by decide +kernel
theorem witness_MemoryForm : State.reset.memOk = true ∧ user.memOk = true ∧ okN (step { State.reset with agenda := [.event .fwdogExpire] }) (fun _ => true) = true := by decide +kernel

theorem witness_SlipSpacing : (user.slot 0 0).turn + 1 < ((after (exec (.nop 3) user)).slot 0 0).nextTurn ∧
    turnOf { user with cores := [(0, { slots := [(0, runs)], cycle := 8 })] } 0 = 0 := by decide +kernel

theorem witness_FloatLatencies : okN (exec (.fdiv 0 16 13 14) user) (fun t =>
    t.me.pending.map (fun p => (p.name, p.due, p.turn)) == [(16, some 27, 4)]) = true := by decide +kernel

theorem witness_CommitWrites :
    let s := after (exec (.movi 0 11 300) user)
    let u := { s with cores := [(0, { s.core 0 with cycle := 3 })] }
    (u.slot 0 0).pending = [⟨11, 44, some 3, 1, 0⟩] ∧ dueNow (u.core 0).cycle ⟨11, 44, some 3, 1, 0⟩ = true ∧
    (nameInfo u 0 0 11).any (fun i => i.off + i.width ≤ 128 * i.region.rows) = true ∧ (0 : Nat) < 8 := by decide +kernel

theorem witness_RegisterFrame : ∀ i ∈ ([.add 0 0 1 2, .brev 0 63 11, .setlti 0 12 20 0x400, .shriCompact 0 31] : List Instr),
    okN (exec i user) (fun t => t.me.phase == .running) = true := by decide +kernel

theorem witness_TrapTaken : (7 : Nat) < 8 ∧ (6 : Nat) < 7 := by decide

/-- A device with number 3 in its domain. -/
def third : State := { user with ctrl := [(0x408690, 0x203)] }

theorem witness_AddressMap :
    (0x7FFFFFFFFF : Nat) < 0x8000000000 ∧ third.devId = 3 ∧
    (let x := 511 * 2 ^ 40 + (2 ^ 40 - 1); x < 2 ^ 55 ∧ x / 2 ^ 49 = 0 ∧ x / 2 ^ 40 % 2 ^ 9 ≠ third.devId) ∧
    (let x := 3 * 2 ^ 40; x < 2 ^ 55 ∧ x / 2 ^ 40 % 2 ^ 9 = third.devId) ∧ ((2 ^ 49 : Nat) / 2 ^ 49 ≠ 0 ∧ (2 ^ 49 : Nat) < 2 ^ 55) ∧
    okX (translate sys 0 false .load 0x20000409000) (fun t pa _ => placeOf t pa == .hole && !heldAtJoin t 0 .hole) = true ∧
    okX (translate sys 0 false .store 0x20000409000) (fun t pa _ => placeOf t pa == .hole) = true ∧
    okX (translate sys 0 false .update 0x20000409000) (fun t pa _ => placeOf t pa == .hole) = true ∧
    (2 ^ 40 - 1 : Nat) < 2 ^ 40 := by decide +kernel

theorem witness_QueueStatus : user.running = true ∧ 3 ≤ (63 : BitVec 6).toNat ∧ (2 : BitVec 6).toNat < 3 ∧
    usable user [] [63] [(63, intK)] = true ∧ ((user.core 0).cmds.filter (inQueue 2)).length ≤ queuePlaces 2 := by decide +kernel

/-- Names at the ends of the map: ZERO and the last declared one. -/
theorem witness_IntegerTwoOperand : usable user [63, 23] [23] [(23, intK), (63, intK), (23, intK)] = true ∧
    usable user [0, 12] [63] [(63, intK), (0, intK), (12, intK)] = true := by decide +kernel

theorem witness_DivisionRotationAndUnary :
    usable user [0, 63] [0] [(0, intK), (0, intK), (63, intK)] = true ∧ valI user 63 = 0 ∧
    (let s := vals user [(20, 2 ^ 64 - 1)]
     usable s [0, 20] [63] [(63, intK), (0, intK), (20, intK)] = true ∧ valI s 20 ≠ 0) ∧
    usable user [12] [63] [(63, intK), (12, intK)] = true ∧ usable user [] [23] [(23, intK), (13, anyK)] = true ∧
    usable user [23] [63] [(63, intK), (23, intK), (12, intK)] = true := by decide +kernel

theorem witness_ImmediateAndFieldForms : usable user [63] [23] [(23, intK), (63, intK)] = true ∧
    (63 : BitVec 6).toNat + (0 : BitVec 5).toNat < 64 ∧ usable user [] [63] [(63, intK)] = true ∧ usable user [23] [23] [(23, intK)] = true ∧
    usable user [23, 63] [23] [(23, intK), (63, intK)] = true := by decide +kernel

theorem witness_BitOperations : (1 : Nat) < 2 ^ 1 ∧ (0 : Nat) < 1 ∧ (-2 ^ 79 : Int) ≤ -2 ^ 79 ∧ (2 ^ 79 - 1 : Int) < 2 ^ 79 ∧
    leadZeros 8 1 < 8 ∧ trailZeros 8 128 < 8 := by decide +kernel

theorem witness_MovesAndCompactForms :
    let k (s : State) (d : Nat) (i : Info) : Bool := if (info s d).kind.isFloat then i.kind == (info s d).kind else i.kind.isInt
    usable user [63] [23] [(23, anyK), (63, k user 23)] = true ∧ usable user [13] [15] [(15, anyK), (13, k user 15)] = true ∧
    usable user [23, 63, 12] [63] [(63, anyK), (23, k user 63), (63, k user 63), (12, intK)] = true ∧
    (user.running = true ∧ readyName user 13 = none ∧ declared user 16 = true ∧ declared user 13 = true ∧
      (info user 13).kind ≠ (info user 16).kind) ∧ (info user 0).kind.isFloat = false ∧ (info user 13).kind.isFloat = true ∧
    usable user [23, 0] [23] [(23, intK), (23, intK), (0, intK)] = true ∧ usable user [12] [12] [(12, intK), (12, intK)] = true := by
  decide +kernel

theorem witness_FloatOperations :
    usable user [13, 19] [16] [(16, floatK), (13, floatK), (19, floatK)] = true ∧
    (usable user [13, 14] [13] [(13, floatK), (13, floatK), (14, floatK)] = true ∧ flagsPass user (0, 0) = true) ∧
    usable user [19] [17] [(17, floatK), (19, floatK)] = true ∧ (valF user 19).isNan = false ∧ (5 : BitVec 6).toNat < 6 := by decide +kernel

theorem witness_FloatConversionAndRefinement :
    let req (s : State) (d a : Nat) : List KindReq := [(d, anyK), (a, anyK), (d, fun i => i.kind.isFloat || (info s a).kind.isFloat)]
    let nan := vals user [(13, 0x7FC00000)]
    (usable user [63] [16] (req user 16 63) = true ∧ (info user 63).kind.isFloat = false) ∧
    (usable user [13] [16] (req user 16 13) = true ∧ (valF user 13).isNan = false ∧ (info user 16).kind.isFloat = true) ∧
    (usable user [13] [10] (req user 10 13) = true ∧ (info user 10).kind.isFloat = false ∧ valF user 13 = .fin false 0 1 (-149) ∧
      representable .unsigned 8 (signedNum false (quantize .rne false 64 0 1 (-149) 0).1) = true) ∧
    (usable nan [13] [63] (req nan 63 13) = true ∧ valF nan 13 = .nan false ∧ (info nan 0).mode ≠ .trap) ∧
    (usable nan [13] [10] (req nan 10 13) = true ∧ (info nan 10).mode = .trap) ∧
    usable user [13] [15] [(15, f32K), (13, f32K)] = true ∧
    usable user [16, 13, 19] [16] [(16, floatK), (13, floatK), (19, floatK)] = true ∧
    (usable user [13, 14] [15] [(15, f32K), (13, f32K), (14, f32K)] = true ∧ (valF user 14).isNan = false) := by decide +kernel

theorem witness_FloatRounding : (0 : Nat) < 1 ∧ (1 : Nat) ≠ 0 := by decide

/-- A device whose context 0 is valid in the open partition 0 with logical cores 0 and 1, and with counter places on core 0. -/
def ready (s : State) : State :=
  { s with
    mem := memWrite s.mem 0x300001 1, partOpen := 1, places := [(0, 0, 0), (1, 0, 1)]
    ctrl := [(0x40, 0x200000), (0x408688, 0x300000)] }

/-- The slot with a second map. -/
def second : Borrow := ⟨1, [nm 64, nm 8 .unsigned .trap], 0, 0xFFFFFFFF, 0, 0, 0x8000, 32, 0x8000⟩
def lent (s : State) : State := s.modMe (fun x => { x with borrow := some second })

/-- The system slot's sixteen rows full, the last two names of eight bits. -/
def packed : State := { sys with cores := [(0, { slots := [(7, { runs with map := List.replicate 31 (nm 64) ++ [nm 8, nm 8 .signed .trap] })] })] }

/-- A map with a name of the pair region. -/
def paired : State :=
  let p : NameD := { nm 32 with region := .pair }
  { user with cores := [(0, { slots := [(0, { runs with map := [nm 64, p] })] })], pairs := [(0, { sig := [p] })] }

theorem witness_WidthsAndBorrowing_resize :
    let narrow := fun (i : Info) => i.kind == .unsigned || i.kind == .signed
    let calm (s : State) (d : Nat) : Bool := s.running && s.quiet && (kindName s (d, narrow)).isNone &&
      (inFlight s s.cur.1 s.cur.2 (info s d).region).isEmpty && !frozen s s.cur.1 s.cur.2 (info s d).region
    let fits (s : State) (d w : Nat) : Bool := (info s d).mode != .trap ||
      representable (info s d).kind w (readPat (info s d).kind (info s d).width (nameBits s s.cur.1 s.cur.2 d))
    let new (s : State) (d w : Nat) := regionLayout (modifyName s s.cur.1 s.cur.2 d (fun x => { x with width := w })) s.cur.1 s.cur.2 (info s d).region
    (calm user 0 = true ∧ (info user 0).width = 64) ∧
    (let away := user.modSlot 0 0 (fun x => { x with resident := 0 })
     calm away 11 = true ∧ (info away 11).width ≠ 16 ∧ away.me.resident.getLsbD ((info away 11).off / 128) = false) ∧
    (calm (vals user [(10, 255)]) 10 = true ∧ (info user 10).mode = .trap ∧ fits (vals user [(10, 255)]) 10 4 = false ∧
      user.me.resident.getLsbD ((info user 10).off / 128) = true) ∧
    (calm packed 31 = true ∧ fits packed 31 64 = true ∧ new packed 31 64 = []) ∧
    (calm user 11 = true ∧ fits user 11 16 = true ∧ new user 11 16 ≠ [] ∧
      ∀ r ∈ touchedRows (regionLayout user 0 0 .priv) (new user 11 16), r ∈ (regionLayout user 0 0 .priv).map (fun p => p.1 / 128) →
        user.me.resident.getLsbD r = true) ∧
    (Mode.ofCode (2 : BitVec 6).toNat = some .trap ∧ usable user [] [] [(23, intK)] = true ∧
      ∀ x ∈ user.me.map[23]?, x.kind.isFloat = false) := by decide +kernel

theorem witness_WidthsAndBorrowing_borrow :
    let s := vals (ready user) [(0, 0x6000), (1, 0x8000)]
    let b (d a : Nat) : List KindReq := [(d, intK), (a, intK), (1, intK)]
    (usable s [0, 1] [2] (b 2 0) = true ∧ s.quiet = true ∧ s.userSlot = true ∧ s.me.borrow = none ∧ freeSlot s 0 = some 1 ∧
      (valW s 0).toNat % 8 = 0 ∧ (valW s 1).toNat % 16 = 0 ∧ recordHeld s 0 (valW s 0).toNat = false ∧
      walkHeld s 0 (valW s 1).toNat = false ∧ walkHeld s 0 ((valW s 1).toNat + 511) = false ∧
      (match readMapRecord s 0 true 0x6000 with
        | (s1, .ok (c, ds)) => okE (backingArea s1 0 0x8000) (fun r => fitsIn r.1 2 1) && okE (borrowMap c ds) (fun _ => true)
        | _ => false) = true) ∧
    (usable sys [0, 1] [2] (b 2 0) = true ∧ sys.cur.2 = 7) ∧ (usable (lent user) [0, 1] [2] (b 2 0) = true ∧ (lent user).me.borrow ≠ none) ∧
    (let t := { user with cores := [(0, { user.core 0 with slotEn := 1 })] }
     usable t [0, 1] [2] (b 2 0) = true ∧ freeSlot t 0 = none ∧ t.me.borrow = none ∧ t.cur.2 ≠ 7) ∧
    ((lent user).running = true ∧ (lent user).quiet = true ∧ (lent user).me.borrow.isSome = true) ∧ user.me.borrow = none := by decide +kernel

theorem witness_WidthsAndBorrowing_exchange :
    let s := lent user
    let f := user.modMe (fun x => { x with borrow := some { second with map := [nm 64, nm 32 .float32] } })
    (usable s [] [23] [(23, borrowMatch s 1)] = true ∧ s.me.borrow.any (fun b => (borrowInfo b 1).any (fun i => !i.kind.isFloat &&
      b.resident.getLsbD (i.off / 128) && !b.poisoned.getLsbD (i.off / 128))) = true) ∧
    (usable s [63] [] [(63, borrowMatch s 1)] = true ∧ s.me.borrow.any (fun b => (borrowInfo b 1).any (fun i => i.mode == .trap &&
      !i.kind.isFloat && representable i.kind i.width (valI s 63))) = true) ∧
    (usable f [] [13] [(13, borrowMatch f 1)] = true ∧ usable f [13] [] [(13, borrowMatch f 1)] = true ∧
      f.me.borrow.any (fun b => (borrowInfo b 1).any (fun i => i.kind.isFloat && b.resident.getLsbD (i.off / 128) &&
        !b.poisoned.getLsbD (i.off / 128))) = true) ∧
    (let g := { user with cores := [(0, { slots := [(0, { runs with map := [nm 32 .float32, { nm 32 .float32 with region := .pair }] })] })],
                          pairs := [(0, { sig := [{ nm 32 .float32 with region := .pair }] })] }
     usable g [0, 1] [0, 1] [(0, fun i => i.region != .pair), (1, fun i => i.region == .pair &&
       (if i.kind.isFloat then i.kind == (info g 0).kind else (info g 0).kind.isInt))] = true ∧ (info g 1).kind.isFloat = true) ∧
    (let t := paired
     usable t [0, 1] [0, 1] [(0, fun i => i.region != .pair), (1, fun i => i.region == .pair &&
       (if i.kind.isFloat then i.kind == (info t 0).kind else (info t 0).kind.isInt))] = true ∧
     (info t 1).kind.isFloat = false ∧ fitsIn t 0 (valI t 1) = true ∧ (info t 1).mode ≠ .trap) := by decide +kernel

theorem witness_RepackAndPacking :
    let r : Repack := ⟨.priv, 11, 16, 0xFFFF, 0, 0⟩
    let s := user.modSlot 0 0 (fun x => { x with repack := some r })
    (s.slot 0 0).repack = some r ∧ (∀ d ∈ (s.slot 0 0).map[11]?, d.region = .priv ∧ d.width ≠ 16) ∧
    okE (pack (rowsFor 0 .priv) ((regionNames names .priv).map (·.width))) (fun _ => true) = true ∧
    okE (pack (rowsFor 0 .priv) ((regionNames (modifyAt (fun d => { d with width := 16 }) names 11) .priv).map (·.width))) (fun _ => true) = true ∧
    names[23]?.any (fun d => d.region == .priv) = true ∧ okE (pack 1 [64, 64]) (fun os => os == [0, 64]) = true := by decide +kernel

theorem witness_MapsAndSpecialRegisters :
    let s := vals user [(0, 0x6000)]
    (usable s [0] [] [(0, intK)] = true ∧ s.quiet = true ∧ (valW s 0).toNat % 8 = 0 ∧ recordHeld s 0 (valW s 0).toNat = false ∧
      (match readMapRecord s 0 true 0x6000 with | (s1, .ok (c, ds)) => okE (mapInstall s1 0 0 false c ds) (fun t => !mapFrozen s 0 0 t.me.map) | _ => false) = true) ∧
    (usable s [] [63] [(63, intK)] = true ∧ (infoOf s 0 0 23).isSome = true ∧ infoOf s 0 0 24 = none) ∧
    (usable s [] [0] [(0, intK)] = true ∧ usable s [63] [] [(63, intK)] = true) ∧ s.running = true ∧
    (0xFFFF : BitVec 17).getLsbD 16 = false ∧ (7 : Nat) < 8 := by decide +kernel

theorem witness_ControlTransfers :
    (usable user [63] [] [(63, anyK)] = true ∧ usable user [16] [] [(16, anyK)] = true ∧ user.running = true) ∧
    (usable user [12] [12] [(12, intK)] = true ∧ fitInt .flag 1 .wrap (valI user 12 - 1) = some 1 ∧ (info user 12).kind = .flag ∧
      (info user 12).mode = .wrap ∧ (info user 12).width = 1) ∧
    (usable user [] [0] [(0, intK)] = true ∧ fitsIn user 0 (user.me.pc + 4).toNat = true) ∧
    (usable user [63] [0] [(0, intK), (63, intK)] = true ∧ (valW user 63).toNat % 2 = 0) ∧
    (let s := vals user [(1, 2 ^ 64 - 1)]; usable s [1] [0] [(0, intK), (1, intK)] = true ∧ (valW s 1).toNat % 2 = 1) := by decide +kernel

theorem witness_LeavingAndCalling :
    (user.running = true ∧ user.userSlot = true ∧ user.quiet = true ∧ mapFrozen user 0 0 user.me.map = false ∧
      saveHeld user 0 0 = false ∧ runBlocked user 0 = false ∧ okE (writeMapRecord user 0 0) (fun _ => true) = true) ∧
    (user.single = true ∧ (user.thread user.me.img).task = none ∧ putsHeld user 0 0 (placementScope user user.me.img) = false) ∧
    (let s := user.modThread 0x10000 (fun t => { t with callee := some ⟨1, 15⟩ })
     (s.thread s.me.img).task = none ∧ s.single = true ∧ usable s [63] [] [(63, intK)] = true) ∧
    (let s := user.modThread 0x10000 (fun t => { t with task := some 1 })
     (s.thread s.me.img).task ≠ none ∧ s.running = true ∧ s.quiet = true ∧ s.single = true ∧ putsHeld s 0 0 (placementScope s s.me.img) = false) ∧
    (sys.running = true ∧ sys.cur.2 = 7 ∧ usable sys [0, 1] [] [(0, intK), (1, intK)] = true ∧ usable sys [0] [2] [(2, intK), (0, intK)] = true) ∧
    (let s := vals (ready user) [(0, 0x2001), (2, 1), (3, 1023)]
     let calls (s : State) (a b : Nat) := usable s [a, b] [] [(a, intK), (b, intK)]
     calls s 0 2 = true ∧ (valW s 0).toNat % 2 = 1 ∧ calls s 63 3 = true ∧ (valW s 63).toNat % 2 = 0 ∧
     (match callTarget s 0 0 (valW s 3) with | .error e => e.1 == .protect | .ok _ => false) = true ∧
     okE (callTarget s 0 0 (valW s 2)) (fun x => x.2 == 1 && x.1.quiet && x.1.single && !coresApart x.1 0 1 &&
        !putsHeld x.1 0 0 (enclosing 0 0 1 8) && callFree x.1 1 0 0) = true ∧
     (let t := s.modCore 1 (fun c => { c with taskQ := List.replicate 16 ⟨0, 0, 0, 0, 0, 0, 0, none, 0, none⟩ })
      okE (callTarget t 0 0 (valW t 2)) (fun x => !callFree x.1 1 0 0) = true)) := by decide +kernel

theorem witness_LeavingAndCalling_spawn :
    let s := vals (ready user) [(0, 0x6000), (1, 0x6001)]
    (s.userSlot = true ∧ usable s [0] [2] [(2, intK), (0, intK)] = true ∧
      walkHeld s 0 0x6000 = false ∧ estateFull (s.thread s.me.img) = false ∧
      okX (translate s 0 true .load 0x6000) (fun t pa _ => t.quiet && t.single && !heldAtJoin t 0 (placeOf t pa) &&
        !putsHeld t 0 0 (recTokScope (ownRecord t 0 pa)) &&
        okA (spawnAct (release t 0 (recTokScope (ownRecord t 0 pa))) 0 0 0x6000 pa false 2) (fun _ v p _ => v == 0 && p == 0)) = true) ∧
    (recordRefused s 0x6001 0x6001 (ctxOf s 0) (queueOfThread s 0x10000) = true) ∧
    (recordRefused s 0x6000 0x6000 (ctxOf s 0) (queueOfThread s 0x10000) = false ∧ recDeps (readRecord s 0x6000).1 = 0 ∧
      homeCore s 0x6000 = some 0 ∧ earlierWaits s 0 0 0 = false ∧ (freePlace s 0).isSome = true ∧ s.submissions = []) ∧
    (let t := { s with mem := memWrite s.mem 0x6030 2 }
     recDeps (readRecord t 0x6000).1 = 2) ∧
    (usable s [0] [] [(0, intK)] = true ∧ (valW s 0).toNat % 128 = 0 ∧ usable s [1] [] [(1, intK)] = true ∧ (valW s 1).toNat % 128 ≠ 0) := by
  decide +kernel

/-- The user slot's state with address 0x4000 in name 0 and an odd one in name 1. -/
def pointed : State := vals (ready user) [(0, 0x4000), (1, 0x4001), (2, 0x4020)]

def unary (s : State) (d a : Nat) : Bool := usable s [a] [d] [(d, intK), (a, intK)]

theorem witness_Messages :
    let s := vals (ready user) [(2, 0x30)]
    let m : Msg := ⟨[7], 0x123, some 5, 1, 0, false⟩
    let got := s.modCore 0 (fun c => c.setChan 15 { ready := [m], travel := [] })
    let full := s.modCore 0 (fun c => c.setChan 0 { ready := [m, m, m, m], travel := [] })
    let may (s : State) := usable s [2] [] [(0, intK), (2, intK)] && s.quiet && s.single && !descBad s 0 (valW s 2) && !farRefused s 0 0 (valW s 2) &&
      startsRow s 0 0 0 == some 0 && !putsHeld s 0 0 0 && siteOfLogical s (ctxPart s (ctxOf s 0).toNat) (fld (valW s 2) 12 10) == some 0 &&
      (List.range 4).all (fun i => !rowAbsent s 0 0 i && !rowPoisoned s 0 0 .priv i) && fld (valW s 2) 31 1 == 0
    (may s = true ∧ coresApart s 0 0 = false ∧ fld (valW s 2) 4 2 + 1 = 4 ∧ placeFree (release s 0 0) 0 (fld (valW s 2) 0 4) 0 0 = true) ∧
    (may full = true ∧ placeFree (release full 0 0) 0 0 0 0 = false) ∧
    (let far := vals (ready user) [(2, 0x30 + 9 * 2 ^ 22 + 2 ^ 31)]
     let far := { far with mem := memWriteLE (memWriteLE (memWriteLE far.mem 0x300008 8 0x7000) 0x7000 8 1) 0x7008 2 9 }
     let call (r : Option (BitVec 129)) : State := { far with remoteOps := [{ id := 4, core := 0, slot := 0, reply := r }] }
     descBad far 0 (valW far 2) = false ∧ farRefused far 0 0 (valW far 2) = false ∧ farRefused (call none) 0 0 (valW (call none) 2) = false ∧
       startsRow far 0 0 0 = some 0 ∧ fld (valW far 2) 31 1 = 1 ∧ fld (valW far 2) 22 9 ≠ far.devId ∧
       pendingCall (release far 0 0) 0 0 = none ∧ (pendingCall (release (call none) 0 0) 0 0).any (fun r => r.reply.isNone) = true ∧
       (pendingCall (release (call (some 0)) 0 0) 0 0).any (fun r => r.reply.isSome) = true) ∧
    ((15 : BitVec 6).toNat < 16 ∧ usable got [] [63] [(63, intK), (0, anyK)] = true ∧ startsRow got 0 0 0 = some 0 ∧
      ((got.core 0).chan 15).ready = [m] ∧ 0 + m.flits.length ≤ 32 ∧ got.quiet = true) ∧ ((s.core 0).chan 15).ready = [] := by decide +kernel

theorem witness_TagsAndBarriers :
    let s := pointed
    unary s 63 63 = true ∧ (usable s [63] [] [(63, intK)] = true ∧ s.quiet = true) ∧
    (usable s [0, 2] [] [(0, intK), (2, intK)] = true ∧ s.single = true ∧ (valW s 0).toNat % 32 = 0 ∧
      okA (objectOp (release s 0 5) 0 0 .update 0x4000 32 opBari 0x4020 0 0 [0, 2]) (fun _ _ p _ => p == 0) = true) ∧
    ((valW s 1).toNat % 32 ≠ 0 ∧ usable s [1] [] [(1, intK)] = true) ∧ (estateFull (s.thread s.me.img) = false ∧
      okA (barrierRead s 0 0 .update 0x4000 0 [0]) (fun _ _ p _ => p == 0) = true) ∧ putsHeld s 0 0 5 = false ∧
    ((7 : BitVec 6).toNat < 8 ∧ unary s 2 0 = true ∧ putsHeld s 0 0 7 = false ∧
      okA (arriveAct (release s 0 7) 0 0 0x4000 2 [0]) (fun _ _ p _ => p == 0) = true) ∧
    (usable s [0, 2] [3] [(3, intK), (0, intK), (2, intK)] = true ∧
      okA (barrierRead s 0 0 .load 0x4000 0 [0, 2]) (fun _ _ p _ => p == 0) = true ∧
      okA (barrierRead s 0 0 .load 0x4000 16 [0, 2]) (fun _ _ p _ => p == 0) = true) := by decide +kernel

theorem witness_LoadsAndStores :
    let s := pointed
    let bad := { s with memPoison := [0x4000] }
    (usable s [0] [17] [(17, anyK), (0, intK)] = true ∧ s.quiet = true ∧ s.single = true) ∧ effAddr s 1 0 % containerOf (opWidth s 17) ≠ 0 ∧
    (usable s [1] [17] [(17, anyK), (1, intK)] = true ∧ effAddr s 0 0 % containerOf (opWidth s 17) = 0) ∧
    (match loadAt s 0 0 0x40000000 8 0 [0] with | .trap c _ => c == .pfload | _ => false) = true ∧
    okA (loadAt s 0 0 0x4000 8 0 [0]) (fun u _ p _ => p == 0 && !(info u 3).kind.isFloat && (info u 16).kind.isFloat) = true ∧
    okA (loadAt bad 0 0 0x4000 8 0 [0]) (fun _ _ p _ => p != 0) = true ∧
    usable s [0, 63] [3] [(3, anyK), (0, intK), (63, intK)] = true ∧ putsHeld s 0 0 7 = false ∧
    usable s [13, 0] [] [(13, anyK), (0, intK)] = true ∧ usable s [3, 0, 63] [] [(3, anyK), (0, intK), (63, intK)] = true ∧
    (match storeAt (release s 0 0) 0 0 0x40000000 8 0 0 0 with | .trap c _ => c == .pfstore | _ => false) = true ∧
    okA (storeAt (release s 0 7) 0 0 0x4000 8 1 0 7) (fun _ _ p _ => p == 0) = true ∧
    okA (loadAt s 0 0 0x4000 1 (apol s) [0]) (fun u v p _ => p == 0 && fitsIn (acquire u 0 0) 11 (readPat .unsigned 8 v)) = true := by
  decide +kernel

theorem witness_MemoryReadBack :
    (0 < 1 ∧ 127 + 1 ≤ 128) ∧ ((∀ b ∈ [0, 0x4000], (ordinaryLines user b).length + 4 ≤ llcWays) ∧ (∀ q < 2, (user.tower q).reserve = [])) ∧
    (let l : Line := ⟨0x4000, 0, 0xFF, 0, 0, 1, false, false, none⟩
     let s := { user with cores := [(0, { user.core 0 with l1 := [l] })] }
     findLine (s.core 0).l1 0x4000 = some l ∧ spanSectors 127 1 &&& l.valid.toNat = spanSectors 127 1) ∧
    okX (translate sys 0 false .store 0x100001FFFF8) (fun t pa _ => !heldAtJoin t 0 (placeOf t pa) && placeOf t pa == .window 0 0x1FFFF8 &&
      !(t.core 0).offline && t.memOk && !inCtrArea t 0 0x1FFFF8 8 && partOf t 0 == partOf t 0 && !scoreWait t { core := 0, slot := some 7 } 0 0x1FFFF8 8 true) = true ∧
    okA (threadStore sys 0 7 0x100001FFFF8 8 5 0 0) (fun _ v p pa => v == 5 && p == 0 && pa == 0x100001FFFF8) = true ∧
    (0x1FFFF8 + 8 ≤ 0x200000 ∧ 0 < 8) := by decide +kernel

theorem witness_RowTransfersAndMaintenance :
    let s := pointed
    (usable s [0] [] [(0, startsRows 0 32), (0, intK)] = true ∧ s.quiet = true ∧ s.single = true ∧ 0 = (info s 0).off / 128 ∧ 0 < 32 ∧
      (valW s 0).toNat % 16 = 0 ∧ wideGet s.me.ox 448 6 = 0 ∧ (∀ i, i < 32 → rowAbsent s 0 0 i = false)) ∧
    (match moveRows (fun u v r => spillRow u 0 0 v r) s 0 0 0x4000 0 0 1 with | .done _ => true | _ => false) = true ∧
    (match moveRows (fun u v r => fillRowOp u 0 0 v r [0]) s 0 0 0x4000 0 0 1 with | .done _ => true | _ => false) = true ∧
    okA (spillRow s 0 0 (sectorAt 0x4000 0) (0 + 0)) (fun _ _ _ _ => true) = true ∧
    (match spillRow s 0 0 (sectorAt 0x40000000 0) (0 + 0) with | .trap _ _ => true | _ => false) = true ∧
    ((2 : BitVec 6).toNat < 3 ∧ usable s [0, 63] [] [(0, intK), (63, intK)] = true ∧ (7 : BitVec 6).toNat < 8 ∧ (8 : BitVec 6).toNat = 8 ∧
      rangeHeld s 0 (valW s 0).toNat (fld (valW s 63) 0 32) = false) ∧
    (s.running = true ∧ putsHeld s 0 0 7 = false ∧ putsHeld s 0 0 0 = false) := by decide +kernel

theorem witness_Atomics :
    let s := pointed
    (usable s ([].map (fun (_ : Unit) => 3) ++ [0, 2]) [3] [(3, atomD false), (0, intK), (2, intK)] = true ∧
      usable s [3, 0, 2] [3] [(3, atomD false), (0, intK), (2, intK)] = true ∧ s.quiet = true ∧ s.single = true) ∧
    (valW s 1).toNat % containerOf (opWidth s 3) ≠ 0 ∧ usable s [1, 2] [3] [(3, atomD false), (1, intK), (2, intK)] = true ∧
    (valW s 0).toNat % 8 = 0 ∧ okA (threadAtomic s 0 0 0x4000 8 (ascope s) (fun m => (m + 5) % 2 ^ 64)) (fun _ _ p _ => p == 0) = true ∧
    (usable s [0, 13] [16] [(16, atomD true), (0, intK), (13, floatK)] = true ∧
      okA (threadAtomic s 0 0 0x4000 8 (ascope s) (fun m => (fitF .float64 .rne (addV false (decodeF .float64 m) (valF s 13)).1).1))
        (fun _ _ p _ => p == 0) = true) ∧
    (usable s [3, 0, 2] [] [(3, anyK), (0, intK), (2, intK)] = true ∧ (valW s 2).toNat % 32 = 0 ∧
      okA (stcAct s 0 0 0x4000 8 (modPow (valI s 3) 64) 0x4020) (fun _ _ p _ => p == 0) = true) := by decide +kernel

/-- A full estate. -/
def holds (n : Nat) (e : EstEntry) (s : State) : State := s.modThread 0x10000 (fun t => { t with estate := List.replicate n e })
def lockEntry : EstEntry := ⟨0x4000, 1, 0, 5, 0, 9, 0⟩

theorem witness_LocksAndPromises :
    let s := pointed
    let f := holds 64 lockEntry s
    (unary s 3 0 = true ∧ s.quiet = true ∧ s.single = true ∧ (valW s 0).toNat % 8 = 0) ∧
    okA (objectOp s 0 0 .update 0x4000 8 opLock s.me.handle.toNat 0 (guardOf (info s 3)) [0]) (fun _ r p _ => r == 1 && p == 0) = true ∧
    (unary f 3 0 = true ∧ f.quiet = true ∧ estateFull (f.thread f.me.img) = true ∧
      okA (objectOp f 0 0 .update 0x4000 8 opLock f.me.handle.toNat 1 (guardOf (info f 3)) [0]) (fun _ r p _ => r == 5 && p == 0) = true) ∧
    (putsHeld s 0 0 (ascope s) = false ∧
      okA (objectOp (release s 0 (ascope s)) 0 0 .update 0x4000 8 opUnlock s.me.handle.toNat 0 (guardOf (info s 3)) [0]) (fun _ r p _ => r == 1 && p == 0) = true) ∧
    (unary s 3 1 = true ∧ (valW s 1).toNat % 8 ≠ 0) ∧
    (usable s [0] [] [(0, intK)] = true ∧ usable f [0] [] [(0, intK)] = true ∧ estateFull (s.thread s.me.img) = false ∧ (valW s 1).toNat % 16 ≠ 0 ∧
      (valW s 0).toNat % 16 = 0 ∧ okA (objectOp s 0 0 .update 0x4000 16 opPrmk s.me.handle.toNat 0 0 [0]) (fun _ _ p _ => p == 0) = true) ∧
    (usable s [0, 13] [3] [(3, intK), (0, intK), (13, anyK)] = true ∧
      okA (objectOp (release s 0 5) 0 0 .update 0x4000 16 opKeep s.me.handle.toNat (windowValue 13 s) (guardOf (info s 3)) [0, 13]) (fun _ _ p _ => p == 0) = true) ∧
    okA (promiseWord s 0 0 0x4000 [0]) (fun _ w p _ => w % 4 == 0 && p == 0) = true := by decide +kernel

theorem witness_ObjectsAndEstate :
    let s := vals pointed [(3, 0x100)]
    let f := holds 64 lockEntry s
    let one := holds 1 lockEntry s
    let three := fun (s : State) (b : Nat) (reads : List Nat) => usable s reads [5] [(5, intK), (0, intK), (b, intK)]
    (5 % 2 ^ 32 ≠ 0 ∧ (5 : Nat) < 2 ^ 64 ∧ 5 % 2 ^ 32 = 5 ∧ (0 : Nat) % 2 ^ 32 = 0) ∧ okA (objectAt s 0 0 .update 0x4000 8) (fun _ _ p _ => p == 0) = true ∧
    (three s 3 [0, 3] = true ∧ s.quiet = true ∧ heirOk (valW s 3) = true) ∧ (three s 2 [0, 2] = true ∧ heirOk (valW s 2) = false) ∧
    (three f 63 [0] = true ∧ estateFull (f.thread f.me.img) = true) ∧
    (estateFull (s.thread s.me.img) = false ∧ fitsIn (estateAdd s s.me.img (valW s 0) 7 (valW s 3)) 5 ((s.thread s.me.img).estSeq.toNat : Int) = true) ∧
    (let named : EstEntry → Bool := fun e => valW one 0 = 0 || e.object = valW one 0
     three one 3 [0, 3] = true ∧ fitsIn (one.modThread one.me.img (fun t => { t with estate := t.estate.map (fun e =>
       if named e then setHeir (valW one 3) e else e) })) 5 (((one.thread one.me.img).estate.filter named).length : Nat) = true) ∧
    (unary s 5 0 = true ∧ (s.thread s.me.img).estate = []) ∧
    (unary one 5 0 = true ∧ (one.thread one.me.img).estate = [lockEntry] ∧ fitsIn (estateDrop one one.me.img (fun e => e.kind = 1)) 5 1 = true) ∧
    (s.single = true ∧ conveyWaits s = none ∧ entryOn (s.thread s.me.img) (valW s 0) = none) ∧
    (let gone := s.modMe (fun x => { x with latch := [⟨0, 0x4000, 64⟩, ⟨64, 9, 64⟩] })
     conveyWaits gone = some 9 ∧ (gone.thread gone.me.img).estate.find? (fun e => e.seq = 9) = none ∧ gone.quiet = true ∧ unary gone 5 0 = true) ∧
    (one.single = true ∧ conveyed one 0 = some lockEntry ∧ engineBusy one one.me.img lockEntry = false ∧ conveyFits one 5 lockEntry = true ∧
      conveyedFar one 0 lockEntry = false ∧ okA (conveyAct one 0 0 one.me.img lockEntry) (fun _ _ p _ => p == 0) = true) ∧
    (let f := { lockEntry with object := 0x40004000 }
     let t := vals { holds 1 f (user.modMe (fun x => { x with map := [nm 64, nm 1 .signed .trap] })) with
                     mem := tables ++ [(0x200008, 0x3D), (0x20000D, 1), (0x20000E, 0x80)] } [(0, 0x40004000)]
     unary t 1 0 = true ∧ t.quiet = true ∧ t.single = true ∧ conveyed t 0 = some f ∧ engineBusy t t.me.img f = false ∧
       conveyFits t 1 f = false ∧ conveyedFar t 0 f = true) := by decide +kernel

/-- A shape record: its bank, four sizes, and strides 1 and 64. -/
def shape (bank d0 d1 : Nat) : Nat := bank * 2 ^ 20 + d0 * 2 ^ 32 + d1 * 2 ^ 48 + 2 ^ 64 + 2 ^ 80 + 2 ^ 96 + 64 * 2 ^ 128

def record (s : State) (off v : Nat) : State := { s with mem := memWriteLE s.mem (spadAddr 0 off) 32 v }

/-- Bank 0 raw, banks 1 and 3 FP32 in rows of 64, bank 3 column-blocked, bank 2 signed of 16 bits in rows of 64. -/
def formats : BitVec 1024 := BitVec.ofNat 1024 ((11 + 64 * 2 ^ 32) * 2 ^ 64 + (12 + 64 * 2 ^ 32) * 2 ^ 128 + (11 + 2 ^ 20 + 64 * 2 ^ 32) * 2 ^ 192)

/-- The top of the scratchpad holds shape records, and the formats above are in force. -/
def tensors : State :=
  let s := pointed.modCore 0 (fun c => { c with bfmt := formats, bfmtNext := formats })
  let s := record (record (record s 0x1FFE00 (shape 1 64 64)) 0x1FFE20 (shape 1 1 64)) 0x1FFE40 (shape 2 4 64)
  let s := record (record (record s 0x1FFE60 (shape 1 4 64)) 0x1FFE80 (shape 2 1 64)) 0x1FFEA0 (shape 3 64 64)
  { s with mem := memWriteLE s.mem (spadAddr 0 0x1FFF00) 64 (0x1FFE00 + 0x1FFE00 * 2 ^ 32 + 0xFFFFFFFFFFFFFFFF * 2 ^ 64 + (7 + 4 * 32) * 2 ^ 128) }

def asks (s : State) (d a b : Nat) : Bool := usable s (ctlReads d [a, b]) [] [(d, intK), (a, intK), (b, intK)] && s.quiet

theorem witness_StreamCommands :
    let s := vals tensors [(0, 0x1FFE00), (1, 0x1FFE20), (3, 0x1FFFE0), (4, 0x1FFFC0), (5, 1024), (6, 0x1FFFE1)]
    let c := newCmd s (.gather ⟨0, 0, [], [], false⟩ ⟨0, 0, [], [], false⟩ ⟨0, 0, [], [], false⟩) [] [] none
    let full := s.modCore 0 (fun x => { x with cmds := List.replicate 16 c })
    (asks s 5 3 4 = true ∧ ctlBad (valW s 5) false = true) ∧ (asks s 63 6 4 = true ∧ ctlBad (valW s 63) false = false ∧ (valW s 6).toNat % 32 ≠ 0) ∧
    (asks s 63 3 4 = true ∧ recordsGood s [0x1FFFE0, 0x1FFFC0] = true ∧ sourceGood s 0x1FFFE0 = true ∧ destGood s 0x1FFFC0 = true ∧
      (formatAt s 0x1FFFE0).raw = (formatAt s 0x1FFFC0).raw ∧ (shapeAt s 0x1FFFE0).dims = (shapeAt s 0x1FFFC0).dims ∧ streamRoom s = true) ∧
    (asks full 63 3 4 = true ∧ recordsGood full [0x1FFFE0, 0x1FFFC0] = true ∧ sourceGood full 0x1FFFE0 = true ∧ destGood full 0x1FFFC0 = true ∧
      streamRoom full = false) ∧
    (asks s 63 0 1 = true ∧ ctlBad (valW s 63) true = false ∧ recordsGood s [0x1FFE00, 0x1FFE20] = true ∧ sourceGood s 0x1FFE00 = true ∧
      destGood s 0x1FFE20 = true ∧ (formatAt s 0x1FFE00).raw = false ∧ (formatAt s 0x1FFE20).scale = false ∧
      (shapeAt s 0x1FFE20).dims = [1, 64, 1, 1] ∧ (shapeAt s 0x1FFE00).dims = [64, 64, 1, 1]) ∧
    (usable s (ctlReads 63 [0, 13]) [] [(63, intK), (0, intK), (13, anyK)] = true ∧ recordsGood s [0x1FFE00] = true ∧ destGood s 0x1FFE00 = true ∧
      (info s 13).kind.isFloat = true ∧ usable s (ctlReads 63 [3, 63]) [] [(63, intK), (3, intK), (63, anyK)] = true ∧ destGood s 0x1FFFE0 = true) := by
  decide +kernel

theorem witness_StreamCommands_indexed_and_chain :
    let s := vals tensors [(0, 0x1FFE00 + 0x1FFE00 * 2 ^ 32), (1, 0x1FFE80), (3, 0x1FFF00)]
    (asks s 63 0 1 = true ∧ recordsGood s [0x1FFE00, 0x1FFE00, 0x1FFE80] = true ∧ destGood s 0x1FFE00 = true ∧
      ((formatAt s 0x1FFE00).scale && (formatAt s 0x1FFE00).orient = 1) = false ∧ sourceGood s 0x1FFE00 = true ∧ sourceGood s 0x1FFE80 = true ∧
      indexFmt (formatAt s 0x1FFE80) = true ∧ (shapeAt s 0x1FFE80).dims = [1, 64, 1, 1] ∧ (shapeAt s 0x1FFE00).dims = [64, 64, 1, 1] ∧
      streamRoom s = true) ∧
    (let v := memReadLE s.mem (spadAddr 0 0x1FFF00) 64
     usable s (ctlReads 63 [3, 13]) [] [(63, intK), (3, intK), (13, f32K)] = true ∧ recordBusy s 0 0x1FFF00 64 = false ∧ chainBad v = false ∧
     chainOps (chainWords v) = some [7 + 4 * 32] ∧ bitsAt v 0 32 = 0x1FFE00 ∧ chainSrcs v = [some 0x1FFE00, none, none] ∧ chunkHeld s = false ∧
     recordsGood s [0x1FFE00, 0x1FFE00] = true ∧ okE (chunkWait s) (fun x => x == (s, none)) = true) := by decide +kernel

/-- With fewer than 32 ranges on the scoreboard no command waits for a place there. -/
theorem boardWaits_room (s : State) (c : Cmd) (h : boardCount s s.cur.1 < 32) : boardWaits s c = false := by
  simp [boardWaits, Nat.not_le.mpr h]

theorem witness_FormatsAndEngineQueues :
    let s := vals tensors [(0, 15), (1, 11 + 64 * 2 ^ 32), (3, 0x4040), (4, 0x4001)]
    let c (q : Nat) := newCmd s (if q = 0 then .copy 0 else if q = 2 then .host 0 else if q = 1 then .coll 0 else .xform 0 0 0) [] [] none
    let full (q : Nat) := s.modCore 0 (fun x => { x with cmds := List.replicate 16 (c q) })
    ((15 : BitVec 6).toNat < 16 ∧ usable s [0] [] [(0, intK)] = true ∧ s.quiet = true ∧ fmtGood true (valW s 0).toNat = false ∧
      usable s [1] [] [(1, intK)] = true ∧ fmtGood true (valW s 1).toNat = true ∧ boardCount s 0 < 32) ∧ usable s [] [63] [(63, intK)] = true ∧
    (usable s [] [5] [(5, intK), (0, anyK)] = true ∧ startsRow s 0 0 0 = some 0 ∧ 0 + 4 ≤ 32 ∧
      (∀ i, i < 4 → rowAbsent s 0 0 (0 + i) = false ∧ rowPoisoned s 0 0 .priv (0 + i) = false) ∧ setfWaits s 0 0 = false ∧
      (∀ q, q < 3 → putsHeld s 0 0 (queueScope q) = false ∧ queueFull (release s 0 (queueScope q)) 0 0x10000 q = false ∧
        queueFull (release (full q) 0 (queueScope q)) 0 0x10000 q = true ∧ fitsIn (release s 0 (queueScope q)) 5 0 = true) ∧
      boardCount s s.cur.1 < 32 ∧ s.single = true) ∧
    ((4 : BitVec 6).toNat < 5 ∧ unary s 5 4 = true ∧ (valW s 4).toNat % 64 ≠ 0 ∧ unary s 5 3 = true ∧ (valW s 3).toNat % 64 = 0 ∧
      wideGet s.me.ox 0 64 = 0 ∧ walkHeld s 0 0 = false ∧ okE (objectPa s 0 0 .load 0) (fun x => let u := release x.1 0 3
        !putsHeld x.1 0 0 3 && !queueFull u 0 u.me.img 3 && fitsIn u 5 0 && decide (boardCount u u.cur.1 < 32) && u.single) = true ∧
      okE (objectPa (full 3) 0 0 .load 0) (fun x => !putsHeld x.1 0 0 3 && queueFull (release x.1 0 3) 0 0x10000 3) = true) := by decide +kernel

/-- The pair of core 0 with its licence in a state. -/
def pairWith (l : LicState) (h : Option LicReq) (f : List LicReq) (s : State) : State := { s with pairs := [(0, { lic := l, holder := h, fifo := f })] }
def mine : LicReq := ⟨0, 0, 0x10000, 5⟩
def other : LicReq := ⟨1, 2, 0x20000, 6⟩

theorem witness_LicenceInstructions :
    let d (s : State) := usable s [] [63] [(63, intK)] && s.quiet
    let held := pairWith .held (some mine) [] user
    let busy := pairWith .held (some other) [] user
    let waits := pairWith .held (some other) [mine] user
    d user = true ∧ (d held = true ∧ holdsLic held 0 (slotReq held 0 0) = true ∧ held.me.wait ≠ .licw ∧ fitsIn held 63 0 = true ∧ fitsIn (licGiveUp held 0 mine) 63 0 = true) ∧
    (held.modMe (fun x => { x with wait := .licw })).me.wait = .licw ∧
    (holdsLic user 0 mine = false ∧ licFull (holds 64 lockEntry user) = true ∧ d (holds 64 lockEntry user) = true) ∧
    (licFull user = false ∧ (user.pair 0).lic = .free ∧ waitsLic user 0 mine = false ∧ fitsIn user 63 1 = true ∧ fitsIn (licGrant user 0 mine) 63 1 = true) ∧
    (let u := user.modMe (fun x => { x with map := [nm 1 .signed .trap] })
     usable u [] [0] [(0, intK)] = true ∧ u.quiet = true ∧ holdsLic u 0 mine = false ∧ waitsLic u 0 mine = false ∧ licFull u = false ∧ fitsIn u 0 1 = false) ∧
    (d busy = true ∧ holdsLic busy 0 mine = false ∧ waitsLic busy 0 mine = false ∧ (busy.pair 0).lic ≠ .free) ∧
    (d waits = true ∧ waitsLic waits 0 mine = true ∧ holdsLic waits 0 mine = false ∧ fitsIn (licForget waits 0 mine) 63 1 = true) := by decide +kernel

theorem witness_MatrixInstructions :
    let s := vals tensors [(0, 0x1008), (1, 0x1FFE40), (3, 0x1FFE60), (4, 0x30), (5, 0x1FFE00 + 0x1FFEA0 * 2 ^ 32), (6, 0x1000), (7, 1)]
    let v := vals s [(0, 0x1FFE00)]
    let mma (s : State) := usable s [63, 0, 0] [] [(63, intK), (0, intK), (0, intK)] && s.quiet && !cwBad (valW s 63) && !(valW s 63).getLsbD 19
    let ops := vals s [(0, 0x18)]
    let held := pairWith .held (some mine) [] ops
    (mma s = true ∧ holdsLic s 0 (slotReq s 0 0) = false ∧ fld s.me.licst 2 1 = 0) ∧
    (let o := s.modMe (fun x => { x with licst := 4 }); mma o = true ∧ holdsLic o 0 (slotReq o 0 0) = false ∧ fld o.me.licst 2 1 = 1) ∧
    (mma held = true ∧ holdsLic held 0 (slotReq held 0 0) = true ∧ opBad held 0 0x18 16 = false ∧ opBad held 0 0 16 = true ∧ (valW held 63).toNat = 0 ∧
      chunkHeld held = false ∧ okE (chunkWait held) (fun x => x == (held, none)) = true ∧ matrixRoom held = true) ∧
    (usable s [4, 1, 3] [] [(4, intK), (1, intK), (3, intK)] = true ∧ cwBad (valW s 4) = false ∧ (valW s 4).getLsbD 19 = false ∧
      fld (valW s 4) 4 4 + 1 = 4 ∧ fld (valW s 4) 2 1 = 0 ∧ fld (valW s 4) 8 4 = 0 ∧ recordsGood s [0x1FFE40, 0x1FFE60] = true ∧
      (formatAt s 0x1FFE40).code = 12 ∧ destGood s 0x1FFE40 = true ∧ (shapeAt s 0x1FFE40).dims = [4, 64, 1, 1] ∧
      (formatAt s 0x1FFE60).code = 11 ∧ destGood s 0x1FFE60 = true ∧ (shapeAt s 0x1FFE60).dims = [4, 64, 1, 1] ∧ matrixRoom s = true) ∧
    (s.running = true ∧ s.quiet = true ∧ matrixCount s 0 < 8) ∧
    (usable s [63, 5] [] [(63, intK), (5, intK)] = true ∧ recordsGood s [0x1FFE00, 0x1FFEA0] = true ∧
      (∀ o ∈ [0x1FFE00, 0x1FFEA0], destGood s o = true ∧ (formatAt s o).raw = false ∧ (shapeAt s o).dims = [64, 64, 1, 1]) ∧
      (formatAt s 0x1FFE00).orient = 0 ∧ (formatAt s 0x1FFEA0).orient = 1 ∧ usable v [63, 0] [] [(63, intK), (0, intK)] = true ∧
      recordsGood v [0x1FFE00] = true) ∧
    (usable s [6, 7] [] [(6, intK), (7, intK)] = true ∧ (valW s 6).toNat % 4096 = 0 ∧ usable s [1, 7] [] [(1, intK), (7, intK)] = true ∧
      (valW s 1).toNat % 4096 ≠ 0 ∧ fld (valW s 7) 11 53 = 0 ∧ (∀ i < 16, walkHeld s 0 (0x1000 + 0x1000 * i) = false) ∧ okE (pieces s 0 true true 0x1000 (fld (valW s 7) 0 4) 16 0) (fun x => decide (matrixCount x.1 x.1.cur.1 < 8)) = true ∧
      okE (pieces s 0 true false 0x1000 (fld (valW s 7) 0 4) 16 0) (fun x => decide (matrixCount x.1 x.1.cur.1 < 8)) = true) ∧
    (usable s [] [63] [(63, intK)] = true ∧ fitsIn s 63 (s.me.matSeq.toNat : Int) = true) ∧
    (let p := held.modMe (fun x => { x with preTerm := true })
     ((p.me.preTimer || p.me.preTerm) && holdsLic p 0 (slotReq p 0 0)) = true ∧ matrixBusy p 0 0 = false) := by decide +kernel

theorem witness_MatrixInstructions_barrier_and_slot :
    let s := vals tensors [(0, 0x1008), (5, 0x1FFE00 + 0x1FFEA0 * 2 ^ 32), (22, 2 ^ 19)]
    let f := holds 64 lockEntry s
    (usable s [22, 5, 2] [] [(22, intK), (5, intK), (2, intK)] = true ∧ usable s [22, 5, 0] [] [(22, intK), (5, intK), (0, intK)] = true ∧
      s.quiet = true ∧ cwBad (valW s 22) = false ∧ (valW s 22).getLsbD 19 = true ∧ fld (valW s 22) 2 1 = 0 ∧ fld (valW s 22) 4 8 = 0 ∧
      [0x1FFE00, 0x1FFEA0].any (fun o => o % 32 ≠ 0) = false ∧ (valW s 0).toNat % 32 ≠ 0 ∧ (valW s 2).toNat % 32 = 0 ∧
      recordsGood s [0x1FFE00, 0x1FFEA0] = true ∧ (formatAt s 0x1FFE00).orient = 0 ∧ (formatAt s 0x1FFEA0).orient = 1 ∧
      ∀ o ∈ [0x1FFE00, 0x1FFEA0], destGood s o = true ∧ (formatAt s o).raw = false ∧ (shapeAt s o).dims = [64, 64, 1, 1]) ∧
    (licFull f = true ∧ f.quiet = true ∧ licFull s = false ∧ walkHeld s 0 0x4020 = false ∧
      okE (objectPa s 0 0 .store 0x4020) (fun x => matrixRoom x.1) = true) ∧
    (let t := sys.modSlot 0 2 (fun _ => { runs with phase := .held })
     usable t [63] [] [(63, intK)] = true ∧ t.quiet = true ∧ t.cur.2 = 7 ∧ fld (valW t 63) 11 53 = 0 ∧ holdsThread t 0 2 = true ∧
       holdsThread t 0 3 = false ∧ matrixCount t 0 < 8) ∧ s.cur.2 ≠ 7 := by decide +kernel

/-- The system slot runs beside a thread in slot 0. -/
def desk (p : Phase) : State :=
  ((sys.modSlot 0 0 (fun _ => { runs with phase := p })).modCore 0 (fun c => { c with imgBase := 0xEC00 })).modThread 0x10000
    (fun _ => { handle := 5, state := 2, inSlot := true, started := true })

theorem witness_SystemNeedsPrivilege : user.running = true ∧ user.userSlot = true := by decide +kernel

theorem witness_SretAndPrivilegedRegisters :
    let s := desk .held
    ((1 : BitVec 6).toNat < 3 ∧ s.cur.2 = 7 ∧ usable s [0] [] [(0, intK)] = true ∧ s.quiet = true ∧ (valI s 0 % 8).toNat < 7 ∧
      (s.slot 0 (valI s 0 % 8).toNat).phase = .held ∧ writesFrozen s 0 (valI s 0 % 8).toNat = false) ∧
    (let z := s.modSlot 0 0 (fun x => { x with repack := some ⟨.priv, 3, 32, 7, 5, 0⟩, defer0 := some ⟨3, 0, 7⟩ })
     writesFrozen z 0 (valI z 0 % 8).toNat = true ∧ (z.slot 0 (valI z 0 % 8).toNat).phase = .held ∧ usable z [0] [] [(0, intK)] = true ∧ z.quiet = true) ∧
    (sys.cur.2 = 7 ∧ usable sys [0] [] [(0, intK)] = true ∧ sys.quiet = true ∧ ∀ k < 7, (sys.slot 0 k).phase = .free) ∧ (s.slot 0 (valI (vals s [(1, 2)]) 1 % 8).toNat).phase ≠ .held ∧
    (usable s [] [2] [(2, intK)] = true ∧ usable s [0] [2] [(2, intK), (0, intK)] = true ∧ usable s [2, 0] [] [(2, intK), (0, intK)] = true) := by
  decide +kernel

/-- The run list of core 0 and its tower's overflow queue are full. -/
def crowded (s : State) : State :=
  let e : RunEntry := ⟨.thread 0x20000, 0, false, 0, 0⟩
  (s.modCore 0 (fun c => { c with runList := List.replicate 256 e })).modTower 0 (fun t => { t with overflow := List.replicate 4096 (0, e) })

theorem witness_SystemServicesAndThreads :
    let s := vals (desk .held) [(0, 0), (1, 5), (2, 9)]
    let dies := s.modThread 0x10000 (fun t => { t with dying := true })
    let parked := s.modThread 0x10000 (fun t => { t with parked := true, state := 5 })
    let write (s : State) := s.modCore 0 (fun c => { c with inbox := [⟨inboxHead 0x20 0 3 5, 7, 0, 0⟩] })
    let lic := pairWith .held (some mine) [] s
    let one (s : State) := usable s [0] [63] [(63, intK), (0, intK)] && s.quiet && decide (s.cur.2 = 7)
    let a := BitVec.ofNat 32 (fld (valW s 1) 0 32)
    (usable s [] [63] [(63, intK)] = true ∧ s.cur.2 = 7 ∧ (2 : BitVec 6).toNat < 3 ∧ usable s [0] [] [(0, intK)] = true ∧ s.quiet = true) ∧
    (fitsIn s 63 (s.nextCkpt.toNat : Int) = true ∧ fitsIn (openInterval s (ctxOf s 0)) 63 (s.nextCkpt.toNat : Int) = true ∧
      fitsIn s 63 (openCkpt s (ctxOf s 0) : Nat) = true ∧ fitsIn (closeInterval s (ctxOf s 0)) 63 (openCkpt s (ctxOf s 0) : Nat) = true) ∧
    (one s = true ∧ killTarget s 0 false (valW s 2) = none ∧ killTarget s 0 false (valW s 0) = some 0x10000 ∧
      killTarget s 0 true (valW s 1) = some 0x10000 ∧ (s.thread 0x10000).dying = false ∧ (dies.thread 0x10000).dying = true ∧
      killTarget dies 0 true (valW s 1) = some 0x10000 ∧ s.me.killing = none ∧ dies.me.killing = none ∧ threadStopped (killThread s 0x10000 true (killWord 0 true 0 false)) 0x10000 = true ∧
      (let busy := s.modSlot 0 0 (fun x => { x with phase := .running, pending := [⟨3, 7, none, 0, 0⟩] })
       one busy = true ∧ killTarget busy 0 true (valW busy 1) = some 0x10000 ∧ (busy.thread 0x10000).dying = false ∧ busy.me.killing = none ∧
         threadStopped (killThread busy 0x10000 true (killWord 0 true 0 false)) 0x10000 = false) ∧
      (let waits (s : State) := s.modMe (fun x => { x with killing := some 0x10000 })
       one (waits s) = true ∧ threadStopped (waits s) 0x10000 = true ∧ fitsIn (waits s) 63 0 = true ∧ fitsIn s 63 0 = true ∧
         threadStopped (waits (s.modThread 0x10000 (fun t => { t with stopping := some true }))) 0x10000 = false) ∧ fitsIn (killThread s 0x10000 true (killWord 0 true 0 false)) 63 0 = true) ∧
    (imageAddr s 0 a = 0x10000 ∧ a ≠ 0 ∧ (parked.thread 0x10000).handle = a ∧ (parked.thread 0x10000).ctx = ctxOf s 0 ∧
      (parked.thread 0x10000).parked = true ∧ (parked.thread 0x10000).state = 5 ∧ (parked.thread 0x10000).dying = false ∧
      runBlocked parked 0 = false ∧ one parked = true ∧ one (crowded parked) = true ∧ runBlocked (crowded parked) 0 = true ∧
      fitsIn (enterThread (parked.modThread 0x10000 (fun t => { t with parked := false })) 0 0x10000) 63 0 = true) ∧
    ((valI s 0 % 8).toNat = 0 ∧ (valI s 2 % 8).toNat = 1 ∧ (s.slot 0 1).phase ≠ .held ∧ (s.slot 0 0).phase = .held ∧ writeWaits s 0 0 = false ∧
      (s.slot 0 0).pending = [] ∧ saveHeld s 0 0 = false ∧ runBlocked s 0 = false ∧
      writeWaits (write s) 0 0 = true ∧ ((write s).slot 0 0).phase = .held ∧
      okE (writeMapRecord s 0 0) (fun t => fitsIn (evictGo t 0 0 true) 63 0) = true) ∧
    (usable s [0, 1] [63] [(63, intK), (0, intK), (1, intK)] = true ∧ holdsLic s 0 (slotReq s 0 0) = false ∧
      holdsLic lic 0 (slotReq lic 0 0) = true ∧ (lic.pair 0).fifo.head? = none ∧
      (let two := pairWith .held (some mine) [other] s
       holdsLic two 0 (slotReq two 0 0) = true ∧ (two.pair 0).fifo.head? = some other ∧ fitsIn (licOwe two 0 (slotReq two 0 0) none) 63 0 = true)) := by
  decide +kernel

theorem witness_InboxInstructions :
    let s := desk .running
    let e : InboxEntry := ⟨inboxHead 0x20 0 3 5, 7, 0, 0⟩
    let t := s.modCore 0 (fun c => { c with inbox := [e] })
    let p : Deferred := { name := 3, req := 0, data := 7 }
    (s.cur.2 = 7 ∧ usable s [] [63] [(63, intK)] = true ∧ s.quiet = true ∧ (s.core 0).inbox = []) ∧
    ((t.core 0).inbox = [e] ∧ usable t [] [63] [(63, intK)] = true ∧ t.quiet = true ∧ fitsIn t 63 (fld e.head 0 8 : Nat) = true ∧
      fitsIn (takeHead t 0 false) 63 (fld e.head 0 8 : Nat) = true ∧ fitsIn (takeHead t 0 true) 63 (fld e.head 0 8 : Nat) = true) ∧
    liveWrite t 0 0 { e with head := inboxHead 0x20 0 3 6 } = false ∧ writeFrozen t 0 0 (fld e.head 11 6) = false ∧
    (liveWrite t 0 (fld e.head 8 3) e = true ∧ (t.slot 0 0).defer0 = none ∧
      fitsIn ((t.modCore 0 (fun c => { c with inbox := [] })).modSlot 0 0 (fun x => { x with defer0 := some p })) 63 0 = true) ∧
    (let f := t.modSlot 0 0 (fun x => { x with defer0 := some p, defer1 := some p })
     liveWrite f 0 0 e = true ∧ (f.slot 0 0).defer0.isSome = true ∧ (f.slot 0 0).defer1.isSome = true ∧ usable f [] [63] [(63, intK)] = true) := by
  decide +kernel

/-- A core 0 whose counter area has a page, beside what else a test puts in. -/
def desked (f : Core → Core) : State := ({ user with ctrl := [(0x40, 0x200000)] }).modCore 0 f
def first (f : State → Bool) (x : State × Option Deal) : Bool := f x.1 && x.2.isNone
def task (s : State) (t : Task) : State := { s with tasks := [(1, t)] }
def entry (w : EntryKind) : RunEntry := ⟨w, 1, false, 0, 1⟩

theorem witness_SubmissionsAndDeals :
    let q (b : Submitter) : Submission := ⟨0x6000, 0x6000, 0, 0, 1, 0, none, b⟩
    let a := { desked id with submissions := [q (.thread 0 0 2 false)] }
    let b := { desked id with submissions := [q (.host 3 9)] }
    let run := task (desked (fun c => { c with runList := [entry (.task 1)] })) { state := .ready, cores := [] }
    let more := { run.modTask 1 (fun t => { t with count := 1 }) with places := [(0, 0, 0)] }
    let deal : Deal := ⟨1, 0, 1, false, false⟩
    let held (s : State) : State := s.modTower 0 (fun t => { t with deals := [deal] })
    let gone (s : State) := s.modTower 0 (fun t => { t with deals := t.deals.filter (fun x => x.task ≠ 1) })
    let given (s : State) := writeStatus (((removeRun s 0 (.task 1)).modCore 0 (fun c => { c with dealAt := c.cycle + 16, dealWait := 0 })).modTask 1 (fun t => { t with state := .dealt, prio := 1, aged := false, started := false })) 1
    (a.submissions.find? (fun x => x.home = 0) = some (q (.thread 0 0 2 false)) ∧ (freePlace a 0).isSome = true) ∧
    (b.submissions.find? (fun x => x.home = 0) = some (q (.host 3 9)) ∧ (freePlace b 0).isSome = true ∧ (b.hostQueue 3).state ≠ .open_ ∧
      ((b.modQueue 3 (fun h => { h with state := .open_ })).hostQueue 3).state = .open_) ∧
    (let d : Decrement := ⟨0x6000, true, 0⟩
     let s := { user with decrements := [d] }
     let goes (b : Bool) := s.decrements.find? (fun d => d.pa = 0x6000 && d.bereaved = b && !decrementHeld s d)
     goes false = none ∧ goes true = some d) ∧
    (runHead ((run.core 0).runList.filter isTask) = some (entry (.task 1)) ∧ recCkpt (run.task 1).snap = false ∧ (run.core 0).dealAt ≤ (run.core 0).cycle ∧
      (((task run { state := .killed, cores := [] }).task 1).state ≠ .ready ∧ (run.task 1).state = .ready) ∧
      first (fun _ => true) (dealGo (given run) deal ((run.task 1).count + 1)) = true ∧
      (dealGo (given more) deal ((more.task 1).count + 1)).2.isSome = true) ∧
    ((heldDeals (held run))[0]? = some (0, deal) ∧ first (fun _ => true) (dealGo (gone (held run)) deal 1) = true ∧
      (heldDeals (held more))[0]? = some (0, deal) ∧ (dealGo (gone (held more)) deal 2).2.isSome = true) ∧
    (let d := task user { state := .dealt, started := false, cores := [9], owes := [⟨[2], [2], false⟩] }
     let late := (d.task 1).owes.filter (deferredTo d 1)
     (d.task 1).started = false ∧ (d.task 1).state = .dealt ∧ late ≠ [] ∧
       late.any (fun p => decide (6 ≤ predToken d 1 p) && p.ran.any (putsOut d)) = false) := by
  decide +kernel

theorem witness_SlotFillsAndRunLists :
    let w := entry (.thread 0x20000)
    let s := (desked (fun c => { c with runList := [w] })).modThread 0x20000 (fun _ => { handle := 6, state := 1 })
    let r := s.modThread 0x20000 (fun t => { t with started := true, lastSlot := 1 })
    let far := r.modThread 0x20000 (fun t => { t with lastCore := 3 })
    (nextThread s 0 = some 0x20000 ∧ freeSlot s 0 = some 1 ∧ mayEnter s 0 0x20000 = true ∧ (s.thread 0x20000).started = false) ∧
    (nextThread r 0 = some 0x20000 ∧ freeSlot r 0 = some 1 ∧ (r.thread 0x20000).started = true ∧ mayEnter r 0 0x20000 = true ∧
      resumesHere r 0 1 0x20000 = true) ∧
    (nextThread far 0 = some 0x20000 ∧ freeSlot far 0 = some 1 ∧ (far.core 0).runList[0]? = some w ∧ w.what = .thread 0x20000 ∧
      mayEnter far 0 0x20000 = true ∧ (far.thread 0x20000).started = true ∧ resumesHere far 0 1 0x20000 = false ∧ savesTiles far 3 0x20000 = false) ∧
    (let old := { (s.modCore 0 (fun c => { c with cycle := 2000 })) with ctrl := [(8, 0x10000)] }
     (old.core 0).runList[0]? = some w ∧ mayAge old 0 w = true) ∧
    (let e : CallEntry := ⟨0x1000, 0, 0, 1, 0, 0, 5, none, 0, none⟩
     let c := s.modCore 0 (fun c => { c with taskQ := [e] })
     let i := { c with mem := memWrite c.mem 0 7 }
     (c.core 0).taskQ = [e] ∧ runOpen c 0 = true ∧ coreOfCtx c 0 e.ctx = some 0 ∧ takeImage c 0 = none ∧ (c.core 0).imagesTold = false ∧
       (i.core 0).taskQ = [e] ∧ runOpen i 0 = true ∧ coreOfCtx i 0 e.ctx = some 0 ∧ (takeImage i 0).isSome = true) ∧
    (let o := s.modTower 0 (fun t => { t with overflow := [(0, w)] })
     (o.tower 0).overflow.find? (fun x => runRoom o x.1) = some (0, w)) := by decide +kernel

theorem witness_SlotEvents :
    let p : Pending := ⟨3, 7, none, 0, 0⟩
    let f : FormerRows := ⟨1, 0x20000, 0, 1, 1, 0⟩
    let r : Repack := ⟨.priv, 3, 32, 7, 5, 0⟩
    let m : Msg := ⟨[7], 0, none, 1, 0, false⟩
    let s := user.modSlot 0 0 (fun x => { x with phase := .blocked, woken := true, demand := some 33, pending := [p], repack := some r })
    let t := (s.modCore 0 (fun c => { c with former := [f], cycle := 5 })).modCore 0
      (fun c => c.setChan 2 { ready := [], travel := [m] })
    ((s.slot 0 0).phase = .blocked ∧ mayWake (s.slot 0 0) = true ∧ slotRemoved s 0 0 = false) ∧ (s.slot 0 0).demand = some 33 ∧
    formerHeld s 0 = false ∧ heldAtJoin s 0 (placeOf s (demandPa s 0 0 33)) = false ∧
    (s.slot 0 0).pending[0]? = some p ∧ p.due = none ∧ (t.core 0).former[0]? = some f ∧ (t.slot 0 0).repack = some r ∧
    r.until_ ≤ (t.core 0).cycle ∧ ((t.core 0).chan 2).travel[0]? = some m ∧
    (∀ x ∈ ((t.core 0).chan 2).travel.take 0, x.fromCore = m.fromCore → x.fromSlot = m.fromSlot → x.flits = []) ∧ m.flits ≠ [] ∧
    coresApart t 0 m.fromCore = false ∧ m.flits.length = 1 ∧ { t with agenda := [.uncorrectable 0 0 1] }.agenda = [.uncorrectable 0 0 1] ∧
    (let g (m : Flaw) (k : Option (Nat × Nat)) : Bool := { t with agenda := [.flaw m k] }.agenda == [.flaw m k]
     g (.corrected 0 1) none = true ∧ g (.row 0 0 31) none = true ∧ (s.slot 0 0).resident.getLsbD 31 = true ∧ g (.pairRow 0 7) none = true ∧
       g (.acc 0 16383) (some (0, 6)) = true) ∧
    (let l : Msg := { m with flits := [7, 8] }
     l.flits ≠ [] ∧ 1 < l.flits.length ∧ l.headed = false ∧ ({ l with headed := true } : Msg).headed = true) ∧
    (let b := t.modThread 0x30000 (fun x => { x with borrow := some second, lastCore := 0 })
     (savedBorrows b 0)[0]? = some 0x30000 ∧ (b.thread 0x30000).borrow = some second) := by decide +kernel

theorem witness_TimersAndSystemEvents :
    let s := user.modSlot 0 0 (fun x => { x with timer := BitVec.ofNat 64 (2 ^ 40 + 2 ^ 41) })
    let u := user.modSlot 0 0 (fun x => { x with timer := BitVec.ofNat 64 (2 ^ 40) })
    let p := user.modSlot 0 0 (fun x => { x with preTimer := true })
    let l := pairWith .held (some mine) [] (p.modCore 0 (fun c => { c with cycle := 1048576 }))
    let e (f : Core → Core) : State := user.modCore 0 (fun c => f { c with cycle := 15 })
    let begins (s : State) : Bool := decide ((s.core 0).cycle % 8 = 7) && !(s.core 0).evActive && !(s.core 0).stopped && siteUp s 0 && (s.slot 0 7).pending.isEmpty
    (fld (s.slot 0 0).timer 40 1 = 1 ∧ fld (s.slot 0 0).timer 0 40 = 0 ∧ (s.slot 0 0).phase ≠ .free ∧ (s.slot 0 0).phase ≠ .held ∧
      fld (s.slot 0 0).timer 41 1 = 1 ∧ fld (u.slot 0 0).timer 40 1 = 1 ∧ fld (u.slot 0 0).timer 0 40 = 0 ∧ fld (u.slot 0 0).timer 41 1 = 0) ∧
    (preAsked (p.slot 0 0) = true ∧ atBoundary p 0 0 = true ∧ slotRemoved p 0 0 = false ∧ holdsLic p (pairOf 0) (slotReq p 0 0) = false) ∧
    (preAsked (l.slot 0 0) = true ∧ atBoundary l 0 0 = true ∧ slotRemoved l 0 0 = false ∧ holdsLic l (pairOf 0) (slotReq l 0 0) = true ∧
      (l.slot 0 0).pptWait = false ∧ (l.slot 0 0).preSince + 1048576 ≤ (l.core 0).cycle ∧ matrixBusy l 0 0 = false) ∧
    begins (e id) = true ∧
    ((e (fun c => { c with resetPend := true })).core 0).resetPend = true ∧ begins (e (fun c => { c with resetPend := true })) = true ∧ okE (resetMap user 0) (fun _ => true) = true ∧
    (let bad := { e (fun c => { c with resetPend := true }) with ctrl := [(0x38, 0x8000)], mem := [(0x8000, 1), (0x8008, 99)] }
     okE (resetMap bad 0) (fun _ => true) = false) ∧
    ((user.core 0).resetPend = false ∧ lowestBit ((e (fun c => { c with trapPend := 6 })).core 0).trapPend = some 1 ∧
      lowestBit (user.core 0).trapPend = none ∧ lowestBit ((e (fun c => { c with timePend := 8 })).core 0).timePend = some 3 ∧
      lowestBit (user.core 0).timePend = none ∧ ((e (fun c => { c with inbox := [⟨0, 0, 0, 0⟩] })).core 0).inbox ≠ []) ∧
    (let x := e (fun c => { c with stopped := true })
     (x.core 0).stopped = true ∧ siteUp x 0 = true ∧ siteUp (e (fun c => { c with offline := true })) 0 = false) := by decide +kernel

theorem witness_ConveyanceAndCopies :
    let s := { user.modThread 0x10000 (fun t => { t with dying := true }) with dying := [0x10000] }
    let h (f : EstEntry) := s.modThread 0x10000 (fun t => { t with estate := [f] })
    let a : DualEffect := ⟨1, 0, 0, 0, 4, 9, 0, 0, 0, 0, none⟩
    let b : DualEffect := { a with copy := 1, core := 1 }
    let d (l : List DualEffect) : State := { user with dual := l }
    let mine (s : State) := s.dual.filter (fun e => e.task = 1 && e.group = 0 && e.stage = 0)
    let meets (s : State) (x y : DualEffect) : Bool :=
      (mine s).find? (fun e => e.copy = 0 && (mine s).any (fun f => f.copy = 1 && sameEffect e f)) == some x &&
      (mine s).find? (fun f => f.copy = 1 && sameEffect x f) == some y
    (s.dying[0]? = some 0x10000 ∧ dyingReady s 0x10000 = true ∧ inboxPending s 1024 0x10000 = false ∧ (s.thread 0x10000).estate = [] ∧
      deliveryDue s 0x10000 = false ∧ heldAtJoin s 0 (placeOf s 0x10000) = false) ∧
    (dyingReady (h lockEntry) 0x10000 = true ∧ ((h lockEntry).thread 0x10000).estate = [lockEntry] ∧ engineBusy (h lockEntry) 0x10000 lockEntry = false ∧
      putsHeld s 0 0 (conveyScope s (s.thread 0x10000) (conveyHeir s (1024, 0x10000) 0x10000 lockEntry)) = false ∧
      (match conveyOne (h lockEntry) (1024, 0x10000) 0x10000 lockEntry with | .stale _ => true | _ => false) = true) ∧
    (let t := { h lockEntry with mem := memWrite (h lockEntry).mem 0x4000 5 }
     (match conveyOne t (1024, 0x10000) 0x10000 lockEntry with | .ok _ => true | _ => false) = true ∧ engineBusy t 0x10000 lockEntry = false) ∧
    (let f := { lockEntry with object := 0x4001 }
     (match conveyOne (h f) (1024, 0x10000) 0x10000 f with | .fault .. => true | _ => false) = true ∧ engineBusy (h f) 0x10000 f = false) ∧
    (let f := { lockEntry with object := 0x40004000 }
     let t := { h f with mem := tables ++ [(0x200008, 0x3D), (0x20000D, 1), (0x20000E, 0x80)] }
     (match conveyOne t (1024, 0x10000) 0x10000 f with | .wait _ => true | _ => false) = true ∧ engineBusy t 0x10000 f = false) ∧
    (meets (d [a, b]) a b = true ∧ a.hash = b.hash ∧ meets (d [a, { b with hash := 8 }]) a { b with hash := 8 } = true ∧
      a.hash ≠ ({ b with hash := 8 } : DualEffect).hash) ∧
    (let t := (d [a]).modCore 0 (fun c => { c with cycle := 1048576 })
     (mine t).find? (fun e => decide (e.since + 1048576 ≤ (t.core e.core).cycle) && !(mine t).any (fun f => f.copy ≠ e.copy && sameEffect e f)) =
       some a) := by
  decide +kernel

def packet (k : BitVec 8) : Packet :=
  { kind := k, flags := 0, src := 1, dst := 0, sdev := 2, ddev := 0, seq := 0, stamp := 0, coll := 0, payload := List.replicate 17 0 }
/-- A command of the thread in slot 0, and a state in which it is the core's only one. -/
def cmdOf (o : CmdOp) : Cmd := newCmd user o [] [] none
def queued (c : Cmd) (s : State := user) : State := s.modCore 0 (fun x => { x with cmds := [c] })
/-- A number built of 64-bit words, the first lowest. -/
def words (l : List Nat) : BitVec 512 := BitVec.ofNat 512 (l.foldr (fun w a => w + 2 ^ 64 * a) 0)

theorem witness_FabricAndWindows :
    let s := user
    let p := packet 1
    let late := { p with seq := 5 }
    let w := Config.windowBase
    let coll := { packet 6 with payload := [], coll := BitVec.ofNat 120 (9 * 2 ^ 56) }
    let abort := { coll with coll := BitVec.ofNat 120 (2 ^ 7 + 9 * 2 ^ 56) }
    let c := cmdOf (.coll (words [0, 0, 0, 0, 0, 9]))
    (portsOpen s = true ∧ p.ddev.toNat = s.devId ∧ headerBad p = false ∧ seenBefore s p = false ∧ s.reorder = [] ∧
      headerBad { p with kind := 9 } = true ∧ inTurn s p = true ∧ deliverable { s with reorder := [p] } p = true ∧ inTurn s late = false ∧
      seenBefore s late = false ∧ ∀ k ∈ [2, 3, 4, 5], headerBad (packet k) = false ∧ deliverable { s with reorder := [packet k] } (packet k) = true) ∧
    (headerBad coll = false ∧ hdrAbort coll = false ∧ collSite (queued c) 0 coll = 0 ∧ ((queued c).core 0).cmds.find? (collTakes (queued c) coll) = some c ∧
      ((s.core (collSite s 0 coll)).cmds.find? (collTakes s coll) = none) ∧ headerBad abort = false ∧ hdrAbort abort = true ∧
      ((queued c).core 0).cmds.find? (collTakes (queued c) abort) = some c) ∧
    (placeOf s (w + 0x300000) = .window 0 0x300000 ∧ placeOf s (w + 0x302FF8) = .window 0 0x302FF8 ∧ placeOf s (w + 0x381178) = .window 0 0x381178 ∧
      placeOf s (w + 0x20FFF8) = .window 0 0x20FFF8) ∧
    (okA (windowWrite s { core := 0, slot := none } 0 0x300000 8 5 0 (w + 0x300000) 0) (fun _ _ _ _ => true) = true ∧
      okA (windowRead s { core := 0, slot := none } 0 0x302FF8 8 (w + 0x302FF8) 0) (fun _ _ _ _ => true) = true ∧
      okA (windowWrite s { core := 0, slot := some 7 } 0 0x381178 8 5 0 (w + 0x381178) 0) (fun _ _ _ _ => true) = true ∧
      okA (windowRead s { core := 0, slot := some 7 } 0 0x381178 8 (w + 0x381178) 0) (fun _ _ _ _ => true) = true ∧
      okA (windowWrite s { core := 0, slot := none } 0 0x20FFF8 8 5 0 (w + 0x20FFF8) 0) (fun _ _ _ _ => true) = true ∧
      okA (windowRead s { core := 0, slot := none } 0 0x20FFF8 8 (w + 0x20FFF8) 0) (fun _ _ _ _ => true) = true) ∧
    (let t := s.modCore 0 (fun c => { c with inboxWait := [(⟨0, 0, 0, 0⟩, some (0, 3))] })
     (t.core 0).inboxWait = [(⟨0, 0, 0, 0⟩, some (0, 3))] ∧ (t.core 0).inbox.length < 32) := by decide +kernel

theorem witness_StreamAndMatrixEvents :
    let sh : Shape := ⟨0, 0, [1, 1, 1, 1], [1, 1, 1, 1], false⟩
    let go (c : Cmd) : Cmd := { c with started := true }
    let may (c : Cmd) : Bool := ((queued c).core 0).cmds[0]? == some c && mayStart (queued c) 0 c
    let fills := cmdOf (.fills sh .unsigned 0)
    let mma := cmdOf (.mma false 0 false 0 0 0)
    let later (c : Cmd) (n : Nat) : State := (queued c).modCore 0 (fun x => { x with cycle := n })
    let chunked := { fills with chunk := some (0x4000, 0) }
    (may (cmdOf (.setf 0 0)) = true ∧ isSetf (CmdOp.setf 0 0) = true) ∧ (isStream fills.op = true ∧ may fills = true ∧ working (go fills) = true) ∧
    (let s := { queued chunked with mem := memWrite user.mem 0x4010 1 }
     (s.core 0).cmds[0]? = some chunked ∧ chunked.released = false ∧ placeOf s 0x4000 = .home 0x4000 ∧
       (physRead s (0x4000 + 16) 8).1.testBit 0 = true) ∧
    may (cmdOf (.aclr 5)) = true ∧
    (isMatrix mma.op = true ∧ mayStart (later mma 1) 0 mma = true ∧ arrayOpen (later mma 1) 0 mma = true ∧ sharedReads mma = []) ∧
    (let m := { mma with mcast := true }
     mayStart (later m 4096) 0 m = true ∧ arrayOpen (later m 4096) 0 m = true ∧ m.startAt + 4096 ≤ ((later m 4096).core 0).cycle) ∧
    ((go mma).started = true ∧ (go mma).doneAt ≤ ((queued (go mma)).core 0).cycle ∧ (go (cmdOf (.topk 0 1 sh sh))).started = true ∧
      (go (cmdOf (.drain 0 [sh]))).started = true ∧ (go (cmdOf (.asave 1 [0]))).started = true ∧ (go (cmdOf (.arst 1 [0]))).started = true ∧
      (go (cmdOf (.restore 1 [0]))).started = true) ∧
    markerReady (queued (cmdOf .marker)) 0 (cmdOf .marker) = true := by decide +kernel

theorem witness_EngineEvents :
    let go (c : Cmd) : Cmd := { c with started := true }
    let b := words [1 + 2 ^ 32, 0x4000, 0x5000, 8]
    let copy : Cmd := { go (cmdOf (.copy b)) with plans := [(0, copyUnits b)] }
    let g := words [1 + 2 ^ 24, 0x4000, 0x5000, 1, 0x6000, 9]
    let coll := cmdOf (.coll g)
    let sent : Cmd := { coll with sent := true }
    let home : State := { user with mem := memWriteLE (memWriteLE (memWriteLE user.mem 16 8 0x7000) 24 8 1) 0x7000 8 1 }
    let v : View := ⟨1, 0, 1, 0, 1⟩
    let late : Cmd := { go sent with inswitch := true }
    let all (x : Nat × Nat × Nat) : Bool := decide (x.1 < 2 ^ 64)
    let others (t : State) (c : Cmd) : State :=
      t.modCore 0 (fun x => { x with cmds := x.cmds ++ [{ c with seq := 99, own := [0x5000] }] })
    let ms := groupMembers home 0 (collGroup g)
    let h := words [1 + 3 * 2 ^ 32]
    let host := cmdOf (.host h)
    let l (d : Nat) := words [0x4000, d, 0, 9, 9, 1 + 16 * 2 ^ 32, 32 + 32 * 2 ^ 32]
    let xf (d : Nat) := newCmd sys (.xform 0 0x4000 (l d)) [] [] none
    let lands (o : List Nat) (d : Nat) (P : Nat → Bool → Bool) : Bool :=
      let s := (queued (go (xf d)) sys).modCore 0 (fun x => { x with cmds := x.cmds ++ [{ go (xf d) with seq := 99, own := o }] })
      match xformWork s 0 (go (xf d)) 0 (l d)
        (fun key j => !(decided (go (xf d)) 0).contains (xfGroup 0 (l d) key j)) with
      | .ok (w, bs) =>
        let todo := xformTodo (go (xf d)) (xfLay 0 (l d)) bs
        let r := landVa 0 (go (xf d)) (todo.length + 1) todo w
        P r.2.1.length r.2.2.isSome
      | .error _ => false
    (mayStart (queued (cmdOf (.copy b))) 0 (cmdOf (.copy b)) = true ∧ engineDown user 0 = false ∧ copyBad b = false ∧ copyBad 0 = true ∧
      working copy = true ∧ (let r := copyFound 0 copy b (pendingOf copy 0) (pendingOf copy 1) (queued copy)
        r.2 = true ∧ (copyRest 0 copy b (pendingOf copy 0) r.1).2 = true)) ∧
    (collBad home 0 g = false ∧ collView home 0 g = some v ∧ mayStart (queued coll home) 0 coll = true ∧ mayStart (queued sent home) 0 sent = true ∧ bankDest (queued coll home) 0 coll g = none ∧
      useSwitch home 0 g = false ∧ (collLines (queued coll home) 0 coll g v.m coll.landed).any (othersOwn (queued coll home) 0 coll) = false ∧ okA (sendToMembers (queued coll home) 0 coll g v all ms 0) (fun _ _ _ _ => true) = true ∧
      working late = true ∧ okA (sendToMembers (queued late home) 0 late g v all ms 0) (fun t _ _ _ =>
        match (t.core 0).cmds with
        | c :: _ => working c && !allLanded c g && decide (0 < collChunks g) && !c.landed.getLsbD 0 && (bankDest t 0 c g).isNone &&
            (match chunkResult t c g v 0 with | some r => (landMemory t 0 c g v.m 0 r).2 && !(landMemory (others t c) 0 c g v.m 0 r).2 | none => false)
        | [] => false) = true) ∧
    (host.faulted = none ∧ hostBad h = false ∧ queueCtx user (wideGet h 32 32) = host.ctx ∧
      ((user.modQueue 3 (fun q => { q with state := .open_ })).hostQueue 3).state ≠ .closed ∧ hostFirst (queued host) 0 host h = true) ∧
    (mayStart (queued (xf 0x5000) sys) 0 (xf 0x5000) = true ∧ engineDown (queued (xf 0x5000) sys) 0 = false ∧
      okA (engBytes (queued (xf 0x5000) sys) 0 (xf 0x5000) 0x4000 64) (fun _ _ _ _ => true) = true ∧ xfBad 1 0 = true ∧
      xfBad 0 (l 0x5000) = false ∧ xfBad 0 (l (2 ^ 55)) = false ∧ working (go (xf 0x5000)) = true ∧
      lands [] 0x5000 (fun n bad => n == 0 && !bad) = true ∧ lands [] (2 ^ 55) (fun n bad => n != 0 && bad) = true ∧
      lands [0x5000] 0x5000 (fun n bad => n != 0 && !bad) = true) := by
  decide +kernel

theorem witness_EngineEvents_timeout :
    let g := words [1 + 2 ^ 24, 0x4000, 0x5000, 1, 0x6000, 9]
    let late : Cmd := { cmdOf (.coll g) with started := true, sent := true, inswitch := true }
    let s := queued late { user with mem := memWriteLE (memWriteLE (memWriteLE user.mem 16 8 0x7000) 24 8 1) 0x7000 8 1 }
    let v : View := ⟨1, 0, 1, 0, 1⟩
    let sent := ((switchPieces g v).take (late.fell.getD (switchPieces g v).length)).drop 0
    (mayFall s late g v)[Config.freeNat s.tick % (mayFall s late g v).length]? = some 0 ∧ working late = true ∧ late.inswitch = true ∧
      okA (sendToMembers s.ticked 0 late g v (fun x => sent.any (fun y => y.2.2.1 = x.2.1)) (groupMembers s late.ctx (collGroup g)) 0)
        (fun _ _ _ _ => true) = true := by
  refine ⟨?_, by decide +kernel⟩
  rw [show mayFall _ _ _ _ = [0] by decide +kernel]
  simp [Nat.mod_one]

theorem witness_ParkingAndLicences :
    let b := { cmdOf (.copy 0) with faulted := some (.illegal, 0) }
    let h := { cmdOf (.host 0) with faulted := some (.protect, 0) }
    let p := { b with park := some 3 }
    let held (n : Nat) (t : Nat) (s : State := user) : State := { s with pairs := [(0, { lic := .held, holder := some mine, fifo := [other], termN := n, granted := t })] }
    let drain (f : List LicReq) (g : Option LicReq) : State := { user with pairs := [(0, { lic := .draining, drains := some mine, fifo := f, grantee := g })] }
    (((queued b).core 0).cmds[0]? = some b ∧ b.park = none ∧ (List.range 16).find? (fun p => !(parkedMask (queued b) 0).testBit p) = some 0 ∧
      ((queued h).core 0).cmds[0]? = some h ∧ h.park = none) ∧ parkedCmd (queued p) 0 3 = some p ∧
    (((held 256 0).pair 0).lic = .held ∧ ((held 256 0).pair 0).holder = some mine ∧ ((held 256 0).pair 0).fifo ≠ [] ∧ 256 ≤ ((held 256 0).pair 0).termN) ∧
    (let s := held 0 0 (user.modCore 0 (fun c => { c with cycle := 1048576 }))
     (s.pair 0).granted + 1048576 ≤ (s.core mine.core).cycle) ∧
    (((drain [] none).pair 0).lic = .draining ∧ drainsLeft (drain [] none) 0 = false ∧ ((drain [] none).pair 0).fifo = [] ∧
      ((drain [other] none).pair 0).fifo = [other] ∧ ((drain [other] none).pair 0).grantee = none ∧
      ((drain [other] (some other)).pair 0).grantee = some other ∧
      ((drain [other] (some other)).pair 0).fifo.find? (sameReq other) = some other) := by decide +kernel

theorem witness_HostCommandsAndQueues :
    let s := (ready user).modQueue 3 (fun h => { h with state := .open_ })
    let c (op mode tag addr : Nat) : BitVec 512 := words [op + mode * 256 + tag * 2 ^ 32, addr]
    let bad : State := { s with mem := memWrite s.mem 0x6010 7 }
    let queue : State := { s with submissions := [⟨0x6000, 0x6000, 0, 0, 1, 0, none, .host 3 9⟩] }
    let q := ready user
    let e : State := { q with mem := memWrite q.mem 0 1 }
    let t (b r : Bool) : State := { user.modQueue 3 (fun h => { h with state := .tearing, byCommand := b, reopen := r }) with
      tasks := [(1, { state := .killed, queue := some 3, byHost := true })] }
    let closed (b r : Bool) : Bool :=
      let x := (taskReplies (refuseWaiting (t b r) 3) 3).hostQueue 3
      ((t b r).hostQueue 3).state == .tearing && (t b r).tasks.all (fun y => taskFinal y.2) && ((t b r).hostQueue 3).byCommand == b && x.reopen == r
    (portsOpen s = true ∧ submitWaits s 3 = false ∧ putWaits s = false ∧ submitWaits queue 3 = true ∧ putWaits { s with reorder := [packet 2] } = true) ∧
    (∀ op ∈ [1, 2, 3, 4], hcOp (c op 9 1 0) = op ∧ hcBad (c op 9 1 0) = true) ∧ ((ready user).hostQueue 3).state ≠ .open_ ∧
    ((s.hostQueue 3).state = .open_ ∧ hcBad (c 1 0 1 0x6000) = false ∧ hcOp (c 1 0 1 0x6000) = 1 ∧ hcRecord s 3 (c 1 0 1 0x6000) = some 0x6000 ∧
      recordRefused s 0x6000 0x6000 (queueCtx s 3) (some 3) = false ∧ homeCore s 0x6000 = some 0 ∧
      s.submissions.any (fun x => x.home = 0) = false ∧ (freePlace s 0).isSome = true) ∧
    (hcRecord bad 3 (c 1 0 1 0x6000) = some 0x6000 ∧ recordRefused bad 0x6000 0x6000 (queueCtx bad 3) (some 3) = true) ∧
    (hcBad (c 2 0 1 0x6000) = false ∧ hcRecord s 3 (c 2 0 1 0x6000) = some 0x6000 ∧ (hcAddr (c 2 0 1 0x6000)).toNat % 128 = 0) ∧
    (hcBad (c 3 1 9 0) = false ∧ hcOp (c 3 1 9 0) = 3 ∧ hcBad (c 4 0 9 0) = false ∧ hcOp (c 4 0 9 0) = 4) ∧
    (fld (BitVec.ofNat 64 (2 ^ 18)) 18 2 = 1 ∧ (e.hostQueue 3).state = .closed ∧
      endpointGood (setCtrl e (0x400000 + 8 * 3)
        (takeFld (takeFld (takeFld (queueWord e 3) (BitVec.ofNat 64 (2 ^ 18)) 18 2) (BitVec.ofNat 64 (2 ^ 18)) 0 16) (BitVec.ofNat 64 (2 ^ 18)) 32 12)) 3 = true ∧
      fld (BitVec.ofNat 64 (2 ^ 19)) 18 2 = 2 ∧ fld (BitVec.ofNat 64 (2 ^ 18 + 2 ^ 19)) 18 2 = 3) ∧
    (closed true false = true ∧ closed true true = true) := by decide +kernel

theorem witness_ControllerEvents :
    let up : State := { user with fwUp := true, keysUp := true, time := 0xFFFFFFFFFFFFFFFF }
    fld (BitVec.ofNat 64 (2 ^ 32)) 32 1 = 1 ∧
    (up.fwUp = true ∧ up.fwKick + 1000 * fld (up.ctrlWord 0x4081C0 (ctrlReset .fwdog)) 0 32 ≤ up.time.toNat) ∧ up.keysUp = true ∧
    bitsAt (endpointWord { user with mem := memWrite user.mem 0 1 } 0).toNat 0 1 = 1 ∧ (5 : Nat) < 6 := by decide +kernel

theorem witness_Shootdowns :
    let busy : State := { user with tlbBusy := true }
    let far := { busy with farWrites := [⟨0, 0, 0, none, 1, 0, 8, false⟩] }
    (∀ e ∈ [0, 1, 2], fld (BitVec.ofNat 64 e) 0 2 = e) ∧ user.tlbBusy = false ∧ busy.tlbBusy = true ∧ shootWaits busy = false ∧
    (far.tlbBusy = true ∧ shootWaits far = true) := by decide +kernel

theorem witness_PlatformWrites :
    let e : LogEntry := ⟨0, 0x4000, 7, 0, 5⟩
    (user.core 0).places = [] ∧
    fld (BitVec.ofNat 64 (2 ^ 29 + 2 ^ 20)) 12 9 * 4096 + fld (BitVec.ofNat 64 (2 ^ 29 + 2 ^ 20)) 21 9 * 4096 ≤ 0x200000 ∧
    0x200000 < fld (BitVec.ofNat 64 (2 ^ 29 + 2 ^ 20 + 2 ^ 12)) 12 9 * 4096 + fld (BitVec.ofNat 64 (2 ^ 29 + 2 ^ 20 + 2 ^ 12)) 21 9 * 4096 ∧
    (fld (BitVec.ofNat 64 (2 ^ 48)) 48 1 = 1 ∧ user.rbBusy = false ∧ ctxInSlot user (BitVec.ofNat 16 (fld (BitVec.ofNat 64 (2 ^ 48)) 32 16)) = true ∧
      user.logOvf = [] ∧ ctxInSlot user (BitVec.ofNat 16 (fld (BitVec.ofNat 64 (2 ^ 48 + 2 ^ 32)) 32 16)) = false) ∧
    { user with rbBusy := true }.rbBusy = true ∧
    (({ user with logs := [(3, [e])] }).logs.get 3 [] = [e] ∧ e.id ≠ 0 ∧ e.addr < Config.windowBase) ∧
    (ctrlRefused user 0x408008 8 = false ∧ ctrlRefused user (0x1000 * 1023) 8 = false ∧ ctrlRefused user 0x4086C8 8 = false) := by
  decide +kernel

/-- R384: the PLACE words of sites 0 and 1 name partition 2; site 0 is logical core 0 there, site 1 logical core 1. -/
def placed : State := { user with ctrl := [(0x30, 0x4800), (0x1030, 0x4801)] }

theorem witness_LinksAndPartitions :
    let v := BitVec.ofNat 64 4
    let w := BitVec.ofNat 64 (0xFFFF - 4)
    let bad : State := { placed with ctrl := [(0x30, 0x4801)] }
    let open_ : State := { placed with partOpen := 4 }
    let busy : State := { open_ with ctrl := [(0x408688, 0x300000)], mem := memWrite (memWrite user.mem 0x300000 2) 0x300001 1 }
    (31 : Nat) < 32 ∧ (fld v 0 16 = 2 ^ 2 ∧ placed.partOpen.getLsbD 2 = false ∧ partGood placed 2 = true ∧ partGood bad 2 = false) ∧
    (fld w 0 16 = 0xFFFF - 2 ^ 2 ∧ open_.partOpen.getLsbD 2 = true ∧ partIdle open_ 2 = true ∧ busy.partOpen.getLsbD 2 = true ∧
      partIdle busy 2 = false) := by decide +kernel

theorem witness_PoolsAndLines :
    let a := Config.poolBase + 0 * 0x4000000000 + 128 * 3
    let l (d : BitVec 8) : Line := ⟨a, 5, 0xFF, d, 0, 0, false, false, none⟩
    let s (d : BitVec 8) : State := { user with llc := [l d] }
    let has : State := { s 1 with mem := memWrite (s 1).mem 0x32 4 }
    let r : Shadow := ⟨a, 0, [(3, 5, 1)], true⟩
    let page := fld (BitVec.ofNat 64 (Config.poolBase / 65536 * 65536)) 16 40 * 65536
    let hot := user.modTower 0 (fun t => { t with hot := [(a, 0)] })
    let u : Line := ⟨0x4000, 5, 0xFF, 0xFF, 0, 0, false, true, none⟩
    (findLine (s 0).llc a = some (l 0) ∧ (l 0).dirty = 0 ∧ findLine has.llc a = some (l 1) ∧ (l 1).dirty ≠ 0 ∧
      (poolStore has a (l 1).data.toNat (l 1).poison.toNat ((has.tower 0).hot.any (fun h => h.1 = a)) (l 1).ctx).isSome = true ∧
      poolTurn has a = true ∧
      (let first := has.modTower 0 (fun t => { t with reserve := [a] })
       poolTurn first a = true ∧ findLine first.llc a = some (l 1) ∧
         (poolStore first a (l 1).data.toNat (l 1).poison.toNat ((first.tower 0).hot.any (fun h => h.1 = a)) (l 1).ctx).isSome = true) ∧
      poolStore (s 1) a (l 1).data.toNat (l 1).poison.toNat (((s 1).tower 0).hot.any (fun h => h.1 = a)) (l 1).ctx = none ∧
      poolTurn (s 1) a = true ∧ ((s 1).tower 0).reserve.contains a = false ∧ reserveTaken (s 1) a = false ∧
      (let full := (s 1).modTower 0 (fun t => { t with reserve := [a + 2 ^ 28] })
       findLine full.llc a = some (l 1) ∧ poolTurn full a = true ∧ (full.tower 0).reserve.contains a = false ∧ reserveTaken full a = true ∧
         (full.tower 0).pinned.contains a = false ∧
         poolStore full a (l 1).data.toNat (l 1).poison.toNat ((full.tower 0).hot.any (fun h => h.1 = a)) (l 1).ctx = none)) ∧
    ((user.modTower 0 (fun t => { t with shadows := [r] })).tower 0).shadows = [r] ∧
    (inPool page = true ∧ (inPool page && pageHeld user page) = false ∧
      (inPool page && pageHeld (user.modCore 1 (fun c => { c with l1 := [{ u with addr := page }] })) page) = true) ∧ poolLineNo r.line % 64 = 3 ∧
    (let t := hot.modCore (8 * poolCluster a) (fun c => { c with cycle := 65536 })
     (t.tower 0).hot.find? (fun h => h.1 = a) = some (a, 0) ∧ 0 + 65536 ≤ clusterCycle t (poolCluster a)) ∧
    (findLine ((user.modCore 1 (fun c => { c with l1 := [u] })).core 1).l1 0x4000 = some u ∧
      releaseHeld (user.modCore 1 (fun c => { c with l1 := [u] })) 1 2 = false ∧ homeBlocked user 1 0x4000 = false ∧
      findLine ((user.modCluster 1 (fun c => { c with l2 := [u] })).cluster 1).l2 0x4000 = some u ∧
      findLine ({ user with llc := [u] }).llc 0x4000 = some u ∧ u.dirty ≠ 0 ∧ 0x4000 < Config.windowBase ∧
      findLine ({ user with llc := [{ u with dirty := 0 }] }).llc 0x4000 = some { u with dirty := 0 }) := by decide +kernel

theorem witness_PowerAndDies :
    let go := BitVec.ofNat 64 (2 ^ 8 + 5 * 16)
    let up : State := { user with fwUp := true, time := 0x1000000 }
    let cl (s : State) (f : Cluster → Cluster) : State := s.modCluster 0 f
    let die (f : Die → Die) : State := up.modDie 0 f
    let ramp := cl up (fun x => { x with ramp := true, rampEnd := 5, target := 6 })
    let old := user.modCore 0 (fun c => { c with cycle := 65536 })
    let down := cl old (fun x => { x with removed := 2, step := 4 })
    let none_ : State := { up with ctrl := [(0x408600, 0), (0x408608, 0), (0x408610, 0), (0x408618, 0)] }
    let ilim := fld (ctrlRead old 0x408200) 16 16
    (fld go 0 4 ≤ 8 ∧ up.fwUp = true ∧ fld go 8 1 = 1) ∧
    ((ramp.cluster 0).ramp = true ∧ (ramp.cluster 0).rampEnd ≤ ramp.time.toNat ∧ (ramp.cluster 0).toEight = false ∧
      (ramp.cluster 0).stepDown = false ∧ (ramp.cluster 0).heldGo = none ∧ (∀ d, d < 4 → (ramp.die d).offBusy = false) ∧
      (ramp.cluster 0).clears = false ∧ ((cl ramp (fun x => { x with clears := true })).cluster 0).clears = true) ∧
    ((old.cluster 0).sampled + 256 ≤ clusterCycle old 0 ∧ ilim < ilim + 1 ∧ 16 * 0 < 15 * ilim ∧ 15 * ilim ≤ 16 * ilim ∧
      ((cl old (fun x => { x with lowRun := 3 })).cluster 0).lowRun = 3 ∧ (old.cluster 0).lowRun ≠ 3) ∧
    ((down.cluster 0).removed ≠ 0 ∧ (down.cluster 0).removedSince + 65536 ≤ clusterCycle down 0 ∧ (down.cluster 0).step < 8 ∧
      (down.cluster 0).ramp = false ∧ ((cl down (fun x => { x with ramp := true })).cluster 0).ramp = true ∧
      ((cl down (fun x => { x with ramp := true })).cluster 0).clears = false ∧
      ((cl down (fun x => { x with ramp := true, clears := true })).cluster 0).clears = true) ∧
    ((up.die 0).zone ≠ 2 ∧ dieAway (up.die (otherDie 0)) = false ∧ (up.die 0).phase = .idle ∧ (up.die 0).cut = false) ∧
    (let s := up.modDie 1 (fun x => { x with zone := 2 })
     (s.die 0).zone ≠ 2 ∧ dieAway (s.die (otherDie 0)) = true) ∧
    (((die (fun x => { x with offBusy := true })).die 0).offBusy = true ∧ ((die (fun x => { x with offBusy := true })).die 0).offSince + 1000000 ≤ up.time.toNat) ∧
    (fld (BitVec.ofNat 64 (2 ^ 11)) 11 1 = 1 ∧ (up.die 0).offBusy = false ∧ fld 1 0 1 = 1) ∧
    (((none_.modDie 0 (fun x => { x with phase := .offline })).die 0).phase = .offline ∧ offlineDone (none_.modDie 0 (fun x => { x with phase := .offline })) 0 = true ∧
      offlineDone (die (fun x => { x with phase := .offline })) 0 = false ∧ ((die (fun x => { x with phase := .offline })).die 0).offBusy = false ∧
      dieEngines (die (fun x => { x with phase := .quiesce })) 0 = [] ∧
      (dieClusters 0).any (halfHeld (die (fun x => { x with phase := .writeback })) 0) = false ∧
      ∀ p ∈ [WarmPhase.quiesce, .writeback, .reset, .retrain, .readmit], ((die (fun x => { x with phase := p })).die 0).phase = p) ∧
    (dieAway (State.reset.die 0) = false ∧ ∀ n ∈ dieSites 0, ∀ k < 7, (State.reset.slot n k).phase = .free) := by decide +kernel

theorem witness_PowerAndDies_half :
    let l : Line := ⟨512 * 0x20000000, 5, 0xFF, 0xFF, 0, 0, false, true, none⟩
    let s := { user with ucieUp := 0, clusters := [(0, { l2 := [l] })] }
    ∃ d < 2, halfHeld (s.modDie d (fun x => { x with phase := .writeback })) d 0 = true := by
  intro l s
  rcases h : Config.l2Crown l.addr with _ | _
  · refine ⟨0, by decide, ?_⟩
    have hl : ((s.modDie 0 (fun x => { x with phase := .writeback })).cluster 0).l2 = [l] := by decide +kernel
    have hb : homeBlocked (s.modDie 0 (fun x => { x with phase := .writeback })) 0 l.addr = true := by decide +kernel
    unfold halfHeld
    rw [hl]
    simp only [List.any_cons, List.any_nil, hb, h]
    decide
  · refine ⟨1, by decide, ?_⟩
    have hl : ((s.modDie 1 (fun x => { x with phase := .writeback })).cluster 0).l2 = [l] := by decide +kernel
    have hb : homeBlocked (s.modDie 1 (fun x => { x with phase := .writeback })) 0 l.addr = true := by decide +kernel
    unfold halfHeld
    rw [hl]
    simp only [List.any_cons, List.any_nil, hb, h]
    decide

end Sys2Proof.Tests
end

section
/-! SUPPORT. The fetch's parcels and their decoding (R100), and the count of a slot's turns (R106): how `fetchBytes`, `fetchInstr` and
`decodeBytes` answer for one parcel and for two, and what `advance` and `beginTurn` leave in the slot whose turn it is. -/

namespace Sys2Proof.Machine

/-! ## Parcels and their bytes (R2, R100) -/

theorem isLong_eq_false {p : Nat} (h : p < 32768) : isLong p = false := by
  simp only [isLong, decide_eq_false_iff_not]
  omega

theorem isLong_eq_true {p : Nat} (h1 : 32768 ≤ p) (h2 : p < 65536) : isLong p = true := by
  simp only [isLong, decide_eq_true_eq]
  omega

theorem leBytes_two (p : Nat) : leBytes 2 p = [.ofNat 8 p, .ofNat 8 (p / 256)] := rfl

/-- The two bytes of a parcel, read little-endian, are the parcel. -/
theorem parcel_of_bytes {p : Nat} (h : p < 65536) :
    (BitVec.ofNat 8 p).toNat + 256 * (BitVec.ofNat 8 (p / 256)).toNat = p := by
  simp only [BitVec.toNat_ofNat]
  omega

/-- The bytes of the word with parcel `p` above parcel `q`, in the order in which `decodeBytes_long` lists them, are those of `p`
before those of `q`. -/
theorem bytes_of_parcels {p q : Nat} (hq : q < 65536) :
    ([.ofNat 8 ((p * 65536 + q) / 65536), .ofNat 8 ((p * 65536 + q) / 16777216), .ofNat 8 (p * 65536 + q),
      .ofNat 8 ((p * 65536 + q) / 256)] : List Byte) = [.ofNat 8 p, .ofNat 8 (p / 256), .ofNat 8 q, .ofNat 8 (q / 256)] := by
  have h0 : (p * 65536 + q) / 65536 = p := by omega
  have h1 : (p * 65536 + q) / 16777216 = p / 256 := by omega
  have h2 : BitVec.ofNat 8 (p * 65536 + q) = BitVec.ofNat 8 q := by
    apply BitVec.eq_of_toNat_eq
    simp only [BitVec.toNat_ofNat]
    omega
  have h3 : BitVec.ofNat 8 ((p * 65536 + q) / 256) = BitVec.ofNat 8 (q / 256) := by
    apply BitVec.eq_of_toNat_eq
    simp only [BitVec.toNat_ofNat]
    omega
  rw [h0, h1, h2, h3]

/-! ## Decoding one parcel and two -/

theorem decodeBytes_short_error {p : Nat} (h : p < 32768) {e : DecodeError} (he : decode16 p = .error e) :
    decodeBytes [.ofNat 8 p, .ofNat 8 (p / 256)] = .error e := by
  simp only [decodeBytes, parcel_of_bytes (show p < 65536 by omega), isLong_eq_false h, he]
  rfl

theorem decodeBytes_long_error {p q : Nat} (hl : 32768 ≤ p) (hp : p < 65536) (hq : q < 65536) {e : DecodeError}
    (he : decode32 (p * 65536 + q) = .error e) :
    decodeBytes [.ofNat 8 p, .ofNat 8 (p / 256), .ofNat 8 q, .ofNat 8 (q / 256)] = .error e := by
  simp only [decodeBytes, parcel_of_bytes hp, isLong_eq_true hl hp, Nat.add_assoc, parcel_of_bytes hq, he, if_true]

theorem decodeBytes_short_iff {p : Nat} (h : p < 32768) (i : Instr) (m : Nat) :
    decodeBytes [.ofNat 8 p, .ofNat 8 (p / 256)] = .ok (i, m) ↔ decode16 p = .ok i ∧ m = 2 := by
  cases hd : decode16 p with
  | error e => simp [decodeBytes_short_error h hd]
  | ok j =>
    have hok : decodeBytes [.ofNat 8 p, .ofNat 8 (p / 256)] = .ok (j, 2) := decodeBytes_short p h [] j hd
    simp [hok, eq_comm]

theorem decodeBytes_long_iff {p q : Nat} (hl : 32768 ≤ p) (hp : p < 65536) (hq : q < 65536) (i : Instr) (m : Nat) :
    decodeBytes [.ofNat 8 p, .ofNat 8 (p / 256), .ofNat 8 q, .ofNat 8 (q / 256)] = .ok (i, m) ↔
      decode32 (p * 65536 + q) = .ok i ∧ m = 4 := by
  cases hd : decode32 (p * 65536 + q) with
  | error e => simp [decodeBytes_long_error hl hp hq hd]
  | ok j =>
    have hok : decodeBytes [.ofNat 8 p, .ofNat 8 (p / 256), .ofNat 8 q, .ofNat 8 (q / 256)] = .ok (j, 4) := by
      rw [← bytes_of_parcels hq]
      exact decodeBytes_long _ (by omega) (by omega) [] j hd
    simp [hok, eq_comm]

/-! ## The fetch of one parcel and of two (R100, R113) -/

section
variable {s t u : State} {n k va p q : Nat}

theorem fetchBytes_odd (h : va % 2 = 1) : fetchBytes s n k va = .trap s .misalign (BitVec.ofNat 64 va) false :=
  if_pos h

theorem fetchBytes_short (hva : va % 2 = 0) (hf : fetchParcel s n k va false = .ok t p) (hp : p < 32768) :
    fetchBytes s n k va = .ok t [.ofNat 8 p, .ofNat 8 (p / 256)] := by
  simp [fetchBytes, hva, hf, isLong_eq_false hp, leBytes_two]

theorem fetchBytes_long (hva : va % 2 = 0) (hf : fetchParcel s n k va false = .ok t p) (hl : 32768 ≤ p) (hp : p < 65536)
    (hg : fetchParcel t n k ((va + 2) % 2 ^ 64) true = .ok u q) :
    fetchBytes s n k va = .ok u [.ofNat 8 p, .ofNat 8 (p / 256), .ofNat 8 q, .ofNat 8 (q / 256)] := by
  simp only [fetchBytes, hva, hf, isLong_eq_true hl hp, hg, leBytes_two]
  rfl

/-- The parcel 0x0000 has COP 0, which is reserved: it traps ILLEGAL with its own value, 0, in every slot. -/
theorem fetchInstr_zero (hva : va % 2 = 0) (hf : fetchParcel s n k va false = .ok t 0) :
    fetchInstr s n k va = .trap t .illegal 0 false := by
  have hd : decodeBytes [.ofNat 8 0, .ofNat 8 (0 / 256)] = .error .reservedCompact := decodeBytes_short_error (by decide) rfl
  simp only [fetchInstr, fetchBytes_short hva hf (by decide), hd]
  rfl

end

/-! ## Turns (R106) -/

@[simp] theorem advance_turn (s : State) (pc : Word) (sl : Nat) : (advance s pc sl).me.turn = s.me.turn := by simp [advance]

@[simp] theorem advance_nextTurn (s : State) (pc : Word) (sl : Nat) : (advance s pc sl).me.nextTurn = s.me.turn + 1 + sl := by
  simp [advance]

theorem beginTurn_slot (s : State) (n k : Nat) :
    (beginTurn s n k).slot n k = { s.slot n k with turn := (s.slot n k).turn + 1 } :=
  modSlot_same s n k (fun x => { x with turn := x.turn + 1 })

/-- Before the turn that its slip leaves, a slot may not issue. -/
theorem mayIssue_before_nextTurn {s : State} {n k : Nat} (h : (s.slot n k).turn < (s.slot n k).nextTurn) :
    mayIssue s n k = false := by
  have hturn : decide ((s.slot n k).nextTurn ≤ (s.slot n k).turn) = false := by simpa using h
  simp [mayIssue, hturn]

theorem issueTurn_idle {s : State} {n : Nat} (h : mayIssue (beginTurn s n (turnOf s n)) n (turnOf s n) = false) :
    issueTurn s n = .next (beginTurn s n (turnOf s n)) := by
  simp [issueTurn, h]

/-! ## The obligations -/

/-- Settles O3: the first parcel's bit 15 selects the fetch's branch, and the bytes fetched decode as the parcels they are made of. -/
theorem instructionLengths : Obligations.InstructionLengths := by
  intro s t n k va p hva hf hp
  refine ⟨fun hs => fetchBytes_short hva hf hs, fun hl u q hg hq => ⟨?_, ?_⟩, fun hs => decodeBytes_short_iff hs, ?_, fun _ => ?_⟩
  · exact fetchBytes_long hva hf hl hp hg
  · exact decodeBytes_long_iff hl hp hq
  · rintro rfl
    exact fetchInstr_zero hva hf
  · exact fetchBytes_odd (by omega)

/-- Settles O9: completing sets the first turn that may issue from the count of turns, and a turn before it is counted and nothing more. -/
theorem slipSpacing : Obligations.SlipSpacing := by
  refine ⟨fun s t sl pc => ⟨?_, ?_, ?_, ?_⟩, fun n s => ⟨?_, fun hslip => ?_⟩⟩
  · exact advance_nextTurn t pc sl.toNat
  · exact advance_nextTurn t (s.me.pc + 4) sl.toNat
  · exact advance_nextTurn t (s.me.pc + 2) 0
  · exact advance_turn t (s.me.pc + 4) sl.toNat
  · rw [beginTurn_slot]
  · apply issueTurn_idle
    apply mayIssue_before_nextTurn
    rw [beginTurn_slot]
    exact hslip

end Sys2Proof.Machine
end

section
/-! SUPPORT. What an operation leaves in the slots. The storage, the caches and the records to system software keep every slot
(`KeepsSlots`), a trap keeps what its slot has in flight (R8), and the float group, the unary float and the approximation instructions
leave no result in flight but that of their destination, with the latency of their entry (R107, R151, R154, R156). -/

namespace Sys2Proof.Machine

/-! ## Operations that keep every slot -/

/-- The same party is current, and every slot of every core is as it was. -/
structure KeepsSlots (s t : State) : Prop where
  cur : t.cur = s.cur
  slot : ∀ n k, t.slot n k = s.slot n k

theorem KeepsSlots.refl (s : State) : KeepsSlots s s := ⟨rfl, fun _ _ => rfl⟩

theorem KeepsSlots.trans {s t u : State} (h : KeepsSlots s t) (g : KeepsSlots t u) : KeepsSlots s u :=
  ⟨g.cur.trans h.cur, fun n k => (g.slot n k).trans (h.slot n k)⟩

theorem keepsSlots_of_cores {s t : State} (hcur : t.cur = s.cur) (hcores : t.cores = s.cores) : KeepsSlots s t :=
  ⟨hcur, fun n k => by simp only [State.slot, State.core, hcores]⟩

/-- An operation that runs on `t`, which has the cores of `s`. -/
theorem KeepsSlots.after {s t u : State} (h : KeepsSlots t u) (hcur : t.cur = s.cur) (hcores : t.cores = s.cores) : KeepsSlots s u :=
  (keepsSlots_of_cores hcur hcores).trans h

theorem keepsSlots_ticked (s : State) : KeepsSlots s s.ticked := keepsSlots_of_cores rfl rfl

theorem keepsSlots_setLlc (s : State) (l : List Line) : KeepsSlots s { s with llc := l } := keepsSlots_of_cores rfl rfl

theorem keepsSlots_setMem (s : State) (m : List Host.Cell) (p : List Nat) : KeepsSlots s { s with mem := m, memPoison := p } :=
  keepsSlots_of_cores rfl rfl

theorem keepsSlots_setLogs (s : State) (l : Table (List LogEntry)) : KeepsSlots s (setLogs s l) := keepsSlots_of_cores rfl rfl

theorem keepsSlots_setCtrl (s : State) (off : Nat) (w : Word) : KeepsSlots s (setCtrl s off w) := keepsSlots_of_cores rfl rfl

theorem keepsSlots_modCore (s : State) (n : Nat) {f : Core → Core} (hf : ∀ c, (f c).slots = c.slots) : KeepsSlots s (s.modCore n f) := by
  refine ⟨rfl, fun m k => ?_⟩
  by_cases hm : m = n
  · subst hm
    exact modCore_slots s m k f hf
  · simp only [State.slot, modCore_other s n f m hm]

theorem keepsSlots_modCluster (s : State) (n : Nat) (f : Cluster → Cluster) : KeepsSlots s (s.modCluster n f) := keepsSlots_of_cores rfl rfl

theorem keepsSlots_modTower (s : State) (n : Nat) (f : Tower → Tower) : KeepsSlots s (s.modTower n f) := keepsSlots_of_cores rfl rfl

theorem keepsSlots_modThread (s : State) (n : Nat) (f : Thread → Thread) : KeepsSlots s (s.modThread n f) := keepsSlots_of_cores rfl rfl

theorem keepsSlots_ite {c : Prop} [Decidable c] {s t u : State} (ht : KeepsSlots s t) (hu : KeepsSlots s u) :
    KeepsSlots s (if c then t else u) := by split <;> assumption

theorem keepsSlots_foldl {α : Type} {f : State → α → State} (hf : ∀ s x, KeepsSlots s (f s x)) (l : List α) :
    ∀ s, KeepsSlots s (l.foldl f s) := by
  induction l with
  | nil => exact KeepsSlots.refl
  | cons x r ih => exact fun s => (hf s x).trans (ih (f s x))

/-! ### The storage and the LLC -/

theorem keepsSlots_chanWrite (s : State) (a n v : Nat) : KeepsSlots s (chanWrite s a n v) := keepsSlots_of_cores rfl rfl

theorem keepsSlots_machineCheck (s : State) (kind level addr : Nat) (ctx : Option (BitVec 16)) (wher : Nat) :
    KeepsSlots s (machineCheck s kind level addr ctx wher) := by
  unfold machineCheck
  exact keepsSlots_ite (keepsSlots_of_cores rfl rfl) (keepsSlots_of_cores rfl rfl)

theorem keepsSlots_metaCheck (s : State) (a : Nat) : KeepsSlots s (metaCheck s a) :=
  keepsSlots_ite (keepsSlots_machineCheck ..) (.refl s)

theorem keepsSlots_pushChunk (s : State) (t k : Nat) : KeepsSlots s (pushChunk s t k) := keepsSlots_of_cores rfl rfl

theorem keepsSlots_writeChunk (s : State) (t : Nat) (c : Nat × BitVec 256 × BitVec 32) : KeepsSlots s (writeChunk s t c) := by
  unfold writeChunk
  exact .trans (keepsSlots_chanWrite ..) (keepsSlots_setMem ..)

theorem keepsSlots_popChunk {s u : State} {t k : Nat} (h : popChunk s t = some (u, k)) : KeepsSlots s u := by
  simp only [popChunk] at h
  split at h
  · cases h
  · cases h
    exact keepsSlots_of_cores rfl rfl

theorem keepsSlots_popChunks (t n : Nat) : ∀ {s u : State} {ks : List Nat}, popChunks s t n = some (u, ks) → KeepsSlots s u := by
  induction n with
  | zero =>
    intro s u ks h
    cases h
    exact .refl s
  | succ n ih =>
    intro s u ks h
    simp only [popChunks] at h
    split at h
    · cases h
    next v k hv =>
      split at h
      · cases h
      next w ks' hw =>
        cases h
        exact (keepsSlots_popChunk hv).trans (ih hw)

theorem keepsSlots_logWords (ws : List Nat) : ∀ (s : State) (pa : Nat), KeepsSlots s (logWords s pa ws) := by
  induction ws with
  | nil => exact fun s _ => .refl s
  | cons w r ih => exact fun s pa => (keepsSlots_chanWrite s pa 8 w).trans (ih _ (pa + 8))

theorem keepsSlots_logPut (s : State) (ch pa : Nat) (e : LogEntry) : KeepsSlots s (logPut s ch pa e) := by
  unfold logPut
  exact (keepsSlots_logWords (logBytes e) s pa).trans (keepsSlots_setLogs ..)

theorem keepsSlots_logAppend (s : State) (ch a old : Nat) (i : Interval) : KeepsSlots s (logAppend s ch a old i) :=
  keepsSlots_ite (.refl s) (keepsSlots_ite (keepsSlots_of_cores rfl rfl) (keepsSlots_logPut ..))

theorem keepsSlots_logLine (s : State) (a : Nat) (ctx : Option (BitVec 16)) : KeepsSlots s (logLine s a ctx) := by
  unfold logLine
  split
  · exact .refl s
  · split
    · exact keepsSlots_logAppend ..
    · exact .refl s

theorem keepsSlots_storeHome (s : State) (a data poison : Nat) (ctx : Option (BitVec 16)) : KeepsSlots s (storeHome s a data poison ctx) := by
  unfold storeHome
  exact (keepsSlots_logLine s a ctx).trans (keepsSlots_setMem ..)

theorem keepsSlots_poolStore {s u : State} {a data poison : Nat} {hot : Bool} {ctx : Option (BitVec 16)}
    (h : poolStore s a data poison hot ctx = some u) : KeepsSlots s u := by
  simp only [poolStore] at h
  split at h
  · cases h
  next v new hv =>
    cases h
    have hpop := (keepsSlots_logLine s a ctx).trans (keepsSlots_popChunks _ _ hv)
    refine .trans ?_ (keepsSlots_chanWrite ..)
    refine .trans ?_ (keepsSlots_foldl (fun s c => keepsSlots_writeChunk s _ c) _ _)
    refine .trans ?_ (keepsSlots_modTower ..)
    refine .trans ?_ (keepsSlots_ticked _)
    exact hpop.trans (keepsSlots_foldl (fun s k => keepsSlots_pushChunk s _ k) _ v)

theorem keepsSlots_dropPool (s : State) (a : Nat) : KeepsSlots s (dropPool s a) := keepsSlots_of_cores rfl rfl

theorem keepsSlots_inboxSend (s : State) (n : Nat) (head data aux : Word) : KeepsSlots s (inboxSend s n head data aux) := by
  unfold inboxSend inboxSendBy
  refine keepsSlots_modCore s n fun c => ?_
  split <;> rfl

theorem keepsSlots_poolPress (s : State) (t a : Nat) : KeepsSlots s (poolPress s t a) := by
  unfold poolPress
  exact keepsSlots_ite (.refl s) ((keepsSlots_setCtrl ..).trans (keepsSlots_inboxSend ..))

theorem keepsSlots_poolKeep (s : State) (a : Nat) : KeepsSlots s (poolKeep s a) :=
  keepsSlots_ite (.refl s) (keepsSlots_ite (keepsSlots_ite (.refl s) (keepsSlots_modTower ..))
    ((keepsSlots_modTower ..).trans (keepsSlots_poolPress ..)))

theorem keepsSlots_llcEvict (s : State) (l : Line) : KeepsSlots s (llcEvict s l) := by
  unfold llcEvict
  refine keepsSlots_ite ?_ (keepsSlots_ite (keepsSlots_dropPool ..) ?_)
  · exact (keepsSlots_ite (.refl s) (keepsSlots_storeHome ..)).trans (keepsSlots_setLlc ..)
  · split
    next u hu => exact (keepsSlots_poolStore hu).trans (keepsSlots_dropPool ..)
    next => exact keepsSlots_poolKeep ..

theorem keepsSlots_llcRoom (s : State) (a : Nat) : KeepsSlots s (llcRoom s a) := by
  unfold llcRoom
  refine keepsSlots_ite (.refl s) ?_
  dsimp only
  split
  · exact (keepsSlots_ticked s).trans (keepsSlots_llcEvict ..)
  · exact .refl s

theorem keepsSlots_homePut (s : State) (l : Line) : KeepsSlots s (homePut s l) := by
  unfold homePut
  exact keepsSlots_ite (keepsSlots_storeHome ..)
    (keepsSlots_ite ((keepsSlots_setLlc s _).trans (keepsSlots_poolKeep ..)) (keepsSlots_setLlc ..))

theorem keepsSlots_homeWrite (s : State) (a data mask poison : Nat) (ctx : Option (BitVec 16)) :
    KeepsSlots s (homeWrite s a data mask poison ctx) :=
  ((keepsSlots_metaCheck s a).trans (keepsSlots_llcRoom _ a)).trans (keepsSlots_homePut ..)

/-! ### The L2 slices and the L1 caches -/

theorem keepsSlots_l2ToHome (s : State) (cl a : Nat) : KeepsSlots s (l2ToHome s cl a) := by
  unfold l2ToHome
  dsimp only
  split
  · exact .refl s
  · exact (keepsSlots_ite (.refl s) (keepsSlots_homeWrite ..)).trans (keepsSlots_modCluster ..)

theorem keepsSlots_l2Room (s : State) (cl a : Nat) : KeepsSlots s (l2Room s cl a) := by
  unfold l2Room
  refine keepsSlots_ite (.refl s) (keepsSlots_ite (.refl s) ?_)
  dsimp only
  split
  · exact ((keepsSlots_ticked s).trans (keepsSlots_l2ToHome ..)).trans (keepsSlots_modCluster ..)
  · exact .refl s

theorem keepsSlots_recallOwned (s : State) (a : Nat) (but : Option Nat) : KeepsSlots s (recallOwned s a but) := by
  unfold recallOwned
  refine keepsSlots_foldl (fun s k => ?_) _ s
  split
  · exact keepsSlots_ite ((keepsSlots_l2ToHome ..).trans (keepsSlots_modCluster ..)) (.refl s)
  · exact .refl s

theorem keepsSlots_l2Fetch (s : State) (cl a : Nat) : KeepsSlots s (l2Fetch s cl a).1 := by
  unfold l2Fetch
  split
  · exact .refl s
  · refine .trans ((keepsSlots_recallOwned s a (some cl)).trans (keepsSlots_metaCheck _ a)) ?_
    have room (t : State) : KeepsSlots t (if l2Bypass t cl a then t else l2Room t cl a) :=
      keepsSlots_ite (.refl t) (keepsSlots_l2Room t cl a)
    exact (room _).trans (keepsSlots_ite (.refl _) (keepsSlots_modCluster ..))

theorem keepsSlots_l2Take (s : State) (cl a : Nat) : KeepsSlots s (l2Take s cl a).1 :=
  ((keepsSlots_recallOwned s a (some cl)).trans (keepsSlots_modCluster ..)).trans (keepsSlots_l2Fetch ..)

theorem keepsSlots_l2Write (s : State) (cl a data mask poison scope : Nat) (ctx : Option (BitVec 16)) :
    KeepsSlots s (l2Write s cl a data mask poison scope ctx) :=
  keepsSlots_ite ((keepsSlots_recallOwned s a none).trans (keepsSlots_homeWrite ..))
    ((keepsSlots_l2Take s cl a).trans (keepsSlots_modCluster ..))

theorem keepsSlots_l1ToL2 (s : State) (n a : Nat) : KeepsSlots s (l1ToL2 s n a) := by
  unfold l1ToL2
  split
  · exact .refl s
  · exact keepsSlots_ite (.refl s) ((keepsSlots_l2Write ..).trans (keepsSlots_modCore _ n fun _ => rfl))

theorem keepsSlots_toHome (s : State) (n a : Nat) : KeepsSlots s (toHome s n a) := by
  unfold toHome l1Drop
  refine .trans ?_ (keepsSlots_modCluster ..)
  refine .trans ?_ (keepsSlots_modCore _ n fun _ => rfl)
  exact (keepsSlots_l1ToL2 s n a).trans (keepsSlots_recallOwned ..)

/-! ### Accesses by physical address, trace entries, packets -/

theorem keepsSlots_physWrite (s : State) (pa n v poison : Nat) (ctx : Option (BitVec 16)) : KeepsSlots s (physWrite s pa n v poison ctx) := by
  have home (a : Nat) : KeepsSlots s (homeWriteLE (recallOwned s (lineBase a) none) a n v poison ctx) :=
    (keepsSlots_recallOwned ..).trans (keepsSlots_homeWrite ..)
  unfold physWrite
  split
  · exact home _
  · exact home _
  · exact keepsSlots_ite (keepsSlots_of_cores rfl rfl) (.refl s)
  · exact .refl s

theorem keepsSlots_physWriteWords (ctx : Option (BitVec 16)) (ws : List Word) :
    ∀ (s : State) (pa : Nat), KeepsSlots s (physWriteWords s pa ctx ws) := by
  induction ws with
  | nil => exact fun s _ => .refl s
  | cons w r ih => exact fun s pa => (keepsSlots_physWrite s pa 8 w.toNat 0 ctx).trans (ih _ (pa + 8))

theorem keepsSlots_traceWrite (s : State) (n kind slot : Nat) (handle pc value : Word) :
    KeepsSlots s (traceWrite s n kind slot handle pc value) :=
  keepsSlots_ite
    (((keepsSlots_toHome s n _).trans (keepsSlots_physWriteWords ..)).trans (keepsSlots_modCore _ n fun _ => rfl)) (.refl s)

theorem keepsSlots_traceAuto (s : State) (n kind slot : Nat) (handle pc value : Word) :
    KeepsSlots s (traceAuto s n kind slot handle pc value) := keepsSlots_ite (keepsSlots_traceWrite ..) (.refl s)

theorem keepsSlots_sendPacket (s : State) (kind flags src dst ddev own : Nat) (coll : BitVec 120) (payload : List Byte) :
    KeepsSlots s (sendPacket s kind flags src dst ddev own coll payload) :=
  keepsSlots_ite (keepsSlots_of_cores rfl rfl) (keepsSlots_of_cores rfl rfl)

theorem keepsSlots_givePlaceBack (s : State) (n : Nat) (r : RemoteOp) : KeepsSlots s (givePlaceBack s n r) := by
  unfold givePlaceBack
  split
  · exact keepsSlots_sendPacket ..
  · exact .refl s

/-! ### Operations and queues that a slot leaves (R295) -/

theorem keepsSlots_dropCall (s : State) (n k : Nat) : KeepsSlots s (dropCall s n k) := by
  unfold dropCall
  exact (keepsSlots_foldl (fun s r => keepsSlots_givePlaceBack s n r) _ _).after rfl rfl

/-- An update of the listed cores that keeps each one's index and slots. -/
theorem slots_get_map {g : Nat × Core → Nat × Core} (hi : ∀ c, (g c).1 = c.1) (hs : ∀ c, (g c).2.slots = c.2.slots) (m : Table Core)
    (n : Nat) : (Table.get (m.map g) n {}).slots = (Table.get m n {}).slots := by
  induction m with
  | nil => rfl
  | cons c r ih =>
    simp only [List.map_cons, Table.get, hi]
    split
    · exact hs c
    · exact ih

theorem keepsSlots_mapCores (s : State) {g : Nat × Core → Nat × Core} (hi : ∀ c, (g c).1 = c.1)
    (hs : ∀ c, (g c).2.slots = c.2.slots) : KeepsSlots s { s with cores := s.cores.map g } := by
  refine ⟨rfl, fun n k => ?_⟩
  simp only [State.slot, State.core, Core.slot, slots_get_map hi hs]

theorem keepsSlots_dropQueues (s : State) (n k : Nat) : KeepsSlots s (dropQueues s n k) := by
  unfold dropQueues
  refine keepsSlots_mapCores s (fun _ => rfl) fun c => ?_
  dsimp only
  split <;> rfl

/-! ## A trap keeps what its slot has in flight (R8, R295, R299) -/

/-- The same party is current, and every slot has in flight what it had. -/
structure KeepsPending (s t : State) : Prop where
  cur : t.cur = s.cur
  pending : ∀ n k, (t.slot n k).pending = (s.slot n k).pending

theorem KeepsSlots.keepsPending {s t : State} (h : KeepsSlots s t) : KeepsPending s t :=
  ⟨h.cur, fun n k => by rw [h.slot]⟩

theorem KeepsPending.trans {s t u : State} (h : KeepsPending s t) (g : KeepsPending t u) : KeepsPending s u :=
  ⟨g.cur.trans h.cur, fun n k => (g.pending n k).trans (h.pending n k)⟩

theorem KeepsPending.me {s t : State} (h : KeepsPending s t) : t.me.pending = s.me.pending := by
  simp only [State.me, h.cur, h.pending]

theorem keepsPending_modSlot (s : State) (n k : Nat) {f : Slot → Slot} (hf : ∀ x, (f x).pending = x.pending) :
    KeepsPending s (s.modSlot n k f) := by
  refine ⟨rfl, fun m j => ?_⟩
  by_cases h : m = n ∧ j = k
  · obtain ⟨rfl, rfl⟩ := h
    rw [modSlot_same, hf]
  · rw [modSlot_other s n k f m j (by omega)]

theorem keepsPending_drop (s : State) (n k : Nat) : KeepsPending s (dropQueues (dropCall s n k) n k) :=
  ((keepsSlots_dropCall s n k).trans (keepsSlots_dropQueues _ n k)).keepsPending

theorem keepsPending_trapUser (s : State) (n k : Nat) (len32 : Bool) (c : Cause) (v pc : Word) :
    KeepsPending s (trapUser s n k len32 c v pc) := by
  unfold trapUser
  refine .trans ?_ (keepsSlots_traceAuto ..).keepsPending
  refine .trans ?_ (KeepsSlots.keepsPending (keepsSlots_modCore _ n fun _ => rfl))
  refine .trans ?_ (keepsSlots_modThread ..).keepsPending
  exact (keepsPending_drop s n k).trans (keepsPending_modSlot _ n k fun _ => rfl)

theorem keepsPending_trapSystem (s : State) (n : Nat) (len32 : Bool) (c : Cause) (v pc : Word) :
    KeepsPending s (trapSystem s n len32 c v pc) := by
  unfold trapSystem
  refine .trans ?_ (keepsSlots_traceAuto ..).keepsPending
  refine .trans ?_ (keepsSlots_machineCheck ..).keepsPending
  refine .trans ?_ (KeepsSlots.keepsPending (keepsSlots_modCore _ n fun _ => rfl))
  exact (keepsPending_drop s n 7).trans (keepsPending_modSlot _ n 7 fun _ => rfl)

theorem keepsPending_takeTrap (s : State) (n k : Nat) (len32 : Bool) (c : Cause) (v pc : Word) :
    KeepsPending s (takeTrap s n k len32 c v pc) := by
  unfold takeTrap
  split
  · exact keepsPending_trapSystem ..
  · exact keepsPending_trapUser ..

/-! ## What an instruction of fixed latency leaves in flight (R107) -/

/-- The current slot has in flight in `t` only what it had in `s` and a result of latency `l` for name `d`: written L − 1 rotations
and three cycles after the issue, visible L turns later. -/
def LeavesResult (s : State) (d l : Nat) (t : State) : Prop :=
  ∀ p ∈ t.me.pending, p ∈ s.me.pending ∨
    (p.name = d ∧ p.due = some ((s.core s.cur.1).cycle + 8 * (l - 1) + 3) ∧ p.turn = s.me.turn + l)

/-- An effect that completes with only such a result, stalls with nothing more in flight, or traps with nothing changed. -/
def Eff.leavesResult (s : State) (d l : Nat) : Eff → Prop
  | .done t | .stall t => LeavesResult s d l t
  | .trap _ _ | .trapWord _ => True
  | .jump _ _ | .trapIn _ _ _ | .block _ _ _ | .leave _ => False

section
variable {s t : State} {d l : Nat}

theorem leavesResult_of_pending (h : t.me.pending = s.me.pending) : LeavesResult s d l t := fun _ hp => .inl (h ▸ hp)

theorem leavesResult_modMe (h : LeavesResult s d l t) {f : Slot → Slot} (hf : ∀ x, (f x).pending = x.pending) :
    LeavesResult s d l (t.modMe f) := fun p hp => h p (by simpa [hf] using hp)

theorem leavesResult_putBits (s : State) (d l bits : Nat) : LeavesResult s d l (putBits s d l bits) := by
  intro p hp
  unfold putBits at hp
  split at hp
  · exact .inl hp
  · simp only [push, modMe_me, List.mem_append, List.mem_singleton] at hp
    obtain hold | rfl := hp
    · exact .inl hold
    · exact .inr ⟨rfl, rfl, rfl⟩

/-! ### The checks before an instruction acts (R113) -/

/-- What every check of a list answers, the first that answers does. -/
theorem of_firstOf {α : Type} {f : α → Check} {P : Eff → Prop} (hf : ∀ x e, f x = some e → P e) {xs : List α} {e : Eff}
    (h : firstOf f xs = some e) : P e := by
  induction xs with
  | nil => cases h
  | cons x r ih =>
    simp only [firstOf] at h
    split at h
    next e' hx => exact hf x e (hx.trans h)
    next => exact ih h

theorem stall_leavesResult (s : State) (d l : Nat) : (Eff.stall s).leavesResult s d l := leavesResult_of_pending rfl

theorem readyName_leavesResult {n : Nat} {e : Eff} (h : readyName s n = some e) : e.leavesResult s d l := by
  simp only [readyName] at h
  split at h
  · cases h
  split at h
  · cases h
    exact stall_leavesResult s d l
  split at h
  · cases h
  split at h
  · cases h
    trivial
  split at h <;> cases h
  exact stall_leavesResult s d l

theorem kindName_leavesResult {q : KindReq} {e : Eff} (h : kindName s q = some e) : e.leavesResult s d l := by
  simp only [kindName] at h
  split at h
  · split at h <;> cases h
    trivial
  · cases h
    trivial

/-- A row that is not resident is asked for, which leaves nothing in flight. -/
theorem touchName_leavesResult {read : Bool} {n : Nat} {e : Eff} (h : touchName s read n = some e) : e.leavesResult s d l := by
  simp only [touchName] at h
  split at h
  · cases h
  split at h
  · cases h
    exact leavesResult_modMe (leavesResult_of_pending rfl) fun _ => rfl
  split at h
  · cases h
    exact stall_leavesResult s d l
  split at h <;> cases h
  trivial

theorem pre_leavesResult {reads writes : List Nat} {kinds : List KindReq} {body : Eff} (hb : body.leavesResult s d l) :
    (pre s reads writes kinds body).leavesResult s d l := by
  unfold pre
  split
  next h => exact of_firstOf (fun _ _ => readyName_leavesResult) h
  split
  next h => exact of_firstOf (fun _ _ => kindName_leavesResult) h
  split
  next h => exact of_firstOf (fun _ _ => touchName_leavesResult) h
  split
  next h => exact of_firstOf (fun _ _ => touchName_leavesResult) h
  exact hb

/-! ### The end of an instruction -/

theorem next32_leavesResult (h : LeavesResult s d l t) (sl : BitVec 2) : LeavesResult s d l (next32 s sl t) :=
  leavesResult_modMe h fun _ => rfl

theorem trap32_leavesResult (s : State) (d l : Nat) (c : Cause) (v : Word) : LeavesResult s d l (trap32 s c v) :=
  leavesResult_of_pending (keepsPending_takeTrap ..).me

theorem finish_leavesResult {e : Eff} (h : e.leavesResult s d l) (sl : BitVec 2) (word : Nat) :
    LeavesResult s d l (finish s 4 sl.toNat word e) := by
  cases e with
  | done t => exact next32_leavesResult h sl
  | stall t => exact h
  | trap c v => exact trap32_leavesResult s d l c v
  | trapWord c => exact trap32_leavesResult s d l c (BitVec.ofNat 64 word)
  | jump | trapIn | block | leave => exact h.elim

theorem run32_leavesResult {i : Instr} {sl : BitVec 2} {body : State → Eff} (h : run32 i sl body s = .next t)
    (hb : (body s).leavesResult s d l) : LeavesResult s d l t := by
  simp only [run32, run] at h
  split at h
  · cases h
    refine finish_leavesResult ?_ sl _
    split
    · exact hb
    · trivial
  · cases h

end

/-! ## The float operations (R145 to R156) -/

theorem putF_leavesResult (s : State) (d l : Nat) (r : Nat × Nat) : (putF s d l r).leavesResult s d l := by
  unfold putF
  split
  · trivial
  · exact leavesResult_modMe (leavesResult_putBits s d l r.1) fun _ => rfl

theorem putV_leavesResult (s : State) (d l : Nat) (r : FVal × Nat) : (putV s d l r).leavesResult s d l := putF_leavesResult ..

theorem fbin_leavesResult (l : Nat) (f : Bool → FVal → FVal → FVal × Nat) (d a b : Nat) (s : State) :
    (fbin l f d a b s).leavesResult s d l := pre_leavesResult (putV_leavesResult ..)

theorem fcpysOp_leavesResult (d a b : Nat) (s : State) : (fcpysOp d a b s).leavesResult s d 1 := pre_leavesResult (putV_leavesResult ..)

theorem funary_leavesResult (l : Nat) (f : FVal → FVal × Nat) (d a : Nat) (s : State) : (funary l f d a s).leavesResult s d l :=
  pre_leavesResult (putV_leavesResult ..)

theorem fclassOp_leavesResult (d a : Nat) (s : State) : (fclassOp d a s).leavesResult s d 1 := pre_leavesResult (putV_leavesResult ..)

theorem approx_leavesResult (l : Nat) (f : Nat → Nat × Nat) (d a : Nat) (s : State) : (approx l f d a s).leavesResult s d l :=
  pre_leavesResult (putF_leavesResult ..)

/-- A conversion into an integer name traps WIDTH or stores one result, whatever the value is (R153). -/
theorem toIntOp_leavesResult (mode : Rnd) (d : Nat) (v : FVal) (s : State) : (toIntOp mode d v s).leavesResult s d 1 := by
  cases v with
  | nan q =>
    simp only [toIntOp]
    split
    · trivial
    · exact putF_leavesResult ..
  | inf n =>
    simp only [toIntOp]
    split
    · trivial
    · exact putF_leavesResult ..
    · exact putF_leavesResult ..
  | fin n num den e =>
    simp only [toIntOp]
    split
    · exact putF_leavesResult ..
    · split
      · trivial
      · exact putF_leavesResult ..

theorem fcvtOp_leavesResult (d a r : Nat) (s : State) : (fcvtOp d a r s).leavesResult s d 1 := by
  refine pre_leavesResult ?_
  dsimp only
  split
  · split
    · split
      · exact putF_leavesResult ..
      · exact putF_leavesResult ..
    · exact toIntOp_leavesResult ..
  · exact putF_leavesResult ..

/-! ## The obligation -/

/-- Settles O10: each instruction stores by one `putF` of its entry's latency behind the checks of R113, or traps or stalls, which adds
nothing to what the slot has in flight. -/
theorem floatLatencies : Obligations.FloatLatencies := by
  refine ⟨?_, ?_, ?_⟩ <;> simp only [List.forall_mem_cons, List.not_mem_nil, false_imp_iff, implies_true, and_true]
  · and_intros <;> intro sl d a b s t h
    iterate 10 exact run32_leavesResult h (fbin_leavesResult ..)
    exact run32_leavesResult h (fcpysOp_leavesResult ..)
  · and_intros <;> intro sl d a s t h
    iterate 2 exact run32_leavesResult h (funary_leavesResult ..)
    · exact run32_leavesResult h (fclassOp_leavesResult ..)
    · exact run32_leavesResult h (funary_leavesResult ..)
    iterate 6 exact run32_leavesResult h (approx_leavesResult ..)
  · and_intros <;> intro sl d a r s t h
    · exact run32_leavesResult h (fcvtOp_leavesResult ..)
    · exact run32_leavesResult h (funary_leavesResult ..)

end Sys2Proof.Machine
end

section
/-! SUPPORT. QSTAT (R184): its word, its ILLEGAL and its snapshot of an engine queue; with them how a 32-bit instruction ends that has a
forbidden field (R112) or that puts one integer result (R107). -/

namespace Sys2Proof.Machine

/-! ## The end of a 32-bit instruction -/

/-- A forbidden field traps ILLEGAL with the instruction's word, before every check of R113 (R112). -/
theorem run32_forbidden {i : Instr} {s : State} (h : s.running = true) (hw : i.wf = false) (sl : BitVec 2) (body : State → Eff) :
    run32 i sl body s = .next (trap32 s .illegal (BitVec.ofNat 64 (encode i))) := by
  simp only [run32, run, h, hw, if_true, Bool.false_eq_true, if_false]
  rfl

/-- A result that fits completes the instruction, and one that does not traps WIDTH (R64). -/
theorem finish_putI (s : State) (sl : BitVec 2) (word d l : Nat) (x : Int) :
    finish s 4 sl.toNat word (putI s d l x) = endsWith s sl d l x := by
  cases h : fitsIn s d x with
  | true => rw [putI_fits h, finish_done, endsWith, if_pos h]
  | false => rw [putI_trap h, finish_trap, endsWith, h, if_neg Bool.false_ne_true]

/-! ## The word of QSTAT -/

/-- A word of MOP 0x24 is decoded by that opcode's functions (R102). -/
theorem decodeRaw_mop24 {w : Nat} (h : w / 33554432 % 64 = 36) :
    decodeRaw w = decode24 w (w % 32) (w / 8388608 % 4) (w / 131072 % 64) (w / 2048 % 64) (w / 32 % 64) := by
  simp only [decodeRaw, h, Nat.reduceEqDiff, if_false, if_true]

/-- A word of QSTAT's function whose A field is not 0 is no instruction. -/
theorem decode32_qstat_reserved {w : Nat} (hmop : w / 33554432 % 64 = 36) (hf : w % 32 = 15) (ha : w / 2048 % 64 ≠ 0) :
    decode32 w = .error .reservedField := by
  have hraw : decodeRaw w = .error .reservedField := by
    rw [decodeRaw_mop24 hmop]
    simp [decode24, hf, accept, ha]
  simp only [decode32, hraw]

theorem wf_qstat (sl : BitVec 2) (d q : BitVec 6) : (Instr.qstat sl d q).wf = decide (q.toNat < 3) := rfl

/-! ## Its meaning -/

theorem exec_qstat (sl : BitVec 2) (d q : BitVec 6) (s : State) :
    exec (.qstat sl d q) s = run32 (.qstat sl d q) sl (qstatOp d.toNat q.toNat) s := rfl

theorem queuePlaces_lt (q : Nat) : queuePlaces q < 32 := by
  unfold queuePlaces
  split <;> decide

/-- While a queue holds no more than its places, FREE and BUSY fit their fields. -/
theorem qstatOp_eq_putI {s : State} {d q : Nat} (hu : usable s [] [d] [(d, intK)] = true)
    (hq : queueBusy s s.cur.1 q ≤ queuePlaces q) :
    qstatOp d q s = putI s d 1 ((queuePlaces q - queueBusy s s.cur.1 q + queueBusy s s.cur.1 q * 32 : Nat) : Int) := by
  have hp := queuePlaces_lt q
  have hfree : (queuePlaces q - queueBusy s s.cur.1 q) % 32 = queuePlaces q - queueBusy s s.cur.1 q := Nat.mod_eq_of_lt (by omega)
  have hbusy : queueBusy s s.cur.1 q % 32 = queueBusy s s.cur.1 q := Nat.mod_eq_of_lt (by omega)
  simp only [qstatOp, pre_usable hu, hfree, hbusy]

theorem exec_qstat_counts (sl : BitVec 2) {d q : BitVec 6} {s : State} (hq : q.toNat < 3)
    (hu : usable s [] [d.toNat] [(d.toNat, intK)] = true) (hused : queueBusy s s.cur.1 q.toNat ≤ queuePlaces q.toNat) :
    exec (.qstat sl d q) s = .next (endsWith s sl d.toNat 1
      ((queuePlaces q.toNat - queueBusy s s.cur.1 q.toNat + queueBusy s s.cur.1 q.toNat * 32 : Nat) : Int)) := by
  have hw : (Instr.qstat sl d q).wf = true := by
    rw [wf_qstat, decide_eq_true hq]
  rw [exec_qstat, run32_running (usable_running hu) hw, qstatOp_eq_putI hu hused, finish_putI]

/-! ## The obligation -/

/-- Settles O15: the word is split into its fields, a queue above 2 is a forbidden field, and of a queue's places none is counted beyond
its field's five bits. -/
theorem queueStatus : Obligations.QueueStatus := by
  refine ⟨fun sl d q => ⟨?_, fun a ha => ?_⟩, fun sl d q s hrun hq => ?_, fun sl d q s hq hu hused => ?_⟩
  · rw [encode_qstat]
    omega
  · have hsl := sl.isLt
    have hd := d.isLt
    have hq := q.isLt
    have halt := a.isLt
    have ha' : a.toNat ≠ 0 := by simpa using BitVec.toNat_ne.mp ha
    exact decode32_qstat_reserved (by omega) (by omega) (by omega)
  · have hw : (Instr.qstat sl d q).wf = false := by
      rw [wf_qstat, decide_eq_false (by omega)]
    rw [exec_qstat, run32_forbidden hrun hw]
  · exact exec_qstat_counts sl hq hu hused

end Sys2Proof.Machine
end

section
/-! SUPPORT. The physical address map (R340 to R342): where the home view, the spread view and the memories of other devices lie, and the
BUSERR of an address outside every range. -/

namespace Sys2Proof.Machine

/-! ## The spread view (R341) -/

/-- A spread address keeps its byte in the page, its page number's low ten bits name the channel, and the rest the page there. -/
theorem spreadHome_spread (o : Nat) :
    spreadHome (0x8000000000 + o) = o / 4096 % 1024 * 0x20000000 + (o / 0x400000 * 4096 + o % 4096) := by
  simp only [spreadHome, Config.spreadBase, Nat.add_sub_cancel_left]

/-- The home view is 1024 channels of 0x2000_0000 bytes (R20). -/
theorem homeView_lt {c r : Nat} (hc : c < 1024) (hr : r < 0x20000000) : c * 0x20000000 + r < 0x8000000000 := by omega

section
variable {o : Nat} (ho : o < 0x8000000000)
include ho

/-- The part of the home address below the channel number fits the channel. -/
theorem spread_inChannel_lt : o / 0x400000 * 4096 + o % 4096 < 0x20000000 := by omega

theorem spreadHome_lt : spreadHome (0x8000000000 + o) < 0x8000000000 := by
  rw [spreadHome_spread]
  exact homeView_lt (Nat.mod_lt _ (by decide)) (spread_inChannel_lt ho)

/-- The channel is the low part of the page number: a page lies in one channel. -/
theorem spreadHome_channel : spreadHome (0x8000000000 + o) / 0x20000000 = o / 4096 % 1024 := by
  have hin := spread_inChannel_lt ho
  rw [spreadHome_spread]
  omega

end

/-! ## Where an address lies (R340) -/

theorem placeOf_home (s : State) {a : Nat} (h : a < Config.spreadBase) : placeOf s a = .home a := if_pos h

theorem placeOf_spread (s : State) {a : Nat} (hlo : Config.spreadBase ≤ a) (hhi : a < Config.windowBase) :
    placeOf s a = .home (spreadHome a) := by
  simp only [placeOf, if_neg (Nat.not_lt.mpr hlo), if_pos hhi]

theorem placeOf_spread_add (s : State) {o : Nat} (ho : o < 0x8000000000) :
    placeOf s (0x8000000000 + o) = .home (spreadHome (0x8000000000 + o)) := by
  apply placeOf_spread
  · rw [Config.spreadBase]
    omega
  · rw [Config.windowBase]
    omega

/-- The device's own windows, pool space and control space all end below the memories of the domain. -/
theorem placeOf_domain (s : State) {a : Nat} (hlo : Config.remoteBase ≤ a) (hhi : a < 2 ^ 56) :
    placeOf s a = if bitsAt a 49 6 ≠ 0 ∨ bitsAt a 40 9 = s.devId then .hole else .remote (bitsAt a 40 9) (a % 2 ^ 40) := by
  have hspread : Config.spreadBase ≤ a := Nat.le_trans (by decide) hlo
  have hfirst : Config.windowBase ≤ a := Nat.le_trans (by decide) hlo
  have hwindows : Config.windowBase + 1024 * Config.windowSize ≤ a := Nat.le_trans (by decide) hlo
  have hpool : Config.poolBase + 0x8000000000 ≤ a := Nat.le_trans (by decide) hlo
  have hctrl : Config.ctrlBase + Config.ctrlSize ≤ a := Nat.le_trans (by decide) hlo
  rw [placeOf, if_neg (Nat.not_lt.mpr hspread), if_neg (Nat.not_lt.mpr hfirst), if_neg (Nat.not_lt.mpr hwindows),
    if_neg (fun h => Nat.not_lt.mpr hpool h.2), if_neg (fun h => Nat.not_lt.mpr hctrl h.2), if_pos ⟨hlo, hhi⟩]

/-- Below 2^40 lie the home view and the spread view alone: what a remote offset reaches is at the home address that `farOff` gives. -/
theorem placeOf_farOff (s : State) {o : Nat} (h : o < 2 ^ 40) : placeOf s o = .home (farOff o) := by
  by_cases hlo : o < Config.spreadBase
  · rw [placeOf_home s hlo, farOff, if_pos hlo]
  · have hhi : o < Config.windowBase := by rw [Config.windowBase]; omega
    rw [placeOf_spread s (Nat.not_lt.mp hlo) hhi, farOff, if_neg hlo]

theorem canonPa_home {s : State} {pa a : Nat} (h : placeOf s pa = .home a) : canonPa s pa = a := by
  simp only [canonPa, h]

/-! ## The memories of the domain's devices (R342) -/

/-- Bits [48:40], the device number. -/
theorem bitsAt_domain_device (x : Nat) : bitsAt (2 ^ 55 + x) 40 9 = x / 2 ^ 40 % 2 ^ 9 := by
  rw [bitsAt]
  omega

section
variable {x : Nat} (hx : x < 2 ^ 55)
include hx

/-- Bits [54:49] of an address in the domain. -/
theorem bitsAt_domain_reserved : bitsAt (2 ^ 55 + x) 49 6 = x / 2 ^ 49 := by
  rw [bitsAt]
  omega

theorem placeOf_domain_add (s : State) :
    placeOf s (2 ^ 55 + x) =
      if x / 2 ^ 49 ≠ 0 ∨ x / 2 ^ 40 % 2 ^ 9 = s.devId then .hole else .remote (x / 2 ^ 40 % 2 ^ 9) (x % 2 ^ 40) := by
  have hlo : Config.remoteBase ≤ 2 ^ 55 + x := by rw [Config.remoteBase]; omega
  have hoff : (2 ^ 55 + x) % 2 ^ 40 = x % 2 ^ 40 := by omega
  rw [placeOf_domain s hlo (by omega), bitsAt_domain_reserved hx, bitsAt_domain_device x, hoff]

end

/-! ## An address outside every range (R340) -/

section
variable {s t : State} {n k va attr pa : Nat} (hp : placeOf t pa = .hole) (hj : heldAtJoin t n .hole = false)
  (hw : walkHeld s n va = false)
include hp hj hw

theorem threadLoad_hole (size pol : Nat) (ht : translate s n (decide (k < 7)) .load va = .ok t pa attr) :
    threadLoad s n k va size pol = busErr pa := by
  simp only [threadLoad, hw, ht, hp, hj, Bool.false_eq_true, if_false]

theorem threadStore_hole (size v pol poison : Nat) (ht : translate s n (decide (k < 7)) .store va = .ok t pa attr) :
    threadStore s n k va size v pol poison = busErr pa := by
  simp only [threadStore, hw, ht, hp, hj, Bool.false_eq_true, if_false]

theorem threadAtomic_hole (size sc : Nat) (f : Nat → Nat) (ht : translate s n (decide (k < 7)) .update va = .ok t pa attr) :
    threadAtomic s n k va size sc f = busErr pa := by
  simp only [threadAtomic, hw, ht, hp, hj, Bool.false_eq_true, if_false]

end

/-! ## The obligation -/

/-- Settles O14: the spread view's home bytes lie in the home view, an address of the domain lies above every range of the device itself,
and a translated address in no range leaves each access only its BUSERR. -/
theorem addressMap : Obligations.AddressMap := by
  refine ⟨fun s o ho => ?_, fun s => ?_, fun s x hx => ?_, fun s t n k va size pol v p sc attr pa f hp hj hw => ?_,
    fun s o ho => placeOf_farOff s ho⟩
  · rw [← spreadHome_spread]
    have hspread := placeOf_spread_add s ho
    have hlt := spreadHome_lt ho
    have hhome := placeOf_home s hlt
    refine ⟨hspread, hlt, hhome, ?_, fun p hp hpage => ⟨_, placeOf_spread_add s hp, ?_⟩⟩
    · rw [canonPa_home hspread, canonPa_home hhome]
    · rw [spreadHome_channel hp, spreadHome_channel ho, hpage]
  · exact placeOf_spread_add s (o := 0x1234567) (by decide)
  · refine ⟨fun hres hdev => ?_, fun hrefused => ?_⟩
    · rw [placeOf_domain_add hx, if_neg (not_or.mpr ⟨fun h => h hres, hdev⟩)]
    · rw [placeOf_domain_add hx, if_pos hrefused]
  · exact ⟨threadLoad_hole hp hj hw size pol, threadStore_hole hp hj hw size v pol p, threadAtomic_hole hp hj hw size sc f⟩

end Sys2Proof.Machine
end

section
/-! SUPPORT. Decoding gives back what was encoded (R102 to R105, R111). -/

namespace Sys2Proof

/-! ## The fields of a 32-bit word (R102) -/

/-- The fields of a word as the decoder of its major opcode reads them. -/
structure WordFields (w mop sl d a b f : Nat) : Prop where
  mop : w / 33554432 % 64 = mop
  slip : w / 8388608 % 4 = sl
  d : w / 131072 % 64 = d
  a : w / 2048 % 64 = a
  b : w / 32 % 64 = b
  f : w % 32 = f

/-- A word is the sum of its fields at their places; `k` holds bit 31, the major opcode and what the function adds. -/
theorem wordFields {w k sl d a b f : Nat} (he : w = k + sl * 8388608 + d * 131072 + a * 2048 + b * 32 + f) (hk : k % 33554432 = 0)
    (hsl : sl < 4) (hd : d < 64) (ha : a < 64) (hb : b < 64) (hf : f < 32) : WordFields w (k / 33554432 % 64) sl d a b f := by
  constructor <;> omega

section
variable {i : Instr} {k : Nat} {sl : BitVec 2} {d a b : BitVec 6}

/-- The decoder reads `i` from its word, and the word has bit 31 set. -/
def ReadsBack (i : Instr) : Prop := decodeRaw (encode i) = .ok i ∧ 2 ^ 31 ≤ encode i ∧ encode i < 2 ^ 32

/-- The decoder answers `i` for every word of these fields. -/
def DecodesTo (i : Instr) (mop sl d a b f : Nat) : Prop := ∀ w, WordFields w mop sl d a b f → decodeRaw w = .ok i

theorem readsBack_fields {d a b f : Nat} (he : encode i = k + sl.toNat * 8388608 + d * 131072 + a * 2048 + b * 32 + f)
    (hk : k % 33554432 = 0 ∧ 2 ^ 31 ≤ k ∧ k < 2 ^ 32) (hd : d < 64) (ha : a < 64) (hb : b < 64) (hf : f < 32)
    (h : DecodesTo i (k / 33554432 % 64) sl.toNat d a b f) : ReadsBack i :=
  ⟨h _ (wordFields he hk.1 sl.isLt hd ha hb hf), by have := sl.isLt; omega⟩

theorem readsBack_dab (he : encode i = k + sl.toNat * 8388608 + d.toNat * 131072 + a.toNat * 2048 + b.toNat * 32)
    (hk : k % 33554432 < 32 ∧ 2 ^ 31 ≤ k ∧ k < 2 ^ 32) (h : DecodesTo i (k / 33554432 % 64) sl.toNat d.toNat a.toNat b.toNat (k % 32)) :
    ReadsBack i := by
  have hm : (k - k % 32) / 33554432 = k / 33554432 := by omega
  exact readsBack_fields (k := k - k % 32) (f := k % 32) (by omega) (by omega) d.isLt a.isLt b.isLt (by omega) (hm ▸ h)

theorem readsBack_da (he : encode i = k + sl.toNat * 8388608 + d.toNat * 131072 + a.toNat * 2048)
    (hk : k % 33554432 < 32 ∧ 2 ^ 31 ≤ k ∧ k < 2 ^ 32)
    (h : DecodesTo i (k / 33554432 % 64) sl.toNat d.toNat a.toNat 0 (k % 32)) : ReadsBack i :=
  readsBack_dab (b := 0) (by simpa using he) hk h

theorem readsBack_db (he : encode i = k + sl.toNat * 8388608 + d.toNat * 131072 + b.toNat * 32)
    (hk : k % 33554432 < 32 ∧ 2 ^ 31 ≤ k ∧ k < 2 ^ 32)
    (h : DecodesTo i (k / 33554432 % 64) sl.toNat d.toNat 0 b.toNat (k % 32)) : ReadsBack i :=
  readsBack_dab (a := 0) (by simpa using he) hk h

theorem readsBack_ab (he : encode i = k + sl.toNat * 8388608 + a.toNat * 2048 + b.toNat * 32)
    (hk : k % 33554432 < 32 ∧ 2 ^ 31 ≤ k ∧ k < 2 ^ 32)
    (h : DecodesTo i (k / 33554432 % 64) sl.toNat 0 a.toNat b.toNat (k % 32)) : ReadsBack i :=
  readsBack_dab (d := 0) (by simpa using he) hk h

theorem readsBack_d (he : encode i = k + sl.toNat * 8388608 + d.toNat * 131072) (hk : k % 33554432 < 32 ∧ 2 ^ 31 ≤ k ∧ k < 2 ^ 32)
    (h : DecodesTo i (k / 33554432 % 64) sl.toNat d.toNat 0 0 (k % 32)) : ReadsBack i :=
  readsBack_da (a := 0) (by simpa using he) hk h

theorem readsBack_a (he : encode i = k + sl.toNat * 8388608 + a.toNat * 2048) (hk : k % 33554432 < 32 ∧ 2 ^ 31 ≤ k ∧ k < 2 ^ 32)
    (h : DecodesTo i (k / 33554432 % 64) sl.toNat 0 a.toNat 0 (k % 32)) : ReadsBack i :=
  readsBack_da (d := 0) (by simpa using he) hk h

theorem readsBack_slip (he : encode i = k + sl.toNat * 8388608) (hk : k % 33554432 < 32 ∧ 2 ^ 31 ≤ k ∧ k < 2 ^ 32)
    (h : DecodesTo i (k / 33554432 % 64) sl.toNat 0 0 0 (k % 32)) : ReadsBack i :=
  readsBack_d (d := 0) (by simpa using he) hk h

/-- An immediate in the low bits of a word, as its decoder cuts it out. -/
theorem ofNat_of_mod {n w : Nat} {v : BitVec n} (h : w % 2 ^ n = v.toNat) : BitVec.ofNat n w = v :=
  BitVec.eq_of_toNat_eq (by simpa using h)

theorem readsBack_imm11 {v : BitVec 11} (he : encode i = k + sl.toNat * 8388608 + d.toNat * 131072 + a.toNat * 2048 + v.toNat)
    (hk : k % 33554432 = 0 ∧ 2 ^ 31 ≤ k ∧ k < 2 ^ 32)
    (h : ∀ w, WordFields w (k / 33554432 % 64) sl.toNat d.toNat a.toNat (v.toNat / 32) (v.toNat % 32) → BitVec.ofNat 11 w = v →
      decodeRaw w = .ok i) : ReadsBack i := by
  have hv := v.isLt
  exact readsBack_fields (by omega) hk d.isLt a.isLt (by omega) (by omega)
    fun w F => h w F (ofNat_of_mod (by obtain ⟨hm, hs, hd, ha, hb, hf⟩ := F; omega))

/-- An immediate or offset of the low 17 bits, below the slip and a field `d`. -/
theorem readsBack_imm17 {d v : Nat} (he : encode i = k + sl.toNat * 8388608 + d * 131072 + v)
    (hk : k % 33554432 = 0 ∧ 2 ^ 31 ≤ k ∧ k < 2 ^ 32) (hd : d < 64)
    (hv : v < 131072) (h : ∀ w, WordFields w (k / 33554432 % 64) sl.toNat d (v / 2048) (v / 32 % 64) (v % 32) → w % 131072 = v →
      decodeRaw w = .ok i) : ReadsBack i :=
  readsBack_fields (by omega) hk hd (by omega) (by omega) (by omega)
    fun w F => h w F (by obtain ⟨hm, hs, hd, ha, hb, hf⟩ := F; omega)

end

/-! ## The word decoder inverts the encoder -/

/-- Before the limits of R112 are checked the decoder reads every instruction from its word: the function, or the major opcode alone,
selects the constructor, and the fields that the format leaves free are 0. -/
theorem readsBack_encode {i : Instr} (hl : i.is32 = true) : ReadsBack i := by
  cases i with
  | add sl d a b | sub sl d a b | mul sl d a b | mulh sl d a b | div sl d a b | rem sl d a b | min sl d a b | max sl d a b
  | and sl d a b | or sl d a b | xor sl d a b | andn sl d a b | shl sl d a b | shr sl d a b | rol sl d a b | ror sl d a b
  | seteq sl d a b | setne sl d a b | setlt sl d a b | setle sl d a b | absd sl d a b | fits sl d a b | borrow sl d a b
  | fadd sl d a b | fsub sl d a b | fmul sl d a b | fdiv sl d a b | fmin sl d a b | fmax sl d a b | fseteq sl d a b
  | fsetlt sl d a b | fsetle sl d a b | fsetun sl d a b | fcpys sl d a b | ffma sl d a b | ffms sl d a b | rcps sl d a b
  | rsqs sl d a b | callat sl d a b | recv sl d a b | tryrecv sl d a b | bari sl d a b | arrive sl d a b | waitb sl d a b
  | waitch sl d a b | spill sl d a b | fill sl d a b | flush sl d a b | inv sl d a b | ldx sl d a b | stx sl d a b
  | stc sl d a b | aadd sl d a b | aand sl d a b | aor sl d a b | axor sl d a b | amin sl d a b | amax sl d a b | aswp sl d a b
  | acas sl d a b | faadd sl d a b | hold sl d a b | will sl d a b | estq sl d a b | keep sl d a b | chain sl d a b
  | reduce sl d a b | gather sl d a b | scatter sl d a b | cpyb sl d a b | fills sl d a b | xform sl d a b | mma sl d a b
  | mmad sl d a b | topk sl d a b | drn sl d a b | drn2 sl d a b | asave sl d a b | arst sl d a b | getp sl d a b
  | putp sl d a b | licf sl d a b | evict sl d a b | fcvt sl d a b | frnd sl d a b | push sl d a b =>
    exact readsBack_dab rfl (by decide) fun w F => by
      obtain ⟨hm, hs, hd, ha, hb, hf⟩ := F
      simp [decodeRaw, accept, decode01, decode02, decode14, decode18, decode19, decode1A, decode23, decode24, decode2C, decode2D,
        decode2E, decode30, decode34, decode38, hm, hs, hd, ha, hb, hf]
  | mov sl d a | neg sl d a | abs sl d a | not sl d a | clz sl d a | ctz sl d a | popc sl d a | brev sl d a | getw sl d a
  | getm sl d a | twxch sl d a | mapq sl d a | fabs sl d a | fneg sl d a | fclass sl d a | fsqrt sl d a | rcpa sl d a
  | rsqa sl d a | exp2a sl d a | log2a sl d a | siga sl d a | tanha sl d a | callr sl d a | waitany sl d a | waitall sl d a
  | ffr sl d a | lock sl d a | unlock sl d a | relh sl d a | convey sl d a | awaitp sl d a | prmq sl d a | resume sl d a
  | xput sl d a =>
    exact readsBack_da rfl (by decide) fun w F => by
      obtain ⟨hm, hs, hd, ha, hb, hf⟩ := F
      simp [decodeRaw, accept, decode02, decode14, decode19, decode23, decode24, decode2E, decode38, hm, hs, hd, ha, hb, hf]
  | rsz sl d b | setm sl d b | xget sl d b | gets sl d b | chstat sl d b | fence sl d b | getf sl d b | mwait sl d b
  | ckpt sl d b | ibpeek sl d b | ibtake sl d b | qstat sl d b =>
    exact readsBack_db rfl (by decide) fun w F => by
      obtain ⟨hm, hs, hd, ha, hb, hf⟩ := F
      simp [decodeRaw, accept, decode14, decode24, decode2C, decode30, decode34, decode38, hm, hs, hd, ha, hb, hf]
  | puts sl a b | send sl a b | pf sl a b | setf sl a b | sret sl a b | tlbi sl a b | trace sl a b =>
    exact readsBack_ab rfl (by decide) fun w F => by
      obtain ⟨hm, hs, hd, ha, hb, hf⟩ := F
      simp [decodeRaw, accept, decode14, decode24, decode2C, decode30, decode38, hm, hs, hd, ha, hb, hf]
  | licq sl d | licw sl d | licr sl d | lics sl d | slots sl d | defer sl d =>
    exact readsBack_d rfl (by decide) fun w F => by
      obtain ⟨hm, hs, hd, ha, hb, hf⟩ := F
      simp [decodeRaw, accept, decode34, decode38, hm, hs, hd, hf]
      omega
  | mapld sl a | jmp sl a | ret sl a | exit sl a | dep sl a | tagclr sl a | prmk sl a | srand sl a =>
    exact readsBack_a rfl (by decide) fun w F => by
      obtain ⟨hm, hs, hd, ha, hb, hf⟩ := F
      simp [decodeRaw, accept, decode14, decode23, decode24, decode2E, decode30, hm, hs, hd, ha, hb, hf]
  | giveback sl | yield sl | brk sl | nop sl =>
    exact readsBack_slip rfl (by decide) fun w F => by
      obtain ⟨hm, hs, hd, ha, hb, hf⟩ := F
      simp [decodeRaw, accept, decode14, decode23, hm, hs, hf]
      omega
  | addi sl d a i | muli sl d a i | andi sl d a i | ori sl d a i | xori sl d a i | seteqi sl d a i | setlti sl d a i
  | ld sl d a i | st sl d a i | lda sl d a i | stl sl d a i =>
    exact readsBack_imm11 rfl (by decide) fun w F hv => by
      obtain ⟨hm, hs, hd, ha, hb, hf⟩ := F
      simp [decodeRaw, accept, decode06, decode07, decode08, decode09, decode0A, decode0D, decode0E, decode28, decode29, decode2A,
        decode2B, hm, hs, hd, ha, hv]
  | sel sl d a b p =>
    exact readsBack_fields (encode_sel sl d a b p) (by decide) d.isLt a.isLt b.isLt p.isLt fun w F => by
      obtain ⟨hm, hs, hd, ha, hb, hf⟩ := F
      simp [decodeRaw, accept, decode03, hm, hs, hd, ha, hb, hf]
  | bfx sl d a p l =>
    exact readsBack_fields (encode_bfx sl d a p l) (by decide) d.isLt a.isLt p.isLt l.isLt fun w F => by
      obtain ⟨hm, hs, hd, ha, hb, hf⟩ := F
      simp [decodeRaw, accept, decode04, hm, hs, hd, ha, hb, hf]
  | bfi sl d a p l =>
    exact readsBack_fields (encode_bfi sl d a p l) (by decide) d.isLt a.isLt p.isLt l.isLt fun w F => by
      obtain ⟨hm, hs, hd, ha, hb, hf⟩ := F
      simp [decodeRaw, accept, decode05, hm, hs, hd, ha, hb, hf]
  | shli sl d a v | shri sl d a v =>
    have hv := v.isLt
    exact readsBack_imm17 (Nat.add_assoc ..) (by decide) d.isLt (by omega) fun w F hw => by
      obtain ⟨hm, hs, hd, ha, hb, hf⟩ := F
      have ha' : w / 2048 % 64 = a.toNat := by omega
      have hz : w / 64 % 32 = 0 := by omega
      have hv' : BitVec.ofNat 6 w = v := ofNat_of_mod (by omega)
      simp [decodeRaw, accept, decode0B, decode0C, hm, hs, hd, ha', hz, hv']
  | movi sl d v =>
    exact readsBack_imm17 (encode_movi sl d v) (by decide) d.isLt v.isLt fun w F hw => by
      simp [decodeRaw, accept, decode0F, F.mop, F.slip, F.d, ofNat_of_mod (n := 17) hw]
  | call sl d v =>
    exact readsBack_imm17 (encode_call sl d v) (by decide) d.isLt v.isLt fun w F hw => by
      simp [decodeRaw, accept, decode21, F.mop, F.slip, F.d, ofNat_of_mod (n := 17) hw]
  | movk q sl d v =>
    have hv := v.isLt
    have hq := q.isLt
    exact readsBack_imm17 (encode_movk q sl d v) (by omega) d.isLt (by omega) fun w F hw => by
      have hm : w / 33554432 % 64 = 16 + q.toNat := by rw [F.mop]; omega
      have hz : w / 65536 % 2 = 0 := by omega
      have hv' : BitVec.ofNat 16 w = v := ofNat_of_mod (by omega)
      obtain h | h | h | h : q.toNat = 0 ∨ q.toNat = 1 ∨ q.toNat = 2 ∨ q.toNat = 3 := by omega
      all_goals
        simp [decodeRaw, accept, decode10, decode11, decode12, decode13, hm, h, F.slip, F.d, hz, hv']
        exact BitVec.eq_of_toNat_eq h.symm
  | oxi sl m q k v =>
    have hm' := m.isLt
    have hq := q.isLt
    have hk := k.isLt
    exact readsBack_imm17 (sl := sl) (d := m.toNat * 32 + q.toNat * 8 + k.toNat) (k := 0xAA000000) (by simp only [encode]; omega)
      (by decide) (by omega) v.isLt
      fun w F hw => by
        obtain ⟨hm, hs, hd, ha, hb, hf⟩ := F
        have em : BitVec.ofNat 1 (w / 4194304) = m := ofNat_of_mod (by omega)
        have eq : BitVec.ofNat 2 (w / 1048576) = q := ofNat_of_mod (by omega)
        have ek : BitVec.ofNat 3 (w / 131072) = k := ofNat_of_mod (by omega)
        simp [decodeRaw, accept, decode15, hm, hs, em, eq, ek, ofNat_of_mod (n := 17) hw]
  | br sl c t o =>
    have ht := t.isLt
    have ho := o.isLt
    exact readsBack_imm17 (Nat.add_assoc ..) (by decide) c.isLt (by omega) fun w F hw => by
      have et : BitVec.ofNat 2 (w / 32768) = t := ofNat_of_mod (by omega)
      have eo : BitVec.ofNat 15 w = o := ofNat_of_mod (by omega)
      simp [decodeRaw, accept, decode20, F.mop, F.slip, F.d, et, eo]
  | loop sl c o =>
    have ho := o.isLt
    exact readsBack_imm17 (sl := sl) (v := 32768 + o.toNat) (k := 0xC4000000) (by simp only [encode]; omega) (by decide) c.isLt
      (by omega) fun w F hw => by
      have hz : w / 32768 % 4 = 1 := by omega
      have eo : BitVec.ofNat 15 w = o := ofNat_of_mod (by omega)
      simp [decodeRaw, accept, decode22, F.mop, F.slip, F.d, hz, eo]
  | trap sl b =>
    exact readsBack_fields (sl := sl) (d := 0) (a := 0) (k := 0xC6000000) (f := 5) (by simp only [encode]; omega) (by decide) (by omega)
      (by omega) b.isLt
      (by omega) fun w F => by
        obtain ⟨hm, hs, hd, ha, hb, hf⟩ := F
        have hz : w / 2048 % 4096 = 0 := by omega
        simp [decodeRaw, accept, decode23, hm, hs, hb, hf, hz]
  | oxl sl k a =>
    have hk := k.isLt
    exact readsBack_fields (sl := sl) (d := k.toNat) (b := 0) (k := 0xA8000000) (f := 11) (by simp only [encode]; omega) (by decide)
      (by omega) a.isLt
      (by omega) (by omega) fun w F => by
        obtain ⟨hm, hs, hd, ha, hb, hf⟩ := F
        have hz : w / 1048576 % 8 = 0 := by omega
        have ek : BitVec.ofNat 3 (w / 131072) = k := ofNat_of_mod (by omega)
        simp [decodeRaw, accept, decode14, hm, hs, ha, hb, hf, hz, ek]
  | oxr sl d k =>
    have hk := k.isLt
    exact readsBack_fields (sl := sl) (a := 0) (b := k.toNat) (k := 0xA8000000) (f := 12) (by simp only [encode]; omega)
      (by decide) d.isLt (by omega)
      (by omega) (by omega) fun w F => by
        obtain ⟨hm, hs, hd, ha, hb, hf⟩ := F
        have hz : w / 256 % 512 = 0 := by omega
        have ek : BitVec.ofNat 3 (w / 32) = k := ofNat_of_mod (by omega)
        simp [decodeRaw, accept, decode14, hm, hs, hd, hf, hz, ek]
  | oxclr sl m k =>
    have hm' := m.isLt
    have hk := k.isLt
    exact readsBack_fields (sl := sl) (d := m.toNat * 32 + k.toNat) (a := 0) (b := 0) (k := 0xA8000000) (f := 13)
      (by simp only [encode]; omega) (by decide)
      (by omega) (by omega) (by omega) (by omega) fun w F => by
        obtain ⟨hm, hs, hd, ha, hb, hf⟩ := F
        have hz : w / 32 % 4096 = 0 := by omega
        have hz' : w / 1048576 % 4 = 0 := by omega
        have em : BitVec.ofNat 1 (w / 4194304) = m := ofNat_of_mod (by omega)
        have ek : BitVec.ofNat 3 (w / 131072) = k := ofNat_of_mod (by omega)
        simp [decodeRaw, accept, decode14, hm, hs, hf, hz, hz', em, ek]
  | spawn sl d a u =>
    have hu := u.isLt
    exact readsBack_fields (sl := sl) (b := u.toNat) (k := 0xC8000000) (f := 4) (by simp only [encode]; omega) (by decide) d.isLt a.isLt
      (by omega) (by omega)
      fun w F => by
        obtain ⟨hm, hs, hd, ha, hb, hf⟩ := F
        have hz : w / 64 % 32 = 0 := by omega
        have eu : BitVec.ofNat 1 (w / 32) = u := ofNat_of_mod (by omega)
        simp [decodeRaw, accept, decode24, hm, hs, hd, ha, hf, hz, eu]
  | aclr sl m =>
    have hm' := m.isLt
    exact readsBack_fields (sl := sl) (d := 0) (a := 0) (b := m.toNat) (k := 0xE8000000) (f := 7) (by simp only [encode]; omega)
      (by decide) (by omega) (by omega)
      (by omega) (by omega) fun w F => by
        obtain ⟨hm, hs, hd, ha, hb, hf⟩ := F
        have hz : w / 512 % 16384 = 0 := by omega
        have em : BitVec.ofNat 4 (w / 32) = m := ofNat_of_mod (by omega)
        simp [decodeRaw, accept, decode34, hm, hs, hf, hz, em]
  | ppt sl m =>
    have hm' := m.isLt
    exact readsBack_fields (sl := sl) (d := 0) (a := 0) (b := m.toNat) (k := 0xE8000000) (f := 12) (by simp only [encode]; omega)
      (by decide) (by omega) (by omega)
      (by omega) (by omega) fun w F => by
        obtain ⟨hm, hs, hd, ha, hb, hf⟩ := F
        have hz : w / 512 % 16384 = 0 := by omega
        have em : BitVec.ofNat 4 (w / 32) = m := ofNat_of_mod (by omega)
        simp [decodeRaw, accept, decode34, hm, hs, hf, hz, em]
  | kill sl d a y h =>
    have hy := y.isLt
    have hh := h.isLt
    exact readsBack_fields (sl := sl) (b := y.toNat * 2 + h.toNat) (k := 0xF0000000) (f := 5) (by simp only [encode]; omega)
      (by decide) d.isLt a.isLt
      (by omega) (by omega) fun w F => by
        obtain ⟨hm, hs, hd, ha, hb, hf⟩ := F
        have hz : w / 128 % 16 = 0 := by omega
        have ey : BitVec.ofNat 1 (w / 64) = y := ofNat_of_mod (by omega)
        have eh : BitVec.ofNat 1 (w / 32) = h := ofNat_of_mod (by omega)
        simp [decodeRaw, accept, decode38, hm, hs, hd, ha, hf, hz, ey, eh]
  | _ => cases hl

/-- A well-formed instruction passes the limits of R112. -/
theorem decode32_encode {i : Instr} (hl : i.is32 = true) (hw : i.wf = true) : decode32 (encode i) = .ok i := by
  simp only [decode32, (readsBack_encode hl).1, hw, if_true]

/-! ## Compact parcels (R105) -/

theorem decode16_fields {i : Instr} {k : Nat} {d a : BitVec 5} (he : encode i = k + d.toNat * 32 + a.toNat) (hk : k % 1024 = 0 ∧ k < 2 ^ 15)
    (h : ∀ w, w / 1024 % 32 = k / 1024 % 32 → w / 32 % 32 = d.toNat → w % 32 = a.toNat → decode16 w = .ok i) :
    decode16 (encode i) = .ok i ∧ encode i < 2 ^ 15 := by
  have hd := d.isLt
  have ha := a.isLt
  exact ⟨h _ (by omega) (by omega) (by omega), by omega⟩

theorem decode16_encode {i : Instr} (hc : i.isCompact = true) : decode16 (encode i) = .ok i ∧ encode i < 2 ^ 15 := by
  cases i with
  | addCompact d a | subCompact d a | andCompact d a | orCompact d a | xorCompact d a | movCompact d a | addiCompact d a
  | shliCompact d a | shriCompact d a | seteqCompact d a | setltCompact d a | ldCompact d a | stCompact d a | brz d a | brnz d a
  | faddCompact d a | fmulCompact d a =>
    exact decode16_fields rfl (by decide) fun w hc hd ha => by simp [decode16, hc, hd, ha]
  | nopCompact | yieldCompact => exact ⟨rfl, by decide⟩
  | _ => cases hc

/-! ## The bytes of an instruction -/

/-- A compact instruction is no 32-bit one. -/
theorem is32_of_isCompact {i : Instr} (hc : i.isCompact = true) : i.is32 = false := by
  cases i with
  | addCompact | subCompact | andCompact | orCompact | xorCompact | movCompact | addiCompact | shliCompact | shriCompact | seteqCompact
  | setltCompact | ldCompact | stCompact | brz | brnz | faddCompact | fmulCompact | nopCompact | yieldCompact => rfl
  | _ => cases hc

/-- Settles O2: each word's major opcode and function select the constructor that it was encoded from, and its fields the operands. -/
theorem encodeDecode : Obligations.EncodeDecode := by
  intro i r hw
  refine ⟨fun hl => ?_, fun hc => ?_⟩
  · obtain ⟨hd, hlo, hhi⟩ := readsBack_encode hl
    simp only [encodeBytes, hl, if_true]
    exact decodeBytes_long _ hlo hhi r i (decode32_encode hl hw)
  · obtain ⟨hd, hlt⟩ := decode16_encode hc
    have hl : i.is32 = false := is32_of_isCompact hc
    simp only [encodeBytes, hl, hc, if_true, Bool.false_eq_true, if_false]
    exact decodeBytes_short _ hlt r i hd

end Sys2Proof
end

section
/-! SUPPORT. Every instruction of a running slot and every event answers a next state (R8, R113). -/

namespace Sys2Proof.Machine

section
variable {s : State}

theorem run_answers (h : s.running = true) (i : Instr) (len sl : Nat) (body : State → Eff) : ∃ t, run i len sl body s = .next t :=
  ⟨_, if_pos h⟩

/-- A system instruction traps PRIV in a user slot and runs in the system slot (R308). -/
theorem runSys_answers (h : s.running = true) (i : Instr) (sl : BitVec 2) (body : State → Eff) : ∃ t, runSys i sl body s = .next t := by
  unfold runSys
  split
  · exact ⟨_, rfl⟩
  · exact run_answers h i 4 sl.toNat body

/-- An encoded instruction answers when its slot runs; an event answers always. -/
theorem exec_answers {i : Instr} (h : isEvent i = true ∨ s.running = true) : ∃ t, exec i s = .next t := by
  cases i with
  | add | sub | mul | mulh | div | rem | min | max | and | or | xor | andn | shl | shr | rol | ror | seteq | setne | setlt
  | setle | absd | mov | neg | abs | not | clz | ctz | popc | brev | fits | getw | getm | sel | bfx | bfi | addi | muli | andi
  | ori | xori | shli | shri | seteqi | setlti | movi | movk | rsz | setm | borrow | giveback | xget | xput | twxch | mapld
  | mapq | gets | puts | oxl | oxr | oxclr | oxi | fadd | fsub | fmul | fdiv | fmin | fmax | fseteq | fsetlt | fsetle | fsetun
  | fcpys | fabs | fneg | fcvt | frnd | fclass | fsqrt | rcpa | rsqa | exp2a | log2a | siga | tanha | ffma | ffms | rcps | rsqs
  | br | call | loop | jmp | callr | ret | yield | exit | nop | callat | send | recv | tryrecv | chstat | spawn
  | dep | waitany | waitall | ffr | tagclr | bari | arrive | waitb | waitch | push | qstat | ld | st | lda | stl | spill | fill
  | pf | flush | inv | fence | ldx | stx | stc | aadd | aand | aor | axor | amin | amax | aswp | acas | faadd | lock | unlock
  | hold | will | relh | convey | estq | prmk | keep | awaitp | prmq | chain | reduce | gather | scatter | cpyb | fills | setf
  | getf | xform | srand | licq | licw | licr | lics | mma | mmad | topk | aclr | drn | drn2 | asave | arst | ppt | mwait
  | addCompact | subCompact | andCompact | orCompact | xorCompact | movCompact | addiCompact | shliCompact | shriCompact
  | seteqCompact | setltCompact | ldCompact | stCompact | brz | brnz | nopCompact | yieldCompact | faddCompact | fmulCompact =>
    exact run_answers (h.resolve_left Bool.false_ne_true) ..
  | sret | getp | putp | tlbi | ckpt | kill | slots | licf | ibpeek | ibtake | defer | resume | evict | trace =>
    exact runSys_answers (h.resolve_left Bool.false_ne_true) ..
  | trap sl b => exact run_answers (h.resolve_left Bool.false_ne_true) _ 4 sl.toNat fun _ => .trap .syscall (.ofNat 64 b.toNat)
  | brk sl => exact run_answers (h.resolve_left Bool.false_ne_true) _ 4 sl.toNat fun _ => .trap .brk 0
  | _ => exact ⟨_, rfl⟩

end

/-- Settles O6: an encoded instruction runs behind one check, that its slot runs, and an event acts or leaves the state as it is. -/
theorem execAnswers : Obligations.ExecAnswers := fun _ _ h => exec_answers h

/-! ## What a load or a fetch leaves of the slots

Loads and stores in the caches, translations and fetches keep every slot but for the rows that a window read or a fetch brings in. -/

theorem keepsSlots_modPair (s : State) (n : Nat) (f : Pair → Pair) : KeepsSlots s (s.modPair n f) := keepsSlots_of_cores rfl rfl

theorem keepsSlots_l1Drop (s : State) (n a : Nat) : KeepsSlots s (l1Drop s n a) := keepsSlots_modCore s n fun _ => rfl

theorem keepsSlots_l1Place (s : State) (n : Nat) (l : Line) : KeepsSlots s (l1Place s n l) := by
  unfold l1Place
  refine .trans ?_ (keepsSlots_modCore _ n fun _ => rfl)
  split
  · exact .refl s
  · exact ((keepsSlots_l1ToL2 ..).trans (keepsSlots_l1Drop ..)).trans (keepsSlots_of_cores rfl rfl)

theorem keepsSlots_fst_ite {α : Type} {c : Prop} [Decidable c] {s : State} {p q : State × α} (hp : KeepsSlots s p.1)
    (hq : KeepsSlots s q.1) : KeepsSlots s (if c then p else q).1 := by split <;> assumption

theorem keepsSlots_l1Fill (s : State) (n a need : Nat) (keep : Bool) : KeepsSlots s (l1Fill s n a need keep).1 := by
  unfold l1Fill
  refine keepsSlots_fst_ite ?_ ((keepsSlots_l2Fetch ..).trans (keepsSlots_l1Place ..))
  split
  · dsimp only
    exact keepsSlots_modCore s n fun _ => rfl
  · exact .refl s

theorem keepsSlots_cacheLoad (s : State) (n a off size pol : Nat) : KeepsSlots s (cacheLoad s n a off size pol).1 := by
  unfold cacheLoad
  refine keepsSlots_fst_ite ?_ (keepsSlots_fst_ite ?_ (keepsSlots_l1Fill ..))
  · refine .trans ?_ (keepsSlots_metaCheck ..)
    refine .trans ?_ (keepsSlots_modCluster ..)
    exact ((keepsSlots_l1ToL2 ..).trans (keepsSlots_recallOwned ..)).trans (keepsSlots_l1Drop ..)
  · exact (keepsSlots_l1ToL2 ..).trans (keepsSlots_l2Fetch ..)

theorem keepsSlots_lineLoad (s : State) (n a size attr pol : Nat) : KeepsSlots s (lineLoad s n a size attr pol).1 := keepsSlots_cacheLoad ..

theorem keepsSlots_cacheStore (s : State) (n a off size v pol poison : Nat) (ctx : BitVec 16) :
    KeepsSlots s (cacheStore s n a off size v pol poison ctx) := by
  unfold cacheStore
  dsimp only
  split
  · refine .trans ?_ (keepsSlots_homeWrite ..)
    refine .trans ?_ (keepsSlots_modCluster ..)
    exact ((keepsSlots_l1ToL2 ..).trans (keepsSlots_recallOwned ..)).trans (keepsSlots_l1Drop ..)
  · split
    · split
      · exact (keepsSlots_l1ToL2 ..).trans (keepsSlots_l2Write ..)
      · exact ((keepsSlots_l1ToL2 ..).trans (keepsSlots_l2Write ..)).trans (keepsSlots_modCore _ n fun _ => rfl)
    · exact (keepsSlots_l1Fill ..).trans (keepsSlots_modCore _ n fun _ => rfl)

theorem keepsSlots_lineStore (s : State) (n a size v attr pol poison : Nat) : KeepsSlots s (lineStore s n a size v attr pol poison) :=
  keepsSlots_cacheStore ..

theorem keepsSlots_writeRows (s : State) (n : Nat) (f : FormerRows) : KeepsSlots s (writeRows s n f) := by
  unfold writeRows
  exact (keepsSlots_foldl (fun s k => keepsSlots_ite (keepsSlots_lineStore ..) (.refl s)) _ s).trans (keepsSlots_modCore _ n fun _ => rfl)

theorem keepsSlots_evictFormer (s : State) (n : Nat) (f : FormerRows) (m : BitVec 32) : KeepsSlots s (evictFormer s n f m) := by
  unfold evictFormer
  exact (keepsSlots_writeRows ..).trans (keepsSlots_modCore _ n fun _ => rfl)

theorem keepsSlots_roomForRow (s : State) (n k : Nat) : KeepsSlots s (roomForRow s n k) := by
  unfold roomForRow
  split
  · exact .refl s
  · split
    · exact .refl s
    · dsimp only
      split
      · exact (keepsSlots_ticked s).trans (keepsSlots_evictFormer ..)
      · exact .refl s

theorem keepsSlots_tlbEnter (s : State) (n : Nat) (e : TlbEntry) : KeepsSlots s (tlbEnter s n e) := by
  unfold tlbEnter
  refine .trans ?_ (keepsSlots_modCluster ..)
  exact keepsSlots_modCore s n fun _ => rfl

/-- A property of the state that a translation leaves. -/
def Xlat.leaves (P : State → Prop) : Xlat → Prop
  | .ok t _ _ => P t
  | .trap _ _ => True

theorem xlat_leaves_ite {P : State → Prop} {c : Prop} [Decidable c] {a b : Xlat} (ha : a.leaves P) (hb : b.leaves P) :
    (if c then a else b).leaves P := by split <;> assumption

theorem leaves_useLeaf {P : State → Prop} {s : State} (h : P s) (need : Need) (user : Bool) (va e log : Nat) :
    (useLeaf s need user va e log).leaves P := xlat_leaves_ite h trivial

/-- A translation enters at most a TLB entry, whatever its walk finds. -/
theorem leaves_translate (s : State) (n : Nat) (user : Bool) (need : Need) (va : Nat) :
    (translate s n user need va).leaves (KeepsSlots s) := by
  unfold translate
  refine xlat_leaves_ite trivial (xlat_leaves_ite (xlat_leaves_ite trivial (.refl s)) ?_)
  extract_lets -underBinder ctx held fresh old
  clear_value ctx held fresh old
  split
  · exact leaves_useLeaf (keepsSlots_ticked s) ..
  · split
    · trivial
    · trivial
    · trivial
    · exact leaves_useLeaf ((keepsSlots_ite (keepsSlots_ticked s) (.refl s)).trans (keepsSlots_tlbEnter ..)) ..

theorem keepsSlots_translate {s t : State} {n : Nat} {user : Bool} {need : Need} {va pa attr : Nat}
    (h : translate s n user need va = .ok t pa attr) : KeepsSlots s t := by
  have hl := leaves_translate s n user need va
  rwa [h] at hl

theorem keepsSlots_codeLine (s : State) (n a : Nat) : KeepsSlots s (codeLine s n a).1 := by
  have place (t : State) (h : KeepsSlots s t) (l : Line) :
      KeepsSlots s (t.modCore n (fun c => { c with icache := (putLine c.icache l).take 512 })) :=
    h.trans (keepsSlots_modCore _ n fun _ => rfl)
  have hf := keepsSlots_l2Fetch s (clusterOf n) a
  unfold codeLine
  dsimp only
  split
  · split
    · exact .refl s
    · split
      · exact keepsSlots_ticked s
      · exact place _ (hf.trans (keepsSlots_ticked _)) _
  · exact place _ hf _

/-! ## Phases -/

/-- The same party is current, and every slot is in the phase it was in. -/
structure KeepsPhases (s t : State) : Prop where
  cur : t.cur = s.cur
  phase : ∀ n k, (t.slot n k).phase = (s.slot n k).phase

theorem KeepsSlots.keepsPhases {s t : State} (h : KeepsSlots s t) : KeepsPhases s t := ⟨h.cur, fun n k => by rw [h.slot]⟩

theorem KeepsPhases.refl (s : State) : KeepsPhases s s := ⟨rfl, fun _ _ => rfl⟩

theorem KeepsPhases.trans {s t u : State} (h : KeepsPhases s t) (g : KeepsPhases t u) : KeepsPhases s u :=
  ⟨g.cur.trans h.cur, fun n k => (g.phase n k).trans (h.phase n k)⟩

theorem KeepsPhases.running {s t : State} (h : KeepsPhases s t) : t.running = s.running := by
  simp only [State.running, State.me, h.cur, h.phase]

theorem keepsPhases_modSlot (s : State) (n k : Nat) {f : Slot → Slot} (hf : ∀ x, (f x).phase = x.phase) :
    KeepsPhases s (s.modSlot n k f) := by
  refine ⟨rfl, fun m j => ?_⟩
  by_cases h : m = n ∧ j = k
  · obtain ⟨rfl, rfl⟩ := h
    rw [modSlot_same, hf]
  · rw [modSlot_other s n k f m j (by omega)]

theorem keepsPhases_fillRow (s : State) (n k row : Nat) (bad : Bool) : KeepsPhases s (fillRow s n k row bad) := by
  unfold fillRow
  dsimp only
  exact ((keepsSlots_roomForRow ..).trans (keepsSlots_lineLoad ..)).keepsPhases.trans (keepsPhases_modSlot _ n k fun _ => rfl)

theorem keepsPhases_fillBorrow (s : State) (n k r : Nat) (bad : Bool) : KeepsPhases s (fillBorrow s n k r bad) := by
  unfold fillBorrow
  split
  · exact keepsPhases_modSlot _ n k fun _ => rfl
  · dsimp only
    exact ((keepsSlots_roomForRow ..).trans (keepsSlots_lineLoad ..)).keepsPhases.trans (keepsPhases_modSlot _ n k fun _ => rfl)

theorem keepsPhases_ite {c : Prop} [Decidable c] {s t u : State} (ht : KeepsPhases s t) (hu : KeepsPhases s u) :
    KeepsPhases s (if c then t else u) := by split <;> assumption

theorem keepsPhases_needRow (s : State) (n k : Nat) (g : Region) (row : Nat) : KeepsPhases s (needRow s n k g row) := by
  unfold needRow
  split
  · split
    · exact keepsPhases_ite (.refl s) (keepsPhases_fillBorrow ..)
    · exact keepsPhases_ite (.refl s) (keepsPhases_fillRow ..)
  · exact .refl s

/-- A property of the state that an access leaves. -/
def Access.leaves (P : State → Prop) : Access → Prop
  | .ok t _ _ _ | .wait t | .remote t _ _ => P t
  | .trap _ _ => True

theorem leaves_busErr {P : State → Prop} (pa : Nat) : (busErr pa).leaves P := trivial

theorem leaves_ite {P : State → Prop} {c : Prop} [Decidable c] {a b : Access} (ha : a.leaves P) (hb : b.leaves P) :
    (if c then a else b).leaves P := by split <;> assumption

/-- An access to a tile notes at most that it waits. -/
theorem leaves_tileAccess {s : State} {q : Req} {n t : Nat} {perform : State → Access}
    (h : ∀ u, KeepsSlots s u → (perform u).leaves (KeepsPhases s)) : (tileAccess s q n t perform).leaves (KeepsPhases s) := by
  have keeps (l : List AccWait) : KeepsSlots s (s.modCore n (fun c => { c with accWait := l })) := keepsSlots_modCore s n fun _ => rfl
  unfold tileAccess
  refine leaves_ite ?_ (h _ (keepsSlots_ite (.refl s) (keeps _)))
  exact (keepsSlots_ite (.refl s) (keeps _)).keepsPhases

theorem keepsPhases_nameRead {s t : State} {n off : Nat} {v : Word} {p : Option Word} (h : nameRead s n off = some (t, v, p)) :
    KeepsPhases s t := by
  simp only [nameRead] at h
  split at h
  · split at h
    · cases h
      exact .refl s
    split at h
    · cases h
      exact .refl s
    split at h <;> cases h
    exact keepsPhases_needRow ..
  split at h
  · cases h
    exact .refl s
  split at h
  · cases h
  split at h <;> cases h <;> exact .refl s

theorem leaves_windowRead (s : State) (q : Req) (n off size pa : Nat) (va : Word) :
    (windowRead s q n off size pa va).leaves (KeepsPhases s) := by
  have hs : KeepsPhases s s := .refl s
  unfold windowRead
  refine leaves_ite (leaves_busErr pa) (leaves_ite ?_ (leaves_ite ?_ (leaves_ite ?_ (leaves_ite ?_ (leaves_busErr pa)))))
  · exact leaves_ite hs (leaves_ite (keepsSlots_ticked s).keepsPhases hs)
  · exact leaves_ite (leaves_busErr pa) (leaves_tileAccess fun u hu => hu.keepsPhases)
  · refine leaves_ite (leaves_busErr pa) ?_
    split
    · exact hs
    next h => exact keepsPhases_nameRead h
    next h => exact keepsPhases_nameRead h
  · refine leaves_ite ?_ (leaves_ite trivial (leaves_busErr pa))
    split
    · exact leaves_busErr pa
    · exact leaves_ite hs (keepsPhases_needRow ..)

theorem keepsPhases_windowRead {s t : State} {q : Req} {n off size pa v p pa' : Nat} {va : Word}
    (h : windowRead s q n off size pa va = .ok t v p pa') : KeepsPhases s t := by
  have hl := leaves_windowRead s q n off size pa va
  rwa [h] at hl

/-! ## The fetch -/

/-- A property of the state that a fetch leaves when it finds bytes or an instruction. -/
def Fetched.leaves {α : Type} (P : State → Prop) : Fetched α → Prop
  | .ok t _ => P t
  | .wait _ | .trap _ _ _ _ => True

theorem fetched_leaves_ite {α : Type} {P : State → Prop} {c : Prop} [Decidable c] {a b : Fetched α} (ha : a.leaves P) (hb : b.leaves P) :
    (if c then a else b).leaves P := by split <;> assumption

theorem leaves_fetchParcel (s : State) (n k va : Nat) (len32 : Bool) : (fetchParcel s n k va len32).leaves (KeepsPhases s) := by
  unfold fetchParcel
  refine fetched_leaves_ite trivial ?_
  split
  · trivial
  next t pa attr hx =>
    have ht : KeepsPhases s t := (keepsSlots_translate hx).keepsPhases
    refine fetched_leaves_ite trivial ?_
    refine fetched_leaves_ite trivial ?_
    split
    · refine fetched_leaves_ite trivial (fetched_leaves_ite trivial ?_)
      exact ht.trans (keepsSlots_codeLine ..).keepsPhases
    · refine fetched_leaves_ite trivial (fetched_leaves_ite trivial ?_)
      exact ht.trans (keepsSlots_codeLine ..).keepsPhases
    · split
      next h =>
        exact fetched_leaves_ite trivial (ht.trans (keepsPhases_windowRead h))
      · trivial
      · trivial
      · trivial
    · exact fetched_leaves_ite trivial trivial
    · exact ht.trans (keepsSlots_ticked t).keepsPhases
    · trivial

theorem leaves_fetchBytes (s : State) (n k va : Nat) : (fetchBytes s n k va).leaves (KeepsPhases s) := by
  have hp := leaves_fetchParcel s n k va false
  unfold fetchBytes
  refine fetched_leaves_ite trivial ?_
  split
  · trivial
  · trivial
  next t p h =>
    rw [h] at hp
    refine fetched_leaves_ite ?_ hp
    have hq := leaves_fetchParcel t n k ((va + 2) % 2 ^ 64) true
    split
    · trivial
    · trivial
    next h' =>
      rw [h'] at hq
      exact hp.trans hq

theorem keepsPhases_fetchInstr {s t : State} {n k va : Nat} {i : Instr} (h : fetchInstr s n k va = .ok t i) : KeepsPhases s t := by
  have hb := leaves_fetchBytes s n k va
  simp only [fetchInstr] at h
  split at h
  · cases h
  · cases h
  next u bs hu =>
    rw [hu] at hb
    split at h <;> cases h
    exact hb

/-! ## A step -/

theorem issueSlot_answers {s : State} {n k : Nat} (hrun : s.running = true) : ∃ t, issueSlot s n k = .next t := by
  unfold issueSlot
  split
  next t i h => exact exec_answers (.inr ((keepsPhases_fetchInstr h).running.trans hrun))
  · exact ⟨_, rfl⟩
  · exact ⟨_, rfl⟩

theorem running_of_mayIssue {s : State} {n k : Nat} (h : mayIssue s n k = true) (hcur : s.cur = (n, k)) : s.running = true := by
  simp only [mayIssue, Bool.and_eq_true] at h
  obtain ⟨⟨⟨⟨⟨⟨hphase, -⟩, -⟩, -⟩, -⟩, -⟩, -⟩ := h
  simpa only [State.running, State.me, hcur] using hphase

theorem issueTurn_answers (s : State) (n : Nat) : ∃ t, issueTurn s n = .next t := by
  simp only [issueTurn]
  split
  next h => exact issueSlot_answers (running_of_mayIssue h rfl)
  · exact ⟨_, rfl⟩

theorem perform_answers (s : State) (m : Move) : ∃ t, perform s m = .next t := by
  cases m with
  | cycle n => exact issueTurn_answers (startCycle s (evenOf n)) (evenOf n)
  | issue n => exact issueTurn_answers s n
  | event i =>
    simp only [perform]
    split
    next h => exact exec_answers (.inl h)
    · exact ⟨_, rfl⟩
  | progress n i part u => exact ⟨engineProgress s n i part u, rfl⟩
  | uncorrectable n k rows => exact ⟨repackSpoil s n k rows, rfl⟩
  | flaw f old => exact ⟨flaw s f old, rfl⟩

/-- Settles O5: a move is an event, or the issue of a slot that runs; the fetch leaves that slot running. -/
theorem stepAnswers : Obligations.StepAnswers := by
  intro s
  unfold step
  split
  · exact perform_answers ..
  · unfold freely
    split
    · exact ⟨_, rfl⟩
    · exact perform_answers ..

end Sys2Proof.Machine
end


section
/-! SUPPORT. The integer instructions (R117 to R127, R105): what each arm computes once its checks pass, and the obligations that say it. -/

namespace Sys2Proof.Machine

/-! ## The end of an instruction that puts one integer -/

theorem finish16_putI (s : State) (word d l : Nat) (x : Int) : finish s 2 0 word (putI s d l x) = endsWith16 s d l x := by
  cases h : fitsIn s d x with
  | true => rw [putI_fits h, finish_done16, endsWith16, if_pos h]
  | false => rw [putI_trap h, finish_trap16, endsWith16, h, if_neg Bool.false_ne_true]

section
variable {i : Instr} {s : State} {r w : List Nat} {q : List KindReq} {body : State → Eff} {d l : Nat} {x : Int}
  (hu : usable s r w q = true) (hw : i.wf = true)
include hu hw

/-- Behind checks that pass, a 32-bit instruction ends as its effect does. -/
theorem run32_usable {e : Eff} (sl : BitVec 2) (hb : body s = pre s r w q e) :
    run32 i sl body s = .next (finish s 4 sl.toNat (encode i) e) := by
  rw [run32_running (usable_running hu) hw, hb, pre_usable hu]

theorem run16_usable {e : Eff} (hb : body s = pre s r w q e) : run16 i body s = .next (finish s 2 0 (encode i) e) := by
  rw [run16_running (usable_running hu) hw, hb, pre_usable hu]

theorem run32_puts (sl : BitVec 2) (hb : body s = pre s r w q (putI s d l x)) : run32 i sl body s = .next (endsWith s sl d l x) := by
  rw [run32_usable hu hw sl hb, finish_putI]

theorem run16_puts (hb : body s = pre s r w q (putI s d l x)) : run16 i body s = .next (endsWith16 s d l x) := by
  rw [run16_usable hu hw hb, finish16_putI]

end

/-! ## What the arms compute -/

theorem boolI_decide (p : Prop) [Decidable p] : boolI (decide p) = if p then 1 else 0 := by
  simp only [boolI, decide_eq_true_eq]

theorem boolI_decide_ne (x y : Int) : boolI (decide (x ≠ y)) = if x = y then 0 else 1 := by
  rw [boolI_decide]
  split <;> simp_all

theorem mulhI_eq (x y : Int) : mulhI x y = x * y / 2 ^ 64 := rfl

theorem shlI_eq (x y : Int) : shlI x y = x * 2 ^ (max 0 (min 127 y)).toNat := by
  simp only [shlI, shiftCount, Nat.cast_pow, Nat.cast_ofNat]

theorem shrI_eq (x y : Int) : shrI x y = x / 2 ^ (max 0 (min 127 y)).toNat := by
  simp only [shrI, shiftCount, Nat.cast_pow, Nat.cast_ofNat]

theorem absdI_eq (x y : Int) : absdI x y = if x ≤ y then y - x else x - y := by
  rw [absdI]
  split <;> omega

theorem natAbs_eq_max (x : Int) : (x.natAbs : Int) = max x (-x) := by omega

/-- The remainder of R121 is the one that goes with a quotient truncated towards zero. -/
theorem sub_mul_tdiv (x y : Int) : x - y * x.tdiv y = x.tmod y := (Int.tmod_def x y).symm

/-- Below 64 no shift count is clamped. -/
theorem shiftCount_field {n : Nat} (h : n < 128) : shiftCount n = n := by
  rw [shiftCount]
  omega

theorem shlI_field {n : Nat} (h : n < 128) (x : Int) : shlI x n = x * 2 ^ n := by
  simp only [shlI, shiftCount_field h, Nat.cast_pow, Nat.cast_ofNat]

theorem shrI_field {n : Nat} (h : n < 128) (x : Int) : shrI x n = x / 2 ^ n := by
  simp only [shrI, shiftCount_field h, Nat.cast_pow, Nat.cast_ofNat]

theorem extractI_eq (x : Int) (p l : Nat) : extractI x p l = x / 2 ^ p % 2 ^ l := by
  simp only [extractI, Nat.cast_pow, Nat.cast_ofNat]

theorem insertI_eq (x v : Int) (p l : Nat) : insertI x p l v = x - x / 2 ^ p % 2 ^ l * 2 ^ p + v % 2 ^ l * 2 ^ p := by
  simp only [insertI, Nat.cast_pow, Nat.cast_ofNat]

/-! ## The obligations -/

/-- Settles O16: each arm is `bin` with its function, whose checks pass. -/
theorem integerTwoOperand : Obligations.IntegerTwoOperand := by
  simp only [Obligations.IntegerTwoOperand, List.forall_mem_cons, List.not_mem_nil, false_imp_iff, implies_true, and_true, ← shlI_eq,
    ← shrI_eq, ← absdI_eq, ← boolI_decide_ne, ← boolI_decide]
  and_intros <;> exact fun sl d a b s hu => run32_puts hu rfl sl rfl

theorem run32_divide {i : Instr} {s : State} {d a b : Nat} {f : Int → Int → Int} (sl : BitVec 2) (hw : i.wf = true)
    (hu : usable s [a, b] [d] [(d, intK), (a, intK), (b, intK)] = true) :
    (valI s b = 0 → run32 i sl (divide f d a b) s = .next (trap32 s .divzero (BitVec.ofNat 64 d))) ∧
    (valI s b ≠ 0 → run32 i sl (divide f d a b) s = .next (endsWith s sl d 6 (f (valI s a) (valI s b)))) := by
  refine ⟨fun h => ?_, fun h => ?_⟩
  · rw [run32_usable hu hw sl (e := .trap .divzero (BitVec.ofNat 64 d)) (by rw [divide, if_pos h]), finish_trap]
  · exact run32_puts hu hw sl (by rw [divide, if_neg h])

/-- FITS asks whether A's value lies in the range of B's kind and width. -/
theorem boolI_representable (k : Kind) (w : Nat) (x : Int) :
    boolI (representable k w x) = if rangeLo k w ≤ x ∧ x ≤ rangeHi k w then 1 else 0 := by
  simp only [boolI, representable, Bool.and_eq_true, decide_eq_true_eq]

/-- Settles O17: each arm is `divide`, `rotate`, `unary`, `property` or FITS with its function, whose checks pass. -/
theorem divisionRotationAndUnary : Obligations.DivisionRotationAndUnary := by
  simp only [Obligations.DivisionRotationAndUnary, List.forall_mem_cons, List.not_mem_nil, false_imp_iff, implies_true, and_true,
    ← boolI_representable, ← natAbs_eq_max, ← sub_mul_tdiv]
  refine ⟨⟨fun sl d a b s hu => ?_, fun sl d a b s hu => ?_⟩, ⟨fun sl d a b s hu => ?_, fun sl d a b s hu => ?_⟩, ?_, ?_,
    fun sl d a b s hu => ?_⟩
  · exact run32_divide sl rfl hu
  · exact run32_divide sl rfl hu
  · refine run32_puts hu rfl sl ?_
    rw [rotate, one_mul]
    rfl
  · refine run32_puts hu rfl sl ?_
    rw [rotate, neg_one_mul]
    rfl
  · and_intros <;> exact fun sl d a s hu => run32_puts hu rfl sl rfl
  · and_intros <;> exact fun sl d a s hu => run32_puts hu rfl sl rfl
  · exact run32_puts hu rfl sl rfl

/-- Settles O18: each arm is `binImm`, BFI, MOVI or MOVK with its function, whose checks pass. -/
theorem immediateAndFieldForms : Obligations.ImmediateAndFieldForms := by
  simp only [Obligations.ImmediateAndFieldForms, List.forall_mem_cons, List.not_mem_nil, false_imp_iff, implies_true, and_true,
    ← boolI_decide]
  refine ⟨⟨?_, ⟨fun sl d a v s hu => ?_, fun sl d a v s hu => ?_⟩, fun sl d a p l s h hu => ?_⟩, fun sl d v s hu => ?_,
    fun q sl d v s hu => ?_, fun sl d a p l s h hu => ?_⟩
  · and_intros <;> exact fun sl d a v s hu => run32_puts hu rfl sl rfl
  · have hv : v.toNat < 128 := by omega
    rw [← shlI_field hv]
    exact run32_puts hu rfl sl rfl
  · have hv : v.toNat < 128 := by omega
    rw [← shrI_field hv]
    exact run32_puts hu rfl sl rfl
  · have hw : (Instr.bfx sl d a p l).wf = true := decide_eq_true (by omega)
    rw [← extractI_eq]
    exact run32_puts hu hw sl rfl
  · exact run32_puts hu rfl sl rfl
  · refine run32_puts hu rfl sl ?_
    have hv : (v.toNat : Int) % 2 ^ 16 = v.toNat := by omega
    rw [movkOp, insertI_eq, hv]
  · have hw : (Instr.bfi sl d a p l).wf = true := decide_eq_true (by omega)
    rw [← insertI_eq]
    exact run32_puts hu hw sl rfl

/-! ## MOV and SEL (R119, R125) -/

section
variable {i : Instr} {s : State} {r w : List Nat} {q : List KindReq} {body : State → Eff} {d a l : Nat}
  (hu : usable s r w q = true) (hw : i.wf = true)
include hu hw

theorem run32_putMove (sl : BitVec 2) (hb : body s = pre s r w q (putMove s d l a)) :
    run32 i sl body s = .next (if (info s d).kind.isFloat then next32 s sl (putBits s d l (opBits s a))
      else endsWith s sl d l (valI s a)) := by
  rw [run32_usable hu hw sl hb, putMove]
  split
  · rfl
  · rw [finish_putI]

theorem run16_putMove (hb : body s = pre s r w q (putMove s d l a)) :
    run16 i body s = .next (if (info s d).kind.isFloat then next16 s (putBits s d l (opBits s a))
      else endsWith16 s d l (valI s a)) := by
  rw [run16_usable hu hw hb, putMove]
  split
  · rfl
  · rw [finish16_putI]

end

theorem kindName_info {s : State} {n : Nat} (h : declared s n = true) (k : Info → Bool) :
    kindName s (n, k) = if k (info s n) then none else some (.trap .kind (BitVec.ofNat 64 n)) := by
  obtain ⟨i, hi⟩ := Option.isSome_iff_exists.mp h
  simp only [kindName, info, hi, Option.getD_some]

/-- A source of a kind that D does not take traps with the source's index, as D itself may have any kind. -/
theorem moveOp_kind {s : State} {d a : Nat} (hr : readyName s a = none) (hd : declared s d = true) (ha : declared s a = true)
    (hk : moveK s d (info s a) = false) : moveOp d a s = .trap .kind (BitVec.ofNat 64 a) := by
  have hbad : kindName s (a, moveK s d) = some (.trap .kind (BitVec.ofNat 64 a)) := by
    rw [kindName_info ha, hk, if_neg Bool.false_ne_true]
  have hany : kindName s (d, anyK) = none := by rw [kindName_info hd, anyK, if_pos rfl]
  simp only [moveOp, pre, firstOf, hr, hany, hbad]

/-- The kinds that D does not take: another float kind than D's own, or a float for an integer D. -/
theorem moveK_eq_false {s : State} {d : Nat} {i : Info}
    (h : if (info s d).kind.isFloat then i.kind ≠ (info s d).kind else i.kind.isFloat = true) : moveK s d i = false := by
  unfold moveK
  split at h
  case isTrue hf => rw [if_pos hf, beq_eq_false_iff_ne.mpr h]
  case isFalse hf => rw [if_neg hf, Kind.isInt, h, Bool.not_true]

/-- Settles O20: MOV and SEL end in `putMove`, the compact arms in `bin` or `binImm` with D as the first operand. -/
theorem movesAndCompactForms : Obligations.MovesAndCompactForms := by
  simp only [Obligations.MovesAndCompactForms, List.forall_mem_cons, List.not_mem_nil, false_imp_iff, implies_true, and_true,
    ← boolI_decide]
  refine ⟨⟨fun sl d a s hu => ?_, fun d a s hu => ?_, fun sl d a b p s hu => ?_, fun sl d a s hrun hr hd ha hk => ?_⟩, ?_,
    fun d v s hu => ?_, fun d v s hu => ?_, fun d v s hu => ?_⟩
  · exact run32_putMove hu rfl sl rfl
  · exact run16_putMove hu rfl rfl
  · refine run32_putMove hu rfl sl ?_
    simp only [selOp, ne_eq, ite_not, apply_ite BitVec.toNat]
    rfl
  · have hbad := moveOp_kind hr hd ha (moveK_eq_false hk)
    exact (run32_running hrun rfl sl _).trans (by rw [hbad, finish_trap])
  · and_intros <;> exact fun d a s hu => run16_puts hu rfl rfl
  · exact run16_puts hu rfl rfl
  · have hv : v.toNat < 128 := by omega
    rw [← shlI_field hv]
    exact run16_puts hu rfl rfl
  · have hv : v.toNat < 128 := by omega
    rw [← shrI_field hv]
    exact run16_puts hu rfl rfl

end Sys2Proof.Machine
end

section
/-! SUPPORT. The opcode samples (R111), the state after reset and the moves of the agenda (R17). -/

namespace Sys2Proof.Machine

/-- Settles O1: each word is decoded by evaluation. -/
theorem decodeSamples : Obligations.DecodeSamples := by
  unfold Obligations.DecodeSamples
  and_intros <;> rfl

/-- Settles O8: every table of the reset state is empty, so each accessor gives its default. -/
theorem resetState : Obligations.ResetState := by
  refine ⟨rfl, fun a => rfl, rfl, fun n k => ?_, fun n => ?_, fun c => ?_, fun p => ?_, fun q => rfl, rfl⟩
  · exact ⟨rfl, rfl⟩
  · exact ⟨rfl, rfl, rfl, rfl, rfl⟩
  · exact ⟨rfl, rfl, rfl⟩
  · exact ⟨rfl, rfl⟩

/-! ## Moves of the agenda (R17) -/

theorem step_agenda {s : State} {m : Move} {r : List Move} (h : s.agenda = m :: r) : step s = perform { s with agenda := r } m := by
  simp only [step, h]

theorem step_free {s : State} (h : s.agenda = []) : step s = freely (freeTick s) (Config.freeMove s.tick) := by
  simp only [step, h]

theorem fetchInstr_of_bytes {s t : State} {n k va m : Nat} {bs : List Byte} {i : Instr} (hb : fetchBytes s n k va = .ok t bs)
    (hd : decodeBytes bs = .ok (i, m)) : fetchInstr s n k va = .ok t i := by
  simp only [fetchInstr, hb, hd]

section
variable {s : State} {n k : Nat}

theorem issueSlot_ok {u : State} {i : Instr} (h : fetchInstr s n k (s.slot n k).pc.toNat = .ok u i) : issueSlot s n k = exec i u := by
  simp only [issueSlot, h]

theorem issueSlot_wait {u : State} (h : fetchInstr s n k (s.slot n k).pc.toNat = .wait u) : issueSlot s n k = .next u := by
  simp only [issueSlot, h]

theorem issueSlot_trap {u : State} {c : Cause} {v : Word} {l : Bool} (h : fetchInstr s n k (s.slot n k).pc.toNat = .trap u c v l) :
    issueSlot s n k = .next (takeTrap u n k l c v (s.slot n k).pc) := by
  simp only [issueSlot, h]

end

theorem issueTurn_issues {s : State} {n : Nat} (h : mayIssue (beginTurn s n (turnOf s n)) n (turnOf s n) = true) :
    issueTurn s n = issueSlot (beginTurn s n (turnOf s n)) n (turnOf s n) := if_pos h

theorem step_issue_head (c : State) (n : Nat) (r : List Move) : step { c with agenda := .issue n :: r } =
    issueTurn { c with agenda := r } n := rfl

/-- What a cycle's beginning does to the two twins. -/
def twinsBegin (s : State) (n : Nat) : State :=
  let s := beginCore (beginCore s n) (n + 1)
  let s := commitCore (commitCore s n) (n + 1)
  turnTick (turnTick s n) (n + 1)

theorem startCycle_eq (s : State) (n : Nat) :
    startCycle s n = { twinsBegin s n with agenda := .issue (n + 1) :: (twinsBegin s n).agenda } := by
  unfold startCycle twinsBegin
  rfl

theorem perform_cycle (s : State) (n : Nat) :
    perform s (.cycle n) = step { twinsBegin s (evenOf n) with
      agenda := .issue (evenOf n) :: .issue (evenOf n + 1) :: (twinsBegin s (evenOf n)).agenda } := by
  rw [step_issue_head, ← startCycle_eq, perform]

/-- Settles O4: the head of the agenda is performed; a cycle leaves its crown twin's issue as the next move, and a turn is no free move. -/
theorem stepRunsDecoded : Obligations.StepRunsDecoded := by
  refine ⟨fun n s r h => ?_, fun n s r h => ?_, fun i s r h hi => ?_, fun n s h hm => ?_⟩
  · have hstep : step s = issueTurn { s with agenda := r } n := step_agenda h
    refine ⟨fun hidle => hstep.trans (issueTurn_idle hidle), fun hmay => ?_⟩
    have hissue := hstep.trans (issueTurn_issues hmay)
    exact ⟨fun u i hf => hissue.trans (issueSlot_ok hf), fun u bs i m hb hd => hissue.trans (issueSlot_ok (fetchInstr_of_bytes hb hd)),
      fun u hf => hissue.trans (issueSlot_wait hf), fun u c v l hf => hissue.trans (issueSlot_trap hf)⟩
  · exact (step_agenda h).trans (perform_cycle { s with agenda := r } n)
  · rw [step_agenda h, perform, if_pos hi]
  · rw [step_free h, hm, freely]

end Sys2Proof.Machine
end


section
/-! SUPPORT. The bit functions of R121 and R124 bit by bit, and the bitwise operations on exact integers (R118) as Mathlib's. -/

namespace Sys2Proof.Machine

/-! ## Rotating, reversing and counting -/

theorem testBit_rotl {w p c i : Nat} (hp : p < 2 ^ w) (hc : c < w) (hi : i < w) :
    (rotl w p c).testBit i = p.testBit ((i + w - c) % w) := by
  have hlow : p / 2 ^ (w - c) < 2 ^ c := by
    rw [Nat.div_lt_iff_lt_mul (Nat.two_pow_pos _), ← Nat.pow_add]
    rwa [Nat.add_sub_cancel' hc.le]
  rw [rotl, if_neg (by omega), Nat.testBit_mod_two_pow, decide_eq_true hi, Bool.true_and, Nat.mul_comm p,
    Nat.two_pow_add_eq_or_of_lt hlow, Nat.testBit_or, Nat.testBit_two_pow_mul, Nat.testBit_div_two_pow]
  rcases Nat.lt_or_ge i c with h | h
  · have hmod : (i + w - c) % w = i + (w - c) := by rw [Nat.mod_eq_of_lt] <;> omega
    rw [hmod, decide_eq_false (by omega), Bool.false_and, Bool.false_or]
  · have hmod : (i + w - c) % w = i - c := by
      rw [show i + w - c = i - c + w by omega, Nat.add_mod_right, Nat.mod_eq_of_lt (by omega)]
    have hhigh : p.testBit (i + (w - c)) = false :=
      Nat.testBit_lt_two_pow (hp.trans_le (Nat.pow_le_pow_right Nat.two_pos (by omega)))
    rw [hmod, hhigh, decide_eq_true h, Bool.true_and, Bool.or_false]

theorem reverseBits_lt (w p : Nat) : reverseBits w p < 2 ^ w := by
  induction w generalizing p with
  | zero => exact Nat.one_pos
  | succ w ih =>
    have := ih (p / 2)
    have hbit : p % 2 * 2 ^ w ≤ 1 * 2 ^ w := Nat.mul_le_mul_right _ (by omega)
    rw [reverseBits, Nat.pow_succ]
    omega

theorem testBit_reverseBits {w i : Nat} (p : Nat) (hi : i < w) : (reverseBits w p).testBit i = p.testBit (w - 1 - i) := by
  induction w generalizing p i with
  | zero => omega
  | succ w ih =>
    rw [reverseBits, Nat.mul_comm, Nat.two_pow_add_eq_or_of_lt (reverseBits_lt w _), Nat.testBit_or, Nat.testBit_two_pow_mul]
    rcases Nat.lt_or_ge i w with h | h
    · rw [decide_eq_false (by omega), Bool.false_and, Bool.false_or, ih _ h, Nat.testBit_div_two]
      congr 1
      omega
    · obtain rfl : i = w := by omega
      have hhigh : (reverseBits i (p / 2)).testBit i = false := Nat.testBit_lt_two_pow (reverseBits_lt i _)
      have hbit : (p % 2).testBit 0 = p.testBit 0 := by
        simp [Nat.testBit_zero]
      rw [hhigh, Nat.sub_self, Nat.add_sub_cancel, Nat.sub_self, hbit]
      simp

theorem popCount_eq_length_filter (w p : Nat) : popCount w p = ((List.range w).filter (fun i => p.testBit i)).length := by
  induction w generalizing p with
  | zero => rfl
  | succ w ih =>
    have htail : (List.map Nat.succ (List.range w)).filter (fun i => p.testBit i) =
        ((List.range w).filter (fun i => (p / 2).testBit i)).map Nat.succ := by
      rw [List.filter_map]
      congr 2
      funext i
      exact Nat.testBit_succ ..
    rw [popCount, ih, List.range_succ_eq_map, List.filter_cons, htail, Nat.testBit_zero]
    split
    case isTrue h => simp_all [Nat.add_comm]
    case isFalse h => simp_all

theorem leadZeros_spec (w p : Nat) : leadZeros w p ≤ w ∧ (∀ i, w - leadZeros w p ≤ i → i < w → p.testBit i = false) ∧
    (leadZeros w p < w → p.testBit (w - 1 - leadZeros w p) = true) := by
  have hlow : ∀ i, i < w → (p % 2 ^ w).testBit i = p.testBit i := fun i hi => by
    rw [Nat.testBit_mod_two_pow, decide_eq_true hi, Bool.true_and]
  unfold leadZeros
  split
  case isTrue h =>
    refine ⟨le_rfl, fun i _ hi => ?_, fun hlt => absurd hlt (lt_irrefl w)⟩
    rw [← hlow i hi, h, Nat.zero_testBit]
  case isFalse h =>
    have hlog : (p % 2 ^ w).log2 < w := (Nat.log2_lt h).mpr (Nat.mod_lt _ (Nat.two_pow_pos w))
    refine ⟨by omega, fun i hge hi => ?_, fun _ => ?_⟩
    · rw [← hlow i hi]
      exact Nat.testBit_lt_two_pow ((Nat.log2_lt h).mp (by omega))
    · rw [show w - 1 - (w - 1 - (p % 2 ^ w).log2) = (p % 2 ^ w).log2 by omega, ← hlow _ hlog]
      exact Nat.testBit_log2 h

theorem trailZeros_spec (w p : Nat) : trailZeros w p ≤ w ∧ (∀ i, i < trailZeros w p → p.testBit i = false) ∧
    (trailZeros w p < w → p.testBit (trailZeros w p) = true) := by
  induction w generalizing p with
  | zero => exact ⟨le_rfl, fun i hi => absurd hi (Nat.not_lt_zero i), fun h => absurd h (Nat.not_lt_zero 0)⟩
  | succ w ih =>
    obtain ⟨hle, hzero, hone⟩ := ih (p / 2)
    rw [trailZeros]
    split
    case isTrue h => exact ⟨Nat.zero_le _, fun i hi => absurd hi (Nat.not_lt_zero i), fun _ => by simp [Nat.testBit_zero, h]⟩
    case isFalse h =>
      refine ⟨by omega, fun i hi => ?_, fun hlt => ?_⟩
      · cases i with
        | zero => simpa [Nat.testBit_zero] using h
        | succ i =>
          rw [Nat.testBit_succ]
          exact hzero i (by omega)
      · rw [Nat.add_comm, Nat.testBit_succ]
        exact hone (by omega)

/-! ## The bitwise operations on exact integers (R118) -/

/-- The low bits of an integer are those of its infinite two's complement. -/
theorem testBit_modPow (x : Int) (w i : Nat) : (modPow x w).testBit i = (decide (i < w) && x.testBit i) := by
  cases x with
  | ofNat a =>
    have h : modPow (Int.ofNat a) w = a % 2 ^ w := by
      simp only [modPow, Int.ofNat_eq_natCast]
      omega
    rw [h, Nat.testBit_mod_two_pow]
    rfl
  | negSucc a =>
    have hlt : a % 2 ^ w < 2 ^ w := Nat.mod_lt _ (Nat.two_pow_pos w)
    have h : modPow (Int.negSucc a) w = 2 ^ w - (a % 2 ^ w + 1) := by
      rw [modPow, Int.negSucc_emod _ (by exact_mod_cast Nat.two_pow_pos w)]
      omega
    rw [h, Nat.testBit_two_pow_sub_succ hlt, Nat.testBit_mod_two_pow]
    by_cases hi : i < w <;> simp [hi, Int.testBit]

/-- A value of `w` bits is its low bits read in two's complement. -/
theorem toSigned_modPow_of_mem {w : Nat} {x : Int} (hlo : -2 ^ w ≤ x) (hhi : x < 2 ^ w) : toSigned (w + 1) (modPow x (w + 1)) = x := by
  have hlt := modPow_lt x (w + 1)
  have hw : (0 : Int) < 2 ^ w := by positivity
  have hm : (modPow x (w + 1) : Int) = x % 2 ^ (w + 1) := by
    rw [modPow, Int.toNat_of_nonneg (Int.emod_nonneg _ (by positivity))]
    push_cast
    rfl
  have hp : (2 : Int) ^ (w + 1) = 2 * 2 ^ w := by ring
  rw [toSigned, Nat.mod_eq_of_lt hlt, Nat.add_sub_cancel]
  rcases le_or_gt 0 x with h | h
  · have hmod : x % 2 ^ (w + 1) = x := Int.emod_eq_of_lt h (by omega)
    rw [if_neg, hm, hmod]
    rintro ⟨-, hge⟩
    have : ((2 ^ w : Nat) : Int) ≤ modPow x (w + 1) := by exact_mod_cast hge
    push_cast at this
    omega
  · have hmod : x % 2 ^ (w + 1) = x + 2 ^ (w + 1) := by
      rw [← Int.add_emod_right, Int.emod_eq_of_lt] <;> omega
    rw [if_pos, hm, hmod]
    · push_cast
      ring
    · refine ⟨Nat.succ_pos w, ?_⟩
      have : ((2 ^ w : Nat) : Int) ≤ modPow x (w + 1) := by
        push_cast
        omega
      exact_mod_cast this

/-- A bitwise operation's result needs no more bits than its operands. -/
theorem bitwise_mem (f : Bool → Bool → Bool) {n : Nat} {x y : Int} (hx : -2 ^ n ≤ x ∧ x < 2 ^ n) (hy : -2 ^ n ≤ y ∧ y < 2 ^ n) :
    -2 ^ n ≤ Int.bitwise f x y ∧ Int.bitwise f x y < 2 ^ n := by
  have hpos : ∀ a : Nat, Int.ofNat a < 2 ^ n → a < 2 ^ n := fun a h => by
    rw [Int.ofNat_eq_natCast] at h
    exact_mod_cast h
  have hneg : ∀ a : Nat, -2 ^ n ≤ Int.negSucc a → a < 2 ^ n := fun a h => by
    have : (a : Int) < 2 ^ n := by omega
    exact_mod_cast this
  have key : ∀ (g : Bool → Bool → Bool) {a b : Nat}, a < 2 ^ n → b < 2 ^ n →
      -2 ^ n ≤ Int.natBitwise g a b ∧ Int.natBitwise g a b < 2 ^ n := fun g a b ha hb => by
    have h1 := Nat.bitwise_lt_two_pow (f := g) ha hb
    have h2 := Nat.bitwise_lt_two_pow (f := fun p q => !g p q) ha hb
    zify at h1 h2
    unfold Int.natBitwise
    cases g false false <;> simp only [cond_true, cond_false] <;> omega
  cases x <;> cases y <;> simp only [Int.bitwise]
  · exact key _ (hpos _ hx.2) (hpos _ hy.2)
  · exact key _ (hpos _ hx.2) (hneg _ hy.1)
  · exact key _ (hneg _ hx.1) (hpos _ hy.2)
  · exact key _ (hneg _ hx.1) (hneg _ hy.1)

/-- On operands of 80 bits the operation on the low bits is the operation on infinite two's complement. -/
theorem bitwise2_eq {g : Nat → Nat → Nat} {f : Bool → Bool → Bool} (hg : ∀ a b i, (g a b).testBit i = f (a.testBit i) (b.testBit i))
    (hf : f false false = false) {x y : Int} (hx : -2 ^ 79 ≤ x ∧ x < 2 ^ 79) (hy : -2 ^ 79 ≤ y ∧ y < 2 ^ 79) :
    bitwise2 g x y = Int.bitwise f x y := by
  obtain ⟨hlo, hhi⟩ := bitwise_mem f hx hy
  have hbits : g (modPow x 80) (modPow y 80) = modPow (Int.bitwise f x y) 80 := by
    apply Nat.eq_of_testBit_eq
    intro i
    rw [hg, testBit_modPow, testBit_modPow, testBit_modPow, Int.testBit_bitwise]
    by_cases hi : i < 80 <;> simp [hi, hf]
  rw [bitwise2, hbits, toSigned_modPow_of_mem hlo hhi]

theorem lnot_eq (y : Int) : Int.lnot y = -y - 1 := by
  cases y with
  | ofNat m => simp only [Int.lnot, Int.ofNat_eq_natCast]; omega
  | negSucc m => simp only [Int.lnot]; omega

theorem andI_eq_land {x y : Int} (hx : -2 ^ 79 ≤ x ∧ x < 2 ^ 79) (hy : -2 ^ 79 ≤ y ∧ y < 2 ^ 79) : andI x y = Int.land x y :=
  (bitwise2_eq Nat.testBit_and rfl hx hy).trans (congrFun (congrFun Int.bitwise_and x) y)

/-! ## The obligation -/

/-- Settles O19: the counting functions by induction on the width, the bitwise ones by their bits, since the result of an operation on
80-bit operands has 80 bits. -/
theorem bitOperations : Obligations.BitOperations := by
  refine ⟨fun w p c i hp hc hi => testBit_rotl hp hc hi, fun w p i hi => testBit_reverseBits p hi, popCount_eq_length_filter,
    leadZeros_spec, trailZeros_spec, fun x y hx hx' hy hy' => ⟨?_, ?_, ?_, ?_⟩⟩
  · exact andI_eq_land ⟨hx, hx'⟩ ⟨hy, hy'⟩
  · exact (bitwise2_eq Nat.testBit_or rfl ⟨hx, hx'⟩ ⟨hy, hy'⟩).trans (congrFun (congrFun Int.bitwise_or x) y)
  · exact (bitwise2_eq Nat.testBit_xor rfl ⟨hx, hx'⟩ ⟨hy, hy'⟩).trans (congrFun (congrFun Int.bitwise_xor x) y)
  · rw [andnI, lnot_eq]
    exact andI_eq_land ⟨hx, hx'⟩ ⟨by omega, by omega⟩

end Sys2Proof.Machine
end


section
/-! SUPPORT. The float instructions (R145 to R159): what each arm computes once its checks pass. -/

namespace Sys2Proof.Machine

/-! ## The end of an instruction that puts one float -/

/-- A result whose flags pass completes the instruction, and one whose flags trap traps FLOAT (R84). -/
theorem finish_putF (s : State) (sl : BitVec 2) (word d l : Nat) (r : Nat × Nat) :
    finish s 4 sl.toNat word (putF s d l r) = endsFloat s sl d l r := by
  cases h : flagsPass s r with
  | true => rw [putF_pass h, finish_done, endsFloat, if_pos h]
  | false =>
    simp only [flagsPass, Bool.or_eq_false_iff, beq_eq_false_iff_ne, Bool.not_eq_false'] at h
    rw [putF, if_pos h, finish_trap, endsFloat, if_neg]
    simp only [flagsPass, h, Bool.not_true, Bool.or_false, beq_iff_eq, not_false_eq_true]

section
variable {i : Instr} {s : State} {r w : List Nat} {q : List KindReq} {body : State → Eff} {d l : Nat}
  (hu : usable s r w q = true) (hw : i.wf = true)
include hu hw

theorem run32_putsF (sl : BitVec 2) {x : Nat × Nat} (hb : body s = pre s r w q (putF s d l x)) :
    run32 i sl body s = .next (endsFloat s sl d l x) := by
  rw [run32_usable hu hw sl hb, finish_putF]

/-- An exact value with the operation's flags is rounded once into D (R82). -/
theorem run32_putsV (sl : BitVec 2) {x : FVal × Nat} (hb : body s = pre s r w q (putV s d l x)) :
    run32 i sl body s = .next (endsFloat s sl d l
      ((fitF (info s d).kind (rmode s) x.1).1, x.2 ||| (fitF (info s d).kind (rmode s) x.1).2)) := run32_putsF hu hw sl hb

/-- One without flags of its own has those of its rounding. -/
theorem run32_putsV_exact (sl : BitVec 2) {x : FVal} (hb : body s = pre s r w q (putV s d l (x, 0))) :
    run32 i sl body s = .next (endsFloat s sl d l (fitF (info s d).kind (rmode s) x)) := by
  rw [run32_putsV hu hw sl hb, Nat.zero_or]

theorem run16_putsV {x : FVal × Nat} (hb : body s = pre s r w q (putV s d l x))
    (hf : flagsPass s ((fitF (info s d).kind (rmode s) x.1).1, x.2 ||| (fitF (info s d).kind (rmode s) x.1).2) = true) :
    run16 i body s = .next (next16 s (floatOut s d l
      ((fitF (info s d).kind (rmode s) x.1).1, x.2 ||| (fitF (info s d).kind (rmode s) x.1).2))) := by
  rw [run16_usable hu hw hb, putV, putF_pass hf, finish_done16]

end

/-! ## The values of the operations -/

theorem oneV_decide (p : Prop) [Decidable p] : oneV (decide p) = .ofInt (if p then 1 else 0) := by
  simp only [oneV, decide_eq_true_eq]

theorem compareV_decide (quiet : Bool) (p : Int → Prop) [DecidablePred p] (x y : FVal) :
    compareV quiet (fun c => decide (p c)) x y = if x.isNan || y.isNan then (.ofInt 0, if quiet then nanFlags x y else flagNV)
      else (.ofInt (if p (cmpV x y) then 1 else 0), 0) := by
  rw [compareV, oneV_decide]
  rfl

theorem compareV_eq (x y : FVal) : compareV true (fun c => decide (c = 0)) x y =
    if x.isNan || y.isNan then (.ofInt 0, nanFlags x y) else (.ofInt (if cmpV x y = 0 then 1 else 0), 0) := compareV_decide true (· = 0) x y

theorem compareV_lt (x y : FVal) : compareV false (fun c => decide (c < 0)) x y =
    if x.isNan || y.isNan then (.ofInt 0, flagNV) else (.ofInt (if cmpV x y < 0 then 1 else 0), 0) := compareV_decide false (· < 0) x y

theorem compareV_le (x y : FVal) : compareV false (fun c => decide (c ≤ 0)) x y =
    if x.isNan || y.isNan then (.ofInt 0, flagNV) else (.ofInt (if cmpV x y ≤ 0 then 1 else 0), 0) := compareV_decide false (· ≤ 0) x y

theorem unlessNan_of_not_isNan {v : FVal} (h : v.isNan = false) (f : FVal → FVal) : unlessNan f v = (f v, 0) := by
  rw [unlessNan, if_neg (by rw [h]; exact Bool.false_ne_true)]

/-! ## The obligations -/

/-- Settles O21: each arm is `fbin`, `funary`, FCPYS or FCLASS with its function, whose checks pass. -/
theorem floatOperations : Obligations.FloatOperations := by
  simp only [Obligations.FloatOperations, List.forall_mem_cons, List.not_mem_nil, false_imp_iff, implies_true, and_true,
    ← compareV_eq, ← compareV_lt, ← compareV_le]
  refine ⟨⟨?_, ⟨fun d a s hu hf => ?_, fun d a s hu hf => ?_⟩, fun sl d a b s hu => ?_⟩, ?_, fun sl d a r s hr hu hn => ?_,
    fun sl d a s hu => ?_⟩
  · and_intros <;> intro sl d a b s hu
    iterate 9 exact run32_putsV hu rfl sl rfl
    exact run32_putsV (x := unorderedV (valF s a.toNat) (valF s b.toNat)) hu rfl sl rfl
  · exact run16_putsV hu rfl rfl hf
  · exact run16_putsV hu rfl rfl hf
  · exact run32_putsV hu rfl sl rfl
  · and_intros <;> exact fun sl d a s hu => run32_putsV hu rfl sl rfl
  · have hw : (Instr.frnd sl d a r).wf = true := decide_eq_true hr
    refine run32_putsV_exact hu hw sl ?_
    rw [frndOp, funary, unlessNan_of_not_isNan hn]
  · exact run32_putsV_exact hu rfl sl rfl

/-! ## FCVT (R153) -/

section
variable {s : State} {d : Nat} {mode : Rnd}

/-- A finite value whose rounding D's kind and width hold is stored, inexactly when it was no integer. -/
theorem toIntOp_fits {n : Bool} {num den : Nat} {e : Int}
    (hr : representable (info s d).kind (info s d).width (signedNum n (quantize mode n 64 num den e 0).1) = true) :
    toIntOp mode d (.fin n num den e) s = putF s d 1 (modPow (signedNum n (quantize mode n 64 num den e 0).1) (info s d).width,
      if (quantize mode n 64 num den e 0).2 then flagNX else 0) := if_pos hr

theorem toIntOp_nan (q : Bool) (h : (info s d).mode ≠ .trap ∨ d = 63) : toIntOp mode d (.nan q) s = putF s d 1 (0, flagNV) := by
  have hzero : modPow 0 (info s d).width = 0 := by
    rw [modPow, Int.zero_emod]
    rfl
  simp only [toIntOp, if_neg (show ¬((info s d).mode = .trap ∧ d ≠ 63) by tauto), hzero]

theorem toIntOp_nan_trap (q : Bool) (hm : (info s d).mode = .trap) (hd : d ≠ 63) :
    toIntOp mode d (.nan q) s = .trap .width (BitVec.ofNat 64 d) := if_pos ⟨hm, hd⟩

end

section
variable {s : State} {d a r : Nat} {e : Eff}

/-- The checks and what FCVT does after them. -/
def fcvtChecks (s : State) (d a : Nat) (e : Eff) : Eff :=
  pre s [a] [d] [(d, anyK), (a, anyK), (d, fun i => i.kind.isFloat || (info s a).kind.isFloat)] e

theorem fcvtOp_ofInt (ha : (info s a).kind.isFloat = false) : fcvtOp d a r s =
    fcvtChecks s d a (putF s d 1 (fitF (info s d).kind (Rnd.ofSelector s.me.rmode.toNat r) (.ofInt (valI s a)))) := by
  simp only [fcvtOp, fcvtChecks, ha, Bool.false_eq_true, if_false, Nat.zero_or]

theorem fcvtOp_toFloat (ha : (info s a).kind.isFloat = true) (hd : (info s d).kind.isFloat = true) (hn : (valF s a).isNan = false) :
    fcvtOp d a r s = fcvtChecks s d a (putF s d 1 (fitF (info s d).kind (Rnd.ofSelector s.me.rmode.toNat r) (valF s a))) := by
  simp only [fcvtOp, fcvtChecks, ha, hd, hn, Bool.false_eq_true, if_true, if_false, Nat.zero_or]

theorem fcvtOp_toInt (ha : (info s a).kind.isFloat = true) (hd : (info s d).kind.isFloat = false) :
    fcvtOp d a r s = fcvtChecks s d a (toIntOp (Rnd.ofSelector s.me.rmode.toNat r) d (valF s a) s) := by
  simp only [fcvtOp, fcvtChecks, ha, hd, Bool.false_eq_true, if_true, if_false]

end

/-! ## The refinements (R157, R158) -/

theorem refine_eq {s : State} {d a b : Nat} {f : Bool → FVal → FVal → FVal} (ha : (valF s a).isNan = false) (hb : (valF s b).isNan = false) :
    refine f d a b s = pre s [a, b] [d] [(d, f32K), (a, f32K), (b, f32K)] (putF s d 2
      (if (valF s b).isZero || (valF s b).isInf then (opBits s b, 0)
        else fitF (info s d).kind (rmode s) (f (rdn s) (valF s a) (valF s b)))) := by
  simp only [refine, ha, hb, Bool.or_self, Bool.false_eq_true, if_false, putV, Nat.zero_or]
  split <;> rfl

/-- Settles O22: FCVT by the kinds of its operands, the approximations and the fused forms as their arms stand, the refinements by the
estimate. -/
theorem floatConversionAndRefinement : Obligations.FloatConversionAndRefinement := by
  simp only [Obligations.FloatConversionAndRefinement, List.forall_mem_cons, List.not_mem_nil, false_imp_iff, implies_true, and_true]
  refine ⟨fun sl d a r s hr hu => ?_, ?_, ⟨fun sl d a b s hu => ?_, fun sl d a b s hu => ?_⟩,
    fun sl d a b s hu ha hb => ?_, fun sl d a b s hu ha hb => ?_⟩
  · have hw : (Instr.fcvt sl d a r).wf = true := decide_eq_true hr
    refine ⟨fun ha => ?_, fun ha hd hn => ?_, fun ha hd => ⟨fun n num den e hv hrep => ?_, fun q hv hm => ?_, fun q hv hm h63 => ?_⟩⟩
    · exact run32_putsF hu hw sl (fcvtOp_ofInt ha)
    · exact run32_putsF hu hw sl (fcvtOp_toFloat ha hd hn)
    · refine run32_putsF hu hw sl ((fcvtOp_toInt ha hd).trans ?_)
      rw [hv, toIntOp_fits hrep]
      rfl
    · refine run32_putsF hu hw sl ((fcvtOp_toInt ha hd).trans ?_)
      rw [hv, toIntOp_nan q hm]
      rfl
    · refine (run32_usable hu hw sl (e := .trap .width (BitVec.ofNat 64 d.toNat)) ((fcvtOp_toInt ha hd).trans ?_)).trans ?_
      · rw [hv, toIntOp_nan_trap q hm h63]
        rfl
      · rw [finish_trap]
  · and_intros <;> exact fun sl d a s hu => run32_putsF hu rfl sl rfl
  · exact run32_putsV hu rfl sl rfl
  · exact run32_putsV hu rfl sl rfl
  · exact run32_putsF hu rfl sl (refine_eq ha hb)
  · exact run32_putsF hu rfl sl (refine_eq ha hb)

end Sys2Proof.Machine
end


section
/-! SUPPORT. Exact float values as rationals, and the roundings of R82 and R92 of a magnitude to a multiple of a power of two. -/

namespace Sys2Proof.Machine

/-! ## The rational that a finite float stands for (R82) -/

/-- (−1)^neg × num / den × 2^e. -/
def finValue (neg : Bool) (num den : Nat) (e : Int) : ℚ := (if neg then -1 else 1) * (num : ℚ) / (den : ℚ) * (2 : ℚ) ^ e

theorem finValue_eq_signedNum (neg : Bool) (num den : Nat) (e : Int) : finValue neg num den e = (signedNum neg num : ℚ) / den * 2 ^ e := by
  cases neg <;> simp [finValue, signedNum]

theorem signedNum_natAbs (x : Int) : signedNum (decide (x < 0)) x.natAbs = x := by
  by_cases h : x < 0 <;> simp only [signedNum, h, decide_true, decide_false, if_true, Bool.false_eq_true, if_false] <;> omega

theorem signedNum_mul (neg : Bool) (m n : Nat) : signedNum neg (m * n) = signedNum neg m * n := by
  cases neg <;> simp [signedNum]

theorem pow2_cast {e : Int} (h : 0 ≤ e) : (pow2 e : ℚ) = 2 ^ e := by
  obtain ⟨n, rfl⟩ := Int.eq_ofNat_of_zero_le h
  simp [pow2]

/-- A numerator over a larger exponent is the same value over a smaller one. -/
theorem signedNum_scale (neg : Bool) (a d d' : Nat) {e e' : Int} (hd : 0 < d) (hd' : 0 < d') (h : e' ≤ e) :
    (signedNum neg (a * d' * pow2 (e - e')) : ℚ) / (d * d' : Nat) * 2 ^ e' = finValue neg a d e := by
  have hpow : (pow2 (e - e') : ℚ) * 2 ^ e' = 2 ^ e := by
    rw [pow2_cast (Int.sub_nonneg.mpr h), ← zpow_add₀ two_ne_zero, Int.sub_add_cancel]
  have h1 : (d : ℚ) ≠ 0 := by positivity
  have h2 : (d' : ℚ) ≠ 0 := by positivity
  rw [finValue_eq_signedNum, ← hpow, signedNum_mul, signedNum_mul]
  push_cast
  field_simp

section
variable {a1 d1 a2 d2 : Nat} {e1 e2 : Int} (h1 : 0 < d1) (h2 : 0 < d2)
include h1 h2

theorem addFin_exact (r n1 n2 : Bool) : ∃ n m d e, addFin r n1 a1 d1 e1 n2 a2 d2 e2 = .fin n m d e ∧ 0 < d ∧
    finValue n m d e = finValue n1 a1 d1 e1 + finValue n2 a2 d2 e2 := by
  have hsum : ∀ x : Int, x = signedNum n1 (a1 * d2 * pow2 (e1 - min e1 e2)) + signedNum n2 (a2 * d1 * pow2 (e2 - min e1 e2)) →
      (x : ℚ) / (d1 * d2 : Nat) * 2 ^ min e1 e2 = finValue n1 a1 d1 e1 + finValue n2 a2 d2 e2 := by
    rintro x rfl
    rw [← signedNum_scale n1 a1 d1 d2 h1 h2 (min_le_left e1 e2), ← signedNum_scale n2 a2 d2 d1 h2 h1 (min_le_right e1 e2),
      Nat.mul_comm d2 d1, Int.cast_add, add_div, add_mul]
  unfold addFin
  extract_lets e x
  split
  case isTrue hx =>
    refine ⟨_, _, _, _, rfl, Nat.one_pos, ?_⟩
    rw [← hsum x rfl, hx, finValue]
    simp
  case isFalse =>
    refine ⟨_, _, _, _, rfl, Nat.mul_pos h1 h2, ?_⟩
    rw [finValue_eq_signedNum, signedNum_natAbs, hsum x rfl]

theorem mulV_exact (n1 n2 : Bool) : ∃ n m d e, (mulV (.fin n1 a1 d1 e1) (.fin n2 a2 d2 e2)).1 = .fin n m d e ∧ 0 < d ∧
    finValue n m d e = finValue n1 a1 d1 e1 * finValue n2 a2 d2 e2 := by
  refine ⟨_, _, _, _, rfl, Nat.mul_pos h1 h2, ?_⟩
  have hz := zpow_add₀ (two_ne_zero (α := ℚ)) e1 e2
  cases n1 <;> cases n2 <;> simp only [finValue, hz] <;> push_cast <;> simp <;> ring

theorem divV_exact (n1 n2 : Bool) (h : a2 ≠ 0) : ∃ n m d e, (divV (.fin n1 a1 d1 e1) (.fin n2 a2 d2 e2)).1 = .fin n m d e ∧ 0 < d ∧
    finValue n m d e = finValue n1 a1 d1 e1 / finValue n2 a2 d2 e2 := by
  refine ⟨n1 != n2, a1 * d2, d1 * a2, e1 - e2, ?_, Nat.mul_pos h1 (Nat.pos_of_ne_zero h), ?_⟩
  · simp only [divV, if_neg h]
  · have hz := zpow_sub₀ (two_ne_zero (α := ℚ)) e1 e2
    have h1' : (d1 : ℚ) ≠ 0 := by positivity
    have h2' : (d2 : ℚ) ≠ 0 := by positivity
    have ha : (a2 : ℚ) ≠ 0 := by exact_mod_cast h
    cases n1 <;> cases n2 <;> simp only [finValue, hz] <;> push_cast <;> simp <;> field_simp

end

/-! ## Rounding a magnitude (R82, R92) -/

theorem fracUp_den_pos (num : Nat) {den : Nat} (e : Int) (h : 0 < den) : 0 < (fracUp num den e).2 :=
  Nat.mul_pos h (Nat.two_pow_pos _)

theorem quantize_fst (mode : Rnd) (neg : Bool) (p num den : Nat) (e g : Int) : (quantize mode neg p num den e g).1 =
    let n := (fracUp num den (e - g)).1
    let d := (fracUp num den (e - g)).2
    if roundsUp mode neg p (n / d) (n % d) d then n / d + 1 else n / d := rfl

section
variable (neg : Bool) (p q r d : Nat)

theorem roundsUp_rtz : roundsUp .rtz neg p q r d = false := by
  rw [roundsUp, ite_self]

theorem roundsUp_rne : roundsUp .rne neg p q r d = true ↔ r ≠ 0 ∧ (d < 2 * r ∨ 2 * r = d ∧ q % 2 = 1) := by
  by_cases h : r = 0 <;> simp [roundsUp, h]

theorem roundsUp_rna : roundsUp .rna neg p q r d = true ↔ r ≠ 0 ∧ d ≤ 2 * r := by
  by_cases h : r = 0 <;> simp [roundsUp, h]

theorem roundsUp_rup : roundsUp .rup neg p q r d = true ↔ r ≠ 0 ∧ neg = false := by
  by_cases h : r = 0 <;> simp [roundsUp, h]

theorem roundsUp_rdn : roundsUp .rdn neg p q r d = true ↔ r ≠ 0 ∧ neg = true := by
  by_cases h : r = 0 <;> simp [roundsUp, h]

end

/-- A magnitude is inexact exactly when it is no multiple. -/
theorem quantize_snd (mode : Rnd) (neg : Bool) (p num den : Nat) (e g : Int) :
    (quantize mode neg p num den e g).2 = true ↔ (fracUp num den (e - g)).1 % (fracUp num den (e - g)).2 ≠ 0 := decide_eq_true_iff

section
variable (neg : Bool) (p num : Nat) {den : Nat} (e g : Int) (h : 0 < den)
include h

theorem quantize_bounds :
    let n := (fracUp num den (e - g)).1
    let d := (fracUp num den (e - g)).2
    (let m := (quantize .rtz neg p num den e g).1
     m * d ≤ n ∧ n < (m + 1) * d) ∧
    (let m := (quantize .rne neg p num den e g).1
     2 * (m * d) ≤ 2 * n + d ∧ 2 * n ≤ 2 * (m * d) + d ∧ (2 * (m * d) = 2 * n + d ∨ 2 * n = 2 * (m * d) + d → m % 2 = 0)) ∧
    (let m := (quantize .rna neg p num den e g).1
     2 * (m * d) ≤ 2 * n + d ∧ 2 * n < 2 * (m * d) + d) ∧
    (let m := (quantize .rup neg p num den e g).1
     if neg then m * d ≤ n ∧ n < (m + 1) * d else n ≤ m * d ∧ m * d < n + d) ∧
    (let m := (quantize .rdn neg p num den e g).1
     if neg then n ≤ m * d ∧ m * d < n + d else m * d ≤ n ∧ n < (m + 1) * d) := by
  have hd := fracUp_den_pos num (e - g) h
  simp only [quantize_fst]
  generalize (fracUp num den (e - g)).1 = n, (fracUp num den (e - g)).2 = d at *
  have hn := Nat.div_add_mod' n d
  have hr := Nat.mod_lt n hd
  generalize n / d = q, n % d = r at *
  have hq : (q + 1) * d = q * d + d := Nat.succ_mul q d
  have hq2 : (q + 1 + 1) * d = q * d + d + d := by rw [Nat.succ_mul, hq]
  refine ⟨?_, ?_, ?_, ?_, ?_⟩
  · rw [roundsUp_rtz, if_neg Bool.false_ne_true]
    omega
  · rw [if_congr (roundsUp_rne ..) rfl rfl]
    split <;> omega
  · rw [if_congr (roundsUp_rna ..) rfl rfl]
    split <;> omega
  · cases neg with
    | false =>
      rw [if_neg Bool.false_ne_true, if_congr ((roundsUp_rup ..).trans (and_iff_left rfl)) rfl rfl]
      split <;> omega
    | true =>
      rw [if_pos rfl, if_neg (mt (roundsUp_rup ..).mp fun hup => Bool.noConfusion hup.2)]
      omega
  · cases neg with
    | false =>
      rw [if_neg Bool.false_ne_true, if_neg (mt (roundsUp_rdn ..).mp fun hup => Bool.noConfusion hup.2)]
      omega
    | true =>
      rw [if_pos rfl, if_congr ((roundsUp_rdn ..).trans (and_iff_left rfl)) rfl rfl]
      split <;> omega

end

/-! ## The obligation -/

/-- Settles O23: the exact operations over the rationals, and each rounding by the quotient and the remainder of the magnitude. -/
theorem floatRounding : Obligations.FloatRounding := by
  refine ⟨fun r n1 n2 a1 d1 a2 d2 e1 e2 h1 h2 => ⟨?_, ?_, fun h => ?_⟩, fun neg p num den e g h => ?_⟩
  · exact addFin_exact h1 h2 r n1 n2
  · exact mulV_exact h1 h2 n1 n2
  · exact divV_exact h1 h2 n1 n2 h
  · obtain ⟨hrtz, hrne, hrna, hrup, hrdn⟩ := quantize_bounds neg p num e g h
    exact ⟨hrtz, hrne, hrna, hrup, hrdn, fun mode => quantize_snd mode neg p num den e g⟩

end Sys2Proof.Machine
end


section
/-! SUPPORT. How an instruction ends whose checks pass, for each way an effect can end. -/

namespace Sys2Proof.Machine

/-- With nothing in flight an effect outside the names that acts is not changed by the wait for what is in flight (R109). -/
theorem settle_done {s : State} (h : s.quiet = true) (r : List Nat) (t : State) : settle s r (.done t) = .done t := by
  rw [settle_quiet h, holdLatch_done]

/-- Storing a result of variable latency, or the WIDTH trap. -/
theorem finish_putILate (s t : State) (sl : BitVec 2) (word d : Nat) (x : Int) :
    finish s 4 sl.toNat word (putILate t d x) =
      if fitsIn t d x then advance (lateOut t d x) (s.me.pc + 4) sl.toNat else trap32 s .width (widthVal x d) := by
  cases h : fitsIn t d x with
  | true => rw [putILate_fits h, if_pos rfl]; rfl
  | false => rw [putILate_trap h, if_neg Bool.false_ne_true]; rfl

section
variable {i : Instr} {s : State} {body : State → Eff} (hr : s.running = true) (hw : i.wf = true)
include hr hw

/-! ## Without checks -/

theorem run32_done (sl : BitVec 2) {t : State} (hb : body s = .done t) : run32 i sl body s = .next (next32 s sl t) := by
  rw [run32_running hr hw, hb, finish_done]

theorem run16_done {t : State} (hb : body s = .done t) : run16 i body s = .next (next16 s t) := by
  rw [run16_running hr hw, hb, finish_done16]

theorem run32_jump (sl : BitVec 2) {t : State} {p : Word} (hb : body s = .jump t p) : run32 i sl body s = .next (jumps sl t p) := by
  rw [run32_running hr hw, hb]
  rfl

theorem run16_jump {t : State} {p : Word} (hb : body s = .jump t p) : run16 i body s = .next (jumps 0 t p) := by
  rw [run16_running hr hw, hb]
  rfl

theorem run32_trap (sl : BitVec 2) {c : Cause} {v : Word} (hb : body s = .trap c v) : run32 i sl body s = .next (trap32 s c v) := by
  rw [run32_running hr hw, hb, finish_trap]

theorem run32_trapWord (sl : BitVec 2) {c : Cause} (hb : body s = .trapWord c) :
    run32 i sl body s = .next (trap32 s c (BitVec.ofNat 64 (encode i))) := by
  rw [run32_running hr hw, hb]
  rfl

theorem run32_stall (sl : BitVec 2) {t : State} (hb : body s = .stall t) : run32 i sl body s = .next t := by
  rw [run32_running hr hw, hb]
  rfl

theorem run32_leave (sl : BitVec 2) {t : State} (hb : body s = .leave t) : run32 i sl body s = .next t := by
  rw [run32_running hr hw, hb]
  rfl

theorem run32_block (sl : BitVec 2) {t : State} {w : Wait} {a : Word} (hb : body s = .block t w a) :
    run32 i sl body s = .next (blocks s t w a) := by
  rw [run32_running hr hw, hb]
  rfl

theorem run32_putI (sl : BitVec 2) {d l : Nat} {x : Int} (hb : body s = putI s d l x) : run32 i sl body s = .next (endsWith s sl d l x) :=
    by
  rw [run32_running hr hw, hb, finish_putI]

theorem run32_late (sl : BitVec 2) {d : Nat} {x : Int} {t : State} (hb : body s = putILate t d x) :
    run32 i sl body s = .next (endsLate s sl d x t) := by
  rw [run32_running hr hw, hb, finish_putILate]
  rfl

end

/-- An operation whose checks pass is its effect: for the lemmas above. -/
theorem body_usable {s : State} {r w : List Nat} {q : List KindReq} {body : State → Eff} {e : Eff} (hu : usable s r w q = true)
    (hb : body s = pre s r w q e) : body s = e := hb.trans (pre_usable hu e)

end Sys2Proof.Machine
end

section
/-! SUPPORT. Transfers (R104, R160): what a branch tests of an operand that it has kept. -/

namespace Sys2Proof.Machine

/-- A branch that waits holds an operand of 64 bits whose name has 8 bits by now. -/
def wideLatch : State := Tests.user.modMe (fun x => { x with latch := [{ name := 11, bits := 256, width := 64 }] })

/-- Refutes O27: BR tests the low bits of its name at the name's width (R104), but an operand that is kept has the value of the width with
which it was read (R108), which may be wider. The kept 256 of an 8-bit name is zero for BR, though its value is not. -/
theorem not_controlTransfers : ¬ Obligations.ControlTransfers := by
  intro h
  obtain ⟨⟨hbr, -⟩, -⟩ := h
  have husable : usable wideLatch [11] [] [(11, anyK)] = true := by decide +kernel
  have hpc := congrArg (fun o => (Tests.after o).me.pc) (hbr 0 11 0 wideLatch husable).1
  revert hpc
  decide +kernel

end Sys2Proof.Machine
end

section
/-! SUPPORT. Fields of wide registers: what reading a field gives after another or the same one is written. -/

namespace Sys2Proof.Machine

theorem testBit_wideGet {n : Nat} (v : BitVec n) (lo w i : Nat) : (wideGet v lo w).testBit i = (decide (i < w) && v.getLsbD (lo + i)) := by
  rw [wideGet, Nat.testBit_mod_two_pow, Nat.testBit_div_two_pow, Nat.add_comm i lo]
  rfl

theorem getLsbD_wideSet {n : Nat} (v : BitVec n) (lo w x i : Nat) : (wideSet v lo w x).getLsbD i =
    (decide (i < n) && if lo ≤ i ∧ i < lo + w then x.testBit (i - lo) else v.getLsbD i) := by
  simp only [wideSet, BitVec.getLsbD_or, BitVec.getLsbD_and, BitVec.getLsbD_not, BitVec.getLsbD_shiftLeft, BitVec.getLsbD_ofNat,
    Nat.testBit_two_pow_sub_one, Nat.testBit_mod_two_pow]
  by_cases hn : i < n
  · by_cases hlo : i < lo
    · simp [hn, hlo, Nat.not_le.mpr hlo]
    · have hsub : i - lo < n := by omega
      by_cases hw : i < lo + w
      · have hfield : i - lo < w := by omega
        simp [hn, hlo, hsub, hw, hfield, Nat.not_lt.mp hlo]
      · have hfield : ¬i - lo < w := by omega
        simp [hn, hlo, hsub, hw, hfield]
  · simp [hn]

theorem wideGet_wideSet_same {n : Nat} (v : BitVec n) {lo w : Nat} (x : Nat) (h : lo + w ≤ n) :
    wideGet (wideSet v lo w x) lo w = x % 2 ^ w := by
  apply Nat.eq_of_testBit_eq
  intro i
  rw [testBit_wideGet, getLsbD_wideSet, Nat.testBit_mod_two_pow]
  by_cases hi : i < w
  · have hn : lo + i < n := by omega
    simp [hi, hn]
  · simp [hi]

theorem wideGet_wideSet_disjoint {n : Nat} (v : BitVec n) {lo w lo' w' : Nat} (x : Nat) (h : lo + w ≤ lo' ∨ lo' + w' ≤ lo) :
    wideGet (wideSet v lo w x) lo' w' = wideGet v lo' w' := by
  apply Nat.eq_of_testBit_eq
  intro i
  rw [testBit_wideGet, testBit_wideGet, getLsbD_wideSet]
  by_cases hi : i < w'
  · rw [if_neg (by omega)]
    by_cases hn : lo' + i < n
    · simp [hn]
    · rw [BitVec.getLsbD_of_ge v _ (Nat.not_lt.mp hn), Bool.and_false]
  · simp [hi]

theorem wideGet_lt {n : Nat} (v : BitVec n) (lo w : Nat) : wideGet v lo w < 2 ^ w := Nat.mod_lt _ (Nat.two_pow_pos w)

/-- An extension register holds what was written to it, and the others what they held (R142). -/
theorem oxGet_oxSet (s : State) {k j : Nat} (v : Word) (hk : k < 8) :
    oxGet (oxSet s k v).me j = if j = k then v else oxGet s.me j := by
  have hme : (oxSet s k v).me.ox = wideSet s.me.ox (64 * k) 64 v.toNat := by
    rw [oxSet, modMe_me]
  rw [oxGet, hme]
  split
  case isTrue h =>
    rw [h, wideGet_wideSet_same _ _ (by omega), Nat.mod_eq_of_lt v.isLt, BitVec.ofNat_toNat, BitVec.setWidth_eq]
  case isFalse h =>
    rw [wideGet_wideSet_disjoint _ _ (by omega)]
    rfl

end Sys2Proof.Machine
end

section
/-! SUPPORT. Maps, special registers and extension registers (R138 to R143). -/

namespace Sys2Proof.Machine

/-- A field of a word's low bits is the word masked. -/
theorem ofNat_fld_low (v : Word) {w : Nat} (h : w ≤ 64) : BitVec.ofNat 64 (fld v 0 w) = v &&& BitVec.ofNat 64 (2 ^ w - 1) := by
  apply BitVec.eq_of_toNat_eq
  have hlt : 2 ^ w - 1 < 2 ^ 64 := by
    have := Nat.pow_le_pow_right Nat.two_pos h
    have := Nat.two_pow_pos w
    omega
  rw [BitVec.toNat_and, BitVec.toNat_ofNat, BitVec.toNat_ofNat, Nat.mod_eq_of_lt hlt, Nat.and_two_pow_sub_one_eq_mod, fld, bitsAt,
    Nat.pow_zero, Nat.div_one]
  exact Nat.mod_eq_of_lt ((Nat.mod_le _ _).trans_lt v.isLt)

theorem seedOf_eq (v : Word) : seedOf v = if v &&& 0xFFFFFFFF = 0 then 1 else v &&& 0xFFFFFFFF := by
  have hmask : BitVec.ofNat 64 (fld v 0 32) = v &&& 0xFFFFFFFF := ofNat_fld_low v (by decide)
  have hlt : fld v 0 32 < 2 ^ 32 := Nat.mod_lt _ (Nat.two_pow_pos 32)
  have hzero : fld v 0 32 = 0 ↔ v &&& 0xFFFFFFFF = 0 := by
    rw [← hmask]
    refine ⟨fun h => congrArg (BitVec.ofNat 64) h, fun h => ?_⟩
    have hnat : fld v 0 32 % 2 ^ 64 = 0 := congrArg BitVec.toNat h
    omega
  rw [seedOf, hmask, if_congr hzero rfl rfl]

section
variable {s : State} {d a : Nat}

theorem gets_body {r : Nat} (hu : usable s [] [d] [(d, intK)] = true) (hq : s.quiet = true) :
    getsOp d r s = putI s d 1 (regAs s d (specialReg s r)) := by
  rw [getsOp, pre_usable hu, if_neg]
  simp only [quiet_pending hq, ne_eq, not_true, and_false, not_false_eq_true]

/-- MAPQ of an index other than ZERO's describes the name, or puts 0 when none is declared there. -/
theorem mapq_declared (hu : usable s [] [d] [(d, intK)] = true) (ha : a ≠ 63) {i : Info} (hi : infoOf s s.cur.1 s.cur.2 a = some i) :
    mapqOp d a s = putI s d 1 (mapqWord i i.region.code) := by
  simp only [mapqOp, pre_usable hu, if_neg ha, hi]

theorem mapq_undeclared (hu : usable s [] [d] [(d, intK)] = true) (ha : a ≠ 63) (hi : infoOf s s.cur.1 s.cur.2 a = none) :
    mapqOp d a s = putI s d 1 0 := by
  simp only [mapqOp, pre_usable hu, if_neg ha, hi]

/-- A record that can be read and installed, with no repack in a region that it names, becomes the slot's map. -/
theorem mapld_installs {s1 t : State} {count : Nat} {descs : List Nat} (hu : usable s [a] [] [(a, intK)] = true) (hq : s.quiet = true)
    (hal : (valW s a).toNat % 8 = 0) (hheld : recordHeld s s.cur.1 (valW s a).toNat = false)
    (hread : readMapRecord s s.cur.1 (decide (s.cur.2 < 7)) (valW s a).toNat = (s1, .ok (count, descs)))
    (hinst : mapInstall s1 s.cur.1 s.cur.2 false count descs = .ok t) (hfree : mapFrozen s s.cur.1 s.cur.2 t.me.map = false) :
    mapldOp a s = .done (t.modMe (fun x => { x with mapPtr := valW s a })) := by
  simp only [mapldOp, pre_usable hu, settle_quiet hq, hal, hheld, hread, hinst, hfree, ne_eq, not_true, if_false, Bool.false_eq_true,
    holdLatch_done]

end

theorem ofNat_toNat_extend {n : Nat} (v : BitVec n) : BitVec.ofNat 64 v.toNat = BitVec.zeroExtend 64 v := by
  rw [BitVec.ofNat_toNat]

/-- Settles O26: each arm's effect behind its checks, and the lane of an extension register. -/
theorem mapsAndSpecialRegisters : Obligations.MapsAndSpecialRegisters := by
  refine ⟨⟨fun sl a s s1 t count descs hu hq hal hheld hread hinst hfree => ?_, fun sl d a s i hu ha hi => ?_, fun sl d a s hu ha hi => ?_⟩,
    ⟨?_, fun sl a s hu => ⟨fun hq => ?_, ?_, ?_, ?_, ?_⟩⟩,
    ⟨fun sl k a s hu => ?_, fun sl d k s hu => ?_, fun sl k s hr => ⟨?_, fun hk => ?_⟩, fun sl q k v s hr => ⟨fun hv => ?_, fun hq => ?_⟩,
      fun s k j v hk hj => oxGet_oxSet s v hk⟩⟩
  · exact run32_done (usable_running hu) rfl sl (mapld_installs hu hq hal hheld hread hinst hfree)
  · exact run32_putI (usable_running hu) rfl sl (mapq_declared hu ha hi)
  · exact run32_putI (usable_running hu) rfl sl (mapq_undeclared hu ha hi)
  · simp only [List.forall_mem_cons, List.not_mem_nil, false_imp_iff, implies_true, and_true]
    and_intros <;> intro sl d s hu hq
    iterate 7 exact run32_putI (usable_running hu) rfl sl (gets_body hu hq)
    · rw [← ofNat_toNat_extend]
      exact run32_putI (usable_running hu) rfl sl (gets_body hu hq)
    iterate 3 exact run32_putI (usable_running hu) rfl sl (gets_body hu hq)
  · exact run32_done (usable_running hu) rfl sl (body_usable hu (congrArg _ (settle_done hq _ _)))
  · have hbits : BitVec.ofNat 64 (fld (valW s a.toNat) 0 7) = valW s a.toNat &&& 0x7F := ofNat_fld_low _ (by decide)
    rw [← hbits]
    exact run32_done (usable_running hu) rfl sl (body_usable hu rfl)
  · have hbits : BitVec.ofNat 64 (fld (valW s a.toNat) 0 2) = valW s a.toNat &&& 3 := ofNat_fld_low _ (by decide)
    rw [← hbits]
    exact run32_done (usable_running hu) rfl sl (body_usable hu rfl)
  · have hbits : BitVec.ofNat 64 (fld (valW s a.toNat) 0 5) = valW s a.toNat &&& 0x1F := ofNat_fld_low _ (by decide)
    rw [← hbits]
    exact run32_done (usable_running hu) rfl sl (body_usable hu rfl)
  · rw [← seedOf_eq]
    exact run32_done (usable_running hu) rfl sl (body_usable hu rfl)
  · exact run32_done (usable_running hu) rfl sl (body_usable hu rfl)
  · exact run32_putI (usable_running hu) rfl sl (body_usable hu rfl)
  · exact run32_done hr rfl sl rfl
  · exact run32_done hr (by rw [hk]; rfl) sl rfl
  · have hw : (Instr.oxi sl 0 q k v).wf = true := by
      show (!v.getLsbD 16) = true
      rw [hv, Bool.not_false]
    exact run32_done hr hw sl rfl
  · exact run32_done hr (by rw [hq]; rfl) sl rfl

end Sys2Proof.Machine
end


section
/-! SUPPORT. Widths and the borrowed slot (R73, R76, R77, R128 to R137). -/

namespace Sys2Proof.Machine

/-! ## RSZ: writes in flight (R77) -/

theorem table_get_mem_or {α : Type} (m : Table α) (k : Nat) (d : α) : (k, m.get k d) ∈ m ∨ m.get k d = d := by
  induction m with
  | nil => exact .inr rfl
  | cons p r ih =>
    obtain ⟨j, v⟩ := p
    by_cases h : j = k
    · subst h
      exact .inl (by simp [Table.get])
    · simp only [Table.get, if_neg h]
      exact ih.imp (List.mem_cons_of_mem _) id

/-- A pending write of slot `k` of core `m` goes to a region. -/
def writesRegion (s : State) (m k : Nat) (g : Region) (p : Pending) : Bool :=
  match nameInfo s m k p.name with | some i => i.region = g | none => false

/-- With nothing of a core's other slots in flight to a region, none of them is going to write a name of it. -/
theorem lastWrite_eq_none {s : State} {n k m i j : Nat} {g : Region} (hmi : ¬(m = n ∧ i = k))
    (h : ((s.core m).slots.flatMap fun x => if m = n ∧ x.1 = k then [] else x.2.pending.filter (writesRegion s m x.1 g)) = []) :
    lastWrite s m i g j = none := by
  have hfilter : (s.slot m i).pending.filter (writesRegion s m i g) = [] := by
    rcases table_get_mem_or (s.core m).slots i {} with hmem | hfree
    · have hslot := List.flatMap_eq_nil_iff.mp h _ hmem
      rwa [if_neg hmi] at hslot
    · rw [State.slot, Core.slot, hfree, List.filter_nil]
  rw [lastWrite, List.getLast?_eq_none_iff, List.filter_eq_nil_iff]
  intro p hp hwrites
  refine List.filter_eq_nil_iff.mp hfilter p hp ?_
  split at hwrites
  next i hi =>
    rw [Bool.and_eq_true] at hwrites
    simp only [writesRegion, hi, hwrites.1]
  next => cases hwrites

theorem twins_of_core (n : Nat) : (2 * pairOf n = n ∧ 2 * pairOf n + 1 = twinOf n) ∨ (2 * pairOf n = twinOf n ∧ 2 * pairOf n + 1 = n) := by
  unfold pairOf twinOf
  split <;> omega

/-- The cores whose slots name a region that core `n` names. -/
def coresOfRegion (n : Nat) : Region → List Nat
  | .priv => []
  | .shared => [n]
  | .pair => [2 * pairOf n, 2 * pairOf n + 1]

theorem landed_none {s : State} {n k j : Nat} {g : Region} (h : inFlight s n k g = []) :
    ((coresOfRegion n g).flatMap fun m => (List.range 8).filterMap fun i => if m = n ∧ i = k then none else lastWrite s m i g j) = [] := by
  rw [List.flatMap_eq_nil_iff]
  intro m hm
  rw [List.filterMap_eq_nil_iff]
  intro i _
  split
  · rfl
  next hmi =>
    cases g with
    | priv => cases hm
    | shared =>
      obtain rfl := List.mem_singleton.mp hm
      exact lastWrite_eq_none hmi h
    | pair =>
      obtain ⟨hown, htwin⟩ := List.append_eq_nil_iff.mp h
      have hcases : m = n ∨ m = twinOf n := by
        simp only [coresOfRegion, List.mem_cons, List.not_mem_nil, or_false] at hm
        have := twins_of_core n
        omega
      rcases hcases with rfl | rfl
      · exact lastWrite_eq_none hmi hown
      · exact lastWrite_eq_none hmi htwin

theorem landedBits_quiet {s : State} {d n k : Nat} (hcur : s.cur = (n, k)) (h : inFlight s n k (info s d).region = []) :
    landedBits s d = nameBits s n k d := by
  have hnone := landed_none (j := regionPos s.me.map d (info s d).region) h
  cases hg : (info s d).region <;> simp only [hg, coresOfRegion] at hnone <;> simp only [landedBits, hcur, hg, hnone, List.foldl_nil]

/-! ## RSZ: its outcomes (R76, R77, R128) -/

/-- RSZ changes only widths of integer names. -/
def resizable (i : Info) : Bool := i.kind == .unsigned || i.kind == .signed

/-- A row of the name's region that a user slot must fill first. -/
def rowMissing (s : State) (d k r : Nat) : Bool := (info s d).region == .priv && decide (k < 7) && !s.me.resident.getLsbD r

theorem rowMissing_iff {s : State} {d k r : Nat} :
    rowMissing s d k r = true ↔ ¬((info s d).region = .priv → k < 7 → s.me.resident.getLsbD r = true) := by
  simp only [rowMissing, Bool.and_eq_true, beq_iff_eq, decide_eq_true_eq, Bool.not_eq_true', Classical.not_imp, Bool.not_eq_true, and_assoc]

theorem rszOp_zero {s : State} {d w : Nat} (hd : d = 63) : rszOp d w s = .done s := if_pos hd

section
variable {s : State} {d w n k : Nat} (hcur : s.cur = (n, k)) (hq : s.quiet = true) (hd : d ≠ 63)
  (hk : kindName s (d, resizable) = none) (hfl : inFlight s n k (info s d).region = []) (hfr : frozen s n k (info s d).region = false)
include hcur hq hd hk hfl hfr

theorem rszOp_eq : rszOp d w s =
    let width := if w = 0 then 64 else w
    let i := info s d
    if width = i.width then .done s
    else if rowMissing s d k (i.off / 128) then .stall (s.modMe (fun x => { x with demand := some (i.off / 128) }))
    else match fitInt i.kind width i.mode (readPat i.kind i.width (nameBits s n k d)) with
      | none => .trap .width (widthVal (readPat i.kind i.width (nameBits s n k d)) d)
      | some y =>
        let old := regionLayout s n k i.region
        let new := regionLayout (modifyName s n k d (fun x => { x with width := width })) n k i.region
        if new = [] then .trap .maperr (mapErr 2 d)
        else match (touchedRows old new).find? (fun r => (old.map (fun p => p.1 / 128)).contains r && rowMissing s d k r) with
          | some r => .stall (s.modMe (fun x => { x with demand := some r }))
          | none =>
            let ends := (s.core n).cycle + 1 + 2 * (touchedRows old new).length
            .done (s.modMe (fun x => { x with repack := some ⟨i.region, d, width, BitVec.ofNat 64 (modPow y width), ends, 0⟩ })) := by
  unfold resizable at hk
  simp only [rszOp, if_neg hd, hk, hcur, quiet_pending hq, hfl, hfr, List.any_nil, List.foldl_nil, landedBits_quiet hcur hfl, rowMissing,
    Bool.false_eq_true, or_self, if_false]
  rfl

variable (hw : (if w = 0 then 64 else w) ≠ (info s d).width)

theorem rszOp_same (hw : (if w = 0 then 64 else w) = (info s d).width) : rszOp d w s = .done s := by
  rw [rszOp_eq hcur hq hd hk hfl hfr]
  exact if_pos hw

include hw

theorem rszOp_missing (hm : rowMissing s d k ((info s d).off / 128) = true) :
    rszOp d w s = .stall (s.modMe (fun x => { x with demand := some ((info s d).off / 128) })) := by
  rw [rszOp_eq hcur hq hd hk hfl hfr]
  simp only [if_neg hw, hm, if_true]

variable (hm : rowMissing s d k ((info s d).off / 128) = false)
include hm

theorem rszOp_trap
    (hfit : fitInt (info s d).kind (if w = 0 then 64 else w) (info s d).mode (readPat (info s d).kind (info s d).width
      (nameBits s n k d)) = none) :
    rszOp d w s = .trap .width (widthVal (readPat (info s d).kind (info s d).width (nameBits s n k d)) d) := by
  rw [rszOp_eq hcur hq hd hk hfl hfr]
  simp only [if_neg hw, hm, Bool.false_eq_true, if_false, hfit]

variable {y : Int} {old new : List (Nat × Nat)}
  (hfit : fitInt (info s d).kind (if w = 0 then 64 else w) (info s d).mode (readPat (info s d).kind (info s d).width (nameBits s n k d)) =
    some y)
  (hold : regionLayout s n k (info s d).region = old)
  (hnew : regionLayout (modifyName s n k d (fun x => { x with width := if w = 0 then 64 else w })) n k (info s d).region = new)
include hfit hnew

theorem rszOp_noroom (hempty : new = []) : rszOp d w s = .trap .maperr (mapErr 2 d) := by
  rw [rszOp_eq hcur hq hd hk hfl hfr]
  simp only [if_neg hw, hm, Bool.false_eq_true, if_false, hfit, hnew, hempty, if_true]

include hold

theorem rszOp_begins (hne : new ≠ []) (hheld : ∀ r ∈ touchedRows old new, r ∈ old.map (fun p => p.1 / 128) → rowMissing s d k r = false) :
    rszOp d w s = .done (s.modMe (fun x => { x with repack := some ⟨(info s d).region, d, if w = 0 then 64 else w,
      BitVec.ofNat 64 (modPow y (if w = 0 then 64 else w)), (s.core n).cycle + 1 + 2 * (touchedRows old new).length, 0⟩ })) := by
  have hfind : (touchedRows old new).find? (fun r => (old.map (fun p => p.1 / 128)).contains r && rowMissing s d k r) = none := by
    rw [List.find?_eq_none]
    intro r hr hbad
    rw [Bool.and_eq_true, List.contains_iff_mem] at hbad
    exact Bool.false_ne_true ((hheld r hr hbad.1).symm.trans hbad.2)
  rw [rszOp_eq hcur hq hd hk hfl hfr]
  simp only [if_neg hw, hm, Bool.false_eq_true, if_false, hfit, hold, hnew, hne, hfind]

end

/-- A value that a width holds, or whose mode does not trap, has a fitted pattern. -/
theorem fitInt_some_of {i : Info} {w : Nat} {x : Int} (h : i.mode ≠ .trap ∨ representable i.kind w x = true) :
    ∃ y, fitInt i.kind w i.mode x = some y ∧ modPow y w = storedBits { i with width := w } x := by
  have hstored := fitInt_stored { i with width := w } x
  rw [if_neg (by rintro ⟨hm, hr⟩; simp_all)] at hstored
  exact Option.map_eq_some_iff.mp hstored

theorem fitInt_none_of {i : Info} {w : Nat} {x : Int} (hm : i.mode = .trap) (hr : representable i.kind w x = false) :
    fitInt i.kind w i.mode x = none := by
  simp only [fitInt, hr, hm, Bool.false_eq_true, if_false]

/-! ## SETM (R130) -/

theorem setmOp_eq {s : State} {d m : Nat} {mode : Mode} (hu : usable s [] [] [(d, fun i => i.kind.isInt || m == 0)] = true)
    (hm : Mode.ofCode m = some mode) (hd : d ≠ 63) :
    setmOp d m s = .done (modifyName s s.cur.1 s.cur.2 d (fun x => if x.kind.isFloat then x else { x with mode := mode })) := by
  simp only [setmOp, pre_usable hu, if_neg hd, hm]

theorem modeCode_lt {m : Nat} {mode : Mode} (h : Mode.ofCode m = some mode) : m < 3 := by
  match m, h with
  | 0, _ | 1, _ | 2, _ => decide
  | m + 3, h => cases h

/-! ## The borrowed slot (R73, R131 to R135) -/

/-- A slot just lent: none of its rows is resident. -/
def freshBorrow (t : Nat) (m : List NameD) (pa split pa2 : Nat) : Borrow :=
  { slot := t, map := m, rows := 0, resident := 0, dirty := 0, poisoned := 0, backing := pa, split := split, backing2 := pa2 }

section
variable {s : State} {d a b : Nat} (hu : usable s [a, b] [d] [(d, intK), (a, intK), (b, intK)] = true)
include hu

theorem borrowOp_system (h7 : s.cur.2 = 7) : borrowOp d a b s = borrowTrap 3 := by
  simp only [borrowOp, pre_usable hu, h7, if_true]

theorem borrowOp_second (h7 : s.cur.2 ≠ 7) (hb : s.me.borrow ≠ none) : borrowOp d a b s = borrowTrap 1 := by
  simp only [borrowOp, pre_usable hu, if_neg h7, Option.isSome_iff_ne_none.mpr hb, if_true]

theorem borrowOp_noSlot (h7 : s.cur.2 ≠ 7) (hb : s.me.borrow = none) (hf : freeSlot s s.cur.1 = none) : borrowOp d a b s = borrowTrap 2 :=
    by
  simp only [borrowOp, pre_usable hu, if_neg h7, hb, hf, Option.isSome_none, Bool.false_eq_true, if_false]

/-- The lowest free enabled slot is lent, once the second map and the backing area are found good. -/
theorem borrowOp_lends {s1 s2 : State} {t count pa split pa2 : Nat} {descs : List Nat} {m : List NameD} (hq : s.quiet = true)
    (hus : s.userSlot = true) (hb : s.me.borrow = none) (hf : freeSlot s s.cur.1 = some t) (ha : (valW s a).toNat % 8 = 0)
    (hb16 : (valW s b).toNat % 16 = 0) (hheld : recordHeld s s.cur.1 (valW s a).toNat = false)
    (hwalk : walkHeld s s.cur.1 (valW s b).toNat = false) (hwalk' : walkHeld s s.cur.1 ((valW s b).toNat + 511) = false)
    (hread : readMapRecord s s.cur.1 true (valW s a).toNat = (s1, .ok (count, descs)))
    (harea : backingArea s1 s.cur.1 (valW s b).toNat = .ok (s2, pa, split, pa2)) (hmap : borrowMap count descs = .ok m)
    (hfit : fitsIn s2 d t = true) :
    borrowOp d a b s = .done (((intOut s2 d 1 t).modMe (fun x => { x with borrow := some (freshBorrow t m pa split pa2) })).modSlot
      s.cur.1 t (fun x => { x with lentTo := some s.cur.2 })) := by
  have h7 : s.cur.2 ≠ 7 := fun h => by simp [State.userSlot, h] at hus
  simp only [borrowOp, pre_usable hu, if_neg h7, hb, hf, Option.isSome_none, Bool.false_eq_true, if_false, ha, hb16, ne_eq, not_true,
    settle_quiet hq, hheld, hwalk, hwalk', or_self, hread, harea, hmap, putI_fits hfit, holdLatch_done, freshBorrow]

end

theorem givebackOp_returns {s : State} {b : Borrow} (hq : s.quiet = true) (hb : s.me.borrow = some b) :
    givebackOp s = .done ((s.modMe (fun x => { x with borrow := none })).modSlot s.cur.1 b.slot (fun x => { x with lentTo := none })) := by
  have hslot : (s.slot s.cur.1 s.cur.2).borrow = some b := hb
  simp only [givebackOp, hb, settle_quiet hq, holdLatch_done, giveBack, hslot, State.modMe]

theorem givebackOp_none {s : State} (hb : s.me.borrow = none) : givebackOp s = borrowTrap 4 := by
  simp only [givebackOp, hb]

section
variable {s : State} {k : Nat} {b : Borrow} {i : Info} (hb : s.me.borrow = some b) (hi : borrowInfo b k = some i)
  (hr : b.resident.getLsbD (i.off / 128) = true)
include hb hi hr

theorem withBorrow_resident {read : Bool} (hp : read = true → b.poisoned.getLsbD (i.off / 128) = false) (body : Borrow → Info → Eff) :
    withBorrow s read k body = body b i := by
  have hclean : (read && b.poisoned.getLsbD (i.off / 128)) = false := by
    cases read with
    | false => rfl
    | true => rw [hp rfl, Bool.and_false]
  simp only [withBorrow, hb, hi, hr, hclean, if_true, Bool.false_eq_true, if_false]

theorem xgetOp_eq {d : Nat} (hu : usable s [] [d] [(d, borrowMatch s k)] = true) (hp : b.poisoned.getLsbD (i.off / 128) = false) :
    xgetOp d k s = if i.kind.isFloat then .done (putLate s d (wideGet b.rows i.off i.width))
      else putILate s d (readPat i.kind i.width (wideGet b.rows i.off i.width)) := by
  rw [xgetOp, pre_usable hu, withBorrow_resident hb hi hr fun _ => hp]

section
variable {a : Nat} (hu : usable s [a] [] [(a, borrowMatch s k)] = true)
include hu

theorem xputOp_float (hf : i.kind.isFloat = true) : xputOp k a s = .done (borrowWrite s i (opBits s a)) := by
  rw [xputOp, pre_usable hu, withBorrow_resident hb hi hr fun h => Bool.noConfusion h, if_pos hf]

theorem xputOp_int (hf : i.kind.isFloat = false) (hfit : i.mode ≠ .trap ∨ representable i.kind i.width (valI s a) = true) :
    xputOp k a s = .done (borrowWrite s i (storedBits i (valI s a))) := by
  obtain ⟨y, hy, hbits⟩ := fitInt_some_of (w := i.width) hfit
  rw [xputOp, pre_usable hu, withBorrow_resident hb hi hr fun h => Bool.noConfusion h]
  simp only [hf, Bool.false_eq_true, if_false, hy, hbits]

end

end

/-! ## TWXCH (R136, R137) -/

/-- A value that D takes is put now as its stored pattern. -/
theorem putNow_fits {s : State} {d : Nat} {x : Int} (h : fitsIn s d x = true) : ∃ y,
    (if d = 63 then some 0 else fitInt (info s d).kind (info s d).width (info s d).mode x) = some y ∧
    putNow s d (modPow y (info s d).width) = putNow s d (storedBits (info s d) x) := by
  by_cases hd : d = 63
  · exact ⟨0, if_pos hd, by simp only [putNow, if_pos hd]⟩
  · simp only [fitsIn, Bool.or_eq_true, beq_iff_eq, hd, false_or, bne_iff_ne] at h
    obtain ⟨y, hy, hbits⟩ := fitInt_some_of (w := (info s d).width) h
    exact ⟨y, (if_neg hd).trans hy, by rw [hbits]⟩

section
variable {s : State} {d a : Nat} (hu : usable s [d, a] [d, a] [(d, fun i => i.region != .pair), (a, fun i => i.region == .pair &&
  (if i.kind.isFloat then i.kind == (info s d).kind else (info s d).kind.isInt))] = true)
include hu

theorem twxchOp_float (hf : (info s a).kind.isFloat = true) :
    twxchOp d a s = .done (overBrim (putNow (putNow s d (opBits s a)) a (opBits s d)) a) := by
  rw [twxchOp, pre_usable hu]
  exact if_pos hf

theorem twxchOp_int (hf : (info s a).kind.isFloat = false) (hd : fitsIn s d (valI s a) = true)
    (ha : (info s a).mode ≠ .trap ∨ representable (info s a).kind (info s a).width (valI s d) = true) :
    twxchOp d a s = .done (overBrim (putNow (putNow s d (storedBits (info s d) (valI s a))) a (storedBits (info s a) (valI s d))) a) := by
  obtain ⟨x, hx, hxb⟩ := putNow_fits hd
  obtain ⟨y, hy, hyb⟩ := fitInt_some_of (w := (info s a).width) ha
  rw [twxchOp, pre_usable hu]
  simp only [hf, Bool.false_eq_true, if_false, hx, hy, hxb, hyb]

end

/-! ## The obligation -/

/-- Settles O24: RSZ by its outcomes, SETM and the exchange of names behind their checks, the borrowed slot through its second map. -/
theorem widthsAndBorrowing : Obligations.WidthsAndBorrowing := by
  refine ⟨⟨fun sl d w s hr hd => ?_, fun sl d w s hr hq hd hk => ?_, fun sl d m s mode hm hd hu => ?_⟩,
    fun sl d a b s s1 s2 t count pa split pa2 descs m hu hq hus hb hf ha hb16 hheld hwalk hwalk' hread harea hmap hfit => ?_,
    fun sl d a b s hu => ⟨fun h7 => ?_, fun h7 hb => ?_, fun h7 hb hf => ?_⟩, fun sl s b hr hq hb => ?_, fun sl s hr hb => ?_,
    fun sl d k s b i hu hb hi hres hp => ?_, fun sl k a s b i hu hb hi hres => ⟨fun hf => ?_, fun hf hfit => ?_⟩,
    fun sl d a s hu => ⟨fun hf => ?_, fun hf hd _ ha => ?_⟩⟩
  · exact run32_done hr rfl sl (rszOp_zero hd)
  · intro n k i width here hfl hfr
    have hcur : s.cur = (n, k) := rfl
    refine ⟨fun hw => ?_, fun hw hm => ?_, fun hw hm => ?_⟩
    · exact run32_done hr rfl sl (rszOp_same hcur hq hd hk hfl hfr hw)
    · exact run32_stall hr rfl sl (rszOp_missing hcur hq hd hk hfl hfr hw (rowMissing_iff.mpr hm))
    · have hpresent : rowMissing s d.toNat k (i.off / 128) = false := Bool.eq_false_iff.mpr (mt rowMissing_iff.mp (not_not.mpr hm))
      intro x old new
      refine ⟨fun ⟨hmode, hrep⟩ => ?_, fun hfit hempty => ?_, fun hfit hne hheld => ?_⟩
      · exact run32_trap hr rfl sl (rszOp_trap hcur hq hd hk hfl hfr hw hpresent (fitInt_none_of hmode hrep))
      · obtain ⟨y, hy, -⟩ := fitInt_some_of hfit
        exact run32_trap hr rfl sl (rszOp_noroom hcur hq hd hk hfl hfr hw hpresent hy rfl hempty)
      · obtain ⟨y, hy, hbits⟩ := fitInt_some_of hfit
        intro bits ends
        have hrows : ∀ r ∈ touchedRows old new, r ∈ old.map (fun p => p.1 / 128) → rowMissing s d.toNat k r = false :=
          fun r hr hold => Bool.eq_false_iff.mpr (mt rowMissing_iff.mp (not_not.mpr (hheld r hr hold)))
        have hb : bits = BitVec.ofNat 64 (modPow y width) := by rw [hbits]
        rw [hb]
        exact run32_done hr rfl sl (rszOp_begins hcur hq hd hk hfl hfr hw hpresent hy rfl rfl hne hrows)
  · exact run32_done (usable_running hu) (show (Instr.setm sl d m).wf = true from decide_eq_true (modeCode_lt hm)) sl (setmOp_eq hu hm hd)
  · exact run32_done (usable_running hu) rfl sl (borrowOp_lends hu hq hus hb hf ha hb16 hheld hwalk hwalk' hread harea hmap hfit)
  · exact run32_trap (usable_running hu) rfl sl (borrowOp_system hu h7)
  · exact run32_trap (usable_running hu) rfl sl (borrowOp_second hu h7 hb)
  · exact run32_trap (usable_running hu) rfl sl (borrowOp_noSlot hu h7 hb hf)
  · exact run32_done hr rfl sl (givebackOp_returns hq hb)
  · exact run32_trap hr rfl sl (givebackOp_none hb)
  · intro bits
    have hbody := xgetOp_eq hb hi hres hu hp
    split
    next hf => exact run32_done (usable_running hu) rfl sl (hbody.trans (if_pos hf))
    next hf => exact run32_late (usable_running hu) rfl sl (hbody.trans (if_neg hf))
  · exact run32_done (usable_running hu) rfl sl (xputOp_float hb hi hres hu hf)
  · exact run32_done (usable_running hu) rfl sl (xputOp_int hb hi hres hu hf hfit)
  · exact run32_done (usable_running hu) rfl sl (twxchOp_float hu hf)
  · exact run32_done (usable_running hu) rfl sl (twxchOp_int hu hf hd ha)

end Sys2Proof.Machine
end


section
/-! SUPPORT. Leaving the slot, calls, submissions and decrements (R46, R163 to R168, R175, R176). -/

namespace Sys2Proof.Machine

/-- A result of variable latency is no wait: nothing is kept for it (R108). -/
@[simp] theorem holdLatch_putILate (s t : State) (r : List Nat) (d : Nat) (x : Int) : holdLatch s r (putILate t d x) = putILate t d x := by
  cases h : fitsIn t d x with
  | true => rw [putILate_fits h, holdLatch_done]
  | false => rw [putILate_trap h, holdLatch_trap]

theorem userSlot_ne {s : State} (h : s.userSlot = true) : s.cur.2 ≠ 7 := fun h7 => by simp [State.userSlot, h7] at h

theorem userSlot_lt {s : State} (h : s.userSlot = true) : s.cur.2 < 7 := of_decide_eq_true h

/-! ## YIELD and EXIT (R163, R164) -/

/-- The image of a thread that yields, with the deferred places and the estate's words. -/
def yieldSaved (t : State) (n k : Nat) (next : Word) : State :=
  let u := saveImage (leaveWaiter t n k) n k 1 0 next
  let v := imageWords u n (t.me.img + 0x2E0) (deferWords u.me.defer0 ++ deferWords u.me.defer1)
  writeEstate v n t.me.img v.me.estBase

theorem yieldOp_leaves {s t : State} {len : Nat} (hus : s.userSlot = true) (hq : s.quiet = true)
    (hmap : mapFrozen s s.cur.1 s.cur.2 s.me.map = false) (hsave : saveHeld s s.cur.1 s.cur.2 = false)
    (hrun : runBlocked s s.cur.1 = false) (hw : writeMapRecord s s.cur.1 s.cur.2 = .ok t) :
    yieldOp len s = .leave (killGo (enterThread (vacate (yieldSaved t s.cur.1 s.cur.2 (t.me.pc + BitVec.ofNat 64 len)) s.cur.1 s.cur.2)
      s.cur.1 t.me.img) t.me.img) := by
  simp only [yieldOp, userOnly, if_neg (userSlot_ne hus), settle_quiet hq, hmap, hsave, hrun, Bool.false_eq_true, or_self, if_false, hw,
    holdLatch_leave, yieldSaved]

theorem exitOp_task {s : State} {a : Nat} (hus : s.userSlot = true) (hq : s.quiet = true) (hs : s.single = true)
    (hp : putsHeld s s.cur.1 s.cur.2 (placementScope s s.me.img) = false) (ht : (s.thread s.me.img).task ≠ none) :
    exitOp a s = .leave (beginExit s s.cur.1 s.cur.2 0) := by
  have hcallee : (s.thread s.me.img).task.isNone = false  :=
    Option.isNone_eq_false_iff.mpr (Option.isSome_iff_ne_none.mpr ht)
  simp only [exitOp, userOnly, if_neg (userSlot_ne hus), hcallee, Bool.false_eq_true, if_false, settle_quiet hq, hp, externalUnit,
    external_single hs, always, ne_eq, not_true, holdLatch_leave]

theorem exitOp_callee {s : State} {a : Nat} (hus : s.userSlot = true) (hq : s.quiet = true) (hs : s.single = true)
    (hp : putsHeld s s.cur.1 s.cur.2 (placementScope s s.me.img) = false) (ht : (s.thread s.me.img).task = none)
    (hu : usable s [a] [] [(a, intK)] = true) :
    exitOp a s = .leave (beginExit s s.cur.1 s.cur.2 (BitVec.ofNat 64 (windowValue a s))) := by
  have hcallee : (s.thread s.me.img).task.isNone = true := by rw [ht]; rfl
  simp only [exitOp, userOnly, if_neg (userSlot_ne hus), hcallee, if_true, pre_usable hu, settle_quiet hq, hp, externalUnit,
    external_single hs, always, ne_eq, not_true, if_false, holdLatch_leave, Bool.false_eq_true]

/-! ## The system slot -/

/-- An instruction that only a user slot may issue traps ILLEGAL in the system slot. -/
theorem userOnly_system {s : State} (h : s.cur.2 = 7) (e : Eff) : userOnly s e = .trapWord .illegal := if_pos h

/-- The ILLEGAL of an instruction in the system slot. -/
theorem run_illegal_system {i : Instr} {s : State} {len sl : Nat} {body : State → Eff} (hr : s.running = true) (hw : i.wf = true)
    (h7 : s.cur.2 = 7) (hlen : decide (len = 4) = i.is32) (hb : body s = .trapWord .illegal) :
    run i len sl body s = .next (takeTrap s s.cur.1 7 i.is32 .illegal (BitVec.ofNat 64 (encode i)) s.me.pc) := by
  rw [run_running hr hw, hb, ← hlen, ← h7]
  rfl

/-! ## CALLAT (R46, R167, R168) -/

theorem wf_callat {sl : BitVec 2} {d a b : BitVec 6} (h : d.toNat < 16 ∨ d = 63) : (Instr.callat sl d a b).wf = true := by
  show (decide (d.toNat < 16) || d == 63) = true
  simpa only [Bool.or_eq_true, decide_eq_true_eq, beq_iff_eq] using h

section
variable {s : State} {d a b : Nat} (hus : s.userSlot = true) (hu : usable s [a, b] [] [(a, intK), (b, intK)] = true)
include hus hu

theorem callatOp_odd (hpc : (valW s a).toNat % 2 = 1) : callatOp d a b s = .trap .misalign (valW s a) := by
  simp only [callatOp, pre_usable hu, userOnly, if_neg (userSlot_ne hus), hpc, if_true]

variable (hpc : (valW s a).toNat % 2 = 0) (hw : (valW s b).getLsbD 63 = true → walkHeld s s.cur.1 (fld (valW s b) 0 56) = false)
include hpc hw

/-- CALLAT once its checks pass: what the target word names. -/
theorem callatOp_target : callatOp d a b s = match callTarget s s.cur.1 s.cur.2 (valW s b) with
    | .error (c, v) => .trap c v
    | .ok (t, m) => settle t [a, b] (
      if coresApart t s.cur.1 m ∨ putsHeld t s.cur.1 s.cur.2 (enclosing s.cur.1 s.cur.2 m 8) then .stall t
      else placed t [10, (valW s a).toNat, m, (oxArgs t.me).toNat] .callat (valW s b)
        (callAct s.cur.1 s.cur.2 m (valW s a) (if d < 16 then some ⟨s.cur.1, d⟩ else none))) := by
  have hwalk : ((valW s b).getLsbD 63 && walkHeld s s.cur.1 (fld (valW s b) 0 56)) = false := by
    cases h : (valW s b).getLsbD 63 with
    | false => rfl
    | true => rw [hw h, Bool.and_false]
  simp only [callatOp, pre_usable hu, userOnly, if_neg (userSlot_ne hus), hpc, Nat.zero_ne_one, if_false, hwalk, Bool.false_eq_true]
    <;> rfl

theorem callatOp_refused {c : Cause} {v : Word} (ht : callTarget s s.cur.1 s.cur.2 (valW s b) = .error (c, v)) :
    callatOp d a b s = .trap c v := by
  rw [callatOp_target hus hu hpc hw, ht]

section
variable {t : State} {m : Nat} (ht : callTarget s s.cur.1 s.cur.2 (valW s b) = .ok (t, m)) (hq : t.quiet = true) (hs : t.single = true)
  (hc : coresApart t s.cur.1 m = false) (hp : putsHeld t s.cur.1 s.cur.2 (enclosing s.cur.1 s.cur.2 m 8) = false)
include ht hq hs hc hp

theorem callatOp_placed (hf : callFree t m s.cur.1 s.cur.2 = true) : callatOp d a b s =
    .done (placeCall t s.cur.1 s.cur.2 m (valW s a) (if d < 16 then some ⟨s.cur.1, d⟩ else none)) := by
  rw [callatOp_target hus hu hpc hw, ht]
  simp only [settle_quiet hq, hc, hp, Bool.false_eq_true, or_self, if_false, placed, externalOr_single hs, plainEffect, callAct, hf,
    if_true, ne_eq, not_true, holdLatch_done]

theorem callatOp_waits (hf : callFree t m s.cur.1 s.cur.2 = false) : callatOp d a b s =
    .block (latchOn t (noteCaller t m s.cur.1 s.cur.2) [a, b]) .callat (valW s b) := by
  rw [callatOp_target hus hu hpc hw, ht]
  simp only [settle_quiet hq, hc, hp, Bool.false_eq_true, or_self, if_false, placed, externalOr_single hs, plainEffect, callAct, hf,
    holdLatch_block]

end

end

/-! ## SPAWN and DEP (R35 to R39, R175, R176) -/

section
variable {s t : State} {d a pa attr : Nat} (ht : translate s s.cur.1 (decide (s.cur.2 < 7)) .load (valW s a).toNat = .ok t pa attr)
  (hwalk : walkHeld s s.cur.1 (valW s a).toNat = false) (hq : t.quiet = true) (hs : t.single = true)
  (hj : heldAtJoin t s.cur.1 (placeOf t pa) = false)
  (hp : putsHeld t s.cur.1 s.cur.2 (recTokScope (ownRecord t s.cur.1 pa)) = false)
include ht hwalk hq hs hj hp

theorem spawnOp_acts {u : State} {v q : Nat} {duty : Bool} (hus : s.userSlot = true)
    (hu : usable s [a] [d] [(d, intK), (a, intK)] = true) (hest : duty = true → estateFull (s.thread s.me.img) = false)
    (hact : spawnAct (release t s.cur.1 (recTokScope (ownRecord t s.cur.1 pa))) s.cur.1 s.cur.2 (valW s a) pa duty d = .ok u v 0 q) :
    spawnOp d a duty s = putILate (if v = 0 ∧ duty = true then estateAuto u t.me.img (valW s a) 4 else u) d v := by
  have hfull : (duty && estateFull (s.thread s.me.img)) = false := by
    cases duty with
    | false => rfl
    | true => rw [hest rfl, Bool.and_false]
  simp only [spawnOp, pre_usable hu, userOnly, if_neg (userSlot_ne hus), hwalk, ht, hfull, settle_quiet hq, hp, hj, Bool.false_eq_true,
    or_self, if_false, external_single hs, hact, ne_eq, not_true, holdLatch_putILate]

theorem depOp_acts (hu : usable s [a] [] [(a, intK)] = true) (hal : (valW s a).toNat % 128 = 0) :
    depOp a s = .done (estateDrop (depAct (release t s.cur.1 (recTokScope (ownRecord t s.cur.1 pa))) s.cur.1 (canonPa t pa)) t.me.img
      (fun e => e.kind = 4 && e.object = valW s a)) := by
  simp only [depOp, pre_usable hu, hal, ne_eq, not_true, hwalk, ht, settle_quiet hq, hp, hj, Bool.false_eq_true, or_self, if_false,
    externalUnit, external_single hs, always, holdLatch_done]

end

theorem depOp_misaligned {s : State} {a : Nat} (hu : usable s [a] [] [(a, intK)] = true) (hal : (valW s a).toNat % 128 ≠ 0) :
    depOp a s = .trap .misalign (valW s a) := by
  simp only [depOp, pre_usable hu, hal, ne_eq, not_false_eq_true, if_true]

section
variable {s : State} {n k pa name : Nat} {va : Word} {duty : Bool}

theorem spawnAct_refused (h : recordRefused s va.toNat pa (ctxOf s n) (queueOfThread s (s.slot n k).img) = true) :
    spawnAct s n k va pa duty name = .ok (refuseRecord s pa (ctxOf s n)) 1 0 0 := by
  simp only [spawnAct, h, if_true]

variable (h : recordRefused s va.toNat pa (ctxOf s n) (queueOfThread s (s.slot n k).img) = false)
include h

/-- A duty on a record that waits for nothing is no submission (R175). -/
theorem spawnAct_unneeded (hd : duty = true) (hz : recDeps (readRecord s pa).1 = 0) : spawnAct s n k va pa duty name = .ok s 2 0 0 := by
  simp only [spawnAct, h, hd, hz, Bool.false_eq_true, if_false, decide_true, Bool.and_self, if_true]

theorem spawnAct_accepted {home place : Nat} (hd : duty = false ∨ recDeps (readRecord s pa).1 ≠ 0) (hh : homeCore s pa = some home)
    (he : earlierWaits s home n k = false) (hf : freePlace s home = some place) (hsub : s.submissions = []) :
    spawnAct s n k va pa duty name = .ok (acceptTask s va (canonPa s pa) (ctxOf s n) home (s.slot n k).handle
      (queueOfThread s (s.slot n k).img) false 0 place [{ placed := [n], ran := [], far := false }]) 0 0 0 := by
  have hneed : (duty && decide (recDeps (readRecord s pa).1 = 0)) = false := by
    rw [Bool.and_eq_false_iff, decide_eq_false_iff_not]
    exact hd
  have hnone : { s with submissions := [] } = s := by rw [← hsub]
  simp only [spawnAct, h, hneed, hh, he, hf, hsub, Bool.false_eq_true, if_false, List.filter_nil, hnone]

end

/-! ## The obligation -/

/-- Settles O28: YIELD and EXIT leave by their arms, the system slot is refused, CALLAT by what its target word names, SPAWN and DEP behind
their translated record. -/
theorem leavingAndCalling : Obligations.LeavingAndCalling := by
  refine ⟨⟨fun sl s t hr hus hq hmap hsave hrun hw => ?_, fun sl a s hr hus hq hs hp => ⟨fun ht => ?_, fun ht hu => ?_⟩,
      fun sl d a b w s hr h7 => ⟨?_, ?_, ?_, fun hd hu => ?_, fun hu => ?_⟩⟩,
    fun sl d a b s hd hus hu => ?_,
    fun sl d a w s t u pa attr v q hus hwalk hest hu ht hq hs hj => ?_, fun s n k pa name home place va duty => ?_,
    fun sl a s t pa attr hu hal hwalk ht hq hs hj => ?_, fun sl a s hu hal => ?_⟩
  · have hleaves := fun len => yieldOp_leaves (len := len) hus hq hmap hsave hrun hw
    refine ⟨run32_leave hr rfl sl (hleaves 4), ?_⟩
    exact (run16_running hr rfl _).trans (by rw [hleaves 2]; rfl)
  · exact run32_leave hr rfl sl (exitOp_task hus hq hs hp ht)
  · exact run32_leave hr rfl sl (exitOp_callee hus hq hs hp ht hu)
  · exact run_illegal_system hr rfl h7 rfl (userOnly_system h7 _)
  · exact run_illegal_system hr rfl h7 rfl (userOnly_system h7 _)
  · exact run_illegal_system hr rfl h7 rfl (userOnly_system h7 _)
  · have hw : (Instr.callat sl d a b).wf = true := wf_callat hd
    exact run_illegal_system hr hw h7 rfl ((body_usable hu rfl).trans (userOnly_system h7 _))
  · exact run_illegal_system hr rfl h7 rfl ((body_usable hu rfl).trans (userOnly_system h7 _))
  · have hrun := usable_running hu
    have hw : (Instr.callat sl d a b).wf = true := wf_callat hd
    intro pc w
    refine ⟨fun hpc => run32_trap hrun hw sl (callatOp_odd hus hu hpc), fun hwalk => ⟨fun hpc c v ht => ?_, fun hpc t m ht hq hs hc hp =>
      ⟨fun hf => ?_, fun hf => ?_⟩⟩⟩
    · exact run32_trap hrun hw sl (callatOp_refused hus hu hpc hwalk ht)
    · exact run32_done hrun hw sl (callatOp_placed hus hu hpc hwalk ht hq hs hc hp hf)
    · exact run32_block hrun hw sl (callatOp_waits hus hu hpc hwalk ht hq hs hc hp hf)
  · intro sc hp hact
    have ht' : translate s s.cur.1 (decide (s.cur.2 < 7)) .load (valW s a.toNat).toNat = .ok t pa attr := by
      rwa [decide_eq_true (userSlot_lt hus)]
    refine run32_late (usable_running hu) rfl sl
      ((spawnOp_acts ht' hwalk hq hs hj hp hus hu (fun h => hest (beq_iff_eq.mp h)) hact).trans ?_)
    simp only [beq_iff_eq]
  · exact ⟨spawnAct_refused, fun h => spawnAct_unneeded h, fun h hd hh he hf hs => spawnAct_accepted h hd hh he hf hs⟩
  · intro sc hp u
    exact run32_done (usable_running hu) rfl sl (depOp_acts ht hwalk hq hs hj hp hu hal)
  · exact run32_trap (usable_running hu) rfl sl (depOp_misaligned hu hal)

end Sys2Proof.Machine
end


section
/-! SUPPORT. Messages (R170 to R174). -/

namespace Sys2Proof.Machine

/-- The rows of a transfer are there and unpoisoned. -/
theorem rowsReady_eq {s : State} {row count : Nat}
    (h : ∀ i, i < count → rowAbsent s s.cur.1 s.cur.2 (row + i) = false ∧ rowPoisoned s s.cur.1 s.cur.2 .priv (row + i) = false) (e : Eff) :
    rowsReady s row count e = e := by
  have habsent : ((List.range count).map (row + ·)).find? (rowAbsent s s.cur.1 s.cur.2) = none := by
    simpa only [List.find?_eq_none, List.forall_mem_map, List.mem_range, Bool.not_eq_true] using fun i hi => (h i hi).1
  have hclean : ((List.range count).map (row + ·)).find? (fun r => rowPoisoned s s.cur.1 s.cur.2 .priv r) = none := by
    simpa only [List.find?_eq_none, List.forall_mem_map, List.mem_range, Bool.not_eq_true] using fun i hi => (h i hi).2
  simp only [rowsReady, habsent, hclean]

/-- What a message's descriptor says of its release (R170, R171). -/
def msgRelease (desc : Word) : Option Nat := if fld desc 6 1 = 1 then some (fld desc 8 3) else none

theorem msgRelease_getD (desc : Word) : (msgRelease desc).getD 0 = if fld desc 6 1 = 1 then fld desc 8 3 else 0 := by
  unfold msgRelease
  split <;> rfl

theorem msgRelease_isSome (desc : Word) : (msgRelease desc).isSome = true ↔ fld desc 6 1 = 1 := by
  unfold msgRelease
  split <;> simp_all

/-- The state after the release of a message, on which it is placed or waits. -/
def sendReleased (s : State) (b : Nat) : State := release s s.cur.1 ((msgRelease (valW s b)).getD 0)

/-- How an instruction that may wait for a place ends when its effect is not compared. -/
theorem placed_single {s : State} (hs : s.single = true) (hash : List Nat) (w : Wait) (arg : Word) (act : State → Access) :
    placed s hash w arg act = plainEffect (fun t => .block t w arg) s act (fun t _ => .done t) := externalOr_single hs _ hash act _

section
variable {waits : State → Eff} {s t : State} {perform : State → Access} {deliver : State → Nat → Eff}

theorem plainEffect_ok {v q : Nat} (h : perform s = .ok t v 0 q) : plainEffect waits s perform deliver = deliver t v := by
  simp only [plainEffect, h, ne_eq, not_true, if_false]

theorem plainEffect_wait (h : perform s = .wait t) : plainEffect waits s perform deliver = waits t := by
  simp only [plainEffect, h]

end

section
variable {s : State} {a b row : Nat} (hu : usable s [b] [] [(a, intK), (b, intK)] = true) (hq : s.quiet = true) (hs : s.single = true)
  (hbad : descBad s s.cur.1 (valW s b) = false) (hfar : farRefused s s.cur.1 s.cur.2 (valW s b) = false)
  (hrow : startsRow s s.cur.1 s.cur.2 a = some row) (ha : a ≠ 63) (hfit : row + (fld (valW s b) 4 2 + 1) ≤ 32)
  (hrows : ∀ i, i < fld (valW s b) 4 2 + 1 →
    rowAbsent s s.cur.1 s.cur.2 (row + i) = false ∧ rowPoisoned s s.cur.1 s.cur.2 .priv (row + i) = false)
  (hput : (msgRelease (valW s b)).isSome = true → putsHeld s s.cur.1 s.cur.2 ((msgRelease (valW s b)).getD 0) = false)
include hu hq hs hbad hfar hrow ha hfit hrows hput

/-- SEND to a site of this device is placed, or waits, after its release. -/
theorem sendOp_local {m : Nat} (hdev : descFar s (valW s b) = false)
    (hsite : siteOfLogical s (ctxPart s (ctxOf s s.cur.1).toNat) (fld (valW s b) 12 10) = some m)
      (hapart : coresApart s s.cur.1 m = false) :
    sendOp a b s = if placeFree (sendReleased s b) m (fld (valW s b) 0 4) s.cur.1 s.cur.2 then
        .done (sendLocal (sendReleased s b) s.cur.1 s.cur.2 m (fld (valW s b) 0 4) row (fld (valW s b) 4 2 + 1) (msgRelease (valW s b)))
      else .block (latchOn s (noteSender (sendReleased s b) m (fld (valW s b) 0 4) s.cur.1 s.cur.2) [b]) .send
        (BitVec.ofNat 64 (fld (valW s b) 0 4)) := by
  have hheld : ¬((msgRelease (valW s b)).isSome = true ∧ putsHeld s s.cur.1 s.cur.2 ((msgRelease (valW s b)).getD 0) = true) :=
    fun h => Bool.false_ne_true ((hput h.1).symm.trans h.2)
  have hroom : ¬(a = 63 ∨ 32 < row + (fld (valW s b) 4 2 + 1)) := by omega
  have hbody : sendOp a b s = holdLatch s [b] (plainEffect (fun t => .block t .send (BitVec.ofNat 64 (fld (valW s b) 0 4))) s
      (fun t => if placeFree (release t s.cur.1 ((msgRelease (valW s b)).getD 0)) m (fld (valW s b) 0 4) s.cur.1 s.cur.2
        then .ok (sendLocal (release t s.cur.1 ((msgRelease (valW s b)).getD 0)) s.cur.1 s.cur.2 m (fld (valW s b) 0 4) row
          (fld (valW s b) 4 2 + 1) (msgRelease (valW s b))) 0 0 0
        else .wait (noteSender (release t s.cur.1 ((msgRelease (valW s b)).getD 0)) m (fld (valW s b) 0 4) s.cur.1 s.cur.2))
      (fun t _ => .done t)) := by
    unfold msgRelease at hheld ⊢
    simp only [sendOp, pre_usable hu, hbad, hfar, Bool.or_self, Bool.false_eq_true, if_false, hrow, if_neg hroom, settle_quiet hq,
      rowsReady_eq hrows, hdev, hsite, hapart, if_neg hheld, placed_single hs]
  rw [hbody, sendReleased]
  split
  next hfree =>
    rw [plainEffect_ok (if_pos hfree), holdLatch_done]
  next hfull =>
    rw [plainEffect_wait (if_neg hfull), holdLatch_block]

/-- SEND to another device asks for a place, waits for it, and goes once the place is granted. -/
theorem sendOp_far (hdev : descFar s (valW s b) = true) :
    sendOp a b s = holdLatch s [b] (plainEffect (fun t => .block t .send (BitVec.ofNat 64 (fld (valW s b) 0 4))) s
      (fun t => sendFar (release t s.cur.1 ((msgRelease (valW s b)).getD 0)) s.cur.1 s.cur.2 (fld (valW s b) 22 9) (fld (valW s b) 12 10)
        (fld (valW s b) 0 4) row (fld (valW s b) 4 2 + 1) (fld (valW s b) 7 1 + fld (valW s b) 6 1 * 2 + fld (valW s b) 8 3 * 4))
      (fun t _ => .done t)) := by
  have hheld : ¬((msgRelease (valW s b)).isSome = true ∧ putsHeld s s.cur.1 s.cur.2 ((msgRelease (valW s b)).getD 0) = true) :=
    fun h => Bool.false_ne_true ((hput h.1).symm.trans h.2)
  have hroom : ¬(a = 63 ∨ 32 < row + (fld (valW s b) 4 2 + 1)) := by omega
  unfold msgRelease at hheld ⊢
  simp only [sendOp, pre_usable hu, hbad, hfar, Bool.or_self, Bool.false_eq_true, if_false, hrow, if_neg hroom, settle_quiet hq,
    rowsReady_eq hrows, hdev, if_true, if_neg hheld, placed_single hs]

theorem sendOp_asks (hdev : descFar s (valW s b) = true) (hnone : pendingCall (sendReleased s b) s.cur.1 s.cur.2 = none) :
    sendOp a b s = .block (latchOn s (askPlace (sendReleased s b) s.cur.1 s.cur.2 (fld (valW s b) 22 9)
      (fld (valW s b) 12 10 + fld (valW s b) 0 4 * 1024)) [b]) .send (BitVec.ofNat 64 (fld (valW s b) 0 4)) := by
  unfold sendReleased at hnone ⊢
  rw [sendOp_far hu hq hs hbad hfar hrow ha hfit hrows hput hdev, plainEffect_wait (by simp only [sendFar, hnone]; rfl), holdLatch_block]

section
variable {r : RemoteOp} (hcall : pendingCall (sendReleased s b) s.cur.1 s.cur.2 = some r)
include hcall

theorem sendOp_awaits (hdev : descFar s (valW s b) = true) (hr : r.reply = none) :
    sendOp a b s = .block (latchOn s (sendReleased s b) [b]) .send (BitVec.ofNat 64 (fld (valW s b) 0 4)) := by
  unfold sendReleased at hcall ⊢
  rw [sendOp_far hu hq hs hbad hfar hrow ha hfit hrows hput hdev, plainEffect_wait (by simp only [sendFar, hcall, hr]; rfl),
    holdLatch_block]

theorem sendOp_goes (hdev : descFar s (valW s b) = true) (hr : r.reply ≠ none) :
    sendOp a b s = .done (sendRemote { sendReleased s b with remoteOps := (sendReleased s b).remoteOps.filter (fun x => x.id ≠ r.id) }
      s.cur.1 s.cur.2 (fld (valW s b) 22 9) (fld (valW s b) 12 10) (fld (valW s b) 0 4) row (fld (valW s b) 4 2 + 1)
      (fld (valW s b) 7 1 + fld (valW s b) 6 1 * 2 + fld (valW s b) 8 3 * 4) r.id) := by
  have hsome : r.reply.isNone = false := Option.isNone_eq_false_iff.mpr (Option.isSome_iff_ne_none.mpr hr)
  unfold sendReleased at hcall ⊢
  rw [sendOp_far hu hq hs hbad hfar hrow ha hfit hrows hput hdev, plainEffect_ok (by simp only [sendFar, hcall, hsome]; rfl),
    holdLatch_done]

end

end

/-! ## RECV, TRYRECV and CHSTAT (R172 to R174) -/

section
variable {s : State} {d a ch row : Nat} (hu : usable s [] [d] [(d, intK), (a, anyK)] = true) (hq : s.quiet = true) (ha : a ≠ 63)
  (hrow : startsRow s s.cur.1 s.cur.2 a = some row)
include hu hq ha hrow

/-- The oldest complete message goes into its rows, whatever an empty channel would do. -/
theorem receive_message {empty : State → Eff} {m : Msg} {rest : List Msg} (hready : ((s.core s.cur.1).chan ch).ready = m :: rest)
    (hfit : row + m.flits.length ≤ 32) (hrows : ∀ i, i < m.flits.length → rowAbsent s s.cur.1 s.cur.2 (row + i) = false) :
    receive empty d a ch s =
      let t := (flitRows s s.cur.1 s.cur.2 row m.flits).modCore s.cur.1
        (fun x => x.setChan ch { (s.core s.cur.1).chan ch with ready := rest })
      putILate (wakeSender (match m.rel with | some sc => acquire t s.cur.1 sc | none => t) s.cur.1 ch) d (m.info.toNat : Int) := by
  have habsent : ((List.range m.flits.length).map (row + ·)).find? (rowAbsent s s.cur.1 s.cur.2) = none := by
    simpa only [List.find?_eq_none, List.forall_mem_map, List.mem_range, Bool.not_eq_true] using hrows
  simp only [receive, pre_usable hu, if_neg ha, hrow, settle_quiet hq, hready, if_neg (Nat.not_lt.mpr hfit), habsent, holdLatch_putILate]
    <;> rfl

theorem receive_empty {empty : State → Eff} (hready : ((s.core s.cur.1).chan ch).ready = []) :
    receive empty d a ch s = holdLatch s [] (empty s) := by
  simp only [receive, pre_usable hu, if_neg ha, hrow, settle_quiet hq, hready]

end

theorem bit_mul (b : Bool) (n : Nat) : bit b * n = if b then n else 0 := by
  cases b <;> simp [bit]

/-! ## The obligation -/

/-- Settles O29: SEND by where its target is and whether a place is free, RECV and TRYRECV by the oldest complete message. -/
theorem messages : Obligations.Messages := by
  refine ⟨fun sl a b s row m hu hq hs => ?_, ?_, fun sl d a b s row hb hu hq ha hrow hready => ⟨?_, ?_⟩, fun sl d b s hb hu => ?_⟩
  · intro n k desc count sc rel u hbad hfar hrow ha hfit hrows hput ch far waits
    have hrun := usable_running hu
    have hput' : (msgRelease desc).isSome = true → putsHeld s n k ((msgRelease desc).getD 0) = false := fun h => by
      rw [msgRelease_getD]
      exact hput ((msgRelease_isSome desc).mp h)
    have hrel : sendReleased s b.toNat = u := by rw [sendReleased, msgRelease_getD]
    refine ⟨fun hhere hsite hapart => ?_, fun h31 hdev => ?_⟩
    · have hnear : descFar s desc = false := by
        rw [descFar, Bool.and_eq_false_iff, decide_eq_false_iff_not, decide_eq_false_iff_not, not_not]
        exact hhere.imp (fun h => by omega) id
      have hbody := sendOp_local hu hq hs hbad hfar hrow ha hfit hrows hput' hnear hsite hapart
      rw [hrel] at hbody
      exact ⟨fun hfree => run32_done hrun rfl sl (hbody.trans (if_pos hfree)),
        fun hfull => run32_block hrun rfl sl (hbody.trans (if_neg (Bool.eq_false_iff.mp hfull)))⟩
    · have hfarDesc : descFar s desc = true := by
        rw [descFar, Bool.and_eq_true, decide_eq_true_eq, decide_eq_true_eq]
        exact ⟨h31, hdev⟩
      rw [← hrel]
      exact ⟨fun h => run32_block hrun rfl sl (sendOp_asks hu hq hs hbad hfar hrow ha hfit hrows hput' hfarDesc h),
        fun r h hr => run32_block hrun rfl sl (sendOp_awaits hu hq hs hbad hfar hrow ha hfit hrows hput' h hfarDesc hr),
        fun r h hr => run32_done hrun rfl sl (sendOp_goes hu hq hs hbad hfar hrow ha hfit hrows hput' h hfarDesc hr)⟩
  · simp only [List.forall_mem_cons, List.not_mem_nil, false_imp_iff, implies_true, and_true]
    refine ⟨fun sl d a b s row m rest hb hu hq ha hrow hready hfit hrows => ?_,
      fun sl d a b s row m rest hb hu hq ha hrow hready hfit hrows => ?_⟩
    · have hw : (Instr.recv sl d a b).wf = true := decide_eq_true hb
      exact run32_late (usable_running hu) hw sl (receive_message hu hq ha hrow hready hfit hrows)
    · have hw : (Instr.tryrecv sl d a b).wf = true := decide_eq_true hb
      exact run32_late (usable_running hu) hw sl (receive_message hu hq ha hrow hready hfit hrows)
  · have hw : (Instr.recv sl d a b).wf = true := decide_eq_true hb
    rw [← ofNat_toNat_extend]
    exact run32_block (usable_running hu) hw sl (receive_empty hu hq ha hrow hready)
  · have hw : (Instr.tryrecv sl d a b).wf = true := decide_eq_true hb
    exact run32_late (usable_running hu) hw sl ((receive_empty hu hq ha hrow hready).trans (holdLatch_putILate ..))
  · have hw : (Instr.chstat sl d b).wf = true := decide_eq_true hb
    intro c
    rw [← bit_mul]
    exact run32_putI (usable_running hu) hw sl (body_usable hu rfl)

end Sys2Proof.Machine
end


section
/-! SUPPORT. Copy tags and barrier objects (R177 to R182). -/

namespace Sys2Proof.Machine

/-! ## Copy tags -/

theorem waitTags_eq {s : State} {w : Wait} {ready : Word → Word → Bool} {d a : Nat}
    (hu : usable s [a] [d] [(d, intK), (a, intK)] = true) :
    waitTags w ready d a s = if ready s.myCore.tags (valW s a) then putILate s d ((s.myCore.tags &&& valW s a).toNat : Int)
      else .block (latchOn s s [a]) w (valW s a) := by
  simp only [waitTags, pre_usable hu]
  split
  · rw [holdLatch_putILate]
  · rw [holdLatch_block]

/-! ## Barrier objects -/

/-- An effect at an address that is not compared and meets no poison is delivered. -/
theorem effectAt_ok {s t : State} (hs : s.single = true) {va : Nat} {hash : List Nat} {perform : State → Access}
    {deliver : State → Nat → Eff} {v q : Nat} (h : perform s = .ok t v 0 q) : effectAt s va hash perform deliver = deliver t v := by
  rw [effectAt_single hs, plainEffect_ok h]

theorem effectUnit_ok {s t : State} (hs : s.single = true) {va : Nat} {hash : List Nat} {perform : State → Access}
    {deliver : State → Eff} {v q : Nat} (h : perform s = .ok t v 0 q) : effectUnit s va hash perform deliver = deliver t := by
  rw [effectUnit, effectAt_ok hs h]

theorem external_ok {s t : State} (hs : s.single = true) {hash : List Nat} {perform : State → Access}
    {deliver : State → Nat → Eff} {v q : Nat} (h : perform s = .ok t v 0 q) : external s hash perform deliver = deliver t v := by
  rw [external, externalOr_single hs, plainEffect_ok h]

theorem bariInit_ok {s t : State} {a b v q : Nat} (hu : usable s [a, b] [] [(a, intK), (b, intK)] = true) (hq : s.quiet = true)
    (hs : s.single = true) (hal : (valW s a).toNat % 32 = 0) (hp : putsHeld s s.cur.1 s.cur.2 5 = false)
    (hop : objectOp (release s s.cur.1 5) s.cur.1 s.cur.2 .update (valW s a).toNat 32 opBari (fld (valW s b) 0 32) 0 0 [a, b] =
      .ok t v 0 q) :
    bariInit a b s = .done t := by
  simp only [bariInit, pre_usable hu, settle_quiet hq, hal, hp, ne_eq, not_true, Bool.false_eq_true, if_false]
  rw [effectUnit_ok hs hop, holdLatch_done]

section
variable {s : State} {a : Nat} (hu : usable s [a] [] [(a, intK)] = true) (hq : s.quiet = true)
include hu hq

theorem bariDuty_misaligned (hal : (valW s a).toNat % 32 ≠ 0) : bariDuty a s = .trap .misalign (valW s a) := by
  simp only [bariDuty, pre_usable hu, settle_quiet hq, hal, ne_eq, not_false_eq_true, if_true, holdLatch_trap]

theorem bariDuty_notes {t : State} {v q : Nat} (hal : (valW s a).toNat % 32 = 0) (hest : estateFull (s.thread s.me.img) = false)
    (hread : barrierRead s s.cur.1 s.cur.2 .update (valW s a).toNat 0 [a] = .ok t v 0 q) :
    bariDuty a s = .done (estateAuto t s.me.img (valW s a) 5) := by
  simp only [bariDuty, pre_usable hu, settle_quiet hq, hal, hest, hread, ne_eq, not_true, Bool.false_eq_true, if_false, holdLatch_done]

end

theorem arriveOp_ok {s t : State} {d a sc v q : Nat} (hu : usable s [a] [d] [(d, intK), (a, intK)] = true) (hq : s.quiet = true)
    (hs : s.single = true) (hal : (valW s a).toNat % 32 = 0) (hp : putsHeld s s.cur.1 s.cur.2 sc = false)
    (hact : arriveAct (release s s.cur.1 sc) s.cur.1 s.cur.2 (valW s a).toNat d [a] = .ok t v 0 q) :
    arriveOp d a sc s =
      putILate (estateDrop t s.me.img (fun e => e.kind = 5 && e.object = BitVec.ofNat 64 (valW s a).toNat)) d v := by
  simp only [arriveOp, pre_usable hu, settle_quiet hq, hal, hp, ne_eq, not_true, Bool.false_eq_true, if_false]
  rw [effectAt_ok hs hact, holdLatch_putILate]

/-- A wait on an object that can be read goes on or blocks by what it reads. -/
theorem barrierWait_ok {s t : State} {w : Wait} {arg : Word} {off sc d a v q : Nat} {ready : Nat → Bool} {value : Nat → Nat}
    {reads : List Nat} (hq : s.quiet = true) (hal : (valW s a).toNat % 32 = 0)
    (hread : barrierRead s s.cur.1 s.cur.2 .load (valW s a).toNat off reads = .ok t v 0 q) :
    barrierWait w arg off ready value sc d a reads s =
      if ready v then putILate (acquire t s.cur.1 sc) d (value v : Nat) else .block (latchOn s (noteWait t q) reads) w arg := by
  simp only [barrierWait, settle_quiet hq, hal, hread, ne_eq, not_true, if_false]
  split
  · rw [holdLatch_putILate]
  · rw [holdLatch_block]

theorem phasePassed_iff (p v : Nat) : phasePassed p v = true ↔
    1 ≤ (bitsAt v 64 32 + 2 ^ 32 - p) % 2 ^ 32 ∧ (bitsAt v 64 32 + 2 ^ 32 - p) % 2 ^ 32 < 2 ^ 31 := by
  simp only [phasePassed, Bool.and_eq_true, decide_eq_true_eq]
  omega

theorem bitsAt_one_iff (v c : Nat) : bitsAt v c 1 = 1 ↔ v.testBit c = true := by
  rw [bitsAt, Nat.testBit_eq_decide_div_mod_eq, decide_eq_true_eq, Nat.pow_one]

/-! ## The obligation -/

/-- Settles O30: the tag waits by their mask, each barrier operation by what its object answers. -/
theorem tagsAndBarriers : Obligations.TagsAndBarriers := by
  refine ⟨⟨fun sl d a s hu => ?_, fun sl a s hu hq => ?_⟩,
    fun sl a b s t v q hu hq hs hal hp hop => ?_, fun sl a s t v q hu hq => ⟨fun hal => ?_, fun hal hest hread => ?_⟩,
    fun sl d a b s t v q hb hu hq hs hal hp hact => ?_, fun sl d a b s t v q hu hq hal => ⟨fun hread => ?_, fun hread => ?_⟩⟩
  · intro m t
    have hrun := usable_running hu
    refine ⟨?_, ?_, ?_⟩
    · have hbody : waitanyOp d.toNat a.toNat s = _ := waitTags_eq hu
      split
      next hm => exact run32_block hrun rfl sl (hbody.trans (if_neg (by rw [bne_iff_ne, not_not]; exact hm)))
      next hm => exact run32_late hrun rfl sl (hbody.trans (if_pos (by rw [bne_iff_ne]; exact hm)))
    · have hbody : waitallOp d.toNat a.toNat s = _ := waitTags_eq hu
      split
      next hm => exact run32_late hrun rfl sl (hbody.trans (if_pos (by rw [beq_iff_eq]; exact hm)))
      next hm => exact run32_block hrun rfl sl (hbody.trans (if_neg (by rw [beq_iff_eq]; exact hm)))
    · exact run32_putI hrun rfl sl (body_usable hu rfl)
  · exact run32_done (usable_running hu) rfl sl (body_usable hu (congrArg _ (settle_done hq _ _)))
  · exact run32_done (usable_running hu) rfl sl (bariInit_ok hu hq hs hal hp hop)
  · exact run32_trap (usable_running hu) rfl sl (bariDuty_misaligned hu hq hal)
  · exact run32_done (usable_running hu) rfl sl (bariDuty_notes hu hq hal hest hread)
  · have hw : (Instr.arrive sl d a b).wf = true := decide_eq_true hb
    exact run32_late (usable_running hu) hw sl (arriveOp_ok hu hq hs hal hp hact)
  · have hbody : waitbOp d.toNat a.toNat b.toNat s = _ := (pre_usable hu _).trans (barrierWait_ok hq hal hread)
    intro diff
    split
    next h => exact run32_late (usable_running hu) rfl sl (hbody.trans (if_pos ((phasePassed_iff _ v).mpr h)))
    next h => exact run32_block (usable_running hu) rfl sl (hbody.trans (if_neg (mt (phasePassed_iff _ v).mp h)))
  · have hbody : waitchOp d.toNat a.toNat b.toNat s = _ := (pre_usable hu _).trans (barrierWait_ok hq hal hread)
    intro c
    have hbit : decide (bitsAt v c 1 = 1) = true ↔ v.testBit c = true := decide_eq_true_iff.trans (bitsAt_one_iff v c)
    split
    next h => exact run32_late (usable_running hu) rfl sl (hbody.trans (if_pos (hbit.mpr h)))
    next h => exact run32_block (usable_running hu) rfl sl (hbody.trans (if_neg (mt hbit.mp h)))

end Sys2Proof.Machine
end



section
/-! SUPPORT. Loads, stores, row transfers, maintenance, atomics and the counted store (R186 to R197). -/

namespace Sys2Proof.Machine

/-! ## Loads (R186 to R188, R191) -/

section
variable {s : State} {d : Nat} {reads : List Nat} {kinds : List KindReq} {addr pol : State → Nat} {sc : Nat}
  (hu : usable s reads [d] kinds = true) (hq : s.quiet = true)
include hu hq

theorem loadOp_misaligned (hal : addr s % container s d ≠ 0) :
    loadOp d reads kinds addr pol sc s = .trap .misalign (BitVec.ofNat 64 (addr s)) := by
  simp only [loadOp, pre_usable hu, settle_quiet hq, hal, ne_eq, not_false_eq_true, if_true, holdLatch_trap]

variable (hal : addr s % container s d = 0)
include hal

theorem loadOp_trap {x : Cause} {v : Word} (hload : loadAt s s.cur.1 s.cur.2 (addr s) (container s d) (pol s) reads = .trap x v) :
    loadOp d reads kinds addr pol sc s = .trap x v := by
  simp only [loadOp, pre_usable hu, settle_quiet hq, hal, hload, ne_eq, not_true, if_false, holdLatch_trap]

variable {t : State} {v p pa : Nat} (hload : loadAt s s.cur.1 s.cur.2 (addr s) (container s d) (pol s) reads = .ok t v p pa)
include hload

theorem loadOp_poison (hp : p ≠ 0) : loadOp d reads kinds addr pol sc s = .trapIn t .poison (poisonVal pa) := by
  simp only [loadOp, pre_usable hu, settle_quiet hq, hal, hload, ne_eq, not_true, hp, not_false_eq_true, if_true, if_false,
    holdLatch_trapIn]

theorem loadOp_int (hp : p = 0) (hf : (info (acquire t s.cur.1 sc) d).kind.isFloat = false) : loadOp d reads kinds addr pol sc s =
    putILate (acquire t s.cur.1 sc) d (readPat (info (acquire t s.cur.1 sc) d).kind (8 * container s d) v) := by
  simp only [loadOp, pre_usable hu, settle_quiet hq, hal, hload, ne_eq, not_true, hp, if_false, putLoaded, hf, Bool.false_eq_true, taken,
    holdLatch_putILate]

theorem loadOp_float (hp : p = 0) (hf : (info (acquire t s.cur.1 sc) d).kind.isFloat = true) : loadOp d reads kinds addr pol sc s =
    .done (putLate (acquire t s.cur.1 sc) d v) := by
  simp only [loadOp, pre_usable hu, settle_quiet hq, hal, hload, ne_eq, not_true, hp, if_false, putLoaded, hf, if_true, holdLatch_done]

end

/-- How a load of `container s d` bytes at `ea` ends, as the access answers. -/
def LoadEnds (s : State) (sl : BitVec 2) (d ea pol sc : Nat) (reads : List Nat) (o : Host.Outcome State Fault Refusal) : Prop :=
  (ea % container s d ≠ 0 → o = .next (trap32 s .misalign (BitVec.ofNat 64 ea))) ∧
  (ea % container s d = 0 →
    (∀ x v, loadAt s s.cur.1 s.cur.2 ea (container s d) pol reads = .trap x v → o = .next (trap32 s x v)) ∧
    (∀ t v p pa, loadAt s s.cur.1 s.cur.2 ea (container s d) pol reads = .ok t v p pa →
      (p ≠ 0 → o = .next (takeTrap t s.cur.1 s.cur.2 true .poison (poisonVal pa) s.me.pc)) ∧
      (p = 0 →
        ((info (acquire t s.cur.1 sc) d).kind.isFloat = false → o = .next
          (endsLate s sl d (readPat (info (acquire t s.cur.1 sc) d).kind (8 * container s d) v) (acquire t s.cur.1 sc))) ∧
        ((info (acquire t s.cur.1 sc) d).kind.isFloat = true → o = .next (next32 s sl (putLate (acquire t s.cur.1 sc) d v))))))

theorem run32_load {i : Instr} {s : State} {sl : BitVec 2} {d : Nat} {reads : List Nat} {kinds : List KindReq} {addr pol : State →
    Nat} {sc : Nat}
    (hw : i.wf = true) (hu : usable s reads [d] kinds = true) (hq : s.quiet = true) :
    LoadEnds s sl d (addr s) (pol s) sc reads (run32 i sl (loadOp d reads kinds addr pol sc) s) := by
  have hrun := usable_running hu
  refine ⟨fun hal => run32_trap hrun hw sl (loadOp_misaligned hu hq hal), fun hal => ⟨fun x v h => run32_trap hrun hw sl
    (loadOp_trap hu hq hal h),
    fun t v p pa h => ⟨fun hp => ?_, fun hp => ⟨fun hf => ?_, fun hf => ?_⟩⟩⟩⟩
  · rw [run32_running hrun hw, loadOp_poison hu hq hal h hp]
    rfl
  · exact run32_late hrun hw sl (loadOp_int hu hq hal h hp hf)
  · exact run32_done hrun hw sl (loadOp_float hu hq hal h hp hf)

/-! ## Stores (R186 to R188, R190) -/

section
variable {s : State} {d : Nat} {reads : List Nat} {kinds : List KindReq} {addr pol : State → Nat} {rel : Option Nat}
  (hu : usable s (d :: reads) [] kinds = true) (hq : s.quiet = true)
include hu hq

theorem storeOp_misaligned (hal : addr s % container s d ≠ 0) :
    storeOp d reads kinds addr pol rel s = .trap .misalign (BitVec.ofNat 64 (addr s)) := by
  simp only [storeOp, pre_usable hu, settle_quiet hq, hal, ne_eq, not_false_eq_true, if_true, holdLatch_trap]

variable (hs : s.single = true) (hal : addr s % container s d = 0) (hrel : ∀ x ∈ rel, putsHeld s s.cur.1 s.cur.2 x = false)
include hs hal hrel

/-- A store behind its checks is the access at its address, after the release of STL. -/
theorem storeOp_eq : storeOp d reads kinds addr pol rel s = holdLatch s (d :: reads) (plainEffect .stall s
    (fun s' => storeAt (release s' s.cur.1 (rel.getD 0)) s.cur.1 s.cur.2 (addr s) (container s d) (storeBits s d (container s d)) (pol s')
      (rel.getD 0)) (fun t _ => .done t)) := by
  simp only [storeOp, pre_usable hu, settle_quiet hq, hal, ne_eq, not_true, if_false, effectUnit, effectAt_single hs]
  cases rel with
  | none => rfl
  | some sc => rw [if_neg (Bool.eq_false_iff.mp (hrel sc rfl))]

theorem storeOp_trap {x : Cause} {w : Word} (h : storeAt (release s s.cur.1 (rel.getD 0)) s.cur.1 s.cur.2 (addr s) (container s d)
    (storeBits s d (container s d)) (pol s) (rel.getD 0) = .trap x w) : storeOp d reads kinds addr pol rel s = .trap x w := by
  rw [storeOp_eq hu hq hs hal hrel]
  simp only [plainEffect, h, holdLatch_trap]

theorem storeOp_ok {t : State} {w pa : Nat} (h : storeAt (release s s.cur.1 (rel.getD 0)) s.cur.1 s.cur.2 (addr s) (container s d)
    (storeBits s d (container s d)) (pol s) (rel.getD 0) = .ok t w 0 pa) : storeOp d reads kinds addr pol rel s = .done t := by
  rw [storeOp_eq hu hq hs hal hrel, plainEffect_ok h, holdLatch_done]

end

/-- How a store ends, as the access answers. -/
def StoreEnds (s : State) (sl : BitVec 2) (d ea pol : Nat) (rel : Option Nat) (o : Host.Outcome State Fault Refusal) : Prop :=
  (ea % container s d ≠ 0 → o = .next (trap32 s .misalign (BitVec.ofNat 64 ea))) ∧
  (ea % container s d = 0 → (∀ x ∈ rel, putsHeld s s.cur.1 s.cur.2 x = false) →
    (∀ x w, storeAt (release s s.cur.1 (rel.getD 0)) s.cur.1 s.cur.2 ea (container s d) (storeBits s d (container s d)) pol (rel.getD 0)
      = .trap x w → o = .next (trap32 s x w)) ∧
    (∀ t w pa, storeAt (release s s.cur.1 (rel.getD 0)) s.cur.1 s.cur.2 ea (container s d) (storeBits s d (container s d)) pol (rel.getD 0)
      = .ok t w 0 pa → o = .next (next32 s sl t)))

theorem run32_store {i : Instr} {s : State} {sl : BitVec 2} {d : Nat} {reads : List Nat} {kinds : List KindReq} {addr pol : State → Nat}
    {rel : Option Nat} (hw : i.wf = true) (hu : usable s (d :: reads) [] kinds = true) (hq : s.quiet = true) (hs : s.single = true) :
    StoreEnds s sl d (addr s) (pol s) rel (run32 i sl (storeOp d reads kinds addr pol rel) s) := by
  have hrun := usable_running hu
  exact ⟨fun hal => run32_trap hrun hw sl (storeOp_misaligned hu hq hal),
    fun hal hrel => ⟨fun x w h => run32_trap hrun hw sl (storeOp_trap hu hq hs hal hrel h),
      fun t w pa h => run32_done hrun hw sl (storeOp_ok hu hq hs hal hrel h)⟩⟩

/-- Settles O31: each load and each store by `run32_load` and `run32_store` with its address, policy and scope. -/
theorem loadsAndStores : Obligations.LoadsAndStores := by
  refine ⟨⟨fun sl d a i s hu hq => ⟨?_, ?_⟩, fun sl d a b s hu hq => ?_⟩, ⟨fun sl d a i s hu hq hs => ⟨?_, ?_⟩,
    fun sl d a b s hu hq hs => ?_⟩,
    fun d a s t v pa hu hq => ?_, fun d a s t w pa hu hq hs => ?_⟩
  · exact run32_load (i := .ld sl d a i) (addr := offAddr d.toNat a.toNat (ldOff i)) (pol := ldPol i) (sc := 0) rfl hu hq
  · exact run32_load (i := .lda sl d a i) (addr := offAddr d.toNat a.toNat (ldaOff i)) (pol := apol) (sc := ldaScope i) rfl hu hq
  · exact run32_load (i := .ldx sl d a b) (addr := idxAddr d.toNat a.toNat b.toNat) (pol := apol) (sc := 0) rfl hu hq
  · exact run32_store (i := .st sl d a i) (addr := offAddr d.toNat a.toNat (ldOff i)) (pol := ldPol i) (rel := none) rfl hu hq hs
  · exact run32_store (i := .stl sl d a i) (addr := offAddr d.toNat a.toNat (ldaOff i)) (pol := apol)
      (rel := some (ldaScope i)) rfl hu hq hs
  · exact run32_store (i := .stx sl d a b) (addr := idxAddr d.toNat a.toNat b.toNat) (pol := apol) (rel := none) rfl hu hq hs
  · intro c ea hal hload hf x hfit
    have hbody := loadOp_int hu hq (addr := offAddr d.toNat a.toNat 0) (sc := 0) hal hload rfl hf
    exact run16_done (usable_running hu) rfl (hbody.trans (putILate_fits hfit))
  · intro c ea hal hstore
    exact run16_done (usable_running hu) rfl
      (storeOp_ok hu hq hs (addr := offAddr d.toNat a.toNat 0) (rel := none) hal (fun x hx => by cases hx) hstore)

/-! ## Row transfers (R192) -/

/-- The words of both forms of a row transfer: how one row moves. -/
def moveOne (fillForm : Bool) (n k a : Nat) (s : State) (va row : Nat) : Access :=
  if fillForm then fillRowOp s n k va row [a] else spillRow s n k va row

theorem rowTransfer_eq {s : State} {fillForm : Bool} {d a count : Nat}
    (hu : usable s [a] [] [(d, startsRows d count), (a, intK)] = true) (hq : s.quiet = true) (hs : fillForm = false → s.single = true)
    (hal : (valW s a).toNat % 16 = 0) (hox : wideGet s.me.ox 448 6 = 0)
    (hrows : ∀ i, i < count → rowAbsent s s.cur.1 s.cur.2 ((info s d).off / 128 + i) = false) :
    rowTransfer fillForm d a count s = holdLatch s [a] (moveRows (moveOne fillForm s.cur.1 s.cur.2 a) s s.cur.1 s.cur.2 (valW s a).toNat
      ((info s d).off / 128) 0 count) := by
  have habsent : ((List.range count).map (fun i => (info s d).off / 128 + 0 + i)).find? (rowAbsent s s.cur.1 s.cur.2) = none := by
    simpa only [List.find?_eq_none, List.forall_mem_map, List.mem_range, Bool.not_eq_true, Nat.add_zero] using hrows
  cases fillForm with
  | true =>
    simp only [rowTransfer, pre_usable hu, hal, ne_eq, not_true, if_false, settle_quiet hq, hox, Nat.sub_zero, habsent, if_true]
    rfl
  | false =>
    have hcopy : (s.thread s.me.img).copy.isSome = false := by
      rw [beq_iff_eq.mp (hs rfl)]
      rfl
    simp only [rowTransfer, pre_usable hu, hal, ne_eq, not_true, if_false, settle_quiet hq, hox, Nat.sub_zero, habsent, Bool.false_eq_true,
      hcopy]
    rfl

theorem rowTransfer_done {s t : State} {fillForm : Bool} {d a count : Nat}
    (hu : usable s [a] [] [(d, startsRows d count), (a, intK)] = true) (hq : s.quiet = true) (hs : fillForm = false → s.single = true)
    (hal : (valW s a).toNat % 16 = 0) (hox : wideGet s.me.ox 448 6 = 0)
    (hrows : ∀ i, i < count → rowAbsent s s.cur.1 s.cur.2 ((info s d).off / 128 + i) = false)
    (hmove : moveRows (moveOne fillForm s.cur.1 s.cur.2 a) s s.cur.1 s.cur.2 (valW s a).toNat ((info s d).off / 128) 0 count = .done t) :
    rowTransfer fillForm d a count s = .done t := by
  rw [rowTransfer_eq hu hq hs hal hox hrows, hmove, holdLatch_done]

section
variable {one : State → Nat → Nat → Access} {s : State} {n k va row i m : Nat}

theorem moveRows_ok {t : State} {v p pa : Nat} (h : one s (sectorAt va i) (row + i) = .ok t v p pa) :
    moveRows one s n k va row i (m + 1) = moveRows one t n k va row (i + 1) m := by
  rw [moveRows, h]

theorem moveRows_trap {c : Cause} {v : Word} (h : one s (sectorAt va i) (row + i) = .trap c v) :
    moveRows one s n k va row i (m + 1) = .trapIn (setOx7 s n k i) .partial_ (BitVec.ofNat 64 i) := by
  rw [moveRows, h]

end

/-! ## FLUSH, INV and FENCE (R193, R194) -/

theorem maintain_eq {s : State} {a b : Nat} {f : State → Nat → Nat → State} (hu : usable s [a, b] [] [(a, intK), (b, intK)] = true)
    (hq : s.quiet = true) (hp : putsHeld s s.cur.1 s.cur.2 0 = false)
    (hr : rangeHeld s s.cur.1 (valW s a).toNat (fld (valW s b) 0 32) = false) :
    maintain a b f s = .done (f s (valW s a).toNat (fld (valW s b) 0 32)) := by
  simp only [maintain, pre_usable hu, settle_quiet hq, hp, hr, Bool.false_eq_true, or_self, if_false, holdLatch_done]

section
variable {s : State} {sc : Nat} (hq : s.quiet = true)
include hq

theorem fenceOp_both (hp : putsHeld s s.cur.1 s.cur.2 sc = false) : fenceOp sc 0 s = .done (acquire (release s s.cur.1 sc) s.cur.1 sc) := by
  simp [fenceOp, settle_quiet hq, hp]

theorem fenceOp_release (hp : putsHeld s s.cur.1 s.cur.2 sc = false) : fenceOp sc 1 s = .done (release s s.cur.1 sc) := by
  simp [fenceOp, settle_quiet hq, hp]

theorem fenceOp_acquire (hp : putsHeld s s.cur.1 s.cur.2 0 = false) : fenceOp sc 2 s = .done (acquire s s.cur.1 sc) := by
  simp [fenceOp, settle_quiet hq, hp]

end

theorem wf_fence {sl : BitVec 2} {d b : BitVec 6} (hd : d.toNat < 8) (hb : b.toNat < 3) : (Instr.fence sl d b).wf = true :=
  Bool.and_eq_true_iff.mpr ⟨decide_eq_true hd, decide_eq_true hb⟩

/-- Settles O33: the row transfers by `moveRows`, each maintenance instruction behind its waits. -/
theorem rowTransfersAndMaintenance : Obligations.RowTransfersAndMaintenance := by
  refine ⟨⟨?_, fun one s n k va row i m => ⟨rfl, fun t v p pa h => moveRows_ok h, fun c v h => moveRows_trap h⟩⟩,
    fun sl a b s hb hu => ?_, fun sl d a b s hu hq hp => ?_, fun sl d s hd hr hq hp hp0 => ⟨?_, ?_, ?_⟩⟩
  · simp only [List.forall_mem_cons, List.not_mem_nil, false_imp_iff, implies_true, and_true]
    refine ⟨fun sl d a b s t row hb hu hq hs hrow hal hox hrows hmove => ?_,
      fun sl d a b s t row hb hu hq hs hrow hal hox hrows hmove => ?_⟩
    · subst hrow
      have hw : (Instr.spill sl d a b).wf = true := decide_eq_true hb
      exact run32_done (usable_running hu) hw sl (rowTransfer_done (fillForm := false) hu hq (fun _ => hs trivial) hal hox hrows hmove)
    · subst hrow
      have hw : (Instr.fill sl d a b).wf = true := decide_eq_true hb
      exact run32_done (usable_running hu) hw sl (rowTransfer_done (fillForm := true) hu hq hs hal hox hrows hmove)
  · have hw : (Instr.pf sl a b).wf = true := decide_eq_true hb
    exact run32_done (usable_running hu) hw sl (body_usable hu rfl)
  · intro va len hr pages
    have hrun := usable_running hu
    refine ⟨fun hd => ?_, fun hd => ?_, fun hd => ?_⟩
    · have hw : (Instr.flush sl d a b).wf = true := decide_eq_true hd
      exact run32_done hrun hw sl (maintain_eq hu hq hp hr)
    · have hw : (Instr.inv sl d a b).wf = true := decide_eq_true (by omega)
      exact run32_done hrun hw sl ((maintain_eq hu hq hp hr).trans (congrArg _ (if_neg (by omega))))
    · have hw : (Instr.inv sl d a b).wf = true := decide_eq_true (by omega)
      exact run32_done hrun hw sl ((maintain_eq hu hq hp hr).trans (congrArg _ (if_pos hd)))
  · exact run32_done hr (wf_fence hd (by decide)) sl (fenceOp_both hq hp)
  · exact run32_done hr (wf_fence hd (by decide)) sl (fenceOp_release hq hp)
  · exact run32_done hr (wf_fence hd (by decide)) sl (fenceOp_acquire hq hp0)

/-! ## Atomics (R196, R197) -/

section
variable {s : State} {f d a b : Nat} {reads : List Nat}
  (hreads : reads = if f = 7 then [d, a, b] else [a, b])
  (hu : usable s reads [d] [(d, atomD (f = 8)), (a, intK), (b, if f = 8 then floatK else intK)] = true) (hq : s.quiet = true)
include hreads hu hq

theorem atomOp_misaligned (hal : (valW s a).toNat % container s d ≠ 0) :
    atomOp f d a b s = .trap .misalign (BitVec.ofNat 64 (valW s a).toNat) := by
  subst hreads
  simp only [atomOp, pre_usable hu, settle_quiet hq, hal, ne_eq, not_false_eq_true, if_true, holdLatch_trap]

/-- An atomic answers what its access read, and the access leaves the new value of the atomic's function. -/
theorem atomOp_ok {t : State} {m pa : Nat} (hs : s.single = true) (hal : (valW s a).toNat % container s d = 0)
    (hact : threadAtomic s s.cur.1 s.cur.2 (valW s a).toNat (container s d) (ascope s) (atomFn f d b (container s d) s) = .ok t m 0 pa) :
    atomOp f d a b s = .done (putLate t d m) := by
  subst hreads
  simp only [atomOp, pre_usable hu, settle_quiet hq, hal, ne_eq, not_true, if_false]
  rw [effectAt_ok hs (by rw [hact]; rfl), holdLatch_done]

end

theorem clampI_eq (k : Kind) (w : Nat) (x : Int) : clampI k w x = max (rangeLo k w) (min (rangeHi k w) x) := rfl

section
variable (s : State) (d b c : Nat)

/-- The functions of AMIN and AMAX with the operand clamped into D's range. -/
theorem atomFn_amin : atomFn 4 d b c s =
    let k := (info s d).kind
    let p := modPow (max (rangeLo k (8 * c)) (min (rangeHi k (8 * c)) (valI s b))) (8 * c)
    fun m => if decide (readPat k (8 * c) p < readPat k (8 * c) m) = true then p else m := by
  funext m
  simp only [atomFn, atomNew, atomOperand, clampI_eq, decide_eq_true_eq]
  rfl

theorem atomFn_amax : atomFn 5 d b c s =
    let k := (info s d).kind
    let p := modPow (max (rangeLo k (8 * c)) (min (rangeHi k (8 * c)) (valI s b))) (8 * c)
    fun m => if decide (readPat k (8 * c) m < readPat k (8 * c) p) = true then p else m := by
  funext m
  simp only [atomFn, atomNew, atomOperand, clampI_eq, decide_eq_true_eq]
  rfl

end

theorem stcOp_ok {s t : State} {d a b v pa : Nat} (hu : usable s [d, a, b] [] [(d, anyK), (a, intK), (b, intK)] = true)
    (hq : s.quiet = true) (hs : s.single = true) (hal : (valW s a).toNat % container s d = 0) (hbar : (valW s b).toNat % 32 = 0)
    (hact : stcAct s s.cur.1 s.cur.2 (valW s a).toNat (container s d) (storeBits s d (container s d)) (valW s b).toNat = .ok t v 0 pa) :
    stcOp d a b s = .done t := by
  simp only [stcOp, pre_usable hu, settle_quiet hq, hal, hbar, ne_eq, not_true, if_false]
  split
  · rw [effectUnit_ok hs hact, holdLatch_done]
  · rw [externalUnit, external_ok hs hact, holdLatch_done]

/-- Settles O34: each atomic is `atomOp` with its function, and STC its store with one arrival. -/
theorem atomics : Obligations.Atomics := by
  simp only [Obligations.Atomics, List.forall_mem_cons, List.not_mem_nil, false_imp_iff, implies_true, and_true]
  refine ⟨?_, ⟨fun sl d a b s t m pa hu hq hs hal hact => ?_, fun sl d a b s t m pa hu hq hs hal hact => ?_⟩,
    fun sl d a b s t m pa hu hq hs hal hact => ?_, fun sl d a b s t v pa hu hq hs hal hbar hact => ?_⟩
  · and_intros <;> exact fun sl d a b s t m pa hu hq hs =>
      ⟨fun hal => run32_trap (usable_running hu) rfl sl (atomOp_misaligned rfl hu hq hal),
        fun hal hact => run32_done (usable_running hu) rfl sl (atomOp_ok rfl hu hq hs hal hact)⟩
  · have hfn := congrArg (threadAtomic s s.cur.1 s.cur.2 (valW s a.toNat).toNat (container s d.toNat) (ascope s))
      (atomFn_amin s d.toNat b.toNat (container s d.toNat))
    exact run32_done (usable_running hu) rfl sl (atomOp_ok (f := 4) rfl hu hq hs hal (hfn.trans hact))
  · have hfn := congrArg (threadAtomic s s.cur.1 s.cur.2 (valW s a.toNat).toNat (container s d.toNat) (ascope s))
      (atomFn_amax s d.toNat b.toNat (container s d.toNat))
    exact run32_done (usable_running hu) rfl sl (atomOp_ok (f := 5) rfl hu hq hs hal (hfn.trans hact))
  · exact run32_done (usable_running hu) rfl sl (atomOp_ok (f := 8) rfl hu hq hs hal hact)
  · exact run32_done (usable_running hu) rfl sl (stcOp_ok hu hq hs hal hbar hact)

end Sys2Proof.Machine
end


section
/-! SUPPORT. Locks, promises and the estate (R198 to R209). -/

namespace Sys2Proof.Machine

/-! ## Locks (R201, R202) -/

section
variable {s t : State} {d a r pa : Nat} (hu : usable s [a] [d] [(d, intK), (a, intK)] = true) (hq : s.quiet = true)
include hu hq

theorem lockOp_misaligned (hal : (valW s a).toNat % 8 ≠ 0) : lockOp d a s = .trap .misalign (BitVec.ofNat 64 (valW s a).toNat) := by
  simp only [lockOp, pre_usable hu, settle_quiet hq, hal, ne_eq, not_false_eq_true, if_true, holdLatch_trap]

theorem unlockOp_misaligned (hal : (valW s a).toNat % 8 ≠ 0) : unlockOp d a s = .trap .misalign (BitVec.ofNat 64 (valW s a).toNat) := by
  simp only [unlockOp, pre_usable hu, settle_quiet hq, hal, ne_eq, not_false_eq_true, if_true, holdLatch_trap]

variable (hs : s.single = true) (hal : (valW s a).toNat % 8 = 0)
include hs hal

theorem lockOp_ok (hop : objectOp s s.cur.1 s.cur.2 .update (valW s a).toNat 8 opLock s.me.handle.toNat
      (bit (estateFull (s.thread s.me.img))) (guardOf (info s d)) [a] = .ok t r 0 pa) :
    lockOp d a s = if r = 5 then .trap .protect (BitVec.ofNat 64 (valW s a).toNat) else
      let noted := if r = 1 ∨ r = 2 then estateAuto t s.me.img (BitVec.ofNat 64 (valW s a).toNat) 1 else t
      putILate (if r = 1 then acquire noted s.cur.1 (ascope noted) else if r = 2 ∨ r = 4 then acquire noted s.cur.1 6 else noted) d r := by
  simp only [lockOp, pre_usable hu, settle_quiet hq, hal, ne_eq, not_true, if_false]
  rw [effectAt_ok hs hop]
  split
  · rw [holdLatch_trap]
  · rw [holdLatch_putILate]

theorem unlockOp_ok (hp : putsHeld s s.cur.1 s.cur.2 (ascope s) = false)
    (hop : objectOp (release s s.cur.1 (ascope s)) s.cur.1 s.cur.2 .update (valW s a).toNat 8 opUnlock s.me.handle.toNat 0
      (guardOf (info s d)) [a] = .ok t r 0 pa) :
    unlockOp d a s =
      putILate (if r = 0 then estateDrop t s.me.img (fun e => e.kind = 1 && e.object = BitVec.ofNat 64 (valW s a).toNat) else t) d r := by
  simp only [unlockOp, pre_usable hu, settle_quiet hq, hal, ne_eq, not_true, if_false, hp, Bool.false_eq_true]
  rw [effectAt_ok hs hop, holdLatch_putILate]

end

/-! ## Promises (R204) -/

section
variable {s : State} {a : Nat} (hu : usable s [a] [] [(a, intK)] = true) (hq : s.quiet = true)
include hu hq

theorem prmkOp_full (hest : estateFull (s.thread s.me.img) = true) : prmkOp a s = .trap .protect (BitVec.ofNat 64 (valW s a).toNat) := by
  simp only [prmkOp, pre_usable hu, settle_quiet hq, hest, if_true, holdLatch_trap]

variable (hest : estateFull (s.thread s.me.img) = false)
include hest

theorem prmkOp_misaligned (hal : (valW s a).toNat % 16 ≠ 0) : prmkOp a s = .trap .misalign (BitVec.ofNat 64 (valW s a).toNat) := by
  simp only [prmkOp, pre_usable hu, settle_quiet hq, hest, hal, Bool.false_eq_true, if_false, ne_eq, not_false_eq_true, if_true,
    holdLatch_trap]

theorem prmkOp_ok {t : State} {r pa : Nat} (hs : s.single = true) (hal : (valW s a).toNat % 16 = 0)
    (hop : objectOp s s.cur.1 s.cur.2 .update (valW s a).toNat 16 opPrmk s.me.handle.toNat 0 0 [a] = .ok t r 0 pa) :
    prmkOp a s = .done (estateAuto t s.me.img (BitVec.ofNat 64 (valW s a).toNat) 2) := by
  simp only [prmkOp, pre_usable hu, settle_quiet hq, hest, hal, Bool.false_eq_true, if_false, ne_eq, not_true]
  rw [effectUnit_ok hs hop, holdLatch_done]

end

theorem keepOp_ok {s t : State} {d a b r pa : Nat} (hu : usable s [a, b] [d] [(d, intK), (a, intK), (b, anyK)] = true) (hq : s.quiet = true)
    (hs : s.single = true) (hal : (valW s a).toNat % 16 = 0) (hp : putsHeld s s.cur.1 s.cur.2 5 = false)
    (hop : objectOp (release s s.cur.1 5) s.cur.1 s.cur.2 .update (valW s a).toNat 16 opKeep s.me.handle.toNat (windowValue b s)
      (guardOf (info s d)) [a, b] = .ok t r 0 pa) :
    keepOp d a b s =
      putILate (if r = 0 then estateDrop t s.me.img (fun e => e.kind = 2 && e.object = BitVec.ofNat 64 (valW s a).toNat) else t) d r := by
  simp only [keepOp, pre_usable hu, settle_quiet hq, hal, hp, Bool.false_eq_true, if_false, ne_eq, not_true]
  rw [effectAt_ok hs hop, holdLatch_putILate]

section
variable {s t : State} {d a w pa : Nat} (hu : usable s [a] [d] [(d, intK), (a, intK)] = true) (hq : s.quiet = true)
  (hal : (valW s a).toNat % 16 = 0) (hword : promiseWord s s.cur.1 s.cur.2 (valW s a).toNat [a] = .ok t w 0 pa)
include hu hq hal hword

theorem awaitpOp_ok : awaitpOp d a s =
    if w % 4 = 0 then .block (latchOn s (noteWait t pa) [a]) .awaitp (BitVec.ofNat 64 (valW s a).toNat)
    else putILate (acquire t s.cur.1 (if w.testBit 2 then 6 else 5)) d w := by
  have hbit : (if bitsAt w 2 1 = 1 then 6 else 5) = if w.testBit 2 = true then 6 else 5 := if_congr (bitsAt_one_iff w 2) rfl rfl
  simp only [awaitpOp, pre_usable hu, settle_quiet hq, hal, hword, ne_eq, not_true, if_false, hbit]
  split
  · rw [holdLatch_block]
  · rw [holdLatch_putILate]

theorem prmqOp_ok : prmqOp d a s = putILate t d w := by
  simp only [prmqOp, pre_usable hu, settle_quiet hq, hal, hword, ne_eq, not_true, if_false, holdLatch_putILate]

end

/-- Settles O35: each operation on a lock or a promise by what its object answers. -/
theorem locksAndPromises : Obligations.LocksAndPromises := by
  refine ⟨⟨fun sl d a s t r pa hu hq hs hal hop => ?_, fun sl d a s t r pa hu hq hs hal hp hop => ?_, ?_⟩,
    fun sl a s t r pa hu hq hs => ?_, fun sl d a b s t r pa hu hq hs => ?_, fun sl d a s t w pa hu hq hal hword => ⟨?_, ?_⟩⟩
  · intro noted after
    have hbody := lockOp_ok hu hq hs hal hop
    exact ⟨fun hr => run32_late (usable_running hu) rfl sl (hbody.trans (if_neg hr)),
      fun hr => run32_trap (usable_running hu) rfl sl (hbody.trans (if_pos hr))⟩
  · exact run32_late (usable_running hu) rfl sl (unlockOp_ok hu hq hs hal hp hop)
  · simp only [List.forall_mem_cons, List.not_mem_nil, false_imp_iff, implies_true, and_true]
    exact ⟨fun sl d a s hu hq hal => run32_trap (usable_running hu) rfl sl (lockOp_misaligned hu hq hal),
      fun sl d a s hu hq hal => run32_trap (usable_running hu) rfl sl (unlockOp_misaligned hu hq hal)⟩
  · have hrun := usable_running hu
    exact ⟨fun hest => run32_trap hrun rfl sl (prmkOp_full hu hq hest), fun hest hal => run32_trap hrun rfl sl (prmkOp_misaligned hu hq hest hal),
      fun hest hal hop => run32_done hrun rfl sl (prmkOp_ok hu hq hest hs hal hop)⟩
  · intro va hal hp hop
    exact run32_late (usable_running hu) rfl sl (keepOp_ok hu hq hs hal hp hop)
  · have hbody := awaitpOp_ok hu hq hal hword
    split
    next h => exact run32_block (usable_running hu) rfl sl (hbody.trans (if_pos h))
    next h => exact run32_late (usable_running hu) rfl sl (hbody.trans (if_neg h))
  · exact run32_late (usable_running hu) rfl sl (prmqOp_ok hu hq hal hword)

/-! ## Words at their home (R181, R202, R204) -/

theorem bitsAt_zero (v w : Nat) : bitsAt v 0 w = v % 2 ^ w := by
  rw [bitsAt, Nat.pow_zero, Nat.div_one]

section
variable {h w : Nat}

theorem lockStep_free (h0 : w % 2 ^ 32 = 0) : lockStep h false w = (h, if w.testBit 33 then 2 else 1) := by
  simp only [lockStep, bitsAt_zero, h0, if_true, Bool.false_eq_true, if_false, bitsAt_one_iff]

theorem lockStep_full (h0 : w % 2 ^ 32 = 0) : lockStep h true w = (w, 5) := by
  simp only [lockStep, bitsAt_zero, h0, if_true]

theorem lockStep_owner (full : Bool) (h0 : w % 2 ^ 32 ≠ 0) (hh : w % 2 ^ 32 = h) :
    lockStep h full w = if w.testBit 32 then (h, 4) else (w, 3) := by
  simp only [lockStep, bitsAt_zero, if_neg h0, if_pos hh, bitsAt_one_iff]

theorem lockStep_other (full : Bool) (h0 : w % 2 ^ 32 ≠ 0) (hh : w % 2 ^ 32 ≠ h) : lockStep h full w = (w, 0) := by
  simp only [lockStep, bitsAt_zero, if_neg h0, if_neg hh]

theorem unlockStep_eq : unlockStep h w = if w % 2 ^ 32 = h then (0, 0) else (w, 1) := by
  rw [unlockStep, bitsAt_zero]

variable {v : Nat}

theorem keepStep_other (hh : w / 2 ^ 32 % 2 ^ 32 ≠ h) : keepStep h v w = (w, 1) := if_pos hh

variable (hh : w / 2 ^ 32 % 2 ^ 32 = h)
include hh

theorem keepStep_fulfilled (h4 : w % 4 ≠ 0) : keepStep h v w = (w, 2) := by
  have hbits : bitsAt w 0 2 ≠ 0 := by rwa [bitsAt_zero]
  rw [keepStep, if_neg (show ¬bitsAt w 32 32 ≠ h from not_not.mpr hh), if_pos hbits]

/-- The value goes into the second word, and STATE becomes 1. -/
theorem keepStep_fulfils (hw : w < 2 ^ 128) (hv : v < 2 ^ 64) (h4 : w % 4 = 0) : keepStep h v w = (w % 2 ^ 64 + 1 + v * 2 ^ 64, 0) := by
  have hbits : ¬bitsAt w 0 2 ≠ 0 := by
    rw [bitsAt_zero, not_not]
    exact h4
  have hval : setBits w 64 64 v = w % 2 ^ 64 + v * 2 ^ 64 := by
    have hhigh : w / 2 ^ 64 % 2 ^ 64 = w / 2 ^ 64 := Nat.mod_eq_of_lt (by omega)
    rw [setBits, bitsAt, hhigh, Nat.mod_eq_of_lt hv]
    omega
  have hstate : setBits (w % 2 ^ 64 + v * 2 ^ 64) 0 2 1 = w % 2 ^ 64 + 1 + v * 2 ^ 64 := by
    rw [setBits, bitsAt_zero]
    omega
  rw [keepStep, if_neg (show ¬bitsAt w 32 32 ≠ h from not_not.mpr hh), if_neg hbits, hval, hstate]

end

theorem objectOp_home {s u : State} {n k va size op a b guard v pa : Nat} {need : Need} {reads : List Nat}
    (h : objectAt s n k need va size = .ok u v 0 pa) : objectOp s n k need va size op a b guard reads =
      .ok (homeOp u pa op size a b 0 (some (ctxOf u n))).1 (homeOp u pa op size a b 0 (some (ctxOf u n))).2 0 pa := by
  simp only [objectOp, h, ne_eq, not_true, if_false]

/-! ## The estate (R198, R199, R203) -/

theorem heirWord_accepted {b : Nat} {p : Bool} (h : b = 63 ∨ p = true) : ¬(b ≠ 63 ∧ p = false) := by
  rintro ⟨hb, hp⟩
  exact h.elim hb (Bool.eq_false_iff.mp hp)

section
variable {s : State} {d a b : Nat}
  (hu : usable s (if b = 63 then [a] else [a, b]) [d] [(d, intK), (a, intK), (b, intK)] = true) (hq : s.quiet = true)
include hu hq

/-- The reads are a variable, so that the check of the heir word is the first branch. -/
theorem holdOp_eq : ∃ reads, holdOp d a b s = holdLatch s reads
    (if b ≠ 63 ∧ heirOk (heirWordOf b s) = false then .trap .protect (heirWordOf b s)
     else if estateFull (s.thread s.me.img) then .trap .protect (valW s a)
     else putI (estateAdd s s.me.img (valW s a) 7 (heirWordOf b s)) d 1 ((s.thread s.me.img).estSeq.toNat : Int)) := by
  refine ⟨if b = 63 then [a] else [a, b], ?_⟩
  simp only [holdOp, pre_usable hu, settle_quiet hq]

theorem holdOp_badHeir (hb : b ≠ 63) (hh : heirOk (heirWordOf b s) = false) : holdOp d a b s = .trap .protect (heirWordOf b s) := by
  obtain ⟨reads, heq⟩ := holdOp_eq hu hq
  rw [heq, if_pos ⟨hb, hh⟩, holdLatch_trap]

variable (hh : b = 63 ∨ heirOk (heirWordOf b s) = true)
include hh

theorem holdOp_full (hest : estateFull (s.thread s.me.img) = true) : holdOp d a b s = .trap .protect (valW s a) := by
  obtain ⟨reads, heq⟩ := holdOp_eq hu hq
  rw [heq, if_neg (heirWord_accepted hh), if_pos hest, holdLatch_trap]

theorem holdOp_adds (hest : estateFull (s.thread s.me.img) = false)
    (hfit : fitsIn (estateAdd s s.me.img (valW s a) 7 (heirWordOf b s)) d ((s.thread s.me.img).estSeq.toNat : Int) = true) :
    holdOp d a b s =
      .done (intOut (estateAdd s s.me.img (valW s a) 7 (heirWordOf b s)) d 1 ((s.thread s.me.img).estSeq.toNat : Int)) := by
  obtain ⟨reads, heq⟩ := holdOp_eq hu hq
  rw [heq, if_neg (heirWord_accepted hh), if_neg (Bool.eq_false_iff.mp hest), putI_fits hfit, holdLatch_done]

end

section
variable {s : State} {d a b : Nat} (hu : usable s [a, b] [d] [(d, intK), (a, intK), (b, intK)] = true) (hq : s.quiet = true)
include hu hq

theorem willOp_badHeir (hh : heirOk (valW s b) = false) : willOp d a b s = .trap .protect (valW s b) := by
  simp only [willOp, pre_usable hu, settle_quiet hq, hh, if_true, holdLatch_trap]

/-- The entries that WILL names: all, or those on one object. -/
def willNames (o : Word) (e : EstEntry) : Bool := o = 0 || e.object = o

/-- The state after WILL has given the named entries a new heir. -/
def willRenames (s : State) (o h : Word) : State :=
  s.modThread s.me.img (fun t => { t with estate := t.estate.map (fun e => if willNames o e then setHeir h e else e) })

theorem willOp_names (hh : heirOk (valW s b) = true)
    (hfit : fitsIn (willRenames s (valW s a) (valW s b)) d (((s.thread s.me.img).estate.filter (willNames (valW s a))).length : Nat) = true) :
    willOp d a b s = .done (intOut (willRenames s (valW s a) (valW s b)) d 1
      (((s.thread s.me.img).estate.filter (willNames (valW s a))).length : Nat)) := by
  unfold willRenames willNames at hfit ⊢
  simp only [willOp, pre_usable hu, settle_quiet hq, hh, Bool.true_eq_false, if_false]
  rw [putI_fits hfit, holdLatch_done]

end

section
variable {s : State} {d a : Nat} (hu : usable s [a] [d] [(d, intK), (a, intK)] = true) (hq : s.quiet = true)
include hu hq

omit hq in
theorem estqOp_entry : estqOp d a 0 s =
    putI s d 1 (match entryOn (s.thread s.me.img) (valW s a) with | some e => (fld (entryWord e) 0 35 : Int) | none => 0) := by
  simp only [estqOp, pre_usable hu]
  cases entryOn (s.thread s.me.img) (valW s a) with
  | none => rfl
  | some e => rfl

omit hq in
theorem estqOp_count : estqOp d a 1 s = putI s d 1 (s.thread s.me.img).estate.length := by
  simp only [estqOp, pre_usable hu]

omit hq in
theorem estqOp_heir : estqOp d a 2 s =
    putI s d 1 (match entryOn (s.thread s.me.img) (valW s a) with | some e => (e.heir.toNat : Int) | none => 0) := by
  simp only [estqOp, pre_usable hu]
  cases entryOn (s.thread s.me.img) (valW s a) with
  | none => rfl
  | some e => rfl

/-- The entries that RELH removes on an object (R203). -/
def relhOn (o : Word) (e : EstEntry) : Bool := (e.kind = 1 || e.kind = 4 || e.kind = 5 || e.kind = 7) && e.object = o

theorem relhOp_eq : relhOp d a s = holdLatch s [a] (match (s.thread s.me.img).estate.find? (relhOn (valW s a)) with
    | none => putI s d 1 0
    | some e => putI (estateDrop s s.me.img (relhOn (valW s a))) d 1 e.kind) := by
  simp only [relhOp, pre_usable hu, settle_quiet hq]
    <;> rfl

theorem relhOp_none (hf : (s.thread s.me.img).estate.find? (relhOn (valW s a)) = none) : relhOp d a s = putI s d 1 0 := by
  rw [relhOp_eq hu hq, hf]
  cases h : fitsIn s d 0 with
  | true => rw [putI_fits h, holdLatch_done]
  | false => rw [putI_trap h, holdLatch_trap]

theorem relhOp_some {e : EstEntry} (hf : (s.thread s.me.img).estate.find? (relhOn (valW s a)) = some e)
    (hfit : fitsIn (estateDrop s s.me.img (relhOn (valW s a))) d e.kind = true) :
    relhOp d a s = .done (intOut (estateDrop s s.me.img (relhOn (valW s a))) d 1 e.kind) := by
  rw [relhOp_eq hu hq, hf]
  exact (congrArg (holdLatch s [a]) (putI_fits hfit 1)).trans (holdLatch_done ..)

theorem conveyOp_none (hw : conveyWaits s = none) (he : entryOn (s.thread s.me.img) (valW s a) = none) : conveyOp d a s = putILate s d 0 := by
  simp only [conveyOp, pre_usable hu, settle_quiet hq, conveyed, hw, he, Option.isSome_none, Bool.false_eq_true, if_false,
    holdLatch_putILate]

/-- The command waited for completed and took its entry with it: D is the KIND of an ENGINE entry. -/
theorem conveyOp_completed {q : BitVec 16} (hw : conveyWaits s = some q)
    (he : (s.thread s.me.img).estate.find? (fun e => e.seq = q) = none) : conveyOp d a s = putILate s d 6 := by
  simp only [conveyOp, pre_usable hu, settle_quiet hq, conveyed, hw, he, Option.isSome_some, if_true, holdLatch_putILate]

section
variable {e : EstEntry} (he : conveyed s a = some e) (hb : engineBusy s s.me.img e = false)
include he hb

theorem conveyOp_width (hfit : conveyFits s d e = false) (hfar : conveyedFar s s.cur.1 e = true) :
    conveyOp d a s = .trap .width (widthVal e.kind d) := by
  simp only [conveyOp, pre_usable hu, settle_quiet hq, he, hb, hfit, hfar, Bool.false_eq_true, if_false, and_self, if_true,
    holdLatch_trap]

theorem conveyOp_acts {t : State} {r pa : Nat} (hs : s.single = true) (h : conveyFits s d e = true ∨ conveyedFar s s.cur.1 e = false)
    (hact : conveyAct s s.cur.1 s.cur.2 s.me.img e = .ok t r 0 pa) : conveyOp d a s = putILate t d r := by
  have hgo : ¬(conveyFits s d e = false ∧ conveyedFar s s.cur.1 e = true) := by
    rintro ⟨h1, h2⟩
    simp_all
  simp only [conveyOp, pre_usable hu, settle_quiet hq, he, hb, Bool.false_eq_true, if_false, if_neg hgo]
  rw [external_ok hs hact, holdLatch_putILate]

end

end

/-- Settles O36: words at their home by their OWNER and STATE, the estate's instructions by its entries. -/
theorem objectsAndEstate : Obligations.ObjectsAndEstate := by
  refine ⟨⟨fun h w full _ => ⟨fun h0 hf => ?_, fun h0 hf => ?_, lockStep_owner full, lockStep_other full, unlockStep_eq⟩,
      fun h v w hw hv => ⟨keepStep_other, keepStep_fulfilled, fun hh => keepStep_fulfils hh hw hv⟩,
      fun s n k va size op a b guard v pa need reads u h => objectOp_home h⟩,
    fun sl d a b s hu hq => ?_, fun sl d a b s hu hq => ?_, fun sl d a s hu hq => ?_, fun sl d a s hu hq => ⟨?_, ?_, ?_⟩,
    fun sl d a s t r pa hu hq hs => ⟨fun hw he => ?_, fun q hw he => ?_, fun e he hb => ⟨fun hfit hfar => ?_, fun hgo hact => ?_⟩⟩⟩
  · rw [hf]
    exact lockStep_free h0
  · rw [hf]
    exact lockStep_full h0
  · have hrun := usable_running hu
    exact ⟨fun hb hh => run32_trap hrun rfl sl ((holdOp_badHeir hu hq hb hh)),
      fun hh hest => run32_trap hrun rfl sl (holdOp_full hu hq hh hest),
      fun hh hest hfit => run32_done hrun rfl sl (holdOp_adds hu hq hh hest hfit)⟩
  · have hrun := usable_running hu
    exact ⟨fun hh => run32_trap hrun rfl sl (willOp_badHeir hu hq hh),
      fun hh hfit => run32_done hrun rfl sl (willOp_names hu hq hh hfit)⟩
  · have hrun := usable_running hu
    exact ⟨fun hf => run32_putI hrun rfl sl (relhOp_none hu hq hf),
      fun e hf hfit => run32_done hrun rfl sl (relhOp_some hu hq hf hfit)⟩
  · exact run32_putI (usable_running hu) rfl sl (estqOp_entry hu)
  · exact run32_putI (usable_running hu) rfl sl (estqOp_count hu)
  · exact run32_putI (usable_running hu) rfl sl (estqOp_heir hu)
  · exact run32_late (usable_running hu) rfl sl (conveyOp_none hu hq hw he)
  · exact run32_late (usable_running hu) rfl sl (conveyOp_completed hu hq hw he)
  · exact run32_trap (usable_running hu) rfl sl (conveyOp_width hu hq he hb hfit hfar)
  · exact run32_late (usable_running hu) rfl sl (conveyOp_acts hu hq he hb hs hgo hact)

end Sys2Proof.Machine
end


section
/-! SUPPORT. Stream commands at issue (R217 to R227): checks that pass, and acceptance into the queue. -/

namespace Sys2Proof.Machine

/-! ## Records and the queue -/

section
variable {s : State} {offs : List Nat}

theorem recordsGood_at (h : recordsGood s offs = true) {o : Nat} (ho : o ∈ offs) :
    o % 32 = 0 ∧ o < spadSize ∧ recordBusy s s.cur.1 o 32 = false := by
  have hall := List.all_eq_true.mp h o ho
  simp only [Bool.and_eq_true, decide_eq_true_eq, Bool.not_eq_true'] at hall
  exact ⟨hall.1.1, hall.1.2, hall.2⟩

theorem aligned_of_recordsGood (h : recordsGood s offs = true) : offs.find? (fun o => o % 32 ≠ 0) = none :=
  List.find?_eq_none.mpr fun o ho => by simpa using (recordsGood_at h ho).1

theorem recordsOk_good (h : recordsGood s offs = true) (body : Eff) : recordsOk s offs body = body := by
  have hreach : offs.find? (fun o => spadSize ≤ o) = none :=
    List.find?_eq_none.mpr fun o ho => by simpa using (recordsGood_at h ho).2.1
  have hfree : offs.any (fun o => recordBusy s s.cur.1 o 32) = false :=
    List.any_eq_false.mpr fun o ho => Bool.eq_false_iff.mp (recordsGood_at h ho).2.2
  simp only [recordsOk, aligned_of_recordsGood h, hreach, hfree, Bool.false_eq_true, if_false]

theorem recordsOk_misaligned {o : Nat} (h : o % 32 ≠ 0) (body : Eff) :
    recordsOk s (o :: offs) body = .trap .misalign (BitVec.ofNat 64 o) := by
  have hfind : (o :: offs).find? (fun x => x % 32 ≠ 0) = some o := List.find?_cons_of_pos (by simpa using h)
  simp only [recordsOk, hfind]

theorem acceptStream_room (h : streamRoom s = true) (op : CmdOp) (rd wr : List (Nat × Nat)) (tag : Option Nat) (ch : Option (Nat × Nat)) :
    acceptStream s op rd wr tag ch = .done (stepSeed (addCmd s { newCmd s op rd wr tag with chunk := ch })) := by
  simp only [streamRoom, Bool.and_eq_true, decide_eq_true_eq] at h
  rw [acceptStream, if_neg (by omega)]

theorem acceptStream_full (h : streamRoom s = false) (op : CmdOp) (rd wr : List (Nat × Nat)) (tag : Option Nat) (ch : Option (Nat × Nat)) :
    acceptStream s op rd wr tag ch = .stall s := by
  have hfull : 16 ≤ streamCount s s.cur.1 ∨ 32 ≤ boardCount s s.cur.1 := by
    by_contra hroom
    push Not at hroom
    simp [streamRoom, hroom] at h
  rw [acceptStream, if_pos hfull]

end

theorem sourceGood_iff {s : State} {o : Nat} :
    sourceGood s o = true ↔ sourceBad (fmtNext s (readShape s s.cur.1 o).1) (readShape s s.cur.1 o) = false := iff_of_eq (Bool.not_eq_true' _)
theorem destGood_iff {s : State} {o : Nat} :
    destGood s o = true ↔ destBad (fmtNext s (readShape s s.cur.1 o).1) (readShape s s.cur.1 o) = false := iff_of_eq (Bool.not_eq_true' _)

/-! ## Commands of two records: CPYB and REDUCE (R223, R225) -/

section
variable {s : State} {d a b : Nat} {reduce : Bool} {body : State → Word → Nat → Nat → Eff}
  (hu : usable s (ctlReads d [a, b]) [] [(d, intK), (a, intK), (b, intK)] = true) (hq : s.quiet = true)
include hu hq

theorem twoRecords_reserved (hc : ctlBad (valW s d) reduce = true) : twoRecords d a b reduce body s = .trapWord .illegal := by
  simp only [twoRecords, pre_usable hu, settle_quiet hq, hc, if_true]
  rfl

variable (hc : ctlBad (valW s d) reduce = false)
include hc

theorem twoRecords_misaligned (hx : (valW s a).toNat % 32 ≠ 0) :
    twoRecords d a b reduce body s = .trap .misalign (BitVec.ofNat 64 (valW s a).toNat) := by
  simp only [twoRecords, pre_usable hu, settle_quiet hq, hc, Bool.false_eq_true, if_false]
  rw [recordsOk_misaligned hx, holdLatch_trap]

variable (hrec : recordsGood s [(valW s a).toNat, (valW s b).toNat] = true)
include hrec

theorem twoRecords_good : twoRecords d a b reduce body s =
    holdLatch s (ctlReads d [a, b]) (body s (valW s d) (valW s a).toNat (valW s b).toNat) := by
  simp only [twoRecords, pre_usable hu, settle_quiet hq, hc, Bool.false_eq_true, if_false, recordsOk_good hrec]

variable (hsrc : sourceGood s (valW s a).toNat = true) (hdst : destGood s (valW s b).toNat = true)
include hsrc hdst

theorem cpybOp_accepts (hred : reduce = false) (hraw : (formatAt s (valW s a).toNat).raw = (formatAt s (valW s b).toNat).raw)
    (hdims : (shapeAt s (valW s a).toNat).dims = (shapeAt s (valW s b).toNat).dims) :
    cpybOp d a b s = holdLatch s (ctlReads d [a, b])
      (acceptStream s (.cpyb (shapeAt s (valW s a).toNat) (shapeAt s (valW s b).toNat))
        ([recRange (valW s a).toNat 32, recRange (valW s b).toNat 32] ++
          tensorRange (formatAt s (valW s a).toNat) (shapeAt s (valW s a).toNat))
        (tensorRange (formatAt s (valW s b).toNat) (shapeAt s (valW s b).toNat)) (ctlTag (valW s d)) none) := by
  subst hred
  rw [cpybOp, twoRecords_good hu hq hc hrec]
  unfold formatAt shapeAt at hraw
  unfold shapeAt at hdims
  simp only [sourceGood_iff.mp hsrc, destGood_iff.mp hdst, hraw, sameDims, hdims, decide_true, Bool.and_not_self, Bool.not_true,
    Bool.or_self, Bool.false_eq_true, if_false]
  rfl

theorem reduceOp_accepts (hred : reduce = true) (hraw : (formatAt s (valW s a).toNat).raw = false)
    (hraw' : (formatAt s (valW s b).toNat).raw = false) (hscale : (formatAt s (valW s b).toNat).scale = false)
    (hdim : (shapeAt s (valW s b).toNat).dim 0 = 1 ∧
      ∀ k ∈ [1, 2, 3], (shapeAt s (valW s b).toNat).dim k = (shapeAt s (valW s a).toNat).dim k) :
    reduceOp d a b s = holdLatch s (ctlReads d [a, b])
      (acceptStream s (.reduce (fld (valW s d) 8 2) (shapeAt s (valW s a).toNat) (shapeAt s (valW s b).toNat))
        ([recRange (valW s a).toNat 32, recRange (valW s b).toNat 32] ++
          tensorRange (formatAt s (valW s a).toNat) (shapeAt s (valW s a).toNat))
        (tensorRange (formatAt s (valW s b).toNat) (shapeAt s (valW s b).toNat)) (ctlTag (valW s d)) none) := by
  subst hred
  rw [reduceOp, twoRecords_good hu hq hc hrec]
  unfold formatAt shapeAt at hraw hraw' hscale
  unfold shapeAt at hdim
  obtain ⟨hdim0, hdims⟩ := hdim
  simp only [List.forall_mem_cons, List.not_mem_nil, false_imp_iff, implies_true, and_true] at hdims
  obtain ⟨hdim1, hdim2, hdim3⟩ := hdims
  simp only [sourceGood_iff.mp hsrc, destGood_iff.mp hdst, hraw, hraw', hscale, hdim0, hdim1, hdim2, hdim3, decide_true, Bool.and_self,
    Bool.not_true, Bool.or_self, Bool.false_eq_true, if_false]
  rfl

end

/-! ## FILLS, GATHER and SCATTER (R224, R225) -/

theorem fillsOp_accepts {s : State} {d a b : Nat} (hu : usable s (ctlReads d [a, b]) [] [(d, intK), (a, intK), (b, anyK)] = true)
    (hq : s.quiet = true) (hc : ctlBad (valW s d) false = false) (hrec : recordsGood s [(valW s a).toNat] = true)
    (hdst : destGood s (valW s a).toNat = true)
    (hraw : (info s b).kind.isFloat = true → (formatAt s (valW s a).toNat).raw = false) :
    fillsOp d a b s = holdLatch s (ctlReads d [a, b])
      (acceptStream s (.fills (shapeAt s (valW s a).toNat) (info s b).kind
          (if (info s b).kind.isFloat then (opBits s b : Int) else valI s b)) [recRange (valW s a).toNat 32]
        (tensorRange (formatAt s (valW s a).toNat) (shapeAt s (valW s a).toNat)) (ctlTag (valW s d)) none) := by
  obtain ⟨-, -, hfree⟩ := recordsGood_at hrec (List.mem_singleton.mpr rfl)
  unfold formatAt shapeAt at hraw
  have hkind : ¬(((info s b).kind.isFloat = true ∧ (valW s a).toNat % 32 = 0 ∧ (valW s a).toNat < spadSize) ∧
      (fmtNext s (readShape s s.cur.1 (valW s a).toNat).1).raw = true) := by
    rintro ⟨⟨hf, -⟩, hr⟩
    exact absurd hr (Bool.eq_false_iff.mp (hraw hf))
  simp only [fillsOp, pre_usable hu, settle_quiet hq, hc, hfree, recordsOk_good hrec, destGood_iff.mp hdst, Bool.false_eq_true, and_false,
    if_false, if_neg hkind]
  rfl

section
variable {s : State} {scatter : Bool} {d a b x y z : Nat}
  (hu : usable s (ctlReads d [a, b]) [] [(d, intK), (a, intK), (b, intK)] = true) (hq : s.quiet = true)
  (hc : ctlBad (valW s d) false = false) (hrec : recordsGood s [x, y, z] = true)
  (hx : fld (valW s a) 0 32 = x) (hy : fld (valW s a) 32 32 = y) (hz : (valW s b).toNat = z)
  (hdst : destGood s x = true) (hori : ((formatAt s x).scale && (formatAt s x).orient = 1) = false)
  (hpart : scatter = true → ((formatAt s x).scale && min ((shapeAt s y).dim 0) ((shapeAt s x).dim 0) % 16 ≠ 0) = false)
  (hsrc : sourceGood s y = true) (hraw : (formatAt s y).raw = (formatAt s x).raw) (hidx : sourceGood s z = true)
  (hfmt : indexFmt (formatAt s z) = true) (hdim0 : (shapeAt s z).dim 0 = 1)
  (hdims : ∀ k ∈ [1, 2, 3], (shapeAt s z).dim k = (if scatter then shapeAt s y else shapeAt s x).dim k)
include hu hq hc hrec hx hy hz hdst hori hpart hsrc hraw hidx hfmt hdim0 hdims

theorem indexedOp_accepts : indexedOp scatter d a b s = holdLatch s (ctlReads d [a, b])
    (acceptStream s (if scatter then .scatter (shapeAt s x) (shapeAt s y) (shapeAt s z) else .gather (shapeAt s x) (shapeAt s y) (shapeAt s z))
      ([recRange x 32, recRange y 32, recRange z 32] ++ tensorRange (formatAt s y) (shapeAt s y) ++ tensorRange (formatAt s z) (shapeAt s z))
      (tensorRange (formatAt s x) (shapeAt s x)) (ctlTag (valW s d)) none) := by
  have hblock : (scatter && (formatAt s x).scale && min ((shapeAt s y).dim 0) ((shapeAt s x).dim 0) % 16 ≠ 0) = false := by
    cases scatter with
    | false => rfl
    | true => exact hpart rfl
  simp only [List.forall_mem_cons, List.not_mem_nil, false_imp_iff, implies_true, and_true] at hdims
  obtain ⟨hdim1, hdim2, hdim3⟩ := hdims
  unfold formatAt shapeAt at hori hraw hfmt hblock
  unfold shapeAt at hdim0 hdim1 hdim2 hdim3
  simp only [indexedOp, pre_usable hu, settle_quiet hq, hc, Bool.false_eq_true, if_false, hx, hy, hz, recordsOk_good hrec]
  simp only [sourceGood_iff.mp hsrc, sourceGood_iff.mp hidx, destGood_iff.mp hdst, hori, hraw, hfmt, hblock, hdim0, hdim1, hdim2, hdim3,
    decide_true, Bool.and_self, Bool.and_not_self, Bool.not_true, Bool.or_self, Bool.false_eq_true, if_false]
  rfl

end

/-! ## CHAIN (R221, R222) -/

theorem chainOp_accepts {s t : State} {d a b : Nat} {ch : Option (Nat × Nat)} {ops : List Nat} {off v : Nat}
    (hu : usable s (ctlReads d [a, b]) [] [(d, intK), (a, intK), (b, f32K)] = true) (hq : s.quiet = true)
    (hc : ctlBad (valW s d) false = false) (hoff : (valW s a).toNat = off) (hal : off % 64 = 0) (hreach : off < spadSize)
    (hbusy : recordBusy s s.cur.1 off 64 = false) (hv : memReadLE s.mem (spadAddr s.cur.1 off) 64 = v) (hbad : chainBad v = false)
    (hops : chainOps (chainWords v) = some ops) (hrec : recordsGood s (bitsAt v 0 32 :: (chainSrcs v).filterMap id) = true)
    (hdst : destGood s (bitsAt v 0 32) = true) (hraw : (formatAt s (bitsAt v 0 32)).raw = false)
    (hsrc : ∀ o ∈ (chainSrcs v).filterMap id,
      sourceGood s o = true ∧ (formatAt s o).raw = false ∧ (shapeAt s o).dims = (shapeAt s (bitsAt v 0 32)).dims)
    (hheld : chunkHeld s = false) (hch : chunkWait s = .ok (t, ch)) :
    chainOp d a b s = holdLatch s (ctlReads d [a, b]) (acceptStream t
      (.chain (shapeAt s (bitsAt v 0 32)) ((chainSrcs v).map (fun o => o.map (fun o => (readShape t s.cur.1 o).1)))
        (ops.map (BitVec.ofNat 32)) (BitVec.ofNat 32 (opBits t b)))
      (recRange off 64 :: (bitsAt v 0 32 :: (chainSrcs v).filterMap id).map (fun o => recRange o 32)
        ++ (((chainSrcs v).map (fun o => o.map (fun o => (readShape t s.cur.1 o).1))).filterMap id).flatMap (fun h => tensorRange (fmtNext t h) h))
      (tensorRange (formatAt s (bitsAt v 0 32)) (shapeAt s (bitsAt v 0 32))) (ctlTag (valW s d)) ch) := by
  unfold formatAt shapeAt at hraw hsrc
  have hgood : ((chainSrcs v).filterMap id).find? (fun o =>
      sourceBad (fmtNext s (readShape s s.cur.1 o).1) (readShape s s.cur.1 o) || (fmtNext s (readShape s s.cur.1 o).1).raw ||
        !sameDims (readShape s s.cur.1 o).1 (readShape s s.cur.1 (bitsAt v 0 32)).1) = none :=
    List.find?_eq_none.mpr fun o ho => by
      obtain ⟨hs, hr, hd⟩ := hsrc o ho
      simp [sourceGood_iff.mp hs, hr, sameDims, hd]
  simp only [chainOp, pre_usable hu, settle_quiet hq, hc, hoff, hal, Nat.not_le.mpr hreach, hbusy, hv, aligned_of_recordsGood hrec, hbad,
    recordsOk_good hrec, destGood_iff.mp hdst, hraw, hgood, hheld, hch, hops, Option.getD_some, Bool.or_self, Bool.false_eq_true, ne_eq,
    not_true, if_false]
  rfl

/-- An accepted stream command completes its instruction (R219, R220). -/
theorem run32_accepts {s : State} {i : Instr} {body : State → Eff} (hr : s.running = true) (hw : i.wf = true) (sl : BitVec 2)
    {reads : List Nat} {op : CmdOp} {rd wr : List (Nat × Nat)} {tag : Option Nat}
    (hb : body s = holdLatch s reads (acceptStream s op rd wr tag none)) (hroom : streamRoom s = true) :
    run32 i sl body s = .next (next32 s sl (streamIn s op rd wr tag)) := by
  refine run32_done hr hw sl (hb.trans ?_)
  rw [acceptStream_room hroom]
  rfl

/-- Settles O37: each stream command whose checks pass is accepted, or waits for a place. -/
theorem streamCommands : Obligations.StreamCommands := by
  refine ⟨⟨fun sl d a b s hu hq => ?_, fun sl d a b s hu hq => ?_⟩, ?_, fun sl d a b s t ch ops hu hq => ?_⟩
  · have hr := usable_running hu
    refine ⟨fun hc => run32_trapWord hr rfl sl (twoRecords_reserved hu hq hc),
      fun hc hx => run32_trap hr rfl sl (twoRecords_misaligned hu hq hc hx), ?_, ?_⟩
    · intro hc hrec hsrc hdst hraw hdims
      have hbody := cpybOp_accepts hu hq hc hrec hsrc hdst rfl hraw hdims
      refine ⟨fun hroom => run32_accepts hr rfl sl hbody hroom, fun hroom => run32_stall hr rfl sl (hbody.trans ?_)⟩
      rw [acceptStream_full hroom, holdLatch_stall]
    · intro hc hrec hsrc hraw hdst hraw' hscale hdim0 hdim1 hdim2 hdim3 hroom
      exact run32_accepts hr rfl sl (reduceOp_accepts hu hq hc hrec hsrc hdst rfl hraw hraw' hscale
        ⟨hdim0, by simp only [List.forall_mem_cons, hdim1, hdim2, hdim3, List.not_mem_nil, false_imp_iff, implies_true, and_self]⟩) hroom
  · intro cw x k hc hrec hdst hraw hroom
    exact run32_accepts (usable_running hu) rfl sl (fillsOp_accepts hu hq hc hrec hdst hraw) hroom
  · simp only [List.forall_mem_cons, List.not_mem_nil, false_imp_iff, implies_true, and_true]
    constructor
    · intro sl d a b s hu hq hc hrec hdst hori hpart hsrc hraw hidx hfmt hdim0 hdim1 hdim2 hdim3 hroom
      exact run32_accepts (usable_running hu) rfl sl (indexedOp_accepts (scatter := false) hu hq hc hrec rfl rfl rfl hdst hori hpart hsrc hraw
        hidx hfmt hdim0 (by simp only [List.forall_mem_cons, hdim1, hdim2, hdim3, List.not_mem_nil, false_imp_iff, implies_true, and_self])) hroom
    · intro sl d a b s hu hq hc hrec hdst hori hpart hsrc hraw hidx hfmt hdim0 hdim1 hdim2 hdim3 hroom
      exact run32_accepts (usable_running hu) rfl sl (indexedOp_accepts (scatter := true) hu hq hc hrec rfl rfl rfl hdst hori (fun _ => hpart trivial) hsrc hraw
        hidx hfmt hdim0 (by simp only [List.forall_mem_cons, hdim1, hdim2, hdim3, List.not_mem_nil, false_imp_iff, implies_true, and_self])) hroom
  · intro n cw off v dst srcs offs hc hal hreach hbusy hbad hops hrec hdst hraw hsrc hheld hch hroom
    refine run32_done (usable_running hu) rfl sl
      ((chainOp_accepts hu hq hc rfl hal hreach hbusy rfl hbad hops hrec hdst hraw hsrc hheld hch).trans ?_)
    rw [acceptStream_room hroom]
    rfl

end Sys2Proof.Machine
end


section
/-! SUPPORT. Format registers and the engine queues at issue (R93, R183, R184, R226 to R235). -/

namespace Sys2Proof.Machine

/-- An integer result put into a name in the state after an effect. -/
theorem run32_putIn {s t : State} {i : Instr} {body : State → Eff} (hr : s.running = true) (hw : i.wf = true) (sl : BitVec 2) {d l : Nat} {x : Int}
    (hb : body s = putI t d l x) :
    run32 i sl body s = .next (if fitsIn t d x then next32 s sl (intOut t d l x) else trap32 s .width (widthVal x d)) := by
  cases h : fitsIn t d x with
  | true => exact run32_done hr hw sl (hb.trans (putI_fits h l))
  | false => exact run32_trap hr hw sl (hb.trans (putI_trap h l))

/-! ## SETF (R226) -/

section
variable {s : State} {a bank : Nat} (hu : usable s [a] [] [(a, intK)] = true) (hq : s.quiet = true)
include hu hq

theorem setfOp_malformed (hf : fmtGood true (valW s a).toNat = false) : setfOp a bank s = .trapWord .illegal := by
  simp only [setfOp, pre_usable hu, settle_quiet hq, hf, if_true]
  rfl

theorem setfOp_accepts (hf : fmtGood true (valW s a).toNat = true) (hroom : boardCount s s.cur.1 < 32) : setfOp a bank s =
    .done ((addCmd s (newCmd s (.setf bank (valW s a)) [] [(0x20000 * bank, 0x20000 * bank + 0x20000)] none)).modMyCore
      (fun c => { c with bfmtNext := wideSet c.bfmtNext (64 * bank) 64 (valW s a).toNat })) := by
  simp only [setfOp, pre_usable hu, settle_quiet hq, hf, Bool.true_eq_false, if_false, if_neg (Nat.not_le.mpr hroom), holdLatch_done]

end

/-! ## PUSH (R183, R228) -/

/-- The 64 bytes of the four rows. -/
def pushed (s : State) (row : Nat) : BitVec 512 :=
  BitVec.ofNat 512 (leValue ((rowFlits s s.cur.1 s.cur.2 row 4).flatMap (fun f => leBytes 16 f.toNat)))

/-- PUSH behind its checks: the release, then an offer to the queue. -/
def pushOffer (d q : Nat) (cmd : BitVec 512) (t : State) (n : Nat) : Eff :=
  match putILate t d (if queueFull t n t.me.img q then 1 else 0) with
  | .done _ =>
    if queueFull t n t.me.img q then putILate t d 1
    else if q = 0 && boardWaits t (copyCmd t cmd) then .stall t
    else external t [17, q, cmd.toNat] (always (fun u => acceptPush u q cmd)) (fun u _ => putILate u d 0)
  | e => e

section
variable {s : State} {d q b row : Nat} (hu : usable s [] [d] [(d, intK), (b, anyK)] = true) (hq : s.quiet = true) (hb : b ≠ 63)
  (hrow : startsRow s s.cur.1 s.cur.2 b = some row) (hfit : row + 4 ≤ 32)
  (hrows : ∀ i, i < 4 → rowAbsent s s.cur.1 s.cur.2 (row + i) = false ∧ rowPoisoned s s.cur.1 s.cur.2 .priv (row + i) = false)
  (hsetf : q = 1 → setfWaits s s.cur.1 s.cur.2 = false) (hputs : putsHeld s s.cur.1 s.cur.2 (queueScope q) = false)
include hu hq hb hrow hfit hrows hsetf hputs

theorem pushOp_offers : pushOp d q b s =
    holdLatch s [] (pushOffer d q (pushed s row) (release s s.cur.1 (queueScope q)) s.cur.1) := by
  have hsetf' : (decide (q = 1) && setfWaits s s.cur.1 s.cur.2) = false := by
    by_cases h : q = 1
    · rw [hsetf h, Bool.and_false]
    · rw [decide_eq_false h, Bool.false_and]
  simp only [pushOp, pre_usable hu, if_neg hb, hrow, if_neg (Nat.not_lt.mpr hfit), settle_quiet hq, rowsReady_eq hrows, hsetf', hputs,
    Bool.or_self, Bool.false_eq_true, if_false]
  rfl

end

section
variable {t : State} {d q n : Nat} {cmd : BitVec 512}

theorem pushOffer_full (h : queueFull t n t.me.img q = true) : pushOffer d q cmd t n = putILate t d 1 := by
  unfold pushOffer
  rw [h, if_pos rfl]
  cases hfit : fitsIn t d 1 with
  | true => simp only [putILate_fits hfit, if_true]
  | false => simp only [putILate_trap hfit]

theorem pushOffer_accepts (h : queueFull t n t.me.img q = false) (hfit : fitsIn t d 0 = true)
    (hboard : q = 0 → boardWaits t (copyCmd t cmd) = false) (hs : t.single = true) :
    pushOffer d q cmd t n = putILate (acceptPush t q cmd) d 0 := by
  have hboard' : (decide (q = 0) && boardWaits t (copyCmd t cmd)) = false := by
    by_cases hq : q = 0
    · rw [hboard hq, Bool.and_false]
    · rw [decide_eq_false hq, Bool.false_and]
  unfold pushOffer
  simp only [h, Bool.false_eq_true, if_false, putILate_fits hfit, hboard']
  exact external_ok hs rfl

end

/-! ## XFORM (R235) -/

theorem xformOp_misaligned {s : State} {d a op : Nat} (hu : usable s [a] [d] [(d, intK), (a, intK)] = true) (hq : s.quiet = true)
    (hal : (valW s a).toNat % 64 ≠ 0) : xformOp d a op s = .trap .misalign (BitVec.ofNat 64 (valW s a).toNat) := by
  simp only [xformOp, pre_usable hu, settle_quiet hq, hal, ne_eq, not_false_eq_true, if_true, holdLatch_trap]

/-- XFORM behind its checks: an offer to the queue after the release. -/
def xformOffer (d op va : Nat) (bar : Word) (u : State) (n : Nat) : Eff :=
  match putI u d 1 (if queueFull u n u.me.img 3 then 1 else 0) with
  | .done _ =>
    if queueFull u n u.me.img 3 then putI u d 1 1
    else if boardWaits u (xformCmd u op va bar).1 then .stall u
    else external u [16, op, va] (always (fun t => acceptXform t op va bar)) (fun t _ => putI t d 1 0)
  | e => e

/-- The barrier object that XFORM names: the first extension register. -/
def xformBarrier (s : State) : Word := BitVec.ofNat 64 (wideGet s.me.ox 0 64)

theorem xformOp_offers {s t : State} {d a op pa : Nat} (hu : usable s [a] [d] [(d, intK), (a, intK)] = true) (hq : s.quiet = true)
    (hal : (valW s a).toNat % 64 = 0) (hbar : (xformBarrier s).toNat % 32 = 0) (hwalk : walkHeld s s.cur.1 (xformBarrier s).toNat = false)
    (hpa : objectPa s s.cur.1 s.cur.2 .load (xformBarrier s) = .ok (t, pa)) (hputs : putsHeld t s.cur.1 s.cur.2 3 = false) :
    xformOp d a op s = holdLatch s [a] (xformOffer d op (valW s a).toNat (xformBarrier s) (release t s.cur.1 3) s.cur.1) := by
  unfold xformBarrier at hbar hwalk hpa
  simp only [xformOp, pre_usable hu, settle_quiet hq, hal, hbar, hwalk, hpa, hputs, ne_eq, not_true, if_false, Bool.false_eq_true]
  rfl

section
variable {u : State} {d op va n : Nat} {bar : Word}

theorem xformOffer_full (h : queueFull u n u.me.img 3 = true) : xformOffer d op va bar u n = putI u d 1 1 := by
  unfold xformOffer
  rw [h, if_pos rfl]
  cases hfit : fitsIn u d 1 with
  | true => simp only [putI_fits hfit, if_true]
  | false => simp only [putI_trap hfit]

theorem xformOffer_accepts (h : queueFull u n u.me.img 3 = false) (hfit : fitsIn u d 0 = true)
    (hboard : boardWaits u (xformCmd u op va bar).1 = false) (hs : u.single = true) :
    xformOffer d op va bar u n = putI (acceptXform u op va bar) d 1 0 := by
  unfold xformOffer
  simp only [h, Bool.false_eq_true, if_false, putI_fits hfit, hboard]
  exact external_ok hs rfl

end

theorem holdLatch_putI (s t : State) (r : List Nat) (d l : Nat) (x : Int) : holdLatch s r (putI t d l x) = putI t d l x := by
  cases h : fitsIn t d x with
  | true => rw [putI_fits h, holdLatch_done]
  | false => rw [putI_trap h, holdLatch_trap]

/-- Settles O38: the formats by SETF's checks, and each queue by what it answers to an offer. -/
theorem formatsAndEngineQueues : Obligations.FormatsAndEngineQueues := by
  refine ⟨⟨fun sl a b s hb hu hq => ?_, fun sl d b s hb hu => ?_, fun sl a s hu => ?_⟩,
    fun sl d q b s row hqueue hu hq hb hrow hfit hrows hsetf hputs => ⟨fun hfull => ?_, fun hfull hfits hboard hs => ?_⟩,
    fun sl d a b s t pa hb hu hq => ⟨fun hal => ?_, fun hal hbar hwalk hpa hputs => ⟨fun hfull => ?_, fun hfull hfits hboard hs => ?_⟩⟩,
    fun sl d q s hq hu => ?_⟩
  · have hw : (Instr.setf sl a b).wf = true := decide_eq_true hb
    exact ⟨fun hf => run32_trapWord (usable_running hu) hw sl (setfOp_malformed hu hq hf),
      fun hf hroom => run32_done (usable_running hu) hw sl (setfOp_accepts hu hq hf hroom)⟩
  · exact run32_putI (usable_running hu) (show (Instr.getf sl d b).wf = true from decide_eq_true hb) sl (pre_usable hu _)
  · refine run32_done (usable_running hu) rfl sl ((pre_usable hu _).trans ?_)
    rw [seedOf_eq]
  · refine run32_late (usable_running hu) (show (Instr.push sl d q b).wf = true from decide_eq_true hqueue) sl
      ((pushOp_offers hu hq hb hrow hfit hrows hsetf hputs).trans ?_)
    rw [pushOffer_full hfull, holdLatch_putILate]
  · refine run32_late (usable_running hu) (show (Instr.push sl d q b).wf = true from decide_eq_true hqueue) sl
      ((pushOp_offers hu hq hb hrow hfit hrows hsetf hputs).trans ?_)
    exact (congrArg (holdLatch s []) (pushOffer_accepts hfull hfits hboard hs)).trans (holdLatch_putILate ..)
  · exact run32_trap (usable_running hu) (show (Instr.xform sl d a b).wf = true from decide_eq_true hb) sl (xformOp_misaligned hu hq hal)
  · refine run32_putIn (usable_running hu) (show (Instr.xform sl d a b).wf = true from decide_eq_true hb) sl
      ((xformOp_offers hu hq hal hbar hwalk hpa hputs).trans ?_)
    rw [xformOffer_full hfull, holdLatch_putI]
  · refine run32_putIn (usable_running hu) (show (Instr.xform sl d a b).wf = true from decide_eq_true hb) sl
      ((xformOp_offers hu hq hal hbar hwalk hpa hputs).trans ?_)
    exact (congrArg (holdLatch s [a.toNat]) (xformOffer_accepts hfull hfits hboard hs)).trans (holdLatch_putI ..)
  · exact run32_putI (usable_running hu) (show (Instr.qstat sl d q).wf = true from decide_eq_true hq) sl (pre_usable hu _)

end Sys2Proof.Machine
end


section
/-! SUPPORT. The licence of a pair (R245, R246). -/

namespace Sys2Proof.Machine

/-- The request of a slot, with the estate place that a grant will need. -/
def licRequested (s : State) (p : Nat) (r : LicReq) : State :=
  if r.img = 0 then licEnter s p r else (licEnter s p r).modThread r.img (fun t => { t with reserved := t.reserved + 1 })

section
variable {s : State} {d : Nat} (hu : usable s [] [d] [(d, intK)] = true) (hq : s.quiet = true)

theorem putFirst_fits {x : Int} {effect : State → State} (h : fitsIn s d x = true) (h' : fitsIn (effect s) d x = true) :
    putFirst s d x effect = .done (intOut (effect s) d 1 x) := by
  simp only [putFirst, putI_fits h, putI_fits h']

theorem putThen_fits {x : Int} {effect : State → State} (h : fitsIn s d x = true) (h' : fitsIn (effect s) d x = true) :
    putThen s d x effect = .done (lateOut (effect s) d x) := by
  simp only [putThen, putILate_fits h, putILate_fits h']

theorem putThen_trap {x : Int} {effect : State → State} (h : fitsIn s d x = false) : putThen s d x effect = .trap .width (widthVal x d) := by
  simp only [putThen, putILate_trap h]

include hu hq

/-! ## For the holder -/

section
variable (hold : holdsLic s (pairOf s.cur.1) (slotReq s s.cur.1 s.cur.2) = true)
include hold

theorem licqOp_holder : licqOp d s = putI s d 1 2 := by
  simp only [licqOp, pre_usable hu, settle_quiet hq, hold, if_true, holdLatch_putI]

theorem licwOp_holder : licwOp d s = putILate s d (if s.me.wait = .licw then 1 else 2) := by
  simp only [licwOp, pre_usable hu, settle_quiet hq, hold, if_true, holdLatch_putILate]

theorem licrOp_holder (h : fitsIn s d 0 = true)
    (h' : fitsIn (licGiveUp s (pairOf s.cur.1) (slotReq s s.cur.1 s.cur.2)) d 0 = true) :
    licrOp d s = .done (intOut (licGiveUp s (pairOf s.cur.1) (slotReq s s.cur.1 s.cur.2)) d 1 0) := by
  simp only [licrOp, pre_usable hu, settle_quiet hq, hold, if_true]
  rw [putFirst_fits (effect := fun s' => licGiveUp s' (pairOf s.cur.1) (slotReq s s.cur.1 s.cur.2)) h h', holdLatch_done]

end

/-! ## For another slot -/

section
variable (hold : holdsLic s (pairOf s.cur.1) (slotReq s s.cur.1 s.cur.2) = false)
include hold

theorem licqOp_full (hf : licFull s = true) : licqOp d s = .trap .protect (BitVec.ofNat 64 (pairOf s.cur.1)) := by
  simp only [licqOp, pre_usable hu, settle_quiet hq, hold, hf, Bool.false_eq_true, if_false, if_true, holdLatch_trap]

theorem licqOp_grants (hf : licFull s = false) (hfree : (s.pair (pairOf s.cur.1)).lic = .free) (h : fitsIn s d 1 = true)
    (h' : fitsIn (licGrant s (pairOf s.cur.1) (slotReq s s.cur.1 s.cur.2)) d 1 = true) :
    licqOp d s = .done (intOut (licGrant s (pairOf s.cur.1) (slotReq s s.cur.1 s.cur.2)) d 1 1) := by
  simp only [licqOp, pre_usable hu, settle_quiet hq, hold, hf, hfree, Bool.false_eq_true, if_false, if_true]
  rw [putFirst_fits (effect := fun s' => licGrant s' (pairOf s.cur.1) (slotReq s s.cur.1 s.cur.2)) h h', holdLatch_done]

theorem licqOp_taken (hf : licFull s = false) (hfree : (s.pair (pairOf s.cur.1)).lic ≠ .free) : licqOp d s = putI s d 1 0 := by
  simp only [licqOp, pre_usable hu, settle_quiet hq, hold, hf, hfree, Bool.false_eq_true, if_false, holdLatch_putI]

section
variable (hwait : waitsLic s (pairOf s.cur.1) (slotReq s s.cur.1 s.cur.2) = true)
include hwait

theorem licwOp_waiter : licwOp d s = .block (latchOn s s []) .licw (BitVec.ofNat 64 (pairOf s.cur.1)) := by
  simp only [licwOp, pre_usable hu, settle_quiet hq, hold, hwait, Bool.false_eq_true, if_false, if_true, holdLatch_block]

theorem licrOp_waiter (h : fitsIn s d 1 = true)
    (h' : fitsIn (licForget s (pairOf s.cur.1) (slotReq s s.cur.1 s.cur.2)) d 1 = true) :
    licrOp d s = .done (intOut (licForget s (pairOf s.cur.1) (slotReq s s.cur.1 s.cur.2)) d 1 1) := by
  simp only [licrOp, pre_usable hu, settle_quiet hq, hold, hwait, Bool.false_eq_true, if_false, if_true]
  rw [putFirst_fits (effect := fun s' => licForget s' (pairOf s.cur.1) (slotReq s s.cur.1 s.cur.2)) h h', holdLatch_done]

end

variable (hwait : waitsLic s (pairOf s.cur.1) (slotReq s s.cur.1 s.cur.2) = false)
include hwait

theorem licrOp_none : licrOp d s = putI s d 1 2 := by
  simp only [licrOp, pre_usable hu, settle_quiet hq, hold, hwait, Bool.false_eq_true, if_false, holdLatch_putI]

variable (hf : licFull s = false)
include hf

theorem licwOp_grants (hfree : (s.pair (pairOf s.cur.1)).lic = .free) (h : fitsIn s d 1 = true)
    (h' : fitsIn (licGrant s (pairOf s.cur.1) (slotReq s s.cur.1 s.cur.2)) d 1 = true) :
    licwOp d s = .done (lateOut (licGrant s (pairOf s.cur.1) (slotReq s s.cur.1 s.cur.2)) d 1) := by
  simp only [licwOp, pre_usable hu, settle_quiet hq, hold, hwait, hf, hfree, Bool.false_eq_true, if_false, if_true]
  rw [putThen_fits (effect := fun s' => licGrant s' (pairOf s.cur.1) (slotReq s s.cur.1 s.cur.2)) h h', holdLatch_done]

theorem licwOp_width (h : fitsIn s d 1 = false) : licwOp d s = .trap .width (widthVal 1 d) := by
  simp only [licwOp, pre_usable hu, settle_quiet hq, hold, hwait, hf, Bool.false_eq_true, if_false]
  by_cases hfree : (s.pair (pairOf s.cur.1)).lic = .free
  · rw [if_pos hfree, putThen_trap h, holdLatch_trap]
  · rw [if_neg hfree, putILate_trap h, holdLatch_trap]

theorem licwOp_queues (hfree : (s.pair (pairOf s.cur.1)).lic ≠ .free) (h : fitsIn s d 1 = true) :
    licwOp d s = .block (latchOn s (licRequested s (pairOf s.cur.1) (slotReq s s.cur.1 s.cur.2)) []) .licw
      (BitVec.ofNat 64 (pairOf s.cur.1)) := by
  simp only [licwOp, pre_usable hu, settle_quiet hq, hold, hwait, hf, hfree, Bool.false_eq_true, if_false, putILate_fits h, holdLatch_block]
  rfl

end

end

/-- Settles O39: each licence instruction by the state of the licence and of the thread. -/
theorem licenceInstructions : Obligations.LicenceInstructions := by
  intro sl d s hu hq p r reserved
  have hr := usable_running hu
  refine ⟨run32_putI hr rfl sl (pre_usable hu _),
    fun hold => ⟨run32_putI hr rfl sl (licqOp_holder hu hq hold), fun hw => ?_, fun hw => ?_, fun h h' => ?_⟩,
    fun hold hf => run32_trap hr rfl sl (licqOp_full hu hq hold hf),
    fun hold hf hfree h h' => run32_done hr rfl sl (licqOp_grants hu hq hold hf hfree h h'),
    fun hold hf hfree => run32_putI hr rfl sl (licqOp_taken hu hq hold hf hfree),
    fun hold hwait => ⟨run32_block hr rfl sl (licwOp_waiter hu hq hold hwait),
      fun h h' => run32_done hr rfl sl (licrOp_waiter hu hq hold hwait h h')⟩,
    fun hold hwait hf hfree h h' => run32_done hr rfl sl (licwOp_grants hu hq hold hwait hf hfree h h'),
    fun hold hwait hf h => run32_trap hr rfl sl (licwOp_width hu hq hold hwait hf h),
    fun hold hwait hf hfree h => run32_block hr rfl sl (licwOp_queues hu hq hold hwait hf hfree h),
    fun hold hwait => run32_putI hr rfl sl (licrOp_none hu hq hold hwait)⟩
  · have hbody := licwOp_holder hu hq hold
    rw [if_neg hw] at hbody
    exact run32_late hr rfl sl hbody
  · have hbody := licwOp_holder hu hq hold
    rw [if_pos hw] at hbody
    exact run32_late hr rfl sl hbody
  · exact run32_done hr rfl sl (licrOp_holder hu hq hold h h')

end Sys2Proof.Machine
end


section
/-! SUPPORT. Matrix commands at issue (R239 to R257). -/

namespace Sys2Proof.Machine

theorem firstOf_none {α : Type} {f : α → Check} {l : List α} (h : firstOf f l = none) {x : α} (hx : x ∈ l) : f x = none := by
  induction l with
  | nil => cases hx
  | cons y r ih =>
    rw [firstOf] at h
    cases hy : f y with
    | some e =>
      rw [hy] at h
      cases h
    | none =>
      rw [hy] at h
      rcases List.mem_cons.mp hx with rfl | hr
      · exact hy
      · exact ih h hr

/-- A name whose kind a usable instruction checks has that kind. -/
theorem kind_of_usable {s : State} {r w : List Nat} {kinds : List KindReq} (hu : usable s r w kinds = true) {n : Nat} {k : Info → Bool}
    (hk : (n, k) ∈ kinds) : k (info s n) = true := by
  simp only [usable, Bool.and_eq_true, Option.isNone_iff_eq_none] at hu
  obtain ⟨⟨⟨-, hkinds⟩, -⟩, -⟩ := hu
  have hname := firstOf_none hkinds hk
  unfold kindName at hname
  unfold info
  cases hi : infoOf s s.cur.1 s.cur.2 n with
  | none => simp only [hi, reduceCtorEq] at hname
  | some i =>
    simp only [hi, ite_eq_left_iff, reduceCtorEq, imp_false, not_not] at hname
    exact hname

/-! ## Acceptance (R219, R242) -/

theorem acceptMatrix_room {s : State} {c : Cmd} {after : State → State} (h : matrixRoom s = true) :
    acceptMatrix s c after = .done (after (addCmd s c)) := by
  simp only [matrixRoom, Bool.and_eq_true, decide_eq_true_eq] at h
  simp only [acceptMatrix, Nat.not_le.mpr h.1, Nat.not_le.mpr h.2, and_false, or_self, if_false]

/-- A command without ranges needs no place in the scoreboard. -/
theorem acceptMatrix_queue {s : State} {c : Cmd} {after : State → State} (h : matrixCount s s.cur.1 < 8) (hr : c.rd = []) (hw : c.wr = []) :
    acceptMatrix s c after = .done (after (addCmd s c)) := by
  simp only [acceptMatrix, Nat.not_le.mpr h, hr, hw, ne_eq, not_true, false_and, or_self, if_false]

/-! ## MMA and MMAD (R249) -/

section
variable {s : State} {minus : Bool} {d a b : Nat} (hu : usable s [d, a, b] [] [(d, intK), (a, intK), (b, intK)] = true) (hq : s.quiet = true)
  (hc : cwBad (valW s d) = false) (hb : (valW s d).getLsbD 19 = false)
include hu hq hc hb

section
variable (hold : holdsLic s (pairOf s.cur.1) (slotReq s s.cur.1 s.cur.2) = false)
include hold

theorem mmaOp_unlicensed (howed : fld s.me.licst 2 1 = 0) : mmaOp minus d a b s = .trapWord .licence := by
  simp only [mmaOp, pre_usable hu, settle_quiet hq, hc, cwBar, hb, hold, howed, Bool.or_self, Bool.not_false, Bool.false_eq_true, if_false,
    if_true, Nat.zero_ne_one]
  rfl

theorem mmaOp_owed (howed : fld s.me.licst 2 1 = 1) :
    mmaOp minus d a b s = .block (latchOn s s [d, a, b]) .licw (BitVec.ofNat 64 (pairOf s.cur.1)) := by
  simp only [mmaOp, pre_usable hu, settle_quiet hq, hc, cwBar, hb, hold, howed, Bool.or_self, Bool.not_false, Bool.false_eq_true, if_false,
    if_true, holdLatch_block]

end

variable (hold : holdsLic s (pairOf s.cur.1) (slotReq s s.cur.1 s.cur.2) = true)
include hold

theorem mmaOp_badA (hbad : opBad s s.cur.1 (valW s a).toNat (16 * (fld (valW s d) 4 8 + 1)) = true) :
    mmaOp minus d a b s = .trap .protect (valW s a) := by
  simp only [mmaOp, pre_usable hu, settle_quiet hq, hc, cwBar, hb, hold, hbad, Bool.or_self, Bool.not_true, Bool.false_eq_true, if_false,
    if_true, holdLatch_trap]

variable (hgood : opBad s s.cur.1 (valW s a).toNat (16 * (fld (valW s d) 4 8 + 1)) = false)
include hgood

theorem mmaOp_badB (hbad : opBad s s.cur.1 (valW s b).toNat (16 * (fld (valW s d) 4 8 + 1)) = true) :
    mmaOp minus d a b s = .trap .protect (valW s b) := by
  simp only [mmaOp, pre_usable hu, settle_quiet hq, hc, cwBar, hb, hold, hgood, hbad, Bool.or_self, Bool.not_true, Bool.false_eq_true,
    if_false, if_true, holdLatch_trap]

theorem mmaOp_accepts {t : State} {ch : Option (Nat × Nat)}
    (hgood' : opBad s s.cur.1 (valW s b).toNat (16 * (fld (valW s d) 4 8 + 1)) = false) (hheld : chunkHeld s = false)
    (hch : chunkWait s = .ok (t, ch)) (hroom : matrixRoom t = true) :
    mmaOp minus d a b s = .done (noteSeq (valW s d) ((addCmd t
      { newCmd t (.mma minus (cwTile (valW s d)) (fld (valW s d) 2 1 = 1) (fld (valW s d) 4 8) (valW t a) (valW t b))
          (opRange t s.cur.1 (valW s a).toNat (16 * (fld (valW s d) 4 8 + 1)) ++
            opRange t s.cur.1 (valW s b).toNat (16 * (fld (valW s d) 4 8 + 1))) [] (cwTag (valW s d)) with chunk := ch }).modPair
        (pairOf s.cur.1) (fun x => { x with termN := x.termN + 1 }))) := by
  simp only [mmaOp, pre_usable hu, settle_quiet hq, hc, cwBar, hb, hold, hgood, hgood', hheld, hch, Bool.or_self, Bool.not_true,
    Bool.false_eq_true, if_false]
  rw [acceptMatrix_room hroom, holdLatch_done]

end

/-! ## TOPK (R250) -/

theorem topkOp_accepts {s : State} {d a b x y k : Nat} (hu : usable s [d, a, b] [] [(d, intK), (a, intK), (b, intK)] = true)
    (hq : s.quiet = true) (hc : cwBad (valW s d) = false) (hb : (valW s d).getLsbD 19 = false) (hacc : fld (valW s d) 2 1 = 0)
    (hres : fld (valW s d) 8 4 = 0) (hx : (valW s a).toNat = x) (hy : (valW s b).toNat = y) (hk : fld (valW s d) 4 4 + 1 = k)
    (hrec : recordsGood s [x, y] = true) (hxf : (formatAt s x).code = 12) (hxd : destGood s x = true)
    (hxk : (shapeAt s x).dims = [k, 64, 1, 1]) (hyf : (formatAt s y).code = 11) (hyd : destGood s y = true)
    (hyk : (shapeAt s y).dims = [k, 64, 1, 1]) (hroom : matrixRoom s = true) :
    topkOp d a b s = .done (noteSeq (valW s d) (addCmd s (newCmd s (.topk (cwTile (valW s d)) k (shapeAt s x) (shapeAt s y))
      [recRange x 32, recRange y 32] (tensorRange (formatAt s x) (shapeAt s x) ++ tensorRange (formatAt s y) (shapeAt s y))
      (cwTag (valW s d))))) := by
  unfold formatAt shapeAt at hxf hyf
  unfold shapeAt at hxk hyk
  simp only [topkOp, pre_usable hu, settle_quiet hq, hc, cwBar, hb, hacc, hres, hx, hy, hk, recordsOk_good hrec, hxf, hyf,
    destGood_iff.mp hxd, destGood_iff.mp hyd, dimsAre, hxk, hyk, ne_eq, not_true, decide_false, decide_true, Bool.not_true, Bool.or_self,
    Bool.false_eq_true, or_self, if_false]
  rw [acceptMatrix_room hroom, holdLatch_done]
  rfl

/-! ## DRN and DRN2 (R252, R253) -/

/-- The records of a drain: one, or two. -/
def drainOffs (s : State) (two : Bool) (a : Nat) : List Nat :=
  if two then [fld (valW s a) 0 32, fld (valW s a) 32 32] else [fld (valW s a) 0 32]

/-- The command of a drain as it is issued. -/
def drainCmd (s : State) (two : Bool) (d a : Nat) : Cmd :=
  newCmd s (.drain (cwTile (valW s d)) ((drainOffs s two a).map (shapeAt s))) ((drainOffs s two a).map (fun o => recRange o 32))
    ((drainOffs s two a).flatMap (fun o => tensorRange (formatAt s o) (shapeAt s o))) (cwTag (valW s d))

/-- Every record of a drain passes the checks of R252, and of DRN2 the first has ORIENT 0 and the second ORIENT 1 (R253). -/
def drainGood (s : State) (two : Bool) (a : Nat) : Prop :=
  (∀ o ∈ drainOffs s two a, destGood s o = true ∧ (formatAt s o).raw = false ∧ (shapeAt s o).dims = [64, 64, 1, 1]) ∧
  (two = true → (formatAt s (fld (valW s a) 0 32)).orient = 0 ∧ (formatAt s (fld (valW s a) 32 32)).orient = 1)

/-- What DRN asks of a record at place `p.2` of its records. -/
def drainBad (s : State) (two : Bool) (p : Nat × Nat) : Bool :=
  destBad (formatAt s p.1) (readShape s s.cur.1 p.1) || (formatAt s p.1).raw || !dimsAre (shapeAt s p.1) 64 64 ||
    (two && (formatAt s p.1).orient ≠ p.2)

theorem drainBad_false {s : State} {two : Bool} {p : Nat × Nat} (hd : destGood s p.1 = true) (hr : (formatAt s p.1).raw = false)
    (hs : (shapeAt s p.1).dims = [64, 64, 1, 1]) (ho : two = true → (formatAt s p.1).orient = p.2) : drainBad s two p = false := by
  have horient : (two && decide ((formatAt s p.1).orient ≠ p.2)) = false := by
    cases two with
    | false => rfl
    | true => simp [ho rfl]
  have hdest : destBad (formatAt s p.1) (readShape s s.cur.1 p.1) = false := destGood_iff.mp hd
  rw [drainBad, hdest, hr, dimsAre, hs, horient]
  rfl

theorem drainGood_find {s : State} {two : Bool} {a : Nat} (h : drainGood s two a) :
    ((drainOffs s two a).zip [0, 1]).find? (drainBad s two) = none := by
  obtain ⟨hall, horient⟩ := h
  rw [List.find?_eq_none]
  intro p hp
  rw [Bool.not_eq_true]
  obtain ⟨hd, hr, hs⟩ := hall p.1 (List.of_mem_zip hp).1
  refine drainBad_false hd hr hs fun htwo => ?_
  subst htwo
  obtain ⟨hx, hy⟩ := horient rfl
  simp only [drainOffs, if_true, List.zip_cons_cons, List.zip_nil_right, List.mem_cons, List.not_mem_nil, or_false] at hp
  rcases hp with rfl | rfl
  · exact hx
  · exact hy

theorem acceptDrain_room {s : State} {c : Cmd} {object cw : Word} (h : matrixRoom s = true) : acceptDrain s c object cw =
    if c.barPa.isNone then .done (noteSeq cw (stepSeed (addCmd s c)))
    else .done (noteSeq cw (stepSeed (estateAuto (addCmd s { c with est := if c.img = 0 then none else some (s.thread c.img).estSeq })
      c.img object 6))) := by
  simp only [matrixRoom, Bool.and_eq_true, decide_eq_true_eq] at h
  simp only [acceptDrain, Nat.not_le.mpr h.1, Nat.not_le.mpr h.2, or_self, if_false]

/-- A drain whose records are read: a bad one traps, else `last` accepts the command, with the object that its ENGINE entry names. -/
def drainChecked (s : State) (two : Bool) (d a : Nat) (last : Cmd → Word → Eff) : Eff :=
  match ((drainOffs s two a).zip [0, 1]).find? (drainBad s two) with
  | some p => .trap .protect (BitVec.ofNat 64 p.1)
  | none => last (drainCmd s two d a) (firstByte s.cur.1 (formatAt s (fld (valW s a) 0 32)) (shapeAt s (fld (valW s a) 0 32)))

theorem drainChecked_good {s : State} {two : Bool} {d a : Nat} (h : drainGood s two a) (last : Cmd → Word → Eff) : drainChecked s two d a last =
    last (drainCmd s two d a) (firstByte s.cur.1 (formatAt s (fld (valW s a) 0 32)) (shapeAt s (fld (valW s a) 0 32))) := by
  simp only [drainChecked, drainGood_find h]

section
variable {s : State} {two : Bool} {d a : Nat} (hq : s.quiet = true) (hc : cwBad (valW s d) = false) (hacc : fld (valW s d) 2 1 = 0)
  (hres : fld (valW s d) 4 8 = 0)
include hq hc hacc hres

/-- A drain without a barrier object. -/
theorem drainOp_checks (hu : usable s [d, a] [] [(d, intK), (a, intK)] = true) (hb : (valW s d).getLsbD 19 = false)
    (hrec : recordsGood s (drainOffs s two a) = true) :
    drainOp two d a 0 s = holdLatch s [d, a] (drainChecked s two d a (fun c object => acceptDrain s c object (valW s d))) := by
  have haligned := aligned_of_recordsGood hrec
  have hok := recordsOk_good hrec
  have hchecks := pre_usable hu
  unfold drainOffs at haligned hok
  simp only [drainOp, cwBar, hb, Bool.and_false, Bool.false_eq_true, if_false, ne_eq, not_true, decide_false, Bool.or_self,
    List.append_nil, hchecks, settle_quiet hq, hc, hacc, hres, Bool.not_false, haligned, Bool.false_and, hok]
  cases two with
  | false => rfl
  | true => rfl

variable {b : Nat} (hu : usable s [d, a, b] [] [(d, intK), (a, intK), (b, intK)] = true) (hb : (valW s d).getLsbD 19 = true)
include hu hb

theorem drainOp_misaligned (hoffs : (drainOffs s two a).any (fun o => o % 32 ≠ 0) = false) (hbar : (valW s b).toNat % 32 ≠ 0) :
    drainOp two d a b s = .trap .misalign (valW s b) := by
  have hk : intK (info s d) = true := kind_of_usable hu (List.mem_cons_self ..)
  have haligned : (drainOffs s two a).find? (fun o => o % 32 ≠ 0) = none := List.find?_eq_none.mpr (List.any_eq_false.mp hoffs)
  have hchecks := pre_usable hu
  unfold drainOffs at haligned
  simp only [drainOp, cwBar, hb, hk, Bool.and_self, if_true, Bool.true_or, List.cons_append, List.nil_append, hchecks, settle_quiet hq, hc,
    hacc, hres, ne_eq, not_true, decide_false, Bool.or_self, Bool.not_true, Bool.false_and, Bool.false_eq_true, if_false, haligned,
    hbar, not_false_eq_true, decide_true, holdLatch_trap]

/-- A drain with a barrier object. -/
theorem drainOp_checksBarrier (hbar : (valW s b).toNat % 32 = 0) (hrec : recordsGood s (drainOffs s two a) = true) :
    drainOp two d a b s = holdLatch s [d, a, b] (drainChecked s two d a (fun c object =>
      if licFull s then .trap .protect object
      else if walkHeld s s.cur.1 (valW s b).toNat then .stall s
      else match objectPa s s.cur.1 s.cur.2 .store (valW s b) with
        | .error (c, v) => .trap c v
        | .ok (t, pa) => acceptDrain t { c with barrier := some (valW s b), barPa := some pa } object (valW s d))) := by
  have hk : intK (info s d) = true := kind_of_usable hu (List.mem_cons_self ..)
  have haligned := aligned_of_recordsGood hrec
  have hok := recordsOk_good hrec
  have hchecks := pre_usable hu
  unfold drainOffs at haligned hok
  simp only [drainOp, cwBar, hb, hk, Bool.and_self, if_true, Bool.true_or, List.cons_append, List.nil_append, hchecks, settle_quiet hq, hc,
    hacc, hres, ne_eq, not_true, decide_false, Bool.or_self, Bool.not_true, Bool.false_and, Bool.false_eq_true, if_false, haligned,
    hbar, Bool.and_false, hok]
  cases two with
  | false => rfl
  | true => rfl

end

section
variable {s : State} {two : Bool} {d a : Nat} (hq : s.quiet = true) (hc : cwBad (valW s d) = false) (hacc : fld (valW s d) 2 1 = 0)
  (hres : fld (valW s d) 4 8 = 0) (hrec : recordsGood s (drainOffs s two a) = true) (hgood : drainGood s two a)
include hq hc hacc hres hrec hgood

theorem drainOp_accepts (hu : usable s [d, a] [] [(d, intK), (a, intK)] = true) (hb : (valW s d).getLsbD 19 = false)
    (hroom : matrixRoom s = true) : drainOp two d a 0 s = .done (noteSeq (valW s d) (stepSeed (addCmd s (drainCmd s two d a)))) := by
  rw [drainOp_checks hq hc hacc hres hu hb hrec, drainChecked_good hgood, acceptDrain_room hroom]
  exact holdLatch_done ..

variable {b : Nat} (hu : usable s [d, a, b] [] [(d, intK), (a, intK), (b, intK)] = true) (hb : (valW s d).getLsbD 19 = true)
  (hbar : (valW s b).toNat % 32 = 0)
include hu hb hbar

theorem drainOp_full (hf : licFull s = true) : drainOp two d a b s =
    .trap .protect (firstByte s.cur.1 (formatAt s (fld (valW s a) 0 32)) (shapeAt s (fld (valW s a) 0 32))) := by
  rw [drainOp_checksBarrier hq hc hacc hres hu hb hbar hrec, drainChecked_good hgood, if_pos hf, holdLatch_trap]

theorem drainOp_acceptsBarrier {t : State} {pa : Nat} {c : Cmd} (hf : licFull s = false) (hwalk : walkHeld s s.cur.1 (valW s b).toNat = false)
    (hpa : objectPa s s.cur.1 s.cur.2 .store (valW s b) = .ok (t, pa)) (hroom : matrixRoom t = true)
    (hcmd : { drainCmd s two d a with barrier := some (valW s b), barPa := some pa } = c) :
    drainOp two d a b s = .done (noteSeq (valW s d) (stepSeed (estateAuto
      (addCmd t { c with est := if c.img = 0 then none else some (t.thread c.img).estSeq }) c.img
      (firstByte s.cur.1 (formatAt s (fld (valW s a) 0 32)) (shapeAt s (fld (valW s a) 0 32))) 6))) := by
  subst hcmd
  rw [drainOp_checksBarrier hq hc hacc hres hu hb hbar hrec, drainChecked_good hgood, if_neg (Bool.eq_false_iff.mp hf),
    if_neg (Bool.eq_false_iff.mp hwalk), hpa]
  exact congrArg (holdLatch s [d, a, b]) (acceptDrain_room hroom)

end

/-! ## ASAVE and ARST (R254) -/

/-- The command of a save or a restore of tiles. -/
def saveCmd (t : State) (save : Bool) (mask : Nat) (ps : List Nat) (tag : Option Nat) : Cmd :=
  newCmd t (if save then .asave (BitVec.ofNat 4 mask) ps else .arst (BitVec.ofNat 4 mask) ps) [] [] tag

/-- TAG of the mask word, when TAGEN is set. -/
def saveTag (w : Word) : Option Nat := if fld w 10 1 = 1 then some (fld w 4 6) else none

/-- SAVED of a slot whose tiles of a mask are saved, or restored. -/
def markSaved (save : Bool) (m : Nat) (x : Slot) : Slot :=
  { x with licst := setFld x.licst 4 4 (if save then fld x.licst 4 4 ||| m else fld x.licst 4 4 &&& (15 ^^^ m)) }

section
variable {s : State} {save : Bool} {a b : Nat} (hu : usable s [a, b] [] [(a, intK), (b, intK)] = true) (hq : s.quiet = true)
  (hres : fld (valW s b) 11 53 = 0)
include hu hq hres

theorem saveOp_misaligned (hal : (valW s a).toNat % 4096 ≠ 0) : saveOp save 7 a b s = .trap .misalign (valW s a) := by
  simp only [saveOp, if_true, pre_usable hu, settle_quiet hq, hres, ne_eq, not_true, false_and, or_self, if_false, hal, not_false_eq_true,
    holdLatch_trap]

theorem saveOp_accepts {t : State} {ps : List Nat} (hal : (valW s a).toNat % 4096 = 0)
    (hwalk : ∀ i < 16, (fld (valW s b) 0 4).testBit (i / 4) = true → walkHeld s s.cur.1 ((valW s a).toNat + 0x1000 * i) = false)
    (hps : pieces s s.cur.1 (decide (s.cur.2 < 7)) save (valW s a).toNat (fld (valW s b) 0 4) 16 0 = .ok (t, ps))
    (hroom : matrixCount t t.cur.1 < 8) :
    saveOp save 7 a b s = .done (addCmd t (saveCmd t save (fld (valW s b) 0 4) ps (saveTag (valW s b)))) := by
  have hheld : (List.range 16).any (fun i => (fld (valW s b) 0 4).testBit (i / 4) && walkHeld s s.cur.1 ((valW s a).toNat + 0x1000 * i)) = false :=
    List.any_eq_false.mpr fun i hi => by
      rw [Bool.and_eq_true, not_and, Bool.not_eq_true]
      exact hwalk i (List.mem_range.mp hi)
  simp only [saveOp, if_true, pre_usable hu, settle_quiet hq, hres, ne_eq, not_true, false_and, or_self, if_false, hal, hheld,
    Bool.false_eq_true, hps]
  exact congrArg (holdLatch s [a, b]) (acceptMatrix_queue hroom rfl rfl)

end

section
variable {s : State} {save : Bool} {d b : Nat} (hd : d ≠ 7) (hu : usable s [b] [] [(b, intK)] = true) (hq : s.quiet = true)
include hd hu hq

theorem saveOp_user (hk : s.cur.2 ≠ 7) : saveOp save d 0 b s = .trapWord .priv := by
  simp only [saveOp, hd, if_false, pre_usable hu, settle_quiet hq, hk, ne_eq, not_false_eq_true, and_self, if_true]
  rfl

variable (hk : s.cur.2 = 7) (hres : fld (valW s b) 11 53 = 0)
include hk hres

theorem saveOp_freeSlot (hh : holdsThread s s.cur.1 d = false) : saveOp save d 0 b s = .trapWord .illegal := by
  simp only [saveOp, hd, pre_usable hu, settle_quiet hq, hk, hres, hh, ne_eq, not_false_eq_true, not_true, and_false, if_false,
    and_self, or_true, if_true]
  rfl

theorem saveOp_slot (hh : holdsThread s s.cur.1 d = true) (hroom : matrixCount s s.cur.1 < 8) : saveOp save d 0 b s = .done ((addCmd s
    (saveCmd s save (fld (valW s b) 0 4) (tilePages (physRead s ((s.slot s.cur.1 d).img + 0x18) 8).1) (saveTag (valW s b)))).modSlot s.cur.1 d
      (markSaved save (fld (valW s b) 0 4))) := by
  simp only [saveOp, hd, pre_usable hu, settle_quiet hq, hk, hres, hh, ne_eq, not_false_eq_true, not_true, and_false, if_false,
    Bool.true_eq_false, or_self]
  exact congrArg (holdLatch s [b]) (acceptMatrix_queue hroom rfl rfl)

end

/-! ## PPT and MWAIT (R255, R257) -/

/-- A pre-emption asks for the licence of the current slot's thread. -/
def preemptAsks (s : State) : Bool := (s.me.preTimer || s.me.preTerm) && holdsLic s (pairOf s.cur.1) (slotReq s s.cur.1 s.cur.2)

theorem pptOp_goes {s : State} {m : BitVec 4} (h : preemptAsks s = false) : pptOp m s = .done s := by
  unfold preemptAsks at h
  simp only [pptOp, h, Bool.false_eq_true, if_false]

theorem pptOp_traps {s : State} {m : BitVec 4} (h : preemptAsks s = true) (hq : s.quiet = true)
    (hb : matrixBusy s s.cur.1 s.cur.2 = false) :
    pptOp m s = .trapIn (s.modMe (fun x => { x with preTimer := false, preTerm := false, pptWait := false })) .preempt (m.zeroExtend 64) := by
  unfold preemptAsks at h
  simp only [pptOp, h, if_true, settle_quiet hq, hb, Bool.false_eq_true, if_false, holdLatch_trapIn, BitVec.ofNat_toNat]

theorem mwaitOp_accepts {s : State} {d tag : Nat} (hu : usable s [] [d] [(d, intK)] = true) (hq : s.quiet = true)
    (hroom : matrixCount s s.cur.1 < 8) (h : fitsIn s d (s.me.matSeq.toNat : Int) = true)
    (h' : fitsIn (addCmd s (newCmd s .marker [] [] (some tag))) d (s.me.matSeq.toNat : Int) = true) :
    mwaitOp d tag s = .done (intOut (addCmd s (newCmd s .marker [] [] (some tag))) d 1 (s.me.matSeq.toNat : Int)) := by
  simp only [mwaitOp, pre_usable hu, settle_quiet hq, Nat.not_le.mpr hroom, if_false]
  rw [putFirst_fits (effect := fun s => addCmd s (newCmd s .marker [] [] (some tag))) h h', holdLatch_done]

theorem run32_trapIn {s t : State} {i : Instr} {body : State → Eff} (hr : s.running = true) (hw : i.wf = true) (sl : BitVec 2) {c : Cause} {v : Word}
    (hb : body s = .trapIn t c v) : run32 i sl body s = .next (takeTrap t s.cur.1 s.cur.2 true c v s.me.pc) := by
  rw [run32_running hr hw, hb]
  rfl

/-! ## The instructions of one body -/

theorem exec_mma {e : Form3 × Bool} (he : e ∈ ([(.mma, false), (.mmad, true)] : List (Form3 × Bool))) (sl : BitVec 2) (d a b : BitVec 6)
    (s : State) : (e.1 sl d a b).wf = true ∧
      exec (e.1 sl d a b) s = run32 (e.1 sl d a b) sl (mmaOp e.2 d.toNat a.toNat b.toNat) s := by
  simp only [List.mem_cons, List.not_mem_nil, or_false] at he
  rcases he with rfl | rfl
  · exact ⟨rfl, rfl⟩
  · exact ⟨rfl, rfl⟩

theorem exec_drain {e : Form3 × Bool} (he : e ∈ ([(.drn, false), (.drn2, true)] : List (Form3 × Bool))) (sl : BitVec 2) (d a b : BitVec 6)
    (s : State) : (e.1 sl d a b).wf = true ∧
      exec (e.1 sl d a b) s = run32 (e.1 sl d a b) sl (drainOp e.2 d.toNat a.toNat b.toNat) s := by
  simp only [List.mem_cons, List.not_mem_nil, or_false] at he
  rcases he with rfl | rfl
  · exact ⟨rfl, rfl⟩
  · exact ⟨rfl, rfl⟩

theorem exec_save {e : Form3 × Bool} (he : e ∈ ([(.asave, true), (.arst, false)] : List (Form3 × Bool))) (sl : BitVec 2) (d a b : BitVec 6)
    (s : State) : (e.1 sl d a b).wf = (d == 7 || (decide (d.toNat < 7) && a == 0)) ∧
      exec (e.1 sl d a b) s = run32 (e.1 sl d a b) sl (saveOp e.2 d.toNat a.toNat b.toNat) s := by
  simp only [List.mem_cons, List.not_mem_nil, or_false] at he
  rcases he with rfl | rfl
  · exact ⟨rfl, rfl⟩
  · exact ⟨rfl, rfl⟩

/-- Settles O40: each matrix command by its checks. -/
theorem matrixInstructions : Obligations.MatrixInstructions := by
  refine ⟨fun e he sl d a b s t ch hu hq => ?_, fun sl d a b s hu hq => ?_, fun sl m s hr hq hroom => ?_, fun e he sl d a s hu hq => ?_,
    fun e he sl d a b s t pa hu hq => ?_, fun e he sl a b s t ps hu hq => ?_, fun e he sl d b s hd hu hq => ?_,
    fun sl d b s hu hq hroom => ?_, fun sl m s hr => ?_⟩
  · intro n cw da db kk held hc hb
    have hr := usable_running hu
    obtain ⟨hw, hexec⟩ := exec_mma he sl d a b s
    rw [hexec]
    exact ⟨fun hold howed => run32_trapWord hr hw sl (mmaOp_unlicensed hu hq hc hb hold howed),
      fun hold howed => run32_block hr hw sl (mmaOp_owed hu hq hc hb hold howed),
      fun hold hbad => run32_trap hr hw sl (mmaOp_badA hu hq hc hb hold hbad),
      fun hold hgood hbad => run32_trap hr hw sl (mmaOp_badB hu hq hc hb hold hgood hbad),
      fun hold hgood hgood' hheld hch hroom => run32_done hr hw sl (mmaOp_accepts hu hq hc hb hold hgood hgood' hheld hch hroom)⟩
  · intro cw x y k hc hb hacc hres hrec hxf hxd hxk hyf hyd hyk hroom
    exact run32_done (usable_running hu) rfl sl
      (topkOp_accepts hu hq hc hb hacc hres rfl rfl rfl hrec hxf hxd hxk hyf hyd hyk hroom)
  · exact run32_done hr rfl sl ((settle_quiet hq _ _).trans (congrArg (holdLatch s []) (acceptMatrix_queue hroom rfl rfl)))
  · intro cw x y offs hc hb hacc hres hrec hall horient hroom
    obtain ⟨hw, hexec⟩ := exec_drain he sl d a 0 s
    rw [hexec]
    exact run32_done (usable_running hu) hw sl (drainOp_accepts hq hc hacc hres hrec ⟨hall, horient⟩ hu hb hroom)
  · intro cw x y offs bar hc hb hacc hres
    have hr := usable_running hu
    obtain ⟨hw, hexec⟩ := exec_drain he sl d a b s
    rw [hexec]
    refine ⟨fun hoffs hbar => run32_trap hr hw sl (drainOp_misaligned hq hc hacc hres hu hb hoffs hbar),
      fun hbar hrec hall horient => ⟨fun hf => ?_, fun hf hwalk hpa hroom => ?_⟩⟩
    · exact run32_trap hr hw sl (drainOp_full hq hc hacc hres hrec ⟨hall, horient⟩ hu hb hbar hf)
    · exact run32_done hr hw sl (drainOp_acceptsBarrier hq hc hacc hres hrec ⟨hall, horient⟩ hu hb hbar hf hwalk hpa hroom rfl)
  · intro w va m hres
    obtain ⟨hw, hexec⟩ := exec_save he sl 7 a b s
    rw [hexec]
    exact ⟨fun hal => run32_trap (usable_running hu) hw sl (saveOp_misaligned hu hq hres hal),
      fun hal hwalk hps hroom => run32_done (usable_running hu) hw sl (saveOp_accepts hu hq hres hal hwalk hps hroom)⟩
  · intro w m ps
    have hr := usable_running hu
    have hd' : d.toNat ≠ 7 := Nat.ne_of_lt hd
    obtain ⟨hw, hexec⟩ := exec_save he sl d 0 b s
    rw [decide_eq_true hd, beq_self_eq_true, Bool.and_self, Bool.or_true] at hw
    rw [hexec]
    exact ⟨fun hk => run32_trapWord hr hw sl (saveOp_user hd' hu hq hk),
      fun hk hres hh => run32_trapWord hr hw sl (saveOp_freeSlot hd' hu hq hk hres hh),
      fun hk hres hh hroom => run32_done hr hw sl (saveOp_slot hd' hu hq hk hres hh hroom)⟩
  · intro t h h'
    exact run32_done (usable_running hu) rfl sl (mwaitOp_accepts hu hq hroom h h')
  · exact ⟨fun h => run32_done hr rfl sl (pptOp_goes h), fun h hq hb => run32_trapIn hr rfl sl (pptOp_traps h hq hb)⟩

end Sys2Proof.Machine
end


section
/-! SUPPORT. The system instructions (R296 to R314, R396). -/

namespace Sys2Proof.Machine

theorem runSys_system {i : Instr} {sl : BitVec 2} {body : State → Eff} {s : State} (h : s.cur.2 = 7) :
    runSys i sl body s = run32 i sl body s := if_neg fun ⟨_, hk⟩ => hk h

theorem runSys_user {i : Instr} {sl : BitVec 2} {body : State → Eff} {s : State} (hr : s.running = true) (h : s.userSlot = true) :
    runSys i sl body s = .next (trap32 s .priv (BitVec.ofNat 64 (encode i))) :=
  if_pos ⟨hr, Nat.ne_of_lt (of_decide_eq_true h)⟩

/-- Settles O41: the check of the slot comes first. -/
theorem systemNeedsPrivilege : Obligations.SystemNeedsPrivilege := by
  intro sl d a b y h i hi s hr hu
  simp only [List.mem_cons, List.not_mem_nil, or_false] at hi
  rcases hi with rfl | rfl | rfl | rfl | rfl | rfl | rfl | rfl | rfl | rfl | rfl | rfl | rfl | rfl <;> exact runSys_user hr hu

/-! ## Resuming a held slot (R305, R309) -/

section
variable {s : State} {a sel : Nat} (hu : usable s [a] [] [(a, intK)] = true) (hq : s.quiet = true)
include hu hq

/-- The slot that SRET names. -/
def sretSlot (s : State) (a : Nat) : Nat := (valI s a % 8).toNat

theorem sretOp_resumes (hsel : sel < 2) (hk : sretSlot s a < 7) (hp : (s.slot s.cur.1 (sretSlot s a)).phase = .held)
    (hw : writesFrozen s s.cur.1 (sretSlot s a) = false) {pc : Word}
    (hpc : (if sel = 1 then (s.slot s.cur.1 (sretSlot s a)).trPc + (if (s.slot s.cur.1 (sretSlot s a)).trCause.getLsbD 8 then 4 else 2)
      else (s.slot s.cur.1 (sretSlot s a)).trPc) = pc) :
    sretOp a sel s = .leave (endEvent (resumeHeld (traceAuto s s.cur.1 17 (sretSlot s a)
      ((s.slot s.cur.1 (sretSlot s a)).handle.zeroExtend 64) pc 0) s.cur.1 (sretSlot s a) pc (sel = 0)) s.cur.1) := by
  subst hpc
  unfold sretSlot at hk hp hw ⊢
  simp only [sretOp, pre_usable hu, settle_quiet hq, hsel, hk, hp, hw, and_self, if_true, Bool.false_eq_true, if_false, holdLatch_leave]

theorem sretOp_waits (hsel : sel < 2) (hk : sretSlot s a < 7) (hp : (s.slot s.cur.1 (sretSlot s a)).phase = .held)
    (hw : writesFrozen s s.cur.1 (sretSlot s a) = true) : sretOp a sel s = .stall (latchOn s s [a]) := by
  unfold sretSlot at hk hp hw
  simp only [sretOp, pre_usable hu, settle_quiet hq, hsel, hk, hp, hw, and_self, if_true, holdLatch_stall]

theorem sretOp_ends (h : ¬(sel < 2 ∧ sretSlot s a < 7 ∧ (s.slot s.cur.1 (sretSlot s a)).phase = .held)) :
    sretOp a sel s = .leave (endEvent (traceAuto s s.cur.1 17 7 0 s.me.pc 0) s.cur.1) := by
  unfold sretSlot at h
  simp only [sretOp, pre_usable hu, settle_quiet hq, h, if_false, holdLatch_leave]

end

/-! ## The privileged registers (R296, R297, R303) -/

section
variable {s : State} {d r a : Nat}

theorem getpOp_core (hp : perSlot r = false) (hu : usable s [] [d] [(d, intK)] = true) :
    getpOp d r a s = putI s d 1 ((privReg s s.cur.1 r 0).toNat : Int) := by
  simp only [getpOp, hp, Bool.false_eq_true, if_false, List.map_nil, pre_usable hu]

theorem getpOp_slot (hp : perSlot r = true) (hu : usable s [a] [d] [(d, intK), (a, intK)] = true) :
    getpOp d r a s = putI s d 1 ((privReg s s.cur.1 r (sretSlot s a)).toNat : Int) := by
  simp only [getpOp, hp, if_true, List.map_cons, List.map_nil, pre_usable hu]
  rfl

theorem putpOp_core (hp : perSlot r = false) (hu : usable s [a] [] [(a, intK)] = true) (hq : s.quiet = true) :
    putpOp r d a s = .done (privWrite s s.cur.1 r 0 (valW s a)) := by
  simp only [putpOp, hp, Bool.false_eq_true, if_false, List.map_cons, List.map_nil, pre_usable hu, settle_quiet hq, holdLatch_done]

theorem putpOp_slot (hp : perSlot r = true) (hu : usable s [d, a] [] [(d, intK), (a, intK)] = true) (hq : s.quiet = true) :
    putpOp r d a s = .done (privWrite s s.cur.1 r (sretSlot s d) (valW s a)) := by
  simp only [putpOp, hp, if_true, List.map_cons, List.map_nil, pre_usable hu, settle_quiet hq, holdLatch_done]
  rfl

/-- No user slot of the core holds a thread. -/
def noThreads (s : State) (n : Nat) : Prop := ∀ k < 7, (s.slot n k).phase = .free

theorem noThreads_any {n : Nat} (h : noThreads s n) : (List.range 7).any (fun j => holdsThread s n j) = false :=
  List.any_eq_false.mpr fun k hk => by simp [holdsThread, h k (List.mem_range.mp hk)]

variable {n k : Nat} {v : Word}

theorem privWrite_base (h : noThreads s n) (hr : r = 6 ∨ r = 8 ∨ r = 9) :
    privWrite s n r k v = s.modCore n (fun c =>
      if r = 6 then { c with imgBase := v }
      else if r = 8 then { c with ptBase := BitVec.ofNat 64 (fld v 20 36 * 2 ^ 20) }
      else { c with ctxId := BitVec.ofNat 64 (fld v 0 16) }) := by
  rcases hr with rfl | rfl | rfl
  all_goals simp only [privWrite, noThreads_any h, Bool.and_false, Bool.false_eq_true, if_false] <;> rfl

end

/-- Settles O42: SRET by the phase of the slot that it names, GETP and PUTP register by register. -/
theorem sretAndPrivilegedRegisters : Obligations.SretAndPrivilegedRegisters := by
  refine ⟨fun sl a b s hb h7 hu hq => ?_, ?_, ?_, fun sl d a s h7 hu hq => ?_, fun sl d a s h7 hu hq => ?_⟩
  · have hr := usable_running hu
    have hw : (Instr.sret sl a b).wf = true := decide_eq_true hb
    intro n k x t skip
    refine ⟨fun hsel hk hp hf => ?_, fun hsel hk hp hf => ?_, fun hsel hk hp hf => ?_, fun hend => ?_⟩
    · have hbody := sretOp_resumes hu hq (sel := b.toNat) (by omega) hk hp hf (if_neg (by omega))
      rw [decide_eq_true hsel] at hbody
      exact (runSys_system h7).trans (run32_leave hr hw sl hbody)
    · have hbody := sretOp_resumes hu hq (sel := b.toNat) (by omega) hk hp hf (if_pos hsel)
      rw [decide_eq_false (show b.toNat ≠ 0 by omega)] at hbody
      exact (runSys_system h7).trans (run32_leave hr hw sl hbody)
    · exact (runSys_system h7).trans (run32_stall hr hw sl (sretOp_waits hu hq hsel hk hp hf))
    · have hno : ¬(b.toNat < 2 ∧ sretSlot s a.toNat < 7 ∧ (s.slot s.cur.1 (sretSlot s a.toNat)).phase = .held) := by
        rintro ⟨hsel, hk, hp⟩
        rcases hend with h | h | h
        · omega
        · exact absurd h (Nat.ne_of_lt hk)
        · exact h hp
      exact (runSys_system h7).trans (run32_leave hr hw sl (sretOp_ends hu hq hno))
  · simp only [List.forall_mem_cons, List.not_mem_nil, false_imp_iff, implies_true, and_true]
    refine ⟨?_, ?_, ?_, ?_⟩
    all_goals exact fun sl d a s h7 hu => (runSys_system h7).trans (run32_putI (usable_running hu) rfl sl (getpOp_core rfl hu))
  · simp only [List.forall_mem_cons, List.not_mem_nil, false_imp_iff, implies_true, and_true]
    refine ⟨?_, ?_, ?_, ?_⟩
    all_goals exact fun sl d a s h7 hu => (runSys_system h7).trans (run32_putI (usable_running hu) rfl sl (getpOp_slot rfl hu))
  · have hr := usable_running hu
    intro n v
    have hmask : BitVec.ofNat 64 (fld v 0 7) = v &&& 0x7F := ofNat_fld_low v (by decide)
    have hctx : BitVec.ofNat 64 (fld v 0 16) = v &&& 0xFFFF := ofNat_fld_low v (by decide)
    refine ⟨fun hfree => ⟨?_, ?_, ?_⟩, ?_, ?_⟩
    · exact (runSys_system h7).trans (run32_done hr rfl sl ((putpOp_core rfl hu hq).trans
        (congrArg Eff.done (privWrite_base (r := 6) hfree (.inl rfl)))))
    · exact (runSys_system h7).trans (run32_done hr rfl sl ((putpOp_core rfl hu hq).trans
        (congrArg Eff.done (privWrite_base (r := 8) hfree (.inr (.inl rfl))))))
    · rw [← hctx]
      exact (runSys_system h7).trans (run32_done hr rfl sl ((putpOp_core rfl hu hq).trans
        (congrArg Eff.done (privWrite_base (r := 9) hfree (.inr (.inr rfl))))))
    · rw [← hmask]
      exact (runSys_system h7).trans (run32_done hr rfl sl (putpOp_core rfl hu hq))
    · exact (runSys_system h7).trans (run32_done hr rfl sl (putpOp_core rfl hu hq))
  · have hr := usable_running hu
    intro n k v held
    refine ⟨?_, ?_, ?_⟩
    · exact (runSys_system h7).trans (run32_done hr rfl sl (putpOp_slot rfl hu hq))
    · exact (runSys_system h7).trans (run32_done hr rfl sl (putpOp_slot rfl hu hq))
    · exact (runSys_system h7).trans (run32_done hr rfl sl (putpOp_slot rfl hu hq))

end Sys2Proof.Machine
end


section
/-! SUPPORT. Services of the system slot, the control of threads, and the inbox (R303 to R314, R396). -/

namespace Sys2Proof.Machine

/-! ## SLOTS, TLBI and CKPT -/

theorem foldl_add_eq_sum (f : Nat → Nat) (l : List Nat) (z : Nat) : l.foldl (fun a k => a + f k) z = z + (l.map f).sum := by
  induction l generalizing z with
  | nil => simp
  | cons x r ih => rw [List.foldl_cons, ih, List.map_cons, List.sum_cons, Nat.add_assoc]

theorem slotsOp_eq {s : State} {d : Nat} (hu : usable s [] [d] [(d, intK)] = true) :
    slotsOp d s = putI s d 1 (((List.range 8).map (fun k => slotCode s s.cur.1 k * 2 ^ (4 * k))).sum : Nat) := by
  rw [slotsOp, pre_usable hu, foldl_add_eq_sum (fun k => slotCode s s.cur.1 k * 2 ^ (4 * k)), Nat.zero_add]

/-- The entries of a TLB that TLBI leaves. -/
def tlbLeft (s : State) (sel : Nat) (v : Word) (l : List TlbEntry) : List TlbEntry :=
  l.filter (fun e => !tlbNamed sel (ctxOf s s.cur.1) v.toNat e)

theorem tlbiOp_eq {s : State} {a sel : Nat} (hu : usable s [a] [] [(a, intK)] = true) (hq : s.quiet = true) :
    tlbiOp a sel s = .done ((s.modCore s.cur.1 (fun c => { c with tlb := tlbLeft s sel (valW s a) c.tlb })).modCluster (clusterOf s.cur.1)
      (fun c => { c with tlb := tlbLeft s sel (valW s a) c.tlb })) := by
  simp only [tlbiOp, pre_usable hu, settle_quiet hq, holdLatch_done, tlbLeft]

section
variable {s : State} {d : Nat} (hu : usable s [] [d] [(d, intK)] = true) (hq : s.quiet = true)
include hu hq

theorem ckptOp_opens (h : fitsIn s d (s.nextCkpt.toNat : Int) = true)
    (h' : fitsIn (openInterval s (ctxOf s s.cur.1)) d (s.nextCkpt.toNat : Int) = true) :
    ckptOp d 0 s = .done (lateOut (openInterval s (ctxOf s s.cur.1)) d (s.nextCkpt.toNat : Int)) := by
  simp only [ckptOp, pre_usable hu, settle_quiet hq, if_true]
  rw [putThen_fits (effect := fun t => openInterval t (ctxOf s s.cur.1)) h h', holdLatch_done]

theorem ckptOp_closes (h : fitsIn s d (openCkpt s (ctxOf s s.cur.1) : Int) = true)
    (h' : fitsIn (closeInterval s (ctxOf s s.cur.1)) d (openCkpt s (ctxOf s s.cur.1) : Int) = true) :
    ckptOp d 1 s = .done (lateOut (closeInterval s (ctxOf s s.cur.1)) d (openCkpt s (ctxOf s s.cur.1) : Int)) := by
  simp only [ckptOp, pre_usable hu, settle_quiet hq, Nat.one_ne_zero, if_false]
  rw [putThen_fits (effect := fun t => closeInterval t (ctxOf s s.cur.1)) h h', holdLatch_done]

end

/-! ## KILL (R310) -/

section
variable {s : State} {d a img : Nat} {hard byHandle : Bool} (hu : usable s [a] [d] [(d, intK), (a, intK)] = true) (hq : s.quiet = true)
include hu hq

theorem killOp_noTarget (hk : s.me.killing = none) (ht : killTarget s s.cur.1 byHandle (valW s a) = none) :
    killOp d a hard byHandle s = putILate s d 1 := by
  simp only [killOp, pre_usable hu, settle_quiet hq, hk, ht, holdLatch_putILate]

theorem killOp_ends (hk : s.me.killing = some img) (hstop : threadStopped s img = true) (h : fitsIn s d 0 = true)
    (h' : fitsIn (s.modMe (fun x => { x with killing := none })) d 0 = true) :
    killOp d a hard byHandle s = .done (lateOut (s.modMe (fun x => { x with killing := none })) d 0) := by
  simp only [killOp, pre_usable hu, settle_quiet hq, hk, hstop, if_true]
  rw [putThen_fits (effect := fun t => t.modMe (fun x => { x with killing := none })) h h', holdLatch_done]

theorem killOp_goesOn (hk : s.me.killing = some img) (hstop : threadStopped s img = false) :
    killOp d a hard byHandle s = .stall (latchOn s s [a]) := by
  simp only [killOp, pre_usable hu, settle_quiet hq, hk, hstop, Bool.false_eq_true, if_false, holdLatch_stall]

variable (hk : s.me.killing = none) (ht : killTarget s s.cur.1 byHandle (valW s a) = some img)
include hk ht

theorem killOp_dying (hd : (s.thread img).dying = true) : killOp d a hard byHandle s = putILate s d 2 := by
  simp only [killOp, pre_usable hu, settle_quiet hq, hk, ht, hd, if_true, holdLatch_putILate]

variable (hd : (s.thread img).dying = false)
include hd

theorem killOp_stops (hstop : threadStopped (killThread s img hard (killWord s.cur.1 hard 0 false)) img = true) (h : fitsIn s d 0 = true)
    (h' : fitsIn (killThread s img hard (killWord s.cur.1 hard 0 false)) d 0 = true) :
    killOp d a hard byHandle s = .done (lateOut (killThread s img hard (killWord s.cur.1 hard 0 false)) d 0) := by
  simp only [killOp, pre_usable hu, settle_quiet hq, hk, ht, hd, Bool.false_eq_true, if_false, hstop, if_true]
  rw [putThen_fits (effect := fun _ => killThread s img hard (killWord s.cur.1 hard 0 false)) h h', holdLatch_done]

theorem killOp_waits (hstop : threadStopped (killThread s img hard (killWord s.cur.1 hard 0 false)) img = false) :
    killOp d a hard byHandle s = .stall (latchOn s
      ((killThread s img hard (killWord s.cur.1 hard 0 false)).modMe (fun x => { x with killing := some img })) [a]) := by
  simp only [killOp, pre_usable hu, settle_quiet hq, hk, ht, hd, Bool.false_eq_true, if_false, hstop, holdLatch_stall]

end

/-! ## RESUME, EVICT and LICF (R307, R311, R313) -/

/-- RESUME may act on the thread of a handle (R311). -/
def resumable (s : State) (h : BitVec 32) : Prop :=
  let x := s.thread (imageAddr s s.cur.1 h)
  h ≠ 0 ∧ x.handle = h ∧ x.ctx = ctxOf s s.cur.1 ∧ x.parked = true ∧ x.state = 5 ∧ x.dying = false

section
variable {s : State} {d a : Nat} (hu : usable s [a] [d] [(d, intK), (a, intK)] = true) (hq : s.quiet = true)
include hu hq

section
variable {h : BitVec 32} (hh : BitVec.ofNat 32 (fld (valW s a) 0 32) = h)
include hh

theorem resumeOp_cases : (resumable s h → runBlocked s s.cur.1 = true → resumeOp d a s = .stall (latchOn s s [a])) ∧
    (resumable s h → runBlocked s s.cur.1 = false → resumeOp d a s = holdLatch s [a] (putThen s d 0 (fun s' =>
      enterThread (s'.modThread (imageAddr s s.cur.1 h) (fun t => { t with parked := false })) s.cur.1 (imageAddr s s.cur.1 h)))) ∧
    (¬resumable s h → resumeOp d a s = putILate s d 1) := by
  subst hh
  refine ⟨fun hc hb => ?_, fun hc hb => ?_, fun hc => ?_⟩
  · obtain ⟨h1, h2, h3, h4, h5, h6⟩ := hc
    simp only [resumeOp, pre_usable hu, settle_quiet hq, h1, h2, h3, h4, h5, h6, hb, ne_eq, not_false_eq_true, Bool.not_false, and_self,
      if_true, holdLatch_stall]
  · obtain ⟨h1, h2, h3, h4, h5, h6⟩ := hc
    simp only [resumeOp, pre_usable hu, settle_quiet hq, h1, h2, h3, h4, h5, h6, hb, ne_eq, not_false_eq_true, Bool.not_false, and_self,
      if_true, Bool.false_eq_true, if_false]
  · simp only [resumable] at hc
    simp only [resumeOp, pre_usable hu, settle_quiet hq, Bool.not_eq_true', hc, if_false, holdLatch_putILate]

theorem resumeOp_enters (hc : resumable s h) (hb : runBlocked s s.cur.1 = false) {t : State}
    (ht : enterThread (s.modThread (imageAddr s s.cur.1 h) (fun t => { t with parked := false })) s.cur.1 (imageAddr s s.cur.1 h) = t)
    (h0 : fitsIn s d 0 = true) (h1 : fitsIn t d 0 = true) : resumeOp d a s = .done (lateOut t d 0) := by
  subst ht
  obtain ⟨-, heq, -⟩ := resumeOp_cases hu hq (d := d) hh
  rw [heq hc hb, putThen_fits (effect := fun s' =>
    enterThread (s'.modThread (imageAddr s s.cur.1 h) (fun t => { t with parked := false })) s.cur.1 (imageAddr s s.cur.1 h)) h0 h1,
    holdLatch_done]

end

theorem evictOp_notHeld {how : Nat} (h : sretSlot s a = 7 ∨ (s.slot s.cur.1 (sretSlot s a)).phase ≠ .held) :
    evictOp d a how s = putILate s d 1 := by
  unfold sretSlot at h
  simp only [evictOp, pre_usable hu, settle_quiet hq, if_pos h, holdLatch_putILate]

section
variable {how : Nat} (hk : sretSlot s a < 7) (hp : (s.slot s.cur.1 (sretSlot s a)).phase = .held)
include hk hp

theorem evictOp_write (hw : writeWaits s s.cur.1 (sretSlot s a) = true) : evictOp d a how s = putILate s d 2 := by
  have hk' := Nat.ne_of_lt hk
  unfold sretSlot at hk' hp hw
  simp only [evictOp, pre_usable hu, settle_quiet hq, hk', hp, hw, ne_eq, not_true, or_self, if_false, if_true, holdLatch_putILate]

variable (hw : writeWaits s s.cur.1 (sretSlot s a) = false) (hpend : (s.slot s.cur.1 (sretSlot s a)).pending = [])
  (hsave : saveHeld s s.cur.1 (sretSlot s a) = false) (hrun : how ≠ 1 → runBlocked s s.cur.1 = false)
include hw hpend hsave hrun

theorem evictOp_mapFails {e : Cause × Word} (hm : writeMapRecord s s.cur.1 (sretSlot s a) = .error e) : evictOp d a how s = putILate s d 3 := by
  have hk' := Nat.ne_of_lt hk
  have hgo : ¬(how ≠ 1 ∧ runBlocked s s.cur.1 = true) := fun ⟨h1, h2⟩ => absurd h2 (Bool.eq_false_iff.mp (hrun h1))
  unfold sretSlot at hk' hp hw hpend hsave hm
  simp only [evictOp, pre_usable hu, settle_quiet hq, hk', hp, hw, hpend, hsave, hgo, hm, ne_eq, not_true, or_self, if_false,
    Bool.false_eq_true, holdLatch_putILate]

theorem evictOp_saves {t u : State} (hm : writeMapRecord s s.cur.1 (sretSlot s a) = .ok t)
    (ht : evictGo t s.cur.1 (sretSlot s a) (how = 1) = u) (h : fitsIn s d 0 = true) (h' : fitsIn u d 0 = true) :
    evictOp d a how s = .done (lateOut u d 0) := by
  have hk' := Nat.ne_of_lt hk
  have hgo : ¬(how ≠ 1 ∧ runBlocked s s.cur.1 = true) := fun ⟨h1, h2⟩ => absurd h2 (Bool.eq_false_iff.mp (hrun h1))
  subst ht
  unfold sretSlot at hk' hp hw hpend hsave hm h' ⊢
  simp only [evictOp, pre_usable hu, settle_quiet hq, hk', hp, hw, hpend, hsave, hgo, hm, ne_eq, not_true, or_self, if_false,
    Bool.false_eq_true, putThen, putILate_fits h, putILate_fits h', holdLatch_done]

end

end

/-- The waiter that LICF names: the head of the FIFO, or the one with a handle. -/
def licfGrantee (s : State) (p : Nat) (h : BitVec 32) : Option LicReq :=
  if h = 0 then (s.pair p).fifo.head? else (s.pair p).fifo.find? (fun r => r.handle = h)

section
variable {s : State} {d a b : Nat} (hu : usable s [a, b] [d] [(d, intK), (a, intK), (b, intK)] = true) (hq : s.quiet = true)
include hu hq

theorem licfOp_notHeld (h : sretSlot s a = 7 ∨ (s.slot s.cur.1 (sretSlot s a)).phase ≠ .held) : licfOp d a b s = putILate s d 3 := by
  unfold sretSlot at h
  simp only [licfOp, pre_usable hu, settle_quiet hq, if_pos h, holdLatch_putILate]

variable (hk : sretSlot s a < 7) (hp : (s.slot s.cur.1 (sretSlot s a)).phase = .held)
include hk hp

theorem licfOp_noHolder (hl : holdsLic s (pairOf s.cur.1) (slotReq s s.cur.1 (sretSlot s a)) = false) : licfOp d a b s = putILate s d 1 := by
  have hk' := Nat.ne_of_lt hk
  unfold sretSlot at hk' hp hl
  simp only [licfOp, pre_usable hu, settle_quiet hq, hk', hp, hl, ne_eq, not_true, or_self, if_false, Bool.not_false, if_true,
    holdLatch_putILate]

variable (hl : holdsLic s (pairOf s.cur.1) (slotReq s s.cur.1 (sretSlot s a)) = true)
include hl

theorem licfOp_noWaiter (hg : licfGrantee s (pairOf s.cur.1) (BitVec.ofNat 32 (fld (valW s b) 0 32)) = none) :
    licfOp d a b s = putILate s d 2 := by
  have hk' := Nat.ne_of_lt hk
  unfold licfGrantee at hg
  unfold sretSlot at hk' hp hl
  simp only [licfOp, pre_usable hu, settle_quiet hq, hk', hp, hl, hg, ne_eq, not_true, or_self, if_false, Bool.not_true,
    Bool.false_eq_true, holdLatch_putILate]

theorem licfOp_owes {r : LicReq} {t : State} (hg : licfGrantee s (pairOf s.cur.1) (BitVec.ofNat 32 (fld (valW s b) 0 32)) = some r)
    (ht : licOwe s (pairOf s.cur.1) (slotReq s s.cur.1 (sretSlot s a))
      (if BitVec.ofNat 32 (fld (valW s b) 0 32) = 0 then none else some r) = t)
    (h : fitsIn s d 0 = true) (h' : fitsIn t d 0 = true) : licfOp d a b s = .done (lateOut t d 0) := by
  have hk' := Nat.ne_of_lt hk
  subst ht
  unfold licfGrantee at hg
  unfold sretSlot at hk' hp hl h' ⊢
  simp only [licfOp, pre_usable hu, settle_quiet hq, hk', hp, hl, hg, ne_eq, not_true, or_self, if_false, Bool.not_true,
    Bool.false_eq_true, putThen, putILate_fits h, putILate_fits h', holdLatch_done]

end

/-- Settles O43: each service by its own rule, and each control of a thread by the case that its answer names. -/
theorem systemServicesAndThreads : Obligations.SystemServicesAndThreads := by
  refine ⟨⟨fun sl d s h7 hu => ?_, fun sl a b s hb h7 hu hq => ?_, fun sl d s h7 hu hq => ⟨fun h h' => ?_, fun h h' => ?_⟩,
      fun sl a b s hb h7 hu hq => ?_⟩,
    fun sl d a y h s h7 hu hq => ⟨fun hk ht => ?_, fun img hk => ⟨fun hstop h0 h1 => ?_, fun hstop => ?_⟩,
      fun img hk ht => ⟨fun hd => ?_, fun hd hstop h0 h1 => ?_, fun hd hstop => ?_⟩⟩,
    fun sl d a s h7 hu hq => ⟨fun hc hb h0 h1 => ?_, fun hc hb => ?_, fun hc => ?_⟩,
    fun sl d a b s hb h7 hu hq => ⟨fun hp => ?_, fun hk hp hw => ?_, fun hk hp hw hpend hsave hrun => ⟨fun t hm => ?_, fun e hm => ?_⟩⟩,
    fun sl d a b s h7 hu hq => ⟨fun hp => ?_, fun hk hp hl => ?_, fun hk hp hl hg => ?_, fun hk hp hl r hg => ?_⟩⟩
  · exact (runSys_system h7).trans (run32_putI (usable_running hu) rfl sl (slotsOp_eq hu))
  · exact (runSys_system h7).trans (run32_done (usable_running hu) (show (Instr.tlbi sl a b).wf = true from decide_eq_true hb) sl (tlbiOp_eq hu hq))
  · exact (runSys_system h7).trans (run32_done (usable_running hu) rfl sl (ckptOp_opens hu hq h h'))
  · exact (runSys_system h7).trans (run32_done (usable_running hu) rfl sl (ckptOp_closes hu hq h h'))
  · exact (runSys_system h7).trans (run32_done (usable_running hu) (show (Instr.trace sl a b).wf = true from decide_eq_true hb) sl
      ((pre_usable hu _).trans ((settle_quiet hq _ _).trans (holdLatch_done ..))))
  · exact (runSys_system h7).trans (run32_late (usable_running hu) rfl sl (killOp_noTarget hu hq hk ht))
  · exact (runSys_system h7).trans (run32_done (usable_running hu) rfl sl (killOp_ends hu hq hk hstop h0 h1))
  · exact (runSys_system h7).trans (run32_stall (usable_running hu) rfl sl (killOp_goesOn hu hq hk hstop))
  · exact (runSys_system h7).trans (run32_late (usable_running hu) rfl sl (killOp_dying hu hq hk ht hd))
  · exact (runSys_system h7).trans (run32_done (usable_running hu) rfl sl (killOp_stops hu hq hk ht hd hstop h0 h1))
  · exact (runSys_system h7).trans (run32_stall (usable_running hu) rfl sl (killOp_waits hu hq hk ht hd hstop))
  · exact (runSys_system h7).trans (run32_done (usable_running hu) rfl sl (resumeOp_enters hu hq rfl hc hb rfl h0 h1))
  · obtain ⟨hstall, -, -⟩ := resumeOp_cases hu hq (d := d.toNat) rfl
    exact (runSys_system h7).trans (run32_stall (usable_running hu) rfl sl (hstall hc hb))
  · obtain ⟨-, -, hno⟩ := resumeOp_cases hu hq (d := d.toNat) rfl
    exact (runSys_system h7).trans (run32_late (usable_running hu) rfl sl (hno hc))
  · have hwf : (Instr.evict sl d a b).wf = true := decide_eq_true hb
    exact (runSys_system h7).trans (run32_late (usable_running hu) hwf sl (evictOp_notHeld hu hq hp))
  · have hwf : (Instr.evict sl d a b).wf = true := decide_eq_true hb
    exact (runSys_system h7).trans (run32_late (usable_running hu) hwf sl (evictOp_write hu hq hk hp hw))
  · intro u h0 h1
    have hwf : (Instr.evict sl d a b).wf = true := decide_eq_true hb
    exact (runSys_system h7).trans (run32_done (usable_running hu) hwf sl (evictOp_saves hu hq hk hp hw hpend hsave hrun hm rfl h0 h1))
  · have hwf : (Instr.evict sl d a b).wf = true := decide_eq_true hb
    exact (runSys_system h7).trans (run32_late (usable_running hu) hwf sl
      (evictOp_mapFails hu hq hk hp hw hpend hsave hrun hm))
  · exact (runSys_system h7).trans (run32_late (usable_running hu) rfl sl (licfOp_notHeld hu hq hp))
  · exact (runSys_system h7).trans (run32_late (usable_running hu) rfl sl (licfOp_noHolder hu hq hk hp hl))
  · exact (runSys_system h7).trans (run32_late (usable_running hu) rfl sl (licfOp_noWaiter hu hq hk hp hl hg))
  · intro t h0 h1
    exact (runSys_system h7).trans (run32_done (usable_running hu) rfl sl (licfOp_owes hu hq hk hp hl hg rfl h0 h1))

/-! ## The inbox (R303 to R305, R396) -/

/-- The inbox without its head, whose write is a deferred place of its slot. -/
def deferred (s : State) (e : InboxEntry) (r : List InboxEntry) : State :=
  (s.modCore s.cur.1 (fun c => { c with inbox := r })).modSlot s.cur.1 (fld e.head 8 3) (fun x =>
    let p : Deferred := { name := BitVec.ofNat 6 (fld e.head 11 6), req := BitVec.ofNat 10 (fld e.aux 0 10), data := e.data }
    if x.defer0.isNone then { x with defer0 := some p } else { x with defer1 := some p })

section
variable {s : State} {d : Nat} (hu : usable s [] [d] [(d, intK)] = true)
include hu

theorem ibpeekOp_eq (w : Nat) :
    ibpeekOp d w s = putI s d 1 ((entryWordOf ((s.core s.cur.1).inbox.head?.getD ⟨0, 0, 0, 0⟩) w).toNat : Int) := by
  have hcases : (match s.myCore.inbox with | [] => 0 | e :: _ => (entryWordOf e w).toNat : Nat) =
      (entryWordOf ((s.core s.cur.1).inbox.head?.getD ⟨0, 0, 0, 0⟩) w).toNat := by
    show (match (s.core s.cur.1).inbox with | [] => 0 | e :: _ => (entryWordOf e w).toNat : Nat) = _
    cases (s.core s.cur.1).inbox with
    | nil => match w with | 0 => rfl | 1 => rfl | 2 => rfl | _ + 3 => rfl
    | cons e r => rfl
  rw [ibpeekOp, pre_usable hu]
  exact congrArg (fun x : Nat => putI s d 1 (x : Int)) hcases

variable (hq : s.quiet = true)
include hq

theorem ibtakeOp_empty {how : Nat} (h : (s.core s.cur.1).inbox = []) : ibtakeOp d how s = putILate s d 0 := by
  simp only [ibtakeOp, pre_usable hu, settle_quiet hq, h, holdLatch_putILate]

theorem deferOp_empty (h : (s.core s.cur.1).inbox = []) : deferOp d s = putI s d 1 2 := by
  simp only [deferOp, pre_usable hu, settle_quiet hq, h, holdLatch_putI]

variable {e : InboxEntry} {r : List InboxEntry} (h : (s.core s.cur.1).inbox = e :: r)
include h

theorem ibtakeOp_takes {how : Nat}
    (hgo : ¬(how = 1 ∧ liveWrite s s.cur.1 (fld e.head 8 3) e = true ∧ writeFrozen s s.cur.1 (fld e.head 8 3) (fld e.head 11 6) = true))
    (h0 : fitsIn s d (fld e.head 0 8 : Int) = true) (h1 : fitsIn (takeHead s s.cur.1 (how = 1)) d (fld e.head 0 8 : Int) = true) :
    ibtakeOp d how s = .done (lateOut (takeHead s s.cur.1 (how = 1)) d (fld e.head 0 8 : Int)) := by
  simp only [ibtakeOp, pre_usable hu, settle_quiet hq, h, if_neg hgo]
  rw [putThen_fits (effect := fun t => takeHead t s.cur.1 (how = 1)) h0 h1, holdLatch_done]

theorem ibtakeOp_frozen (hl : liveWrite s s.cur.1 (fld e.head 8 3) e = true)
    (hf : writeFrozen s s.cur.1 (fld e.head 8 3) (fld e.head 11 6) = true) : ibtakeOp d 1 s = .stall (latchOn s s []) := by
  simp only [ibtakeOp, pre_usable hu, settle_quiet hq, h, hl, hf, and_self, if_true, holdLatch_stall]

theorem deferOp_dead (hl : liveWrite s s.cur.1 (fld e.head 8 3) e = false) : deferOp d s = putI s d 1 2 := by
  simp only [deferOp, pre_usable hu, settle_quiet hq, h, hl, Bool.not_false, if_true, holdLatch_putI]

variable (hl : liveWrite s s.cur.1 (fld e.head 8 3) e = true)
include hl

theorem deferOp_full (h0 : (s.slot s.cur.1 (fld e.head 8 3)).defer0.isSome = true) (h1 : (s.slot s.cur.1 (fld e.head 8 3)).defer1.isSome = true) :
    deferOp d s = putI s d 1 1 := by
  simp only [deferOp, pre_usable hu, settle_quiet hq, h, hl, Bool.not_true, Bool.false_eq_true, if_false, h0, h1, and_self, if_true,
    holdLatch_putI]

theorem deferOp_moves (hroom : (s.slot s.cur.1 (fld e.head 8 3)).defer0 = none ∨ (s.slot s.cur.1 (fld e.head 8 3)).defer1 = none)
    (h0 : fitsIn s d 0 = true) (h1 : fitsIn (deferred s e r) d 0 = true) : deferOp d s = .done (intOut (deferred s e r) d 1 0) := by
  have hplace : ¬((s.slot s.cur.1 (fld e.head 8 3)).defer0.isSome = true ∧ (s.slot s.cur.1 (fld e.head 8 3)).defer1.isSome = true) := by
    rintro ⟨h2, h3⟩
    rcases hroom with hn | hn
    · rw [hn] at h2
      cases h2
    · rw [hn] at h3
      cases h3
  have hput : putI (deferred s e r) d 1 0 = .done (intOut (deferred s e r) d 1 0) := putI_fits h1 1
  unfold deferred at hput ⊢
  simp only [deferOp, pre_usable hu, settle_quiet hq, h, hl, Bool.not_true, Bool.false_eq_true, if_false, if_neg hplace, putFirst,
    putI_fits h0, hput, holdLatch_done]

end

/-- Settles O44: the instructions of the inbox by what its head is. -/
theorem inboxInstructions : Obligations.InboxInstructions := by
  intro sl d s h7 hu hq
  have hr := usable_running hu
  intro n entry
  refine ⟨?_, ?_, ?_, ?_, fun h => ⟨?_, ?_, ?_⟩, fun e r h => ⟨fun h0 h1 => ?_, fun hgo h0 h1 => ?_, fun hl hf => ?_, fun hl => ?_,
    fun hl h0 h1 => ?_, fun hl hroom h0 h1 => ?_⟩⟩
  · exact (runSys_system h7).trans (run32_putI hr rfl sl (ibpeekOp_eq hu 0))
  · exact (runSys_system h7).trans (run32_putI hr rfl sl (ibpeekOp_eq hu 1))
  · exact (runSys_system h7).trans (run32_putI hr rfl sl (ibpeekOp_eq hu 2))
  · exact (runSys_system h7).trans (run32_putI hr rfl sl (ibpeekOp_eq hu 3))
  · exact (runSys_system h7).trans (run32_late hr rfl sl (ibtakeOp_empty hu hq h))
  · exact (runSys_system h7).trans (run32_late hr rfl sl (ibtakeOp_empty hu hq h))
  · exact (runSys_system h7).trans (run32_putI hr rfl sl (deferOp_empty hu hq h))
  · exact (runSys_system h7).trans (run32_done hr rfl sl (ibtakeOp_takes hu hq h (how := 0) (fun ⟨h2, _⟩ => by cases h2) h0 h1))
  · have hgo' : ¬((1 : Nat) = 1 ∧ liveWrite s s.cur.1 (fld e.head 8 3) e = true ∧
        writeFrozen s s.cur.1 (fld e.head 8 3) (fld e.head 11 6) = true) := by
      rintro ⟨-, hl, hf⟩
      exact hgo.elim (Bool.eq_false_iff.mp · hl) (Bool.eq_false_iff.mp · hf)
    exact (runSys_system h7).trans (run32_done hr rfl sl (ibtakeOp_takes hu hq h (how := 1) hgo' h0 h1))
  · exact (runSys_system h7).trans (run32_stall hr rfl sl (ibtakeOp_frozen hu hq h hl hf))
  · exact (runSys_system h7).trans (run32_putI hr rfl sl (deferOp_dead hu hq h hl))
  · exact (runSys_system h7).trans (run32_putI hr rfl sl (deferOp_full hu hq h hl h0 h1))
  · exact (runSys_system h7).trans (run32_done hr rfl sl (deferOp_moves hu hq h hl hroom h0 h1))

end Sys2Proof.Machine
end


section
/-! SUPPORT. The events: each as what it does, for operands in range. -/

namespace Sys2Proof.Machine

/-- An event whose operands are in range is what it does. -/
theorem event_runs {o : Host.Outcome State Fault Refusal} {ok : Bool} {s t : State} (ho : o = .next (if ok then t else s)) (h : ok = true) :
    o = .next t := ho.trans (congrArg Host.Outcome.next (if_pos h))

theorem bothInRange {p q : Prop} [Decidable p] [Decidable q] (hp : p) (hq : q) : (decide p && decide q) = true := by
  rw [decide_eq_true hp, decide_eq_true hq]
  rfl

theorem next_eq {o : Host.Outcome State Fault Refusal} {t u : State} (h : o = .next t) (e : t = u) : o = .next u := h.trans (congrArg _ e)

theorem exec_submissionPlaceWait {core : Nat} {s : State} (h : core < 1024) :
    exec (.submissionPlaceWait core) s = .next (submissionGo s core) := event_runs rfl (decide_eq_true h)
theorem exec_taskCounterDecrement (task : Nat) (bereaved : Bool) (s : State) :
    exec (.taskCounterDecrement task bereaved) s = .next (decrementGo s task bereaved) := rfl
theorem exec_dealTask {core : Nat} {s : State} (h : core < 1024) :
    exec (.dealTask core) s = .next (dealTask s core) := event_runs rfl (decide_eq_true h)
theorem exec_dealResume (idx : Nat) (s : State) : exec (.dealResume idx) s = .next (dealResume s idx) := rfl
theorem exec_slotFill {core : Nat} {s : State} (h : core < 1024) :
    exec (.slotFill core) s = .next (slotFill s core) := event_runs rfl (decide_eq_true h)
theorem exec_resumeAfterWriteback {core idx : Nat} {s : State} (h : core < 1024) :
    exec (.resumeAfterWriteback core idx) s = .next (resumeAfterWriteback s core idx) := event_runs rfl (decide_eq_true h)
theorem exec_agePromote {core idx : Nat} {s : State} (h : core < 1024) :
    exec (.agePromote core idx) s = .next (agePromote s core idx) := event_runs rfl (decide_eq_true h)
theorem exec_callEntryTake {core : Nat} {s : State} (h : core < 1024) :
    exec (.callEntryTake core) s = .next (callEntryTake s core) := event_runs rfl (decide_eq_true h)
theorem exec_overflowEnter {tower : Nat} {s : State} (h : tower < 2) :
    exec (.overflowEnter tower) s = .next (overflowEnter s tower) := event_runs rfl (decide_eq_true h)
theorem exec_successorStart (task : Nat) (s : State) : exec (.successorStart task) s = .next (successorStart s task) := rfl
theorem exec_wakeRecheck {core slot : Nat} {s : State} (h : core < 1024) (h' : slot < 8) :
    exec (.wakeRecheck core slot) s = .next (wakeRecheck s core slot) := event_runs rfl (bothInRange h h')
theorem exec_rowFill {core slot : Nat} {bad : Bool} {s : State} (h : core < 1024) (h' : slot < 8) :
    exec (.rowFill core slot bad) s = .next (rowFill s core slot bad) := event_runs rfl (bothInRange h h')
theorem exec_rowIdleWriteback {core idx : Nat} {s : State} (h : core < 1024) :
    exec (.rowIdleWriteback core idx) s = .next (rowIdleWriteback s core idx) := event_runs rfl (decide_eq_true h)
theorem exec_repackComplete {core : Nat} {s : State} (h : core < 1024) :
    exec (.repackComplete core) s = .next (repackDone s core) := event_runs rfl (decide_eq_true h)
theorem exec_accessResultArrival {core slot idx : Nat} {s : State} (h : core < 1024) (h' : slot < 8) :
    exec (.accessResultArrival core slot idx) s = .next (resultArrival s core slot idx) := event_runs rfl (bothInRange h h')
theorem exec_timerExpire {core slot : Nat} {s : State} (h : core < 1024) (h' : slot < 8) :
    exec (.timerExpire core slot) s = .next (timerExpire s core slot) := event_runs rfl (bothInRange h h')
theorem exec_preemptTake {core slot : Nat} {s : State} (h : core < 1024) (h' : slot < 8) :
    exec (.preemptTake core slot) s = .next (preemptTake s core slot) := event_runs rfl (bothInRange h h')
theorem exec_preemptForce {core slot : Nat} {s : State} (h : core < 1024) (h' : slot < 8) :
    exec (.preemptForce core slot) s = .next (preemptForce s core slot) := event_runs rfl (bothInRange h h')
theorem exec_systemEventBegin {core : Nat} {s : State} (h : core < 1024) (h' : (s.core core).cycle % 8 = 7) :
    exec (.systemEventBegin core) s = .next (systemEventBegin s core) := event_runs rfl (bothInRange h h')
theorem exec_systemSlotRestart {core : Nat} {s : State} (h : core < 1024) :
    exec (.systemSlotRestart core) s = .next (systemSlotRestart s core) := event_runs rfl (decide_eq_true h)
theorem exec_conveyEntry (idx : Nat) (s : State) : exec (.conveyEntry idx) s = .next (conveyStep s idx) := rfl
theorem exec_dualEffectCompare (task group : Nat) (s : State) :
    exec (.dualEffectCompare task group) s = .next (dualCompare s task group) := rfl
theorem exec_dualPartnerTimeout (task group : Nat) (s : State) :
    exec (.dualPartnerTimeout task group) s = .next (dualTimeout s task group) := rfl
theorem exec_setfTakeEffect {core idx : Nat} {s : State} (h : core < 1024) :
    exec (.setfTakeEffect core idx) s = .next (setfTakeEffect s core idx) := event_runs rfl (decide_eq_true h)
theorem exec_streamCommandStart {core idx : Nat} {s : State} (h : core < 1024) :
    exec (.streamCommandStart core idx) s = .next (streamStart s core idx) := event_runs rfl (decide_eq_true h)
theorem exec_streamCommandComplete {core idx : Nat} {s : State} (h : core < 1024) :
    exec (.streamCommandComplete core idx) s = .next (streamComplete s core idx) := event_runs rfl (decide_eq_true h)
theorem exec_chunkWaitRelease {core idx : Nat} {s : State} (h : core < 1024) :
    exec (.chunkWaitRelease core idx) s = .next (chunkRelease s core idx) := event_runs rfl (decide_eq_true h)
theorem exec_copyCommandStart {core idx : Nat} {s : State} (h : core < 1024) :
    exec (.copyCommandStart core idx) s = .next (copyStarts s core idx) := event_runs rfl (decide_eq_true h)
theorem exec_copyCommandComplete {core idx : Nat} {s : State} (h : core < 1024) :
    exec (.copyCommandComplete core idx) s = .next (copyEnds s core idx) := event_runs rfl (decide_eq_true h)
theorem exec_collCommandStart {core idx : Nat} {s : State} (h : core < 1024) :
    exec (.collCommandStart core idx) s = .next (collStarts s core idx) := event_runs rfl (decide_eq_true h)
theorem exec_chunkLand {core idx chunk : Nat} {s : State} (h : core < 1024) :
    exec (.chunkLand core idx chunk) s = .next (chunkLands s core idx chunk) := event_runs rfl (decide_eq_true h)
theorem exec_inswitchTimeout {core idx : Nat} {s : State} (h : core < 1024) :
    exec (.inswitchTimeout core idx) s = .next (switchTimeout s core idx) := event_runs rfl (decide_eq_true h)
theorem exec_hostRecordSend {core idx : Nat} {s : State} (h : core < 1024) :
    exec (.hostRecordSend core idx) s = .next (hostSends s core idx) := event_runs rfl (decide_eq_true h)
theorem exec_xformStart {core idx : Nat} {s : State} (h : core < 1024) :
    exec (.xformStart core idx) s = .next (xformStarts s core idx) := event_runs rfl (decide_eq_true h)
theorem exec_xformComplete {core idx : Nat} {s : State} (h : core < 1024) :
    exec (.xformComplete core idx) s = .next (xformEnds s core idx) := event_runs rfl (decide_eq_true h)
theorem exec_matrixCommandStart {core idx : Nat} {s : State} (h : core < 1024) :
    exec (.matrixCommandStart core idx) s = .next (matrixStarts s core idx) := event_runs rfl (decide_eq_true h)
theorem exec_mcastWaitExpire {core idx : Nat} {s : State} (h : core < 1024) :
    exec (.mcastWaitExpire core idx) s = .next (mcastExpires s core idx) := event_runs rfl (decide_eq_true h)
theorem exec_mmaComplete {core idx : Nat} {s : State} (h : core < 1024) :
    exec (.mmaComplete core idx) s = .next (mmaEnds s core idx) := event_runs rfl (decide_eq_true h)
theorem exec_topkComplete {core idx : Nat} {s : State} (h : core < 1024) :
    exec (.topkComplete core idx) s = .next (matrixEnds s core idx opIsTopk) := event_runs rfl (decide_eq_true h)
theorem exec_drainComplete {core idx : Nat} {s : State} (h : core < 1024) :
    exec (.drainComplete core idx) s = .next (matrixEnds s core idx opIsDrain) := event_runs rfl (decide_eq_true h)
theorem exec_accSaveComplete {core idx : Nat} {s : State} (h : core < 1024) :
    exec (.accSaveComplete core idx) s = .next (matrixEnds s core idx opIsSave) := event_runs rfl (decide_eq_true h)
theorem exec_accRestoreComplete {core idx : Nat} {s : State} (h : core < 1024) :
    exec (.accRestoreComplete core idx) s = .next (matrixEnds s core idx opIsRestore) := event_runs rfl (decide_eq_true h)
theorem exec_mwaitMarkerFire {core idx : Nat} {s : State} (h : core < 1024) :
    exec (.mwaitMarkerFire core idx) s = .next (markerFires s core idx) := event_runs rfl (decide_eq_true h)
theorem exec_engineFaultPark {core idx : Nat} {s : State} (h : core < 1024) :
    exec (.engineFaultPark core idx) s = .next (parks s core idx) := event_runs rfl (decide_eq_true h)
theorem exec_engparkResume {core place : Nat} {s : State} (h : core < 1024) (h' : place < 16) :
    exec (.engparkResume core place) s = .next (engparkWrite s core (BitVec.ofNat 64 (place % 16 + 16))) := event_runs rfl (bothInRange h h')
theorem exec_engparkKill {core place : Nat} {s : State} (h : core < 1024) (h' : place < 16) :
    exec (.engparkKill core place) s = .next (engparkWrite s core (BitVec.ofNat 64 (place % 16 + 32))) := event_runs rfl (bothInRange h h')
theorem exec_licenceTermEnd {pair : Nat} {s : State} (h : pair < 512) :
    exec (.licenceTermEnd pair) s = .next (termEnds s pair) := event_runs rfl (decide_eq_true h)
theorem exec_licenceDrainGrant {pair : Nat} {s : State} (h : pair < 512) :
    exec (.licenceDrainGrant pair) s = .next (drainGrant s pair) := event_runs rfl (decide_eq_true h)
theorem exec_hostSubmit {queue : Nat} {cmd : BitVec 512} {s : State} (h : queue < 4096) :
    exec (.hostSubmit queue cmd) s = .next (hostSubmit s queue cmd) := event_runs rfl (decide_eq_true h)
theorem exec_hostDecr {queue : Nat} {cmd : BitVec 512} {s : State} (h : queue < 4096) :
    exec (.hostDecr queue cmd) s = .next (hostDecr s queue cmd) := event_runs rfl (decide_eq_true h)
theorem exec_hostClose {queue : Nat} {cmd : BitVec 512} {s : State} (h : queue < 4096) :
    exec (.hostClose queue cmd) s = .next (hostClose s queue cmd) := event_runs rfl (decide_eq_true h)
theorem exec_hostReset {queue : Nat} {cmd : BitVec 512} {s : State} (h : queue < 4096) :
    exec (.hostReset queue cmd) s = .next (hostReset s queue cmd) := event_runs rfl (decide_eq_true h)
theorem exec_hqctlOpen {queue : Nat} {value : Word} {s : State} (h : queue < 4096) :
    exec (.hqctlOpen queue value) s = .next (hqctlReq 1 s queue value) := event_runs rfl (decide_eq_true h)
theorem exec_hqctlTeardownSoft {queue : Nat} {value : Word} {s : State} (h : queue < 4096) :
    exec (.hqctlTeardownSoft queue value) s = .next (hqctlReq 2 s queue value) := event_runs rfl (decide_eq_true h)
theorem exec_hqctlTeardownHard {queue : Nat} {value : Word} {s : State} (h : queue < 4096) :
    exec (.hqctlTeardownHard queue value) s = .next (hqctlReq 3 s queue value) := event_runs rfl (decide_eq_true h)
theorem exec_teardownComplete {queue : Nat} {s : State} (h : queue < 4096) :
    exec (.teardownComplete queue) s = .next (teardownComplete s queue) := event_runs rfl (decide_eq_true h)
theorem exec_fwdogKick (value : Word) (s : State) : exec (.fwdogKick value) s = .next (fwdogKick s value) := rfl
theorem exec_fwdogExpire (s : State) : exec (.fwdogExpire ) s = .next (fwdogExpire s) := rfl
theorem exec_firmwareVerify (pss slh : Bool) (version : Nat) (s : State) :
    exec (.firmwareVerify pss slh version) s = .next (firmwareVerify s pss slh version) := rfl
theorem exec_attestationReport (nonce : BitVec 256) (s : State) :
    exec (.attestationReport nonce) s = .next (attestationReport s nonce) := rfl
theorem exec_endpointInstall (ep : Nat) (ctx : BitVec 16) (host : BitVec 32) (s : State) :
    exec (.endpointInstall ep ctx host) s = .next (endpointInstall s ep ctx host) := rfl
theorem exec_endpointRevoke (ep : Nat) (s : State) : exec (.endpointRevoke ep) s = .next (endpointRevoke s ep) := rfl
theorem exec_alarmRaise (source : Nat) (s : State) :
    exec (.alarmRaise source) s = .next (if source < 6 then alarmRaise s source else s) := rfl
theorem exec_coldStart (s : State) : exec (.coldStart ) s = .next (coldStart s) := rfl
theorem exec_tlbshootCtx (value : Word) (s : State) : exec (.tlbshootCtx value) s = .next (tlbshoot 0 s value) := rfl
theorem exec_tlbshootPage (value : Word) (s : State) : exec (.tlbshootPage value) s = .next (tlbshoot 1 s value) := rfl
theorem exec_tlbshootAll (value : Word) (s : State) : exec (.tlbshootAll value) s = .next (tlbshoot 2 s value) := rfl
theorem exec_tlbshootComplete (s : State) : exec (.tlbshootComplete ) s = .next (tlbshootComplete s) := rfl
theorem exec_poolLineWriteback {tower line : Nat} {bad : Bool} {s : State} (h : tower < 2) :
    exec (.poolLineWriteback tower line bad) s = .next (poolLineWriteback s tower line bad) := event_runs rfl (decide_eq_true h)
theorem exec_shadowRecordReplay {tower slice : Nat} {s : State} (h : tower < 2) :
    exec (.shadowRecordReplay tower slice) s = .next (shadowReplay s tower slice) := event_runs rfl (decide_eq_true h)
theorem exec_poolHotExpire {tower line : Nat} {s : State} (h : tower < 2) :
    exec (.poolHotExpire tower line) s = .next (poolHotExpire s tower line) := event_runs rfl (decide_eq_true h)
theorem exec_poolPush {tower : Nat} {value : Word} {s : State} (h : tower < 2) :
    exec (.poolPush tower value) s = .next (poolAct s tower 4 value) := event_runs rfl (decide_eq_true h)
theorem exec_poolDrop {tower : Nat} {value : Word} {s : State} (h : tower < 2) :
    exec (.poolDrop tower value) s = .next (poolAct s tower 5 value) := event_runs rfl (decide_eq_true h)
theorem exec_cklogWrite {channel : Nat} {value : Word} {s : State} (h : channel < 1024) :
    exec (.cklogWrite channel value) s = .next (cklogWrite s channel value) := event_runs rfl (decide_eq_true h)
theorem exec_rollbackStart (value : Word) (s : State) : exec (.rollbackStart value) s = .next (rollbackStart s value) := rfl
theorem exec_rollbackComplete (s : State) : exec (.rollbackComplete ) s = .next (rollbackComplete s) := rfl
theorem exec_scrubPass (line : Nat) (bad : Bool) (s : State) : exec (.scrubPass line bad) s = .next (scrubPass s line bad) := rfl
theorem exec_ctrareaWrite {core : Nat} {value : Word} {s : State} (h : core < 1024) :
    exec (.ctrareaWrite core value) s = .next (ctrareaWrite s core value) := event_runs rfl (decide_eq_true h)
theorem exec_portLinkChange {port : Nat} {up : Bool} {s : State} (h : port < 32) :
    exec (.portLinkChange port up) s = .next (portLinkChange s port up) := event_runs rfl (decide_eq_true h)
theorem exec_ucieRetrainFail (module : Nat) (s : State) :
    exec (.ucieRetrainFail module) s = .next (if module < 32 then ucieFail s module else s) := rfl
theorem exec_partctlOpen (value : Word) (s : State) : exec (.partctlOpen value) s = .next (partctlOpen s value) := rfl
theorem exec_partctlClose (value : Word) (s : State) : exec (.partctlClose value) s = .next (partctlClose s value) := rfl
theorem exec_registerWrite (off : Nat) (value : Word) (by_ : Nat) (s : State) :
    exec (.registerWrite off value by_) s = .next (registerWrite s off value by_) := rfl
theorem exec_lineWriteBack (level unit_ line : Nat) (bad : Bool) (s : State) :
    exec (.lineWriteBack level unit_ line bad) s = .next (lineWriteBack s level unit_ line bad) := rfl
theorem exec_ucieModuleReturn (module : Nat) (s : State) : exec (.ucieModuleReturn module) s = .next (ucieReturn s module) := rfl
theorem exec_pwrreqStepWrite {cluster : Nat} {value : Word} {s : State} (h : cluster < 128) :
    exec (.pwrreqStepWrite cluster value) s = .next (stepWrite s cluster value) := event_runs rfl (decide_eq_true h)
theorem exec_pwrreqGo {cluster : Nat} {value : Word} {s : State} (h : cluster < 128) :
    exec (.pwrreqGo cluster value) s = .next (pwrreqGo s cluster value) := event_runs rfl (decide_eq_true h)
theorem exec_rampComplete {cluster : Nat} {s : State} (h : cluster < 128) :
    exec (.rampComplete cluster) s = .next (rampComplete s cluster) := event_runs rfl (decide_eq_true h)
theorem exec_currentSample {cluster amps : Nat} {s : State} (h : cluster < 128) :
    exec (.currentSample cluster amps) s = .next (currentSample s cluster amps) := event_runs rfl (decide_eq_true h)
theorem exec_currentStepDown {cluster : Nat} {s : State} (h : cluster < 128) :
    exec (.currentStepDown cluster) s = .next (currentStepDown s cluster) := event_runs rfl (decide_eq_true h)
theorem exec_thermalOffline {die temp : Nat} {s : State} (h : die < 4) :
    exec (.thermalOffline die temp) s = .next (thermalOffline s die temp) := event_runs rfl (decide_eq_true h)
theorem exec_thermalClamp {die temp : Nat} {s : State} (h : die < 4) :
    exec (.thermalClamp die temp) s = .next (thermalClamp s die temp) := event_runs rfl (decide_eq_true h)
theorem exec_thermalCut {die temp : Nat} {s : State} (h : die < 4) :
    exec (.thermalCut die temp) s = .next (thermalCut s die temp) := event_runs rfl (decide_eq_true h)
theorem exec_offlineTimeoutCut {die : Nat} {s : State} (h : die < 4) :
    exec (.offlineTimeoutCut die) s = .next (offlineTimeout s die) := event_runs rfl (decide_eq_true h)
theorem exec_thermstReadmit {die : Nat} {value : Word} {s : State} (h : die < 4) :
    exec (.thermstReadmit die value) s = .next (thermstReadmit s die value) := event_runs rfl (decide_eq_true h)
theorem exec_wrstGo {die : Nat} {value : Word} {s : State} (h : die < 4) :
    exec (.wrstGo die value) s = .next (wrstGo s die value) := event_runs rfl (decide_eq_true h)
theorem exec_warmResetPhase {die : Nat} {ok : Bool} {s : State} (h : die < 4) :
    exec (.warmResetPhase die ok) s = .next (warmPhase s die ok) := event_runs rfl (decide_eq_true h)
theorem exec_dieReset {die : Nat} {s : State} (h : die < 4) :
    exec (.dieReset die) s = .next (dieReset s die) := event_runs rfl (decide_eq_true h)
theorem exec_warmZone {die temp : Nat} {s : State} (h : die < 4) :
    exec (.warmZone die temp) s = .next (warmZone s die temp) := event_runs rfl (decide_eq_true h)
theorem exec_messageDeliver {core chan idx : Nat} {s : State} (h : core < 1024) (h' : chan < 16) :
    exec (.messageDeliver core chan idx) s = .next (drainAll (messageDeliver s core chan idx)) := event_runs rfl (bothInRange h h')
theorem exec_fabricMsgReceive (p : Packet) (s : State) : exec (.fabricMsgReceive p) s = .next (arrivePacket 1 s p) := rfl
theorem exec_putReceive (p : Packet) (s : State) : exec (.putReceive p) s = .next (arrivePacket 2 s p) := rfl
theorem exec_cputReceive (p : Packet) (s : State) : exec (.cputReceive p) s = .next (arrivePacket 3 s p) := rfl
theorem exec_atomReceive (p : Packet) (s : State) : exec (.atomReceive p) s = .next (arrivePacket 4 s p) := rfl
theorem exec_replyReceive (p : Packet) (s : State) : exec (.replyReceive p) s = .next (arrivePacket 5 s p) := rfl
theorem exec_collPacketReceive {core : Nat} {p : Packet} {s : State} (h : core < 1024) :
    exec (.collPacketReceive core p) s = .next (arriveColl false core s p) := event_runs rfl (decide_eq_true h)
theorem exec_collAbortReceive {core : Nat} {p : Packet} {s : State} (h : core < 1024) :
    exec (.collAbortReceive core p) s = .next (arriveColl true core s p) := event_runs rfl (decide_eq_true h)
theorem exec_nameWindowWrite (pa size : Nat) (value : Word) (by_ : Nat) (s : State) :
    exec (.nameWindowWrite pa size value by_) s = .next (nameWindowWrite s pa size value by_) := rfl
theorem exec_nameWindowRead (pa size by_ : Nat) (s : State) :
    exec (.nameWindowRead pa size by_) s = .next (nameWindowRead s pa size by_) := rfl
theorem exec_rawRowAccess (pa : Nat) (store : Bool) (value : Word) (by_ : Nat) (s : State) :
    exec (.rawRowAccess pa store value by_) s = .next (rawRowAccess s pa store value by_) := rfl
theorem exec_accWindowRead (pa size by_ : Nat) (s : State) :
    exec (.accWindowRead pa size by_) s = .next (accWindowRead s pa size by_) := rfl
theorem exec_accWindowWrite (pa size : Nat) (value : Word) (by_ : Nat) (s : State) :
    exec (.accWindowWrite pa size value by_) s = .next (accWindowWrite s pa size value by_) := rfl
theorem exec_inboxEntryEnter {core : Nat} {s : State} (h : core < 1024) :
    exec (.inboxEntryEnter core) s = .next (inboxEntryEnter s core) := event_runs rfl (decide_eq_true h)

end Sys2Proof.Machine
end


section
/-! SUPPORT. The dispatcher's events: submissions, deals, slots filled and run lists (R39 to R47, R323 to R329). -/

namespace Sys2Proof.Machine

/-! ## Submissions and counters (R39, R323, R395) -/

section
variable {s : State} {n place : Nat} {q : Submission} (hq : s.submissions.find? (fun q => q.home = n) = some q)
  (hplace : freePlace s n = some place)
include hq hplace

theorem submissionGo_thread {c k d : Nat} {duty : Bool} (hby : q.by_ = .thread c k d duty) :
    submissionGo s n = s.modSlot c k (fun x => { x with stalled := false }) := by
  simp only [submissionGo, hq, hplace, hby]

/-- The state without the oldest submission to a core. -/
def submissionTaken (s : State) (n : Nat) : State := { s with submissions := dropFirst (fun x => x.home = n) s.submissions }

variable {h : Nat} {tag : BitVec 32} (hby : q.by_ = .host h tag)
include hby

theorem submissionGo_host (hopen : (s.hostQueue h).state = .open_) : submissionGo s n =
    acceptTask (sendReply (acquire (submissionTaken s n) n 7) h (replyBytes (submissionTaken s n) 1 tag q.record 0 0 0 0)) q.record q.recordPa
      q.ctx n 0 (some h) true tag place [] := by
  simp only [submissionGo, hq, hplace, hby]
  exact if_pos hopen

theorem submissionGo_refused (hopen : (s.hostQueue h).state ≠ .open_) : submissionGo s n =
    sendReply (refuseRecord (submissionTaken s n) q.recordPa q.ctx) h (replyBytes (submissionTaken s n) 3 tag q.record 6 0 0 0) := by
  simp only [submissionGo, hq, hplace, hby]
  exact if_neg hopen

end

/-! ## Deals (R41, R326, R327) -/

/-- A task entry taken from its run list for a deal. -/
def dealTaken (s : State) (n id : Nat) (e : RunEntry) : State :=
  let a := (removeRun s n e.what).modCore n (fun c => { c with dealAt := c.cycle + 16, dealWait := 0 })
  let b := writeStatus (a.modTask id (fun t => { t with state := .dealt, prio := e.prio, aged := e.aged, started := false })) id
  if recCkpt (s.task id).snap then openInterval b (s.task id).ctx else b

/-- The deal of a task from its first group. -/
def dealBegins (s : State) (n id : Nat) (e : RunEntry) : State × Option Deal :=
  dealGo (dealTaken s n id e) { task := id, group := 0, prio := e.prio, aged := e.aged } ((s.task id).count + 1)

section
variable {s v : State} {n id : Nat} {e : RunEntry} (he : runHead ((s.core n).runList.filter isTask) = some e) (hw : e.what = .task id)
  (hat : (s.core n).dealAt ≤ (s.core n).cycle)
include he hw hat

theorem dealTask_stale (hr : (s.task id).state ≠ .ready) : dealTask s n = removeRun s n e.what := by
  simp only [dealTask, if_neg (Nat.not_lt.mpr hat), he, hw, hr, ne_eq, not_false_eq_true, if_true]

variable (hr : (s.task id).state = .ready)
include hr

theorem dealTask_ends (hd : dealBegins s n id e = (v, none)) : dealTask s n = v := by
  unfold dealBegins dealTaken at hd
  rw [hw] at hd
  simp only [dealTask, if_neg (Nat.not_lt.mpr hat), he, hw, hr, ne_eq, not_true, if_false, hd]

theorem dealTask_held {d : Deal} (hd : dealBegins s n id e = (v, some d)) : dealTask s n = holdDeal v (towerOf n) d := by
  unfold dealBegins dealTaken at hd
  rw [hw] at hd
  simp only [dealTask, if_neg (Nat.not_lt.mpr hat), he, hw, hr, ne_eq, not_true, if_false, hd]

end

theorem successorStart_starts {s : State} {id : Nat} (hs : (s.task id).started = false) (hd : (s.task id).state = .dealt)
    (hlate : ((s.task id).owes.filter (deferredTo s id)).any (fun p => decide (6 ≤ predToken s id p) && p.ran.any (putsOut s)) = false) :
    successorStart s id = (((s.task id).owes.filter (deferredTo s id)).foldl
      (fun r p => p.ran.foldl (fun r n => release r n (predToken s id p)) r) s).modTask id (fun t => { t with started := true }) := by
  simp only [successorStart, hs, hd, hlate, Bool.false_eq_true, ne_eq, not_true, or_self, if_false]

/-- Settles O45: submissions, counters and deals by what waits and whether it may go on. -/
theorem submissionsAndDeals : Obligations.SubmissionsAndDeals := by
  refine ⟨⟨fun n place q s hn hq hplace => ⟨fun c k d duty hby => ?_, fun h tag hby => ⟨fun hopen => ?_, fun hopen => ?_⟩⟩,
      fun pa b s => ⟨fun hg => ?_, fun d hg => ?_⟩⟩,
    fun n id e s v hn he hw hat => ⟨fun hr => ?_, fun hr => ⟨fun hd => ?_, fun d hd => ?_⟩⟩,
    fun i w d s v hi => ⟨fun hd => ?_, fun d' hd => ?_⟩, fun id s hs hd hlate => ?_⟩
  · exact next_eq (exec_submissionPlaceWait hn) (submissionGo_thread hq hplace hby)
  · exact next_eq (exec_submissionPlaceWait hn) (submissionGo_host hq hplace hby hopen)
  · exact next_eq (exec_submissionPlaceWait hn) (submissionGo_refused hq hplace hby hopen)
  · exact next_eq (exec_taskCounterDecrement pa b s) (by simp only [decrementGo, hg])
  · exact next_eq (exec_taskCounterDecrement pa b s) (by simp only [decrementGo, hg])
  · exact next_eq (exec_dealTask hn) (dealTask_stale he hw hat hr)
  · exact next_eq (exec_dealTask hn) (dealTask_ends he hw hat hr hd)
  · exact next_eq (exec_dealTask hn) (dealTask_held he hw hat hr hd)
  · exact next_eq (exec_dealResume i s) (by simp only [dealResume, hi, hd])
  · exact next_eq (exec_dealResume i s) (by simp only [dealResume, hi, hd])
  · exact next_eq (exec_successorStart id s) (successorStart_starts hs hd hlate)

/-! ## Slots filled (R44, R72) -/

section
variable {s : State} {n k img : Nat} (hnext : nextThread s n = some img) (hfree : freeSlot s n = some k) (hmay : mayEnter s n img = true)
include hnext hfree hmay

theorem slotFill_starts (hs : (s.thread img).started = false) : slotFill s n = startThread s n k img := by
  simp only [slotFill, hnext, hfree, hmay, hs, Bool.not_true, Bool.not_false, Bool.false_eq_true, if_false, if_true]

variable (hs : (s.thread img).started = true)
include hs

theorem slotFill_resumes (hh : resumesHere s n k img = true) : slotFill s n = resumeThread s n k img := by
  simp only [slotFill, hnext, hfree, hmay, hs, hh, Bool.not_true, Bool.false_eq_true, if_false, if_true]

theorem resumeAfterWriteback_resumes {i : Nat} {e : RunEntry} (he : (s.core n).runList[i]? = some e) (hw : e.what = .thread img)
    (hh : resumesHere s n k img = false) (hsave : savesTiles s (s.thread img).lastCore img = false) : resumeAfterWriteback s n i =
      resumeThread (release (dropRows (((s.core (s.thread img).lastCore).former.filter (fun f => f.img = img)).foldl
        (fun u f => writeRows u (s.thread img).lastCore f) s) img) (s.thread img).lastCore 5) n k img := by
  simp only [resumeAfterWriteback, hnext, hfree, he, hw, hs, hh, hsave, hmay, ne_eq, not_true, Bool.not_true, Bool.false_eq_true, or_self,
    if_false]

end

/-! ## Aging, calls and overflow (R45, R47, R328) -/

theorem agePromote_moves {s : State} {n i : Nat} {e : RunEntry} (he : (s.core n).runList[i]? = some e) (hmay : mayAge s n e = true) :
    agePromote s n i = promoteThread (s.modCore n (fun c =>
      { c with runList := (s.core n).runList.take i ++ (s.core n).runList.drop (i + 1) ++ [promoted e] })) n e := by
  simp only [agePromote, he, hmay, if_true]

section
variable {s : State} {n : Nat} {e : CallEntry} {r : List CallEntry} (hq : (s.core n).taskQ = e :: r) (hopen : runOpen s n = true)
include hq hopen

/-- Without an image the call waits, and the system slot is told. -/
theorem callEntryTake_tells (h : coreOfCtx s n e.ctx = none ∨ (∃ c, coreOfCtx s n e.ctx = some c ∧ takeImage s c = none))
    (ht : (s.core n).imagesTold = false) : callEntryTake s n =
      (inboxSend s n (inboxHead 0x26 0 0 0) (BitVec.ofNat 64 e.ctx.toNat) 0).modCore n (fun c => { c with imagesTold := true }) := by
  rcases h with hc | ⟨c, hc, hi⟩
  · simp only [callEntryTake, hq, hopen, hc, ht, Bool.not_true, Bool.false_eq_true, if_false]
  · simp only [callEntryTake, hq, hopen, hc, hi, ht, Bool.not_true, Bool.false_eq_true, if_false]

/-- The thread of a call. -/
def calleeOf (n : Nat) (e : CallEntry) (h : BitVec 32) : Thread :=
  { handle := h, ctx := e.ctx, prio := e.prio, lastCore := n, defHeir := e.defHeir, callee := e.reply, args := e.args, seedH := h,
    acq := scopeOf [e.fromCore, n] }

theorem callEntryTake_enters {c : Nat} {t : State} {h : BitVec 32} (hc : coreOfCtx s n e.ctx = some c) (hi : takeImage s c = some (t, h)) :
    callEntryTake s n = wakeCaller (enterThread
      ((newThread t n (t.core c).imgBase.toNat h e.pc e.mapPtr 0 e.parent (calleeOf n e h)).modCore n
        (fun c => { c with taskQ := r, imagesTold := false })) n ((t.core c).imgBase.toNat + h.toNat * 0x400)) n := by
  simp only [callEntryTake, hq, hopen, hc, hi, Bool.not_true, Bool.false_eq_true, if_false]
  rfl

end

/-- Settles O46: a free slot, a run list, a task queue and the overflow by what stands next in order. -/
theorem slotFillsAndRunLists : Obligations.SlotFillsAndRunLists := by
  refine ⟨⟨fun n k img s hn hnext hfree hmay => ⟨fun hs => ?_, fun hs hh => ?_⟩,
      fun n k i img e s hn hnext hfree he hw hmay hs hh hsave => ?_⟩,
    fun n i e s hn he hmay => ?_, fun n e r s hn hq hopen => ⟨fun hc ht => ?_, fun c t h hc hi => ?_⟩, fun w n e s hw hf => ?_⟩
  · exact next_eq (exec_slotFill hn) (slotFill_starts hnext hfree hmay hs)
  · exact next_eq (exec_slotFill hn) (slotFill_resumes hnext hfree hmay hs hh)
  · exact next_eq (exec_resumeAfterWriteback hn) (resumeAfterWriteback_resumes hnext hfree hmay hs he hw hh hsave)
  · exact next_eq (exec_agePromote hn) (agePromote_moves he hmay)
  · exact next_eq (exec_callEntryTake hn) (callEntryTake_tells hq hopen hc ht)
  · exact next_eq (exec_callEntryTake hn) (callEntryTake_enters hq hopen hc hi)
  · exact next_eq (exec_overflowEnter hw) (by simp only [overflowEnter, hf])

end Sys2Proof.Machine
end


section
/-! SUPPORT. The events of the slots: wakes, rows, repacks, late results, messages; timers, pre-emption and the system slot's events
(R49 to R78, R107, R173, R255, R293 to R300). -/

namespace Sys2Proof.Machine

/-! ## Wakes and rows (R49, R70, R71) -/

theorem wakeRecheck_wakes {s : State} {n k : Nat} (hk : k < 7) (hp : (s.slot n k).phase = .blocked) (hm : mayWake (s.slot n k) = true)
    (hr : slotRemoved s n k = false) : wakeRecheck s n k =
      (s.modSlot n k (fun x => { x with phase := .running, woken := false, nextTurn := x.turn + 1 })).modThread (s.slot n k).img
        (fun t => { t with state := 2 }) := by
  simp only [wakeRecheck, hp, hm, hk, hr, Bool.not_false, and_self, true_or, if_true]

theorem rowFill_fills {s : State} {n k r : Nat} {bad : Bool} (hd : (s.slot n k).demand = some r) (hf : formerHeld s n = false)
    (hj : heldAtJoin s n (placeOf s (demandPa s n k r)) = false) : rowFill s n k bad =
      if r < 32 then fillRow (if bad then eccNote s n 1 else s) n k r bad
      else fillBorrow (if bad then eccNote s n 1 else s) n k (r - 32) bad := by
  simp only [rowFill, hd, hf, hj, Bool.false_eq_true, or_self, if_false]

theorem rowIdleWriteback_former {s : State} {n i : Nat} {f : FormerRows} (h : (s.core n).former[i]? = some f) :
    rowIdleWriteback s n i = writeRows s n f := by
  simp only [rowIdleWriteback, h]

/-- The borrowed rows of saved threads are numbered behind the former rows. -/
theorem rowIdleWriteback_borrowed {s : State} {n i img : Nat} {b : Borrow} (h : (savedBorrows s n)[i]? = some img)
    (hb : (s.thread img).borrow = some b) : rowIdleWriteback s n ((s.core n).former.length + i) =
      (writeBorrow s n b).modThread img (fun t => { t with borrow := some { b with dirty := 0 } }) := by
  have hnone : (s.core n).former[(s.core n).former.length + i]? = none := List.getElem?_eq_none (Nat.le_add_right _ _)
  simp only [rowIdleWriteback, hnone, Nat.add_sub_cancel_left, h, writeSavedBorrow, hb]

/-! ## Errors of check codes (R78, R369, R370) -/

theorem repackSpoil_marks {s : State} {n k : Nat} {r : Repack} (h : (s.slot n k).repack = some r) (bad : BitVec 32) :
    repackSpoil s n k bad = (eccNote s n (if r.region = .pair then 6 else 1)).modSlot n k
      (fun x => { x with repack := some { r with bad := r.bad ||| bad } }) := by
  simp only [repackSpoil, h, beq_iff_eq]

section
variable {s : State} {n : Nat} (hn : n < 1024)
include hn

theorem flaw_corrected {what : Nat} (h1 : 1 ≤ what) (h6 : what ≤ 6) : flaw s (.corrected n what) none = eccCount s n 0 what := by
  simp only [flaw, flawLog, h1, h6, and_self, if_true, Option.none_or, hn, flawAct]

theorem flaw_row {k r : Nat} (hr : r < 32) (hres : (s.slot n k).resident.getLsbD r = true) : flaw s (.row n k r) none =
    eccCount (s.modSlot n k (fun x => { x with poisoned := x.poisoned ||| BitVec.ofNat 32 (2 ^ r) })) n 16 1 := by
  have hact : flawRow s n k r = s.modSlot n k (fun x => { x with poisoned := x.poisoned ||| BitVec.ofNat 32 (2 ^ r) }) := by
    simp only [flawRow, State.modSlot, hr, hres, if_true]
  simp only [flaw, flawLog, Option.none_or, hn, flawAct, hact, Nat.le_refl, Nat.one_le_ofNat, and_self, if_true]

theorem flaw_pairRow {r : Nat} (hr : r < 8) : flaw s (.pairRow n r) none =
    eccCount (s.modPair (pairOf n) (fun p => { p with poison := p.poison ||| BitVec.ofNat 8 (2 ^ r) })) n 16 6 := by
  simp only [flaw, flawLog, Option.none_or, hn, flawAct, Nat.mod_eq_of_lt hr, Nat.le_refl, Nat.one_le_ofNat, and_self, if_true]

/-- The error is counted for the structure of the old copy of a move that has written the tile. -/
theorem flaw_acc {e what : Nat} (he : e < 16384) (h1 : 1 ≤ what) (h6 : what ≤ 6) : flaw s (.acc n e) (some (n, what)) =
    eccCount (s.modCore n (fun c => { c with tilePoison := c.tilePoison ||| BitVec.ofNat 16384 (2 ^ e) })) n 16 what := by
  simp only [flaw, Option.some_or, hn, flawAct, Nat.mod_eq_of_lt he, h1, h6, and_self, if_true]

end

/-! ## Messages (R173) -/

section
variable {s : State} {n ch i : Nat} {m : Msg} (hm : ((s.core n).chan ch).travel[i]? = some m)
  (hfirst : ∀ x ∈ ((s.core n).chan ch).travel.take i, x.fromCore = m.fromCore → x.fromSlot = m.fromSlot → x.flits = []) (hne : m.flits ≠ [])
  (hjoin : m.fromCore < 1024 → coresApart s n m.fromCore = false)
include hm hfirst hne hjoin

omit hm in
/-- Nothing keeps the message from arriving. -/
theorem arrival_free : ¬(m.flits = [] ∨ (((s.core n).chan ch).travel.take i).any
      (fun x => x.fromCore = m.fromCore && x.fromSlot = m.fromSlot && !x.flits.isEmpty) = true ∨
    (m.fromCore < 1024 ∧ coresApart s n m.fromCore = true)) := by
  rintro (h | h | ⟨h, ha⟩)
  · exact hne h
  · obtain ⟨x, hx, hp⟩ := List.any_eq_true.mp h
    simp only [Bool.and_eq_true, decide_eq_true_eq, Bool.not_eq_true', List.isEmpty_eq_false_iff] at hp
    obtain ⟨⟨hc, hs⟩, hf⟩ := hp
    exact hf (hfirst x hx hc hs)
  · exact Bool.eq_false_iff.mp (hjoin h) ha

theorem messageDeliver_whole (h : m.flits.length = 1 ∨ m.headed = true) : messageDeliver s n ch i =
    wakeRecv (s.modCore n (fun x => x.setChan ch
      { ready := ((s.core n).chan ch).ready ++ [m],
        travel := ((s.core n).chan ch).travel.take i ++ ((s.core n).chan ch).travel.drop (i + 1) })) n ch := by
  have hlast : ¬(1 < m.flits.length ∧ (!m.headed) = true) := by
    rintro ⟨hl, hh⟩
    rcases h with h | h
    · omega
    · rw [h] at hh
      cases hh
  simp only [messageDeliver, hm]
  rw [if_neg (arrival_free hfirst hne hjoin), if_neg hlast]

theorem messageDeliver_head (hl : 1 < m.flits.length) (hh : m.headed = false) : messageDeliver s n ch i =
    wakeRecv (s.modCore n (fun x => x.setChan ch
      { (s.core n).chan ch with travel :=
          ((s.core n).chan ch).travel.take i ++ { m with headed := true } :: ((s.core n).chan ch).travel.drop (i + 1) })) n ch := by
  simp only [messageDeliver, hm]
  rw [if_neg (arrival_free hfirst hne hjoin), if_pos ⟨hl, by rw [hh]; rfl⟩]

end

/-- Settles O47: each event of a slot by what stands there. -/
theorem slotEvents : Obligations.SlotEvents := by
  refine ⟨fun n k s hn hk hp hm hr => ?_, fun n k r bad s hn hk hd hf hj => ?_, fun n i f s hn h => ?_, fun n i img b s hn h hb => ?_,
    fun n s hn => ⟨exec_repackComplete hn, fun k r h => ?_⟩, fun n k r bad l s ha h => ?_,
    fun n i j l s hn => ⟨fun h1 h6 ha => ?_, fun hi hres ha => ?_, fun hi ha => ?_, fun hi h1 h6 ha => ?_⟩,
    fun n k i p s hn hk hp hd => ?_, fun n ch i m s hn hch hm hfirst hne hjoin => ⟨fun h => ?_, fun hl hh => ?_⟩⟩
  · exact next_eq (exec_wakeRecheck hn (by omega)) (wakeRecheck_wakes hk hp hm hr)
  · exact next_eq (exec_rowFill hn hk) (rowFill_fills hd hf hj)
  · exact next_eq (exec_rowIdleWriteback hn) (rowIdleWriteback_former h)
  · exact next_eq (exec_rowIdleWriteback hn) (rowIdleWriteback_borrowed h hb)
  · simp only [repackSlot, h]
  · exact next_eq (step_agenda ha) (repackSpoil_marks (s := { s with agenda := l }) h bad)
  · exact next_eq (step_agenda ha) (flaw_corrected hn h1 h6)
  · exact next_eq (step_agenda ha) (flaw_row hn hi hres)
  · exact next_eq (step_agenda ha) (flaw_pairRow hn hi)
  · exact next_eq (step_agenda ha) (flaw_acc hn hi h1 h6)
  · refine next_eq (exec_accessResultArrival hn hk) ?_
    simp only [resultArrival, hp, hd, Option.isSome_none, Bool.false_eq_true, if_false]
  · exact next_eq (exec_messageDeliver hn hch) (congrArg drainAll (messageDeliver_whole hm hfirst hne hjoin h))
  · exact next_eq (exec_messageDeliver hn hch) (congrArg drainAll (messageDeliver_head hm hfirst hne hjoin hl hh))

/-! ## Timers and pre-emption (R255, R298, R300) -/

section
variable {s : State} {n k : Nat} (hk : k < 7)
include hk

section
variable (hen : fld (s.slot n k).timer 40 1 = 1) (h0 : fld (s.slot n k).timer 0 40 = 0) (hfree : (s.slot n k).phase ≠ .free)
  (hheld : (s.slot n k).phase ≠ .held)
include hen h0 hfree hheld

omit hk h0 in
theorem timerRuns_of : timerRuns (s.slot n k) = true := by
  simp only [timerRuns, hen, decide_true, Bool.true_and, Bool.and_eq_true, bne_iff_ne]
  exact ⟨hfree, hheld⟩

theorem timerExpire_event (hpre : fld (s.slot n k).timer 41 1 = 0) : timerExpire s n k =
    (s.modSlot n k (fun x => { x with timer := setFld x.timer 40 1 0 })).modCore n
      (fun c => { c with timePend := c.timePend ||| BitVec.ofNat 7 (2 ^ k) }) := by
  simp only [timerExpire, hk, timerRuns_of hen hfree hheld, h0, and_self, if_true, hpre, Nat.zero_ne_one, if_false]

theorem timerExpire_preempts (hpre : fld (s.slot n k).timer 41 1 = 1) : timerExpire s n k =
    (s.modSlot n k (fun x => { x with timer := setFld x.timer 40 1 0 })).modSlot n k (fun x => { x with
      preTimer := true, preSince := if x.preTimer || x.preTerm then x.preSince
        else ((s.modSlot n k (fun x => { x with timer := setFld x.timer 40 1 0 })).core n).cycle }) := by
  simp only [timerExpire, hk, timerRuns_of hen hfree hheld, h0, and_self, if_true, hpre]

end

section
variable (ha : preAsked (s.slot n k) = true) (hb : atBoundary s n k = true) (hr : slotRemoved s n k = false)
include ha hb hr

theorem preemptTake_takes (hl : holdsLic s (pairOf n) (slotReq s n k) = false) : preemptTake s n k = takePreempt s n k 0 := by
  simp only [preemptTake, hk, ha, hl, hb, hr, Bool.not_false, and_self, if_true]

theorem preemptForce_takes (hl : holdsLic s (pairOf n) (slotReq s n k) = true) (hp : (s.slot n k).pptWait = false)
    (hd : (s.slot n k).preSince + 1048576 ≤ (s.core n).cycle) (hm : matrixBusy s n k = false) :
    preemptForce s n k = takePreempt s n k 15 := by
  have hdue : forceDue s n k = true := by
    simp only [forceDue, hk, ha, hl, hp, hd, decide_true, Bool.not_false, Bool.and_self]
  simp only [preemptForce, hdue, hb, hm, hr, Bool.not_false, and_self, if_true]

end

end

/-! ## The events of the system slot (R293 to R295) -/

/-- The system slot at the beginning of an event: at SYSVEC, with the event shown and its mark cleared. -/
def eventBegun (s : State) (n kind k : Nat) : State :=
  (s.modCore n (fun c =>
    { c with
      evActive := true, evKind := BitVec.ofNat 2 kind, evSlot := BitVec.ofNat 3 k, resetPend := c.resetPend && kind ≠ 0,
      trapPend := if kind = 1 then c.trapPend &&& ~~~(BitVec.ofNat 7 (2 ^ k)) else c.trapPend,
      timePend := if kind = 2 then c.timePend &&& ~~~(BitVec.ofNat 7 (2 ^ k)) else c.timePend })).modSlot n 7
    (fun x => { x with phase := .running, wait := .none, woken := false, pc := s.ctrlWord (0x1000 * n) 0, nextTurn := x.turn + 1,
                       latch := [], issued := false, stalled := false, resident := 0xFFFF })

section
variable {s : State} {n : Nat} (ha : (s.core n).evActive = false) (hs : (s.core n).stopped = false) (hup : siteUp s n = true)
  (hp : (s.slot n 7).pending = [])
include ha hs hup hp

theorem systemEventBegin_eq {kind k : Nat} (hne : nextEvent (s.core n) = some (kind, k)) : systemEventBegin s n =
    if kind ≠ 0 then eventBegun s n kind k
    else match resetMap (eventBegun s n kind k) n with
      | .ok t => t
      | .error e => trapSystem (eventBegun s n kind k) n false e.1 e.2 (s.ctrlWord (0x1000 * n) 0) := by
  have hgo : ¬((s.core n).evActive = true ∨ (s.core n).stopped = true ∨ (!siteUp s n) = true ∨ (s.slot n 7).pending ≠ []) := by
    simp [ha, hs, hup, hp]
  have hvec (f : Core → Core) : sysvecWord (s.modCore n f) n = s.ctrlWord (0x1000 * n) 0 := rfl
  refine (if_neg hgo).trans ?_
  simp only [hne, hvec]
  unfold eventBegun
  split
  · rfl
  · split
    next t ht => simp only [ht]
    next c v he => simp only [he]

theorem systemEventBegin_reset {k : Nat} (hne : nextEvent (s.core n) = some (0, k)) :
    (∀ t, resetMap (eventBegun s n 0 k) n = .ok t → systemEventBegin s n = t) ∧
    (∀ e, resetMap (eventBegun s n 0 k) n = .error e →
      systemEventBegin s n = trapSystem (eventBegun s n 0 k) n false e.1 e.2 (s.ctrlWord (0x1000 * n) 0)) := by
  have heq := systemEventBegin_eq ha hs hup hp hne
  rw [if_neg (not_not.mpr rfl)] at heq
  exact ⟨fun t ht => by rw [heq, ht], fun e he => by rw [heq, he]⟩

theorem systemEventBegin_other {kind k : Nat} (hk : kind ≠ 0) (hne : nextEvent (s.core n) = some (kind, k)) :
    systemEventBegin s n = eventBegun s n kind k := by
  rw [systemEventBegin_eq ha hs hup hp hne, if_pos hk]

end

section
variable {c : Core}

theorem nextEvent_reset (h : c.resetPend = true) : nextEvent c = some (0, 0) := if_pos h

variable (hr : c.resetPend = false)
include hr

theorem nextEvent_trap {k : Nat} (h : lowestBit c.trapPend = some k) : nextEvent c = some (1, k) := by
  simp only [nextEvent, hr, h, Bool.false_eq_true, if_false]

variable (ht : lowestBit c.trapPend = none)
include ht

theorem nextEvent_timer {k : Nat} (h : lowestBit c.timePend = some k) : nextEvent c = some (2, k) := by
  simp only [nextEvent, hr, ht, h, Bool.false_eq_true, if_false]

theorem nextEvent_inbox (h : lowestBit c.timePend = none) (hi : c.inbox ≠ []) : nextEvent c = some (3, 0) := by
  simp only [nextEvent, hr, ht, h, hi, Bool.false_eq_true, if_false, ne_eq, not_false_eq_true, if_true]

end

/-- A stopped system slot, to be restarted with a RESET event. -/
def restarted (s : State) (n : Nat) : State :=
  (s.modCore n (fun c => { c with stopped := false, evActive := false, resetPend := true })).modSlot n 7
    (fun x => { x with phase := .blocked, wait := .none, pending := [], latch := [], issued := false })

section
variable {s : State} {n : Nat} (hs : (s.core n).stopped = true)
include hs

theorem systemSlotRestart_eq : systemSlotRestart s n = systemEventBegin (restarted s n) n := if_pos hs

omit hs in
theorem restarted_core : ((restarted s n).core n).evActive = false ∧ ((restarted s n).core n).stopped = false ∧
    ((restarted s n).core n).resetPend = true ∧ ((restarted s n).slot n 7).pending = [] := by
  simp [restarted, modSlot_core, Core.setSlot]

end

theorem siteUp_restarted {s : State} {n : Nat} : siteUp (restarted s n) n = siteUp s n := by
  have hoffline : ((restarted s n).core n).offline = (s.core n).offline := by
    simp [restarted, modSlot_core, Core.setSlot]
  rw [siteUp, siteUp, hoffline]
  rfl

/-- Settles O48: timers and pre-emption by the slot's requests, the system slot's events in their order. -/
theorem timersAndSystemEvents : Obligations.TimersAndSystemEvents := by
  refine ⟨⟨fun n k s hn hk hen h0 hfree hheld => ⟨fun hpre => ?_, fun hpre => ?_⟩,
      fun n k s hn hk ha hb hr => ⟨fun hl => ?_, fun hl hp hd hm => ?_⟩⟩,
    fun n s hn hc ha hs hup hp => ⟨fun hr => ⟨fun t ht => ?_, fun e he => ?_⟩, fun hr k hk => ?_, fun hr ht k hk => ?_,
      fun hr ht hk hi => ?_⟩, fun n s hn hs => ⟨fun hup => ⟨fun t ht => ?_, fun e he => ?_⟩, fun hup => ?_⟩⟩
  · exact next_eq (exec_timerExpire hn (by omega)) (timerExpire_event hk hen h0 hfree hheld hpre)
  · exact next_eq (exec_timerExpire hn (by omega)) (timerExpire_preempts hk hen h0 hfree hheld hpre)
  · exact next_eq (exec_preemptTake hn (by omega)) (preemptTake_takes hk ha hb hr hl)
  · exact next_eq (exec_preemptForce hn (by omega)) (preemptForce_takes hk ha hb hr hl hp hd hm)
  · obtain ⟨hok, -⟩ := systemEventBegin_reset ha hs hup hp (nextEvent_reset hr)
    exact next_eq (exec_systemEventBegin hn hc) (hok t ht)
  · obtain ⟨-, herror⟩ := systemEventBegin_reset ha hs hup hp (nextEvent_reset hr)
    exact next_eq (exec_systemEventBegin hn hc) (herror e he)
  · exact next_eq (exec_systemEventBegin hn hc) (systemEventBegin_other ha hs hup hp (by decide) (nextEvent_trap hr hk))
  · exact next_eq (exec_systemEventBegin hn hc) (systemEventBegin_other ha hs hup hp (by decide) (nextEvent_timer hr ht hk))
  · exact next_eq (exec_systemEventBegin hn hc) (systemEventBegin_other ha hs hup hp (by decide) (nextEvent_inbox hr ht hk hi))
  · obtain ⟨ha, hs', hr, hp⟩ := restarted_core (s := s) (n := n)
    obtain ⟨hok, -⟩ := systemEventBegin_reset ha hs' (siteUp_restarted.trans hup) hp (nextEvent_reset hr)
    exact next_eq (exec_systemSlotRestart hn) ((systemSlotRestart_eq hs).trans (hok t ht))
  · obtain ⟨ha, hs', hr, hp⟩ := restarted_core (s := s) (n := n)
    obtain ⟨-, herror⟩ := systemEventBegin_reset ha hs' (siteUp_restarted.trans hup) hp (nextEvent_reset hr)
    exact next_eq (exec_systemSlotRestart hn) ((systemSlotRestart_eq hs).trans (herror e he))
  · refine next_eq (exec_systemSlotRestart hn) ((systemSlotRestart_eq hs).trans ?_)
    simp only [systemEventBegin, siteUp_restarted, hup, Bool.not_false, true_or, or_true, if_true]
    rfl

end Sys2Proof.Machine
end


section
/-! SUPPORT. Conveyance, redundant copies, packets that arrive, windows and the inbox (R205, R231, R275, R303, R316, R333, R334, R373). -/

namespace Sys2Proof.Machine

/-! ## Conveyance (R205, R316) -/

section
variable {s : State} {i img : Nat} (hi : s.dying[i]? = some img) (hr : dyingReady s img = true) (hin : inboxPending s 1024 img = false)
include hi hr hin

theorem conveyStep_last (he : (s.thread img).estate = []) (hd : deliveryDue s img = false)
    (hj : heldAtJoin s (s.thread img).lastCore (placeOf s img) = false) : conveyStep s i = lastSteps s img := by
  simp only [conveyStep, hi, hr, he, hd, hin, hj, Bool.not_true, Bool.false_eq_true, or_self, if_false]

/-- One entry, the most recent first, by what its conveyance answers. -/
theorem conveyStep_entry {e : EstEntry} {r : List EstEntry} (he : (s.thread img).estate = e :: r) (hb : engineBusy s img e = false)
    (hp : putsHeld s (s.thread img).lastCore (s.thread img).lastSlot (conveyScope s (s.thread img) (conveyHeir s (1024, img) img e)) = false) :
    conveyStep s i = match conveyOne s (1024, img) img e with
      | .wait t => t
      | .ok t => estateDrop t img (fun x => x.seq = e.seq)
      | .stale t => estateDrop (convFault t (s.thread img).lastCore (1024, img) (s.thread img) e 0) img (fun x => x.seq = e.seq)
      | .fault c _ => estateDrop (convFault (dropCall s 1024 img) (s.thread img).lastCore (1024, img) (s.thread img) e c.code) img
          (fun x => x.seq = e.seq) := by
  simp only [conveyStep, hi, hr, he, hb, hin, hp, Bool.not_true, Bool.false_eq_true, or_self, if_false] <;> rfl

end

/-- Settles O49: an estate entry by entry, and copies by their effects. -/
theorem conveyanceAndCopies : Obligations.ConveyanceAndCopies := by
  refine ⟨fun i img s hi hr => ?_, fun id g e f s => ?_, fun id g e s => ?_⟩
  · intro th hin
    refine ⟨fun he hd hj => next_eq (exec_conveyEntry i s) (conveyStep_last hi hr hin he hd hj), fun e r he hb hp => ?_⟩
    have hstep := conveyStep_entry hi hr hin he hb hp
    refine ⟨fun t h => ?_, fun t h => ?_, fun t h => ?_, fun c v h => ?_⟩
    all_goals exact next_eq (exec_conveyEntry i s) (hstep.trans (by rw [h]))
  · intro mine he hf
    exact ⟨fun h => next_eq (exec_dualEffectCompare id g s) (by simp only [dualCompare, mine, he, hf, h, if_true]),
      fun h => next_eq (exec_dualEffectCompare id g s) (by simp only [dualCompare, mine, he, hf, h, if_false])⟩
  · intro mine he
    exact next_eq (exec_dualPartnerTimeout id g s) (by simp only [dualTimeout, mine, he])

/-! ## Packets (R275, R373) -/

section
variable {s : State} {p : Packet} {want : Nat} (hopen : portsOpen s = true) (hdev : p.ddev.toNat = s.devId)
include hopen hdev

theorem arrivePacket_bad (hb : headerBad p = true) : arrivePacket want s p = countDrop s := by
  simp only [arrivePacket, hopen, hdev, hb, Bool.not_true, ne_eq, not_true, decide_false, Bool.or_self, Bool.false_eq_true, if_false, if_true]

variable (hb : headerBad p = false) (hk : p.kind.toNat = want) (hseen : seenBefore s p = false) (hre : s.reorder = [])
include hb hk hseen hre

theorem arrivePacket_only : arrivePacket want s p = drainFlows 1 { s with reorder := [p] } := by
  simp only [arrivePacket, hopen, hdev, hb, hk, hseen, hre, Bool.not_true, ne_eq, not_true, decide_false, Bool.or_self, Bool.false_eq_true,
    if_false, List.nil_append, drainAll]
  rfl

theorem arrivePacket_held (hturn : inTurn s p = false) : arrivePacket want s p = { s with reorder := [p] } := by
  rw [arrivePacket_only hopen hdev hb hk hseen hre]
  have hturn' : inTurn { s with reorder := [p] } p = false := hturn
  have hnone : [p].find? (fun q => inTurn { s with reorder := [p] } q && deliverable { s with reorder := [p] } q) = none := by
    simp [hturn']
  simp only [drainFlows, hnone]

theorem arrivePacket_delivered (hturn : inTurn s p = true) (hd : deliverable { s with reorder := [p] } p = true) :
    arrivePacket want s p = deliverPacket (passFlow s p) p := by
  rw [arrivePacket_only hopen hdev hb hk hseen hre]
  have hturn' : inTurn { s with reorder := [p] } p = true := hturn
  have hsome : [p].find? (fun q => inTurn { s with reorder := [p] } q && deliverable { s with reorder := [p] } q) = some p := by
    simp [hturn', hd]
  have hsame : { s with reorder := dropFirst (fun x => x = p) [p] } = s := by
    have hdrop : dropFirst (fun x => x = p) [p] = s.reorder := by simp [dropFirst, hre]
    rw [hdrop]
  simp only [drainFlows, hsome]
  exact congrArg (fun t => deliverPacket (passFlow t p) p) hsame

end

/-- The packets of one rule each, with their kinds. -/
theorem deliverPacket_kind {s : State} {p : Packet} {e : (Packet → Instr) × Nat × (State → Packet → State)}
    (he : e ∈ ([(.fabricMsgReceive, 1, deliverMsg), (.putReceive, 2, deliverPut), (.cputReceive, 3, deliverCput),
      (.atomReceive, 4, deliverAtom), (.replyReceive, 5, deliverReply)] : List ((Packet → Instr) × Nat × (State → Packet → State)))) :
    exec (e.1 p) s = .next (arrivePacket e.2.1 s p) ∧
      (p.kind.toNat = e.2.1 → ∀ t, deliverPacket t p = e.2.2 t p) := by
  simp only [List.mem_cons, List.not_mem_nil, or_false] at he
  rcases he with rfl | rfl | rfl | rfl | rfl
  · exact ⟨rfl, fun hk t => by simp only [deliverPacket, hk]⟩
  · exact ⟨rfl, fun hk t => by simp only [deliverPacket, hk]⟩
  · exact ⟨rfl, fun hk t => by simp only [deliverPacket, hk]⟩
  · exact ⟨rfl, fun hk t => by simp only [deliverPacket, hk]⟩
  · exact ⟨rfl, fun hk t => by simp only [deliverPacket, hk]⟩

/-! ## Collective packets (R231, R377) -/

theorem arriveColl_meets {s : State} {n : Nat} {p : Packet} {abort : Bool} (hopen : portsOpen s = true) (hdev : p.ddev.toNat = s.devId)
    (hb : headerBad p = false) (hk : p.kind = 6) (ha : hdrAbort p = abort) : arriveColl abort n s p = collReceive s (collSite s n p) p := by
  simp [arriveColl, hopen, hdev, hb, hk, ha]

theorem exec_collArrives {e : (Nat → Packet → Instr) × Bool}
    (he : e ∈ ([(.collPacketReceive, false), (.collAbortReceive, true)] : List ((Nat → Packet → Instr) × Bool))) {n : Nat} (hn : n < 1024)
    (p : Packet) (s : State) : exec (e.1 n p) s = .next (arriveColl e.2 n s p) := by
  simp only [List.mem_cons, List.not_mem_nil, or_false] at he
  rcases he with rfl | rfl
  · exact exec_collPacketReceive hn
  · exact exec_collAbortReceive hn

/-! ## Windows (R79, R80, R244) -/

theorem windowEvent_ok {s t : State} {pa lo hi by_ n off x y z : Nat} {f : Req → Nat → Nat → Access} {slot : Option Nat} (hby : by_ < 1024)
    (hp : placeOf s pa = .window n off) (hlo : lo ≤ off) (hhi : off < hi) (hf : f { core := by_, slot := slot } n off = .ok t x y z) :
    windowEvent s pa lo hi by_ f slot = t := by
  have hin : ¬(off < lo ∨ hi ≤ off) := by omega
  simp only [windowEvent, if_neg (Nat.not_le.mpr hby), hp, if_neg hin, hf]

/-- Settles O50: packets by their header and turn, collective packets by the command that takes them, windows by what they give. -/
theorem fabricAndWindows : Obligations.FabricAndWindows := by
  refine ⟨fun e he p s hopen hdev => ⟨fun hb => ?_, fun hb hk hseen hre => ⟨fun hturn hd => ?_, fun hturn => ?_⟩⟩,
    fun e he n p s hn hopen hdev hb hk ha => ⟨fun m c hm hc => ?_, fun hc => ?_⟩,
    fun pa size by_ n off v s t x y z hby hp => ⟨fun hlo hhi => ⟨fun hf => ?_, fun hf => ?_⟩, fun hlo hhi => ⟨fun hf => ?_, fun hf => ?_⟩,
      fun hlo hhi => ⟨fun hf => ?_, fun hf => ?_⟩⟩,
    fun n e by_ r s hn hw hl => ?_⟩
  · exact next_eq (deliverPacket_kind he).1 (arrivePacket_bad hopen hdev hb)
  · obtain ⟨hexec, hkind⟩ := deliverPacket_kind (s := s) (p := p) he
    exact next_eq hexec ((arrivePacket_delivered hopen hdev hb hk hseen hre hturn hd).trans (hkind hk _))
  · exact next_eq (deliverPacket_kind he).1 (arrivePacket_held hopen hdev hb hk hseen hre hturn)
  · refine next_eq (exec_collArrives he hn p s) ((arriveColl_meets hopen hdev hb hk ha).trans ?_)
    simp only [collReceive, hm, hc]
  · refine next_eq (exec_collArrives he hn p s) ((arriveColl_meets hopen hdev hb hk ha).trans ?_)
    simp only [collReceive, hc]
  · exact next_eq (exec_nameWindowWrite pa size v by_ s) (windowEvent_ok hby hp hlo hhi hf)
  · exact next_eq (exec_nameWindowRead pa size by_ s) (windowEvent_ok hby hp hlo hhi hf)
  · exact next_eq (exec_rawRowAccess pa true v by_ s) (windowEvent_ok hby hp hlo hhi hf)
  · exact next_eq (exec_rawRowAccess pa false v by_ s) (windowEvent_ok hby hp hlo hhi hf)
  · exact next_eq (exec_accWindowWrite pa size v by_ s) (windowEvent_ok hby hp hlo hhi hf)
  · exact next_eq (exec_accWindowRead pa size by_ s) (windowEvent_ok hby hp hlo hhi hf)
  · exact next_eq (exec_inboxEntryEnter hn) (by simp only [inboxEntryEnter, State.modCore, hw, hl, if_true])

end Sys2Proof.Machine
end


section
/-! SUPPORT. Stream and matrix commands at work (R87, R219, R220, R227, R238, R242, R243, R248 to R259). -/

namespace Sys2Proof.Machine

/-- An event at a command of the core that it accepts. -/
theorem cmdEvent_at {s : State} {n i : Nat} {c : Cmd} (hc : (s.core n).cmds[i]? = some c) {ok : Cmd → Bool} (hok : ok c = true)
    (f : State → Cmd → State) : cmdEvent s n i ok f = f s c := by
  simp only [cmdEvent, cmdAt, hc, hok, if_true]

section
variable {s : State} {n i : Nat} {c : Cmd} (hc : (s.core n).cmds[i]? = some c)
include hc

theorem chunkRelease_set {pa k : Nat} (hchunk : c.chunk = some (pa, k)) (hrel : c.released = false)
    (hhere : ∀ d o, placeOf s pa ≠ .remote d o) (hbit : (physRead s (pa + 16) 8).1.testBit k = true) :
    chunkRelease s n i = modCmd (acquire s.ticked n 5) n c.seq (fun d => { d with released := true }) := by
  have hset : chunkSet s c = true := by
    unfold chunkSet
    rw [hchunk]
    dsimp only
    split
    · next d o hp => exact absurd hp (hhere d o)
    · exact hbit
  exact cmdEvent_at hc (by simp only [hrel, hset]; rfl) _

theorem matrixStarts_aclr {m : BitVec 4} (hop : c.op = .aclr m) (hs : mayStart s n c = true) :
    matrixStarts s n i = endCmd ((tilesOf m.toNat).foldl (fun u t => setTile u n t 0 0) s) n c := by
  refine (cmdEvent_at hc (by simp only [hop]; rfl) _).trans ?_
  simp only [hop, hs, if_true, performMatrix]

theorem matrixStarts_free (hm : isMatrix c.op = true) (hmark : c.op ≠ .marker) (haclr : ∀ m, c.op ≠ .aclr m) (hs : mayStart s n c = true)
    (ho : arrayOpen s n c = true) (hshared : sharedReads c = []) : matrixStarts s n i = startMatrix s n c := by
  refine (cmdEvent_at hc (by rw [hm, decide_eq_true hmark]; rfl) _).trans ?_
  split
  · next m hop => exact absurd hop (haclr m)
  · simp only [matrixStart, hs, ho, hshared, Bool.not_true, Bool.or_self, Bool.false_eq_true, if_false, if_true]

theorem mcastExpires_late (hm : isMatrix c.op = true) (hs : mayStart s n c = true) (ho : arrayOpen s n c = true) (hx : c.mcast = true)
    (ht : c.startAt + 4096 ≤ (s.core n).cycle) : mcastExpires s n i = startMatrix s n c := by
  refine (cmdEvent_at hc hm _).trans ?_
  simp only [mcastExpire, hs, ho, hx, ht, decide_true, Bool.and_self, if_true]

theorem matrixEnds_started {op : CmdOp → Bool} (hop : op c.op = true) (hst : c.started = true) : matrixEnds s n i op = performMatrix s n c :=
  cmdEvent_at hc (by rw [hop, hst]; rfl) _

theorem mmaEnds_due {minus : Bool} {t kb : Nat} {acc : Bool} {da db : Word} (hop : c.op = .mma minus t acc kb da db) (hst : c.started = true)
    (hdue : c.doneAt ≤ (s.core n).cycle) : mmaEnds s n i = endCmd (performMma s n c minus t acc kb da.toNat db.toNat) n c := by
  refine (cmdEvent_at hc (by simp only [mmaDue, hop, isMma, hst, hdue, decide_true, Bool.and_self]) _).trans ?_
  simp only [performMatrix, hop]

/-- A command that writes a scratchpad or memory ends by the rest of its effect. -/
theorem matrixEnds_written {op : CmdOp → Bool} (hop : op c.op = true) (hst : c.started = true) {whole : State → State}
    (hp : performMatrix s n c = matrixWritten s n c) (hw : ∀ u, matrixWhole u n c = some (whole u)) :
    matrixEnds s n i op =
      let u := closePart (landRest s c 0 (fun _ => matrixLay n c) whole) n c 0 (matrixLay n c)
      if writesOut u n c then u else endCmd (tileChecks (drainArrive u n c) n (opTiles c.op)) n c := by
  have hwhole : (fun u => (matrixWhole u n c).getD u) = whole := funext (fun u => by rw [hw u, Option.getD_some])
  rw [matrixEnds_started hc hop hst, hp, matrixWritten, hwhole]

theorem markerFires_ready (hop : c.op = .marker) (hr : markerReady s n c = true) : markerFires s n i = endCmd s n c := by
  refine (cmdEvent_at hc (by rw [decide_eq_true hop, hr]; rfl) _).trans ?_
  simp only [performMatrix, hop]

end

/-- Settles O51: each event at the command that it names. -/
theorem streamAndMatrixEvents : Obligations.StreamAndMatrixEvents := by
  refine ⟨fun n i c s hn hc => ⟨fun ho hs => ?_, fun ho hs => ?_, fun ho hw => ?_, fun pa k hk hr hp hb => ?_⟩,
    fun n i c s hn hc => ⟨fun m ho hs => ?_, fun hm hk ha hs ho hsh => ?_, fun hm hs ho hx ht => ?_, fun hst => ⟨?_, ?_, ?_, ?_⟩,
      fun ho hr => ?_⟩⟩
  · exact next_eq (exec_setfTakeEffect hn) (cmdEvent_at hc (by rw [ho, hs]; rfl) _)
  · exact next_eq (exec_streamCommandStart hn) (cmdEvent_at hc (by rw [ho, hs]; rfl) _)
  · exact next_eq (exec_streamCommandComplete hn) (cmdEvent_at hc (by rw [ho, hw]; rfl) _)
  · exact next_eq (exec_chunkWaitRelease hn) (chunkRelease_set hc hk hr hp hb)
  · exact next_eq (exec_matrixCommandStart hn) (matrixStarts_aclr hc ho hs)
  · exact next_eq (exec_matrixCommandStart hn) (matrixStarts_free hc hm hk ha hs ho hsh)
  · exact next_eq (exec_mcastWaitExpire hn) (mcastExpires_late hc hm hs ho hx ht)
  · exact fun minus t acc kb da db ho hd => next_eq (exec_mmaComplete hn) (mmaEnds_due hc ho hst hd)
  · intro written
    exact ⟨
      fun t k x v ho => next_eq (exec_topkComplete hn) (matrixEnds_written hc (by rw [ho]; rfl) hst (by simp only [performMatrix, ho])
        (fun u => by simp only [matrixWhole, ho])),
      fun t ds ho => next_eq (exec_drainComplete hn) (matrixEnds_written hc (by rw [ho]; rfl) hst (by simp only [performMatrix, ho])
        (fun u => by simp only [matrixWhole, ho])),
      fun m ps ho => next_eq (exec_accSaveComplete hn) (matrixEnds_written hc (by rw [ho]; rfl) hst (by simp only [performMatrix, ho])
        (fun u => by simp only [matrixWhole, ho]))⟩
  · refine fun m ps ho => next_eq (exec_accRestoreComplete hn) ((matrixEnds_started hc (by rw [ho]; rfl) hst).trans ?_)
    simp only [performMatrix, ho]
  · refine fun m ps ho => next_eq (exec_accRestoreComplete hn) ((matrixEnds_started hc (by rw [ho]; rfl) hst).trans ?_)
    simp only [performMatrix, ho]
  · exact next_eq (exec_mwaitMarkerFire hn) (markerFires_ready hc ho hr)

end Sys2Proof.Machine
end


section
/-! SUPPORT. Copy, collective, host and transform commands at work (R228 to R237, R266, R377). -/

namespace Sys2Proof.Machine

/-! ## Copies (R229) -/

theorem copyComplete_all {s t u : State} {n : Nat} {c : Cmd} {b : BitVec 512} (hop : c.op = .copy b)
    (hf : copyFound n c b (pendingOf c 0) (pendingOf c 1) s = (t, true)) (hr : copyRest n c b (pendingOf c 0) t = (u, true)) :
    copyComplete s n c = countArrival u n c false (fun w => endCmd w n c) := by
  simp only [copyComplete, hop, hf, hr, if_true]

/-! ## Collectives (R231 to R233, R377) -/

section
variable {s t : State} {n k j x y z : Nat} {c : Cmd} {b : BitVec 512} {v : View} (hop : c.op = .coll b) (hv : collView s c.ctx b = some v)
include hop hv

theorem collStart_sent (hs : c.sent = true) : collStart s n c = startOwning s n c (collLines s n c b v.m c.landed) := by
  simp only [collStart, hop, hv, hs, if_true]

theorem collStart_members (hb : collBad s c.ctx b = false) (hs : c.sent = false) (hd : bankDest s n c b = none)
    (hsw : useSwitch s c.ctx b = false) (ho : (collLines s n c b v.m c.landed).any (othersOwn s n c) = false)
    (hm : sendToMembers s n c b v (fun _ => true) (groupMembers s c.ctx (collGroup b)) 0 = .ok t x y z) :
    collStart s n c = modCmd (startOwning t n c (collLines s n c b v.m c.landed)) n c.seq
      (fun d => { d with inswitch := false, fmtAt := none, sent := true }) := by
  simp only [collStart, hop, hv, hb, hs, hd, hsw, ho, hm, Bool.false_eq_true, if_false, Option.map_none]

theorem landChunk_memory (ha : allLanded c b = false) (hk : k < collChunks b) (hl : c.landed.getLsbD k = false)
    {r : List (Nat × Nat) × Table Nat} (hr : chunkResult s c b v k = some r) (hd : bankDest s n c b = none) :
    landChunk s n c k = if (landMemory s n c b v.m k r).2 then chunkDone (landMemory s n c b v.m k r).1 n c b v.m k
      else (landMemory s n c b v.m k r).1 := by
  have ho : chunkOpen c b k = true := by rw [chunkOpen, hl, decide_eq_true hk]; rfl
  simp only [landChunk, hop, hv, ha, ho, hr, hd, Bool.not_true, Bool.false_eq_true, if_false]

theorem collTimeout_falls (hj : (mayFall s c b v)[Config.freeNat s.tick % (mayFall s c b v).length]? = some j)
    (hm : sendToMembers s.ticked n c b v
      (fun x => (((switchPieces b v).take (c.fell.getD (switchPieces b v).length)).drop j).any (fun y => y.2.2.1 = x.2.1))
      (groupMembers s c.ctx (collGroup b)) 0 = .ok t x y z) :
    collTimeout s n c = modCmd t n c.seq (fun d => { d with inswitch := decide (j ≠ 0), fell := some j }) := by
  unfold collTimeout
  simp only [hop, hv, hj]
  rw [hm]

end

/-! ## Host commands (R234) -/

theorem hostSend_sends {s : State} {n : Nat} {c : Cmd} {b : BitVec 512} (hop : c.op = .host b) (hb : hostBad b = false)
    (hq : queueCtx s (wideGet b 32 32) = c.ctx) (hs : (s.hostQueue (wideGet b 32 32)).state ≠ .closed) (hf : hostFirst s n c b = true) :
    hostSend s n c = endCmd (sendReply s (wideGet b 32 32) (recordReply s b)) n c := by
  have hopen : ¬(queueCtx s (wideGet b 32 32) ≠ c.ctx ∨ (s.hostQueue (wideGet b 32 32)).state = .closed) :=
    fun h => h.elim (fun h => h hq) hs
  unfold hostSend
  simp only [hop, hb, hf, if_true, Bool.false_eq_true, if_false]
  exact if_neg hopen

/-! ## Transforms (R235 to R237) -/

/-- A transform whose bytes have landed but for `left`. -/
def xformLanded (u : State) (n : Nat) (c : Cmd) (op : Nat) (l : BitVec 512) (left : List (Nat × Nat)) : State :=
  modCmd u n c.seq (fun d => { d with
    groups := d.groups.set 0 ((xfLay op l).map (·.group)).eraseDups, plans := d.plans.set 0 left,
    own := d.own.filter (left.flatMap (fun p => rangeLines u n c p.1 1)).contains })

/-- Its end: the fault that stopped it, or the arrival once nothing is left. -/
def xformClose (after : State) (n : Nat) (c : Cmd) (left : List (Nat × Nat)) : Option (Cause × Word) → State
  | some e => faultCmd after n c e.1 e.2
  | none => if left = [] then countArrival after n c false (fun p => endCmd p n c) else after

section
variable {s t u : State} {n op rec : Nat} {c : Cmd} {l : BitVec 512} (hop : c.op = .xform op rec l)
include hop

theorem xformStartCmd_reads {v x y : Nat} (hr : engBytes s n c rec 64 = .ok t v x y) :
    xformStartCmd s n c = startOwning (modCmd t n c.seq (fun d => { d with op := .xform op rec (BitVec.ofNat 512 v) })) n c
      (if xfBad op (BitVec.ofNat 512 v) then [] else xfLines t n c op (BitVec.ofNat 512 v)) := by
  simp only [xformStartCmd, hop, hr]

theorem xformEnd_bad (hb : xfBad op l = true) : xformEnd s n c = countArrival s n c true (fun u => endCmd u n c) := by
  simp only [xformEnd, hop, hb, if_true]

/-- What is left when the bytes that could land have landed. -/
theorem xformEnd_lands (hb : xfBad op l = false) {bs left : List (Nat × Nat)} {bad : Option (Cause × Word)}
    (hw : xformWork s n c op l (fun key j => !(decided c 0).contains (xfGroup op l key j)) = .ok (t, bs))
    (hl : landVa n c ((xformTodo c (xfLay op l) bs).length + 1) (xformTodo c (xfLay op l) bs) t = (u, left, bad)) :
    xformEnd s n c = xformClose (xformLanded u n c op l left) n c left bad := by
  simp only [xformEnd, hop, hb, hw, hl, Bool.false_eq_true, if_false]
  cases bad with
  | none => rfl
  | some e => rfl

end

/-- Settles O52: each event at the command that it names. -/
theorem engineEvents : Obligations.EngineEvents := by
  refine fun n i c s hn hc => ⟨fun b ho => ⟨fun hs hd => ?_, fun t u hw hf hr => ?_⟩,
    fun b v t x y z ho hb hv => ⟨fun hse hs => ?_, fun hse hs hd hsw hown hm => ?_, fun k r hw ha hk hl hr hd => ?_, fun j hw hi hj => ?_⟩,
    fun b ho hf hb hq hs hfirst => ?_,
    fun op rec l t v x y ho => ⟨fun hs hd hr => ?_, fun hw hb => ?_, fun w bs u left bad hw hb hwork => ?_⟩⟩
  · refine next_eq (exec_copyCommandStart hn) ((cmdEvent_at hc (by rw [ho, hs, hd]; rfl) _).trans ?_)
    simp only [copyStart, ho]
  · exact next_eq (exec_copyCommandComplete hn) ((cmdEvent_at hc (by rw [ho, hw]; rfl) _).trans (copyComplete_all ho hf hr))
  · exact next_eq (exec_collCommandStart hn) ((cmdEvent_at hc (by rw [ho, hs]; rfl) _).trans (collStart_sent ho hv hse))
  · exact next_eq (exec_collCommandStart hn)
      ((cmdEvent_at hc (by rw [ho, hs]; rfl) _).trans (collStart_members ho hv hb hse hd hsw hown hm))
  · have hland : chunkLands s n i k = _ := (cmdEvent_at hc (by rw [ho, hw]; rfl) _).trans (landChunk_memory ho hv ha hk hl hr hd)
    intro now
    refine ⟨fun h => ?_, fun h => ?_⟩
    all_goals
      rw [h] at hland
      exact next_eq (exec_chunkLand hn) hland
  · intro sent hm
    exact next_eq (exec_inswitchTimeout hn)
      ((cmdEvent_at hc (by rw [ho, hw, hi]; rfl) _).trans (collTimeout_falls ho hv hj hm))
  · exact next_eq (exec_hostRecordSend hn) ((cmdEvent_at hc (by rw [ho, hf]; rfl) _).trans (hostSend_sends ho hb hq hs hfirst))
  · exact next_eq (exec_xformStart hn) ((cmdEvent_at hc (by rw [ho, hs, hd]; rfl) _).trans (xformStartCmd_reads ho hr))
  · exact next_eq (exec_xformComplete hn) ((cmdEvent_at hc (by rw [ho, hw]; rfl) _).trans (xformEnd_bad ho hb))
  · intro todo hl after
    have hend : xformEnds s n i = _ := (cmdEvent_at hc (by rw [ho, hw]; rfl) _).trans (xformEnd_lands ho hb hwork hl)
    refine ⟨fun e f hbad => ?_, fun hbad hleft => ?_, fun hbad hleft => ?_⟩
    · subst hbad
      exact next_eq (exec_xformComplete hn) hend
    · subst hbad
      exact next_eq (exec_xformComplete hn) (hend.trans (if_pos hleft))
    · subst hbad
      exact next_eq (exec_xformComplete hn) (hend.trans (if_neg hleft))

end Sys2Proof.Machine
end


section
/-! SUPPORT. Parked commands, licences, host commands and queue control (R247, R322 to R325, R331, R349). -/

namespace Sys2Proof.Machine

/-! ## Parking (R349) -/

section
variable {s : State} {n i : Nat} {c : Cmd} {x : Cause} {v : Word} (hc : (s.core n).cmds[i]? = some c) (hf : c.faulted = some (x, v))
  (hp : c.park = none)
include hc hf hp

theorem parks_host {b : BitVec 512} (hop : c.op = .host b) : parks s n i = dropCmd (engineReport s n c x v 0) n c := by
  refine (cmdEvent_at hc (by rw [hf]; rfl) _).trans ?_
  simp only [parkCmd, hf, hp, hop, Option.isSome_none, Bool.false_eq_true, if_false]

theorem parks_place {p : Nat} (hop : ∀ b, c.op ≠ .host b) (hfree : (List.range 16).find? (fun p => !(parkedMask s n).testBit p) = some p) :
    parks s n i = engineReport (modCmd s n c.seq (fun d => { d with park := some p })) n c x v p := by
  refine (cmdEvent_at hc (by rw [hf]; rfl) _).trans ?_
  simp only [parkCmd, hf, hp, hfree, Option.isSome_none, Bool.false_eq_true, if_false]

end

/-- The words that ENGPARK is written with name the place and the act. -/
theorem engparkWord_flds : ∀ p < 16, (fld (BitVec.ofNat 64 (p % 16 + 16)) 0 4 = p ∧ fld (BitVec.ofNat 64 (p % 16 + 16)) 4 2 = 1) ∧
    fld (BitVec.ofNat 64 (p % 16 + 32)) 0 4 = p ∧ fld (BitVec.ofNat 64 (p % 16 + 32)) 4 2 = 2 := by decide

theorem engparkWrite_act {s : State} {n p : Nat} {c : Cmd} {v : Word} (hc : parkedCmd s n p = some c) (hp : fld v 0 4 = p) :
    (fld v 4 2 = 1 → engparkWrite s n v = resumeParked s n p) ∧ (fld v 4 2 = 2 → engparkWrite s n v = killCmd s n c) :=
  ⟨fun hact => by simp only [engparkWrite, hp, hc, hact], fun hact => by simp only [engparkWrite, hp, hc, hact]⟩

/-! ## Licences (R247) -/

theorem termEnds_over {s : State} {p : Nat} {h : LicReq} (hl : (s.pair p).lic = .held) (hh : (s.pair p).holder = some h)
    (hw : (s.pair p).fifo ≠ []) (ht : 256 ≤ (s.pair p).termN ∨ (s.pair p).granted + 1048576 ≤ (s.core h.core).cycle) :
    termEnds s p = modReq (s.modPair p (fun x => { x with lic := .due })) h (fun y =>
      { y with preTerm := true, preSince := if y.preTimer then y.preSince
                                            else match reqSlot s h with | some (m, _) => (s.core m).cycle | none => 0 }) := by
  simp only [termEnds, hh]
  exact if_pos ⟨hl, hw, ht⟩

section
variable {s : State} {p : Nat} (hl : (s.pair p).lic = .draining) (hd : drainsLeft s p = false)
include hl hd

theorem drainGrant_eq : drainGrant s p =
    match (match (s.pair p).grantee with | some g => (s.pair p).fifo.find? (sameReq g) | none => none).or (s.pair p).fifo.head? with
    | some r => licGrant (s.modPair p (fun x => { x with drains := none, grantee := none, lic := .free, holder := none })) p r
    | none => s.modPair p (fun x => { x with drains := none, grantee := none, lic := .free, holder := none }) := by
  have hgo : ¬((s.pair p).lic ≠ .draining ∨ drainsLeft s p = true) := by simp [hl, hd]
  exact if_neg hgo

theorem drainGrant_free (hf : (s.pair p).fifo = []) :
    drainGrant s p = s.modPair p (fun x => { x with drains := none, grantee := none, lic := .free, holder := none }) := by
  rw [drainGrant_eq hl hd, hf]
  cases (s.pair p).grantee with
  | none => rfl
  | some g => rfl

theorem drainGrant_head {r : LicReq} {q : List LicReq} (hf : (s.pair p).fifo = r :: q) (hg : (s.pair p).grantee = none) :
    drainGrant s p = licGrant (s.modPair p (fun x => { x with drains := none, grantee := none, lic := .free, holder := none })) p r := by
  rw [drainGrant_eq hl hd, hf, hg]
  rfl

theorem drainGrant_named {g r : LicReq} (hg : (s.pair p).grantee = some g) (hr : (s.pair p).fifo.find? (sameReq g) = some r) :
    drainGrant s p = licGrant (s.modPair p (fun x => { x with drains := none, grantee := none, lic := .free, holder := none })) p r := by
  rw [drainGrant_eq hl hd, hg]
  simp only [hr, Option.some_or]

end

/-- Settles O53: parking by what the command is, ENGPARK by its word, and licences by the FIFO. -/
theorem parkingAndLicences : Obligations.ParkingAndLicences := by
  refine ⟨fun n i c x v s hn hc hf hp => ⟨fun b ho => ?_, fun p ho hfree => ?_⟩, fun n p c s hn hp hc => ⟨?_, ?_⟩,
    fun p h s hp hl hh hw ht => ?_, fun p s hp hl hd => ?_⟩
  · exact next_eq (exec_engineFaultPark hn) (parks_host hc hf hp ho)
  · exact next_eq (exec_engineFaultPark hn) (parks_place hc hf hp ho hfree)
  · obtain ⟨⟨hplace, hact⟩, -⟩ := engparkWord_flds p hp
    exact next_eq (exec_engparkResume hn hp) ((engparkWrite_act hc hplace).1 hact)
  · obtain ⟨-, hplace, hact⟩ := engparkWord_flds p hp
    exact next_eq (exec_engparkKill hn hp) ((engparkWrite_act hc hplace).2 hact)
  · exact next_eq (exec_licenceTermEnd hp) (termEnds_over hl hh hw ht)
  · exact ⟨fun hf => next_eq (exec_licenceDrainGrant hp) (drainGrant_free hl hd hf),
      fun r q hf hg => next_eq (exec_licenceDrainGrant hp) (drainGrant_head hl hd hf hg),
      fun g r hg hr => next_eq (exec_licenceDrainGrant hp) (drainGrant_named hl hd hg hr)⟩

/-! ## Host commands (R323 to R325) -/

theorem hostCommand_waits {want q : Nat} {c : BitVec 512} {s : State} {act : State → State} (h : submitWaits s q = true ∨ putWaits s = true) :
    hostCommand want s q c act = s :=
  if_pos (by rcases h with h | h <;> simp [h])

section
variable {s : State} {q want : Nat} {c : BitVec 512} {act : State → State} (hopen : portsOpen s = true) (hw : submitWaits s q = false)
  (hp : putWaits s = false) (ho : hcOp c = want)
include hopen hw hp ho

theorem hostCommand_refuses (h : hcBad c = true ∨ (s.hostQueue q).state ≠ .open_) : hostCommand want s q c act = hcRefuse s q c := by
  simp only [hostCommand, hopen, hw, hp, ho, Bool.not_true, Bool.or_self, Bool.false_eq_true, if_false, true_or, if_true, ne_eq, not_true]
  rcases h with h | h
  · exact if_pos h
  · rw [if_pos h, ite_self]

theorem hostCommand_acts (hb : hcBad c = false) (hs : (s.hostQueue q).state = .open_) : hostCommand want s q c act = act s := by
  simp only [hostCommand, hopen, hw, hp, ho, hb, hs, Bool.not_true, Bool.or_self, Bool.false_eq_true, if_false, ne_eq, not_true]

end

/-- The host commands are one rule with an act for each. -/
theorem exec_hostCommand {e : (Nat → BitVec 512 → Instr) × Nat}
    (he : e ∈ ([(.hostSubmit, 1), (.hostDecr, 2), (.hostClose, 3), (.hostReset, 4)] : List ((Nat → BitVec 512 → Instr) × Nat)))
    {q : Nat} (hq : q < 4096) (c : BitVec 512) (s : State) : ∃ act, exec (e.1 q c) s = .next (hostCommand e.2 s q c act) := by
  simp only [List.mem_cons, List.not_mem_nil, or_false] at he
  rcases he with rfl | rfl | rfl | rfl
  · exact ⟨_, exec_hostSubmit hq⟩
  · exact ⟨_, exec_hostDecr hq⟩
  · exact ⟨_, exec_hostClose hq⟩
  · exact ⟨_, exec_hostReset hq⟩

/-! ## Queue control (R322) -/

theorem hqctlReq_writes {s : State} {q req : Nat} {v : Word} (hr : fld v 18 2 = req) : hqctlReq req s q v = hqctlWrite s q v := if_pos hr

theorem hqctlWrite_opens {s : State} {q : Nat} {v : Word} (hr : fld v 18 2 = 1) (hs : (s.hostQueue q).state = .closed)
    (hg : endpointGood (setCtrl s (0x400000 + 8 * q) (takeFld (takeFld (takeFld (queueWord s q) v 18 2) v 0 16) v 32 12)) q = true) :
    hqctlWrite s q v = openQueue (setCtrl s (0x400000 + 8 * q) (takeFld (takeFld (takeFld (queueWord s q) v 18 2) v 0 16) v 32 12)) q := by
  simp only [hqctlWrite, hr, hs, if_true, hg]

theorem hqctlWrite_tears {s : State} {q : Nat} {v : Word} (hs : (s.hostQueue q).state = .open_) :
    (fld v 18 2 = 2 → hqctlWrite s q v =
      teardown (setCtrl s (0x400000 + 8 * q) (takeFld (queueWord s q) v 18 2)) q false false false 0) ∧
    (fld v 18 2 = 3 → hqctlWrite s q v =
      teardown (setCtrl s (0x400000 + 8 * q) (takeFld (queueWord s q) v 18 2)) q true false false 0) := by
  have hopen : QState.open_ ≠ QState.closed := nofun
  exact ⟨fun hr => by simp only [hqctlWrite, hr, hs, if_neg hopen], fun hr => by simp only [hqctlWrite, hr, hs, if_neg hopen]⟩

/-! ## The end of a teardown (R331) -/

theorem teardownComplete_ends {s : State} {q : Nat} (hs : (s.hostQueue q).state = .tearing)
    (hf : ∀ t ∈ s.tasks, t.2.queue = some q → taskFinal t.2 = true) (hc : (s.hostQueue q).byCommand = true) :
    teardownComplete s q =
      let t := taskReplies (refuseWaiting s q) q
      let h := t.hostQueue q
      let u := sendReply t.ticked q (replyBytes t 7 (s.hostQueue q).closeTag 0 0 h.done h.killed h.discarded)
      if h.reopen then openQueue u q else u.modQueue q (fun h => { h with state := .closed }) := by
  have hnone : s.tasks.any (fun t => decide (t.2.queue = some q) && !taskFinal t.2) = false := by
    refine List.any_eq_false.mpr (fun t ht => ?_)
    by_cases hq : t.2.queue = some q
    · simp [hf t ht hq]
    · simp [hq]
  have hgo : ¬((s.hostQueue q).state ≠ .tearing ∨ s.tasks.any (fun t => decide (t.2.queue = some q) && !taskFinal t.2) = true) := by
    simp [hs, hnone]
  refine (if_neg hgo).trans ?_
  simp only [hc, if_true]

/-- Settles O54: host commands by one rule, HQCTL by its request, and the end of a teardown. -/
theorem hostCommandsAndQueues : Obligations.HostCommandsAndQueues := by
  refine ⟨⟨fun e he q c s hq => ?_, fun q c s hq hopen hw hp hb hs => ⟨?_, ?_, ?_, ?_, ?_⟩⟩, fun q v s hq => ?_, fun q s hq hs hf => ?_⟩
  · obtain ⟨act, hexec⟩ := exec_hostCommand he hq c s
    exact ⟨fun h => next_eq hexec (hostCommand_waits h), fun hopen hw hp ho h => next_eq hexec (hostCommand_refuses hopen hw hp ho h)⟩
  · intro pa home place ho hr hok hh hsub hfree
    refine next_eq (exec_hostSubmit hq) ((hostCommand_acts hopen hw hp ho hb hs).trans ?_)
    simp only [hr, hok, hh, hsub, hfree, Bool.false_eq_true, if_false]
  · intro pa ho hr hok
    refine next_eq (exec_hostSubmit hq) ((hostCommand_acts hopen hw hp ho hb hs).trans ?_)
    simp only [hr, hok, if_true]
  · intro pa ho hr ha
    refine next_eq (exec_hostDecr hq) ((hostCommand_acts hopen hw hp ho hb hs).trans ?_)
    simp only [ha, if_true, hr]
  · exact fun ho => next_eq (exec_hostClose hq) (hostCommand_acts hopen hw hp ho hb hs)
  · exact fun ho => next_eq (exec_hostReset hq) (hostCommand_acts hopen hw hp ho hb hs)
  · intro w
    refine ⟨fun hr hc => ?_,
      fun hr ho => next_eq (exec_hqctlTeardownSoft hq) ((hqctlReq_writes hr).trans ((hqctlWrite_tears ho).1 hr)),
      fun hr ho => next_eq (exec_hqctlTeardownHard hq) ((hqctlReq_writes hr).trans ((hqctlWrite_tears ho).2 hr))⟩
    intro t hg
    exact next_eq (exec_hqctlOpen hq) ((hqctlReq_writes hr).trans (hqctlWrite_opens hr hc hg))
  · intro t h
    refine ⟨fun hc hr => ?_, fun hc hr => ?_⟩
    · exact next_eq (exec_teardownComplete hq) ((teardownComplete_ends hs hf hc).trans (if_neg (ne_true_of_eq_false hr)))
    · exact next_eq (exec_teardownComplete hq) ((teardownComplete_ends hs hf hc).trans (if_pos hr))

end Sys2Proof.Machine
end


section
/-! SUPPORT. The Bexelone controller, shootdowns, links and partitions (R346, R347, R368, R374, R378 to R384). -/

namespace Sys2Proof.Machine

/-! ## The controller (R368, R379 to R382) -/

theorem endpointRevoke_installed {s : State} {e : Nat} (hw : bitsAt (endpointWord s e).toNat 0 1 = 1) :
    endpointRevoke s e =
      let t := writeEndpoint s e (setBits (endpointWord s e).toNat 1 1 1)
      teardownAll { t with
        replies := t.replies.filter (fun r => queueEndpoint s r.queue ≠ e),
        repliesHeld := t.repliesHeld.filter (fun r => queueEndpoint s r.queue ≠ e) } (fun q => queueEndpoint s q = e) := by
  have hne : bitsAt (endpointWord s e).toNat 0 1 ≠ 0 := by omega
  simp only [endpointRevoke, if_neg hne, decide_not]

/-- Acts of rising levels: each level acts after the ones below it. -/
theorem acts_by_level (k : Nat) (b : State) (f g h : State → State) :
    (let s := if 1 ≤ k then f b else b
     let s := if 2 ≤ k then g s else s
     if 3 ≤ k then h s else s) = if k = 0 then b else if k = 1 then f b else if k = 2 then g (f b) else h (g (f b)) := by
  match k with
  | 0 => rfl
  | 1 => rfl
  | 2 => rfl
  | k + 3 => simp

/-- Settles O55: each event of the controller by its guard. -/
theorem controllerEvents : Obligations.ControllerEvents := by
  refine ⟨fun v s h => next_eq (exec_fwdogKick v s) (if_pos h), fun s hup hk => next_eq (exec_fwdogExpire s) (if_pos ⟨hup, hk⟩),
    fun pss slh version s => next_eq (exec_firmwareVerify pss slh version s) ?_, fun nonce s hk => ?_,
    fun e ctx host s hk => next_eq (exec_endpointInstall e ctx host s) (if_pos hk),
    fun e s hw => next_eq (exec_endpointRevoke e s) (endpointRevoke_installed hw),
    fun source s hs => next_eq (exec_alarmRaise source s) ((if_pos hs).trans (acts_by_level (fld (ctrlRead s 0x4086C0) (2 * source) 2) _
      (fun t => teardownAll t (fun _ => true)) (fun t => clearEndpoints (revokeAll t)) lockDown)),
    fun s => exec_coldStart s⟩
  · simp only [firmwareVerify, Bool.and_eq_true, decide_eq_true_eq, and_assoc]
  · exact ⟨_, _, next_eq (exec_attestationReport nonce s) (if_pos hk), rfl, rfl, rfl, rfl, rfl⟩

/-! ## Shootdowns (R346, R347) -/

/-- What every entry of a table maps to; an unlisted one keeps the default that `f` keeps. -/
theorem table_get_map {α : Type} (f : α → α) {d : α} (hd : f d = d) (m : Table α) (k : Nat) :
    Table.get (m.map (fun (x : Nat × α) => (x.1, f x.2))) k d = f (Table.get m k d) := by
  induction m with
  | nil => exact hd.symm
  | cons p r ih =>
    obtain ⟨j, v⟩ := p
    simp only [List.map_cons, Table.get]
    split
    · rfl
    · exact ih

theorem dropTlbAll_core (s : State) (f : TlbEntry → Bool) (n : Nat) :
    ((dropTlbAll s f).core n).tlb = (s.core n).tlb.filter (fun e => !f e) :=
  congrArg Core.tlb (table_get_map (fun c : Core => { c with tlb := c.tlb.filter (fun e => !f e) }) rfl s.cores n)

theorem dropTlbAll_cluster (s : State) (f : TlbEntry → Bool) (c : Nat) :
    ((dropTlbAll s f).cluster c).tlb = (s.cluster c).tlb.filter (fun e => !f e) :=
  congrArg Cluster.tlb (table_get_map (fun c : Cluster => { c with tlb := c.tlb.filter (fun e => !f e) }) rfl s.clusters c)

section
variable {s : State} {v : Word} {sel : Nat} (hv : fld v 0 2 = sel)
include hv

theorem tlbshoot_busy (hb : s.tlbBusy = true) : tlbshoot sel s v = s :=
  (if_pos hv).trans (if_pos (Or.inl hb))

theorem tlbshoot_begins (hs : sel < 3) (hb : s.tlbBusy = false) : tlbshoot sel s v =
    let t := { setCtrl s 0x408000 (BitVec.ofNat 64 (fld v 0 2 + fld v 4 16 * 16 + fld v 20 40 * 2 ^ 20)) with tlbBusy := true }
    if Config.freeNat s.tick % 2 = 0 then t.ticked
    else dropTlbAll t.ticked (tlbNamed (fld v 0 2) (BitVec.ofNat 16 (fld v 4 16)) (fld v 20 40 * 65536)) := by
  have hgo : ¬(s.tlbBusy = true ∨ fld v 0 2 = 3) := by simp [hb]; omega
  exact (if_pos hv).trans (if_neg hgo)

end

/-- The three writes of TLBSHOOT are one rule by their SEL. -/
theorem exec_tlbshoot {e : (Word → Instr) × Nat}
    (he : e ∈ ([(.tlbshootCtx, 0), (.tlbshootPage, 1), (.tlbshootAll, 2)] : List ((Word → Instr) × Nat))) (v : Word) (s : State) :
    e.2 < 3 ∧ exec (e.1 v) s = .next (tlbshoot e.2 s v) := by
  simp only [List.mem_cons, List.not_mem_nil, or_false] at he
  rcases he with rfl | rfl | rfl
  · exact ⟨by decide, exec_tlbshootCtx v s⟩
  · exact ⟨by decide, exec_tlbshootPage v s⟩
  · exact ⟨by decide, exec_tlbshootAll v s⟩

/-- Settles O59: a write by BUSY and SEL, the completion by what still waits. -/
theorem shootdowns : Obligations.Shootdowns := by
  refine ⟨fun e he v s hv => ?_, fun s hb hw => next_eq (exec_tlbshootComplete s) ?_, fun s hb hw => ?_, fun ctx va e => ?_⟩
  · obtain ⟨hs, hexec⟩ := exec_tlbshoot he v s
    intro t named
    exact ⟨fun hb hf => next_eq hexec ((tlbshoot_begins hv hs hb).trans (if_pos hf)),
      fun hb hf => next_eq hexec ((tlbshoot_begins hv hs hb).trans (if_neg hf)), fun hb => next_eq hexec (tlbshoot_busy hv hb)⟩
  · simp only [tlbshootComplete, hb, hw, Bool.not_true, Bool.and_false, Bool.false_eq_true, if_false]
  · have hdone : tlbshootComplete s = tlbshootDone s := if_pos (by rw [hb, hw]; rfl)
    exact ⟨_, next_eq (exec_tlbshootComplete s) hdone, rfl, fun n => dropTlbAll_core s _ n, fun c => dropTlbAll_cluster s _ c, rfl, rfl, rfl⟩
  · exact ⟨decide_eq_true_iff, by simp only [tlbNamed, Bool.and_eq_true, decide_eq_true_eq], rfl⟩

/-! ## Links (R374, R378) -/

theorem machineCheck_ucieUp (s : State) (k l a : Nat) (c : Option (BitVec 16)) (w : Nat) : (machineCheck s k l a c w).ucieUp = s.ucieUp := by
  unfold machineCheck
  dsimp only
  split <;> rfl

/-! ## Partitions (R384) -/

/-- A partition whose bit is as it stands is left alone. -/
theorem partOne_same {s : State} {v : Word} {p : Nat} (h : v.getLsbD p = s.partOpen.getLsbD p) : partOne s v p = s := by
  unfold partOne
  rw [h]
  cases s.partOpen.getLsbD p <;> rfl

/-- PARTCTL acts on the one partition whose bit changes, when the act leaves the other bits. -/
theorem partctlWrite_one {s : State} {v : Word} {p : Nat} (hp : p < 16)
    (hs : ∀ q < 16, q ≠ p → v.getLsbD q = s.partOpen.getLsbD q)
    (ht : ∀ q < 16, q ≠ p → v.getLsbD q = (partOne s v p).partOpen.getLsbD q) : partctlWrite s v = partOne s v p := by
  have hfix : ∀ (t : State) (l : List Nat), (∀ q ∈ l, v.getLsbD q = t.partOpen.getLsbD q) → l.foldl (fun s q => partOne s v q) t = t := by
    intro t l
    induction l with
    | nil => exact fun _ => rfl
    | cons q r ih =>
      intro hl
      rw [List.foldl_cons, partOne_same (hl q List.mem_cons_self)]
      exact ih (fun x hx => hl x (List.mem_cons_of_mem q hx))
  have hsplit : List.range 16 = List.range p ++ p :: (List.range (15 - p)).map (p + 1 + ·) := by
    have h16 : 16 = p + (1 + (15 - p)) := by omega
    conv_lhs => rw [h16, List.range_add]
    rw [List.range_add, List.map_append, List.map_map, List.range_one, List.map_singleton, Nat.add_zero, List.singleton_append]
    simp only [Function.comp_def, Nat.add_assoc]
  rw [partctlWrite, hsplit, List.foldl_append, List.foldl_cons, hfix s _ (fun q hq => ?_), hfix _ _ (fun q hq => ?_)]
  · obtain ⟨i, hi, rfl⟩ := List.mem_map.mp hq
    have := List.mem_range.mp hi
    exact ht _ (by omega) (by omega)
  · have := List.mem_range.mp hq
    exact hs q (by omega) (by omega)

section
variable {s : State} {v : Word} {p q : Nat}

/-- The bits that a write of PARTCTL sets, and those that it keeps. -/
theorem getLsbD_opened (hv : fld v 0 16 = 2 ^ p) (hq : q < 16) :
    (BitVec.ofNat 64 (fld v 0 16 ||| s.partOpen.toNat)).getLsbD q = (decide (p = q) || s.partOpen.getLsbD q) := by
  have h64 : q < 64 := by omega
  rw [hv, BitVec.getLsbD_ofNat, decide_eq_true h64, Bool.true_and, Nat.testBit_or, Nat.testBit_two_pow, BitVec.testBit_toNat]

theorem getLsbD_closed (hp : p < 16) (hv : fld v 0 16 = 0xFFFF - 2 ^ p) (hq : q < 16) :
    (BitVec.ofNat 64 (fld v 0 16 &&& s.partOpen.toNat)).getLsbD q = (!decide (p = q) && s.partOpen.getLsbD q) := by
  have h64 : q < 64 := by omega
  have hsub : 0xFFFF - 2 ^ p = 2 ^ 16 - (2 ^ p + 1) := by omega
  have hlt : 2 ^ p < 2 ^ 16 := Nat.pow_lt_pow_right (by decide) hp
  rw [hv, hsub, BitVec.getLsbD_ofNat, decide_eq_true h64, Bool.true_and, Nat.testBit_and, Nat.testBit_two_pow_sub_succ hlt, Nat.testBit_two_pow,
    BitVec.testBit_toNat, decide_eq_true hq, Bool.true_and]

theorem partOne_opens (hv : v.getLsbD p = true) (ho : s.partOpen.getLsbD p = false) : partOne s v p =
    if partGood s p then
      { s with partOpen := s.partOpen ||| BitVec.ofNat 16 (2 ^ p),
               places := s.places.filter (fun x => x.2.1 ≠ p) ++ (partMembers s p).map (fun n => (n, p, logicalOf s n)) }
    else s :=
  if_pos (by rw [hv, ho]; rfl)

theorem partOne_closes (hv : v.getLsbD p = false) (ho : s.partOpen.getLsbD p = true) : partOne s v p =
    if partIdle s p then
      { s with partOpen := s.partOpen &&& ~~~(BitVec.ofNat 16 (2 ^ p)), places := s.places.filter (fun x => x.2.1 ≠ p) }
    else s := by
  unfold partOne
  rw [hv, ho]
  simp only [Bool.false_and, Bool.not_false, Bool.true_and, Bool.false_eq_true, if_false]

/-- No act of a partition touches another partition's bit. -/
theorem partOne_other (hq : q < 16) (hne : q ≠ p) : (partOne s v p).partOpen.getLsbD q = s.partOpen.getLsbD q := by
  have hbit : (BitVec.ofNat 16 (2 ^ p)).getLsbD q = false := by
    rw [BitVec.getLsbD_ofNat, Nat.testBit_two_pow, decide_eq_false (Ne.symm hne), Bool.and_false]
  unfold partOne
  split
  · split
    · simp only [BitVec.getLsbD_or, hbit, Bool.or_false]
    · rfl
  · split
    · simp only [BitVec.getLsbD_and, BitVec.getLsbD_not, hbit, decide_eq_true hq, Bool.not_false, Bool.and_self, Bool.and_true]
    · rfl

theorem partctlOpen_one (hp : p < 16) (hv : fld v 0 16 = 2 ^ p) (ho : s.partOpen.getLsbD p = false) : partctlOpen s v =
    if partGood s p then
      { s with partOpen := s.partOpen ||| BitVec.ofNat 16 (2 ^ p),
               places := s.places.filter (fun x => x.2.1 ≠ p) ++ (partMembers s p).map (fun n => (n, p, logicalOf s n)) }
    else s := by
  have hkeep : ∀ q < 16, q ≠ p → (BitVec.ofNat 64 (fld v 0 16 ||| s.partOpen.toNat)).getLsbD q = s.partOpen.getLsbD q := fun q hq hne => by
    rw [getLsbD_opened hv hq, decide_eq_false (Ne.symm hne), Bool.false_or]
  refine (partctlWrite_one hp hkeep (fun q hq hne => (hkeep q hq hne).trans (partOne_other hq hne).symm)).trans (partOne_opens ?_ ho)
  rw [getLsbD_opened hv hp, decide_eq_true rfl, Bool.true_or]

theorem partctlClose_one (hp : p < 16) (hv : fld v 0 16 = 0xFFFF - 2 ^ p) (ho : s.partOpen.getLsbD p = true) : partctlClose s v =
    if partIdle s p then
      { s with partOpen := s.partOpen &&& ~~~(BitVec.ofNat 16 (2 ^ p)), places := s.places.filter (fun x => x.2.1 ≠ p) }
    else s := by
  have hkeep : ∀ q < 16, q ≠ p → (BitVec.ofNat 64 (fld v 0 16 &&& s.partOpen.toNat)).getLsbD q = s.partOpen.getLsbD q := fun q hq hne => by
    rw [getLsbD_closed hp hv hq, decide_eq_false (Ne.symm hne), Bool.not_false, Bool.true_and]
  refine (partctlWrite_one hp hkeep (fun q hq hne => (hkeep q hq hne).trans (partOne_other hq hne).symm)).trans (partOne_closes ?_ ho)
  rw [getLsbD_closed hp hv hp, decide_eq_true rfl, Bool.not_true, Bool.false_and]

end

/-- Settles O60: links by what is noted, PARTCTL by the one bit that changes. -/
theorem linksAndPartitions : Obligations.LinksAndPartitions := by
  refine ⟨fun p s hp => ⟨exec_portLinkChange hp, exec_portLinkChange hp⟩,
    fun m s hm => ⟨next_eq (exec_ucieRetrainFail m s) ((if_pos hm).trans ?_), exec_ucieModuleReturn m s⟩,
    fun v s => ⟨exec_partctlOpen v s, exec_partctlClose v s⟩, fun p v s hp => ⟨fun hv ho => ?_, fun hv ho => ?_⟩⟩
  · simp only [ucieFail, machineCheck_ucieUp]
    rfl
  · have hopen := partctlOpen_one hp hv ho
    exact ⟨fun hg => next_eq (exec_partctlOpen v s) (hopen.trans (if_pos hg)),
      fun hg => next_eq (exec_partctlOpen v s) (hopen.trans (if_neg (ne_true_of_eq_false hg)))⟩
  · have hclose := partctlClose_one hp hv ho
    exact ⟨fun hg => next_eq (exec_partctlClose v s) (hclose.trans (if_pos hg)),
      fun hg => next_eq (exec_partctlClose v s) (hclose.trans (if_neg (ne_true_of_eq_false hg)))⟩

end Sys2Proof.Machine
end


section
/-! SUPPORT. Logs, rollback, scrubs, control words and pool lines (R321, R350 to R358, R369, R395). -/

namespace Sys2Proof.Machine

/-! ## Counter areas, rollback and the control space -/

section
variable {s : State} {n : Nat} {v : Word} (hp : (s.core n).places = [])
include hp

theorem ctrareaWrite_takes (h : fld v 12 9 * 4096 + fld v 21 9 * 4096 ≤ 0x200000) :
    ctrareaWrite s n v = setCtrl s (0x1000 * n + 0x40) (BitVec.ofNat 64 (fld v 12 18 * 4096)) := by
  simp only [ctrareaWrite, hp, ne_eq, not_true, if_false, if_neg (Nat.not_lt.mpr h)]

theorem ctrareaWrite_ignores (h : 0x200000 < fld v 12 9 * 4096 + fld v 21 9 * 4096) : ctrareaWrite s n v = s := by
  simp only [ctrareaWrite, hp, ne_eq, not_true, if_false, if_pos h]

end

section
variable {s : State} {v : Word} (hg : fld v 48 1 = 1) (hb : s.rbBusy = false)
include hg hb

theorem rollbackStart_eq : rollbackStart s v =
    if s.logOvf ≠ [] ∨ ctxInSlot s (BitVec.ofNat 16 (fld v 32 16)) = true then
      { setCtrl s 0x408008 (BitVec.ofNat 64 (fld v 0 48)) with rbRefused := true, rbDone := false }
    else { setCtrl s 0x408008 (BitVec.ofNat 64 (fld v 0 48)) with
      rbBusy := true, rbDone := false, rbRefused := false, rbWord := BitVec.ofNat 64 (fld v 0 48) } := by
  have hgo : ¬(fld v 48 1 = 0 ∨ s.rbBusy = true) := by simp [hg, hb]
  exact (if_pos hg).trans (if_neg hgo)

end

theorem replayLog_single {s : State} {ch : Nat} {e : LogEntry} (hl : s.logs.get ch [] = [e]) (hid : e.id ≠ 0) (ha : e.addr < Config.windowBase) :
    replayLog s ch e.ctx e.id =
      let u := chanWrite (storeHome (forgetLine s e.addr) e.addr e.old.toNat 0 none)
        (fld (s.ctrlWord (0x1000 * ch + 0x20) 0) 20 36 * 0x100000 + 16) 4 0
      { u with logs := u.logs.set ch [{ e with id := 0 }] } := by
  have hfirst : ([e].takeWhile (fun x => !(decide (x.ctx = e.ctx) && decide (x.id = e.id)))).length = 0 := by simp
  have hgo : ¬(e.ctx ≠ e.ctx ∨ e.id = 0) := fun h => h.elim (fun h => h rfl) hid
  unfold replayLog
  simp only [hl, hfirst, List.length_singleton, List.filter_cons, List.filter_nil, decide_true,
    List.reverse_singleton, List.foldl_cons, List.foldl_nil, List.getElem?_cons_zero,
    if_neg hgo, if_pos ha, Nat.mul_zero, Nat.add_zero, List.range_one, List.zip_cons_cons, List.zip_nil_left, List.map_cons, List.map_nil,
    Nat.zero_le, true_and, if_true]

theorem ctrlReg_sysvec {n : Nat} (hn : n < 1024) : ctrlReg (0x1000 * n) = .sysvec n := by
  have hlt : 0x1000 * n < 0x400000 := by omega
  have hmod : 0x1000 * n % 0x1000 = 0 := Nat.mul_mod_right _ _
  have hdiv : 0x1000 * n / 0x1000 = n := Nat.mul_div_cancel_left _ (by decide)
  simp only [ctrlReg, if_pos hlt, hmod, hdiv]

/-- Settles O56: each write by its own rule. -/
theorem platformWrites : Obligations.PlatformWrites := by
  refine ⟨fun n v s hn => ⟨exec_cklogWrite hn, fun hp h => next_eq (exec_ctrareaWrite hn) (ctrareaWrite_takes hp h),
      fun hp h => next_eq (exec_ctrareaWrite hn) (ctrareaWrite_ignores hp h)⟩,
    fun v s hg hb => ?_, fun s hb => ?_, fun s ch e hl hid ha => replayLog_single hl hid ha,
    fun line s => ⟨exec_scrubPass line false s, exec_scrubPass line true s⟩, fun off by_ v s hr => ?_⟩
  · intro w t
    exact ⟨fun h => next_eq (exec_rollbackStart v s) ((rollbackStart_eq hg hb).trans (if_pos h)),
      fun ho hi => next_eq (exec_rollbackStart v s) ((rollbackStart_eq hg hb).trans (if_neg (by simp [ho, hi])))⟩
  · exact next_eq (exec_rollbackComplete s) (if_neg (by simp [hb]))
  · have hwrite : exec (.registerWrite off v by_) s = .next (ctrlWrite s off v by_) :=
      next_eq (exec_registerWrite off v by_ s) (if_neg (by simp [hr]))
    refine ⟨hwrite, fun n hn ho => next_eq hwrite ?_, fun ho => next_eq hwrite ?_⟩
    · rw [ho, ctrlWrite, ctrlReg_sysvec hn]
    · rw [ho]
      rfl

/-! ## Pool lines (R350 to R354)

`poolLineWriteback` finds the tower of a line by its address, and the statement takes the event's own tower, with every line number. The
number 2^31 of tower 0 is the address of tower 1's first line. -/

/-- The first line of tower 1, dirty. -/
def secondTowerLine : Line :=
  { addr := 0x1C000000000, data := 0, valid := 0xFF, dirty := 1, poison := 0, scope := 5, keep := false, owned := false, ctx := none }

/-- It stands in its set's reserve way, and no chunk is free. -/
def secondTowerState : State := { State.reset with llc := [secondTowerLine], towers := [(1, { reserve := [0x1C000000000] })] }

/-- A tower without a free chunk stores no line that needs one. -/
theorem poolStore_short {s : State} {a data poison : Nat} {hot : Bool} (hfree : poolFree s (poolTower a) = 0)
    (hnew : metaChunks (poolMeta s a) = []) : poolStore s a data poison hot none = none := by
  obtain ⟨k, hk⟩ : ∃ k, lineChunks data poison hot = k + 1 := Nat.exists_eq_add_of_le' (Nat.le_max_left 1 _)
  have hpop : popChunk s (poolTower a) = none := by simp only [popChunk, hfree, if_true]
  have hpops : popChunks s (poolTower a) (k + 1) = none := by simp only [popChunks, hpop]
  simp only [poolStore, hnew, hk, List.length_nil, Nat.sub_zero, logLine, hpops]

theorem secondTowerState_full (data poison : Nat) (hot : Bool) : poolStore secondTowerState 0x1C000000000 data poison hot none = none :=
  poolStore_short (by decide) (by decide)

theorem secondTowerState_reserved : (secondTowerState.tower (poolTower 0x1C000000000)).reserve.contains 0x1C000000000 = true := by decide

theorem secondTowerState_turn : poolTurn secondTowerState 0x1C000000000 = true := by decide

theorem secondTowerState_found : findLine secondTowerState.llc 0x1C000000000 = some secondTowerLine := rfl

theorem secondTowerState_stays : poolLineWriteback secondTowerState 0 0x80000000 false = secondTowerState := by
  have hdirty : ¬(1 : BitVec 8) = 0 := by decide
  have haddr : Config.poolBase + 0 * 0x4000000000 + 128 * 0x80000000 = 0x1C000000000 := by decide
  have hbase : ¬0x1C000000000 < Config.windowBase := by decide
  have hkeep : poolKeep secondTowerState 0x1C000000000 = secondTowerState := by
    simp only [poolKeep, secondTowerState_reserved, if_true]
  have hevict : llcEvict secondTowerState secondTowerLine = secondTowerState := by
    refine (if_neg hbase).trans ((if_neg hdirty).trans ?_)
    simp only [secondTowerLine, secondTowerState_full, hkeep]
  unfold poolLineWriteback
  simp only [haddr, secondTowerState_found, secondTowerState_turn, Bool.not_true, Bool.and_false, Bool.false_eq_true, if_false, hevict]

/-- Refutes O57: the line of number 2^31 of tower 0 is tower 1's, and when it already stands in its reserve way nothing changes; the
statement has it pinned in tower 0. -/
theorem not_poolsAndLines : ¬ Obligations.PoolsAndLines := by
  intro h
  obtain ⟨hline, -⟩ := h
  obtain ⟨-, -, hshort⟩ := hline 0 0x80000000 secondTowerLine secondTowerState (by decide) secondTowerState_found
  obtain ⟨-, hpin⟩ := hshort (by decide) secondTowerState_turn (secondTowerState_full _ _ _) (by decide)
  have hstate := (next_eq (exec_poolLineWriteback (by decide)) secondTowerState_stays).symm.trans (hpin (by decide) (by decide))
  exact absurd (congrArg (fun o => match o with | .next s => (s.tower 0).pinned | _ => []) hstate) (by decide)

end Sys2Proof.Machine
end


section
/-! SUPPORT. Steps, ramps, the current loop, thermal acts and warm reset (R293, R360 to R367, R385). -/

namespace Sys2Proof.Machine

/-! ## Ramps (R361, R362) -/

theorem table_set_set {α : Type} (m : Table α) (k : Nat) (v w : α) : Table.set (Table.set m k v) k w = Table.set m k w := by
  induction m with
  | nil => simp only [Table.set, if_true]
  | cons p r ih =>
    obtain ⟨j, x⟩ := p
    simp only [Table.set]
    split
    · simp only [Table.set, if_true]
    · next hne =>
      split
      · simp only [Table.set, if_true]
      · next hge => simp only [Table.set, if_neg hne, if_neg hge, ih]

theorem setCluster_modCluster (s : State) (c : Nat) (x : Cluster) (f : Cluster → Cluster) :
    (s.setCluster c x).modCluster c f = s.setCluster c (f x) := by
  have hget : (s.setCluster c x).cluster c = x := Table.get_set_same _ _ _ _
  rw [State.modCluster, hget]
  simp only [State.setCluster, table_set_set]

/-- Nothing of a die that is not going offline is left to do. -/
theorem offlineGo_idle {s : State} {d : Nat} (h : (s.die d).offBusy = false) : offlineGo s d = s := if_pos (by rw [h]; rfl)

theorem rampComplete_quiet {s : State} {c : Nat} (hc : c < 128) (hr : (s.cluster c).ramp = true) (ht : (s.cluster c).rampEnd ≤ s.time.toNat)
    (h8 : (s.cluster c).toEight = false) (hd : (s.cluster c).stepDown = false) (hg : (s.cluster c).heldGo = none)
    (hdies : ∀ d, d < 4 → (s.die d).offBusy = false) :
    rampComplete s c = s.setCluster c { s.cluster c with
        step := (s.cluster c).target, ramp := false, toEight := false, clears := false,
        removed := if (s.cluster c).clears then 0 else (s.cluster c).removed,
        lowRun := if (s.cluster c).clears then 0 else (s.cluster c).lowRun } := by
  have hgo : ¬((!(s.cluster c).ramp) = true ∨ s.time.toNat < (s.cluster c).rampEnd) := by simp [hr, ht]
  have hkeep : ∀ (x : Cluster) (d : Nat), d < 4 → offlineGo (s.setCluster c x) d = s.setCluster c x := fun x d h => offlineGo_idle (hdies d h)
  have h0 : 2 * (c / 64) < 4 := by omega
  have h1 : 2 * (c / 64) + 1 < 4 := by omega
  refine (if_neg hgo).trans ?_
  simp only [h8, hd, hg, setCluster_modCluster, Bool.false_eq_true, false_and, if_false, List.foldl_cons, List.foldl_nil, hkeep _ _ h0,
    hkeep _ _ h1]

theorem grantWrite_go {s : State} {c : Nat} {v : Word} (hg : fld v 8 1 = 1) : grantWrite s c v =
    let t := setCtrl s (0x408200 + 8 * c) (takeFld (takeFld (s.ctrlWord (0x408200 + 8 * c) (ctrlReset (.pwrreq c))) v 4 4) v 16 16)
    if (t.cluster c).ramp || clusterBusy t c then t.modCluster c (fun x => { x with heldGo := some (fld v 4 4) }) else goActs t c (fld v 4 4) := by
  refine (if_pos hg).trans ?_
  simp only [clusterBusy, Bool.or_assoc]
  rfl

/-! ## The current loop (R363, R364) -/

section
variable {s : State} {c amps : Nat} (ht : (s.cluster c).sampled + 256 ≤ clusterCycle s c)
include ht

theorem currentSample_eq : currentSample s c amps =
    let x := s.cluster c
    let now := clusterCycle s c
    let ilim := fld (ctrlRead s (0x408200 + 8 * c)) 16 16
    if ilim < amps then
      s.setCluster c { x with sampled := now, removed := min 6 (x.removed + 1), lowRun := 0,
                              removedSince := if x.removed = 0 then now else x.removedSince }
    else if 16 * amps < 15 * ilim then
      (if x.lowRun = 3 then s.setCluster c { x with sampled := now, lowRun := 0, removed := x.removed - 1 }
       else s.setCluster c { x with sampled := now, lowRun := x.lowRun + 1 })
    else s.setCluster c { x with sampled := now, lowRun := 0 } :=
  if_neg (Nat.not_lt.mpr ht)

end

section
variable {s : State} {c : Nat} (hr : (s.cluster c).removed ≠ 0) (ht : (s.cluster c).removedSince + 65536 ≤ clusterCycle s c)
  (h8 : (s.cluster c).step < 8)
include hr ht h8

theorem currentStepDown_ramping (hramp : (s.cluster c).ramp = true) : currentStepDown s c =
    if (s.cluster c).clears then s else s.setCluster c { s.cluster c with stepDown := true } := by
  have hlate : ¬clusterCycle s c < (s.cluster c).removedSince + 65536 := by omega
  have hlow : ¬8 ≤ (s.cluster c).step := by omega
  simp only [currentStepDown, hr, hlate, hlow, hramp, false_or, true_and, if_true]

theorem currentStepDown_now (hramp : (s.cluster c).ramp = false) : currentStepDown s c =
    rampBegin (s.modCluster c (fun x => { x with stepDown := false, clears := true })) c ((s.cluster c).step + 1) := by
  have hlate : ¬clusterCycle s c < (s.cluster c).removedSince + 65536 := by omega
  have hlow : ¬8 ≤ (s.cluster c).step := by omega
  simp only [currentStepDown, stepDown, hr, hlate, hlow, hramp, Bool.false_eq_true, false_or, false_and, if_false]

end

/-! ## Warm reset (R385) -/

section
variable {s : State} {d : Nat} {ok : Bool}

theorem warmPhase_offline (hp : (s.die d).phase = .offline) :
    (offlineDone s d = true → warmPhase s d ok = s.modDie d (fun x => { x with phase := .quiesce })) ∧
    (offlineDone s d = false → (s.die d).offBusy = false → warmPhase s d ok = offlineBegin s d) :=
  ⟨fun h => by simp only [warmPhase, hp, h, if_true], fun h hb => by simp only [warmPhase, hp, h, hb, Bool.false_eq_true, if_false]⟩

theorem warmPhase_quiesce (hp : (s.die d).phase = .quiesce) (he : dieEngines s d = []) :
    warmPhase s d ok = s.modDie d (fun x => { x with phase := .writeback }) := by
  simp only [warmPhase, hp, he, List.foldl_nil, List.isEmpty_nil, if_true]

theorem warmPhase_writeback (hp : (s.die d).phase = .writeback) : warmPhase s d ok =
    if (dieClusters d).any (halfHeld s d) then s
    else (losePairs ((dieClusters d).foldl (emptyL2 d) s) d).modDie d (fun x => { x with phase := .reset }) := by
  simp only [warmPhase, hp]

theorem warmPhase_reset (hp : (s.die d).phase = .reset) :
    warmPhase s d ok = s.modDie d (fun x => { x with phase := if d % 2 = 0 then .retrain else .readmit }) := by
  simp only [warmPhase, hp]

theorem warmPhase_retrain (hp : (s.die d).phase = .retrain) :
    warmPhase s d true = s.modDie d (fun x => { x with phase := .readmit }) ∧
    ((warmPhase s d false).die d).failed = true ∧ ((warmPhase s d false).die d).phase = .idle := by
  refine ⟨by simp only [warmPhase, hp, if_true], ?_, ?_⟩
  all_goals simp only [warmPhase, hp, Bool.false_eq_true, if_false, modDie_same]

theorem warmPhase_readmit (hp : (s.die d).phase = .readmit) :
    warmPhase s d ok = (bringUpDie s d).modDie d (fun x => { x with phase := .idle }) := by
  simp only [warmPhase, hp]

theorem dieReset_brings (ha : dieAway (s.die d) = false) (hf : ∀ n ∈ dieSites d, ∀ k < 7, (s.slot n k).phase = .free) :
    dieReset s d = bringUpDie s d := by
  have hnone : (dieSites d).any (fun n => (List.range 7).any (fun k => (s.slot n k).phase != .free)) = false := by
    refine List.any_eq_false.mpr (fun n hn => ?_)
    rw [Bool.not_eq_true]
    exact List.any_eq_false.mpr (fun k hk => by rw [hf n hn k (List.mem_range.mp hk)]; decide)
  refine if_neg ?_
  rw [ha, hnone]
  decide

end

/-- Settles O58: each event of a cluster or a die by its guard. -/
theorem powerAndDies : Obligations.PowerAndDies := by
  refine ⟨⟨fun c v s hc hv => next_eq (exec_pwrreqStepWrite hc) (if_neg (Nat.not_lt.mpr hv)),
    fun c v s hc hup hg => next_eq (exec_pwrreqGo hc) ((if_pos ⟨hup, hg⟩).trans (grantWrite_go hg)),
    fun c s hc hr ht h8 hd hg hdies => next_eq (exec_rampComplete hc) (rampComplete_quiet hc hr ht h8 hd hg hdies),
    fun c amps s hc ht => ?_, fun c s hc hr ht h8 => ⟨fun hramp hcl => ?_, fun hramp hcl => ?_, fun hramp => ?_⟩⟩,
    fun d temp v s hd => ⟨fun hz ht ho hp => ?_, fun hz ht ho => ?_, fun ht hcut => ?_, fun hb ht => ?_, fun hup hv hp hb => ?_, fun hv hp => ?_,
      ⟨fun hp hdone => ?_, fun hp hdone hb => ?_, fun hp he => ?_, fun hp => ⟨fun hh => ?_, fun hh => ?_⟩, fun hp => ?_, fun hp => ?_, fun hp => ?_⟩,
      fun ha hf => ?_, fun ht => ?_⟩⟩
  · have hsample := next_eq (exec_currentSample hc) (currentSample_eq (amps := amps) ht)
    intro x now ilim
    refine ⟨fun h => hsample.trans ?_, fun h hl => hsample.trans ?_, fun h hl => hsample.trans ?_, fun h h' => hsample.trans ?_⟩
    · exact congrArg _ (if_pos h)
    · exact congrArg _ ((if_neg (by omega)).trans ((if_pos h).trans (if_pos hl)))
    · exact congrArg _ ((if_neg (by omega)).trans ((if_pos h).trans (if_neg hl)))
    · exact congrArg _ ((if_neg (by omega)).trans (if_neg (by omega)))
  · exact next_eq (exec_currentStepDown hc) ((currentStepDown_ramping hr ht h8 hramp).trans (if_neg (ne_true_of_eq_false hcl)))
  · exact next_eq (exec_currentStepDown hc) ((currentStepDown_ramping hr ht h8 hramp).trans (if_pos hcl))
  · exact next_eq (exec_currentStepDown hc) (currentStepDown_now hr ht h8 hramp)
  · exact next_eq (exec_thermalOffline hd) ((if_neg hz).trans (if_neg (by simp [ho, hp]; omega)))
  · exact next_eq (exec_thermalClamp hd) (if_neg (by simp [ho, hz]; omega))
  · exact next_eq (exec_thermalCut hd) (if_neg (by simp [hcut]; omega))
  · exact next_eq (exec_offlineTimeoutCut hd) (if_pos ⟨hb, ht⟩)
  · exact next_eq (exec_thermstReadmit hd) (if_pos ⟨hup, hv, hp, by rw [hb]; rfl⟩)
  · exact next_eq (exec_wrstGo hd) (if_pos hv)
  · exact next_eq (exec_warmResetPhase hd) ((warmPhase_offline hp).1 hdone)
  · exact next_eq (exec_warmResetPhase hd) ((warmPhase_offline hp).2 hdone hb)
  · exact next_eq (exec_warmResetPhase hd) (warmPhase_quiesce hp he)
  · exact next_eq (exec_warmResetPhase hd) ((warmPhase_writeback hp).trans (if_pos hh))
  · exact next_eq (exec_warmResetPhase hd) ((warmPhase_writeback hp).trans (if_neg (ne_true_of_eq_false hh)))
  · exact next_eq (exec_warmResetPhase hd) (warmPhase_reset hp)
  · obtain ⟨hok, hfailed, hidle⟩ := warmPhase_retrain hp
    exact ⟨next_eq (exec_warmResetPhase hd) hok, _, exec_warmResetPhase hd, hfailed, hidle⟩
  · exact next_eq (exec_warmResetPhase hd) (warmPhase_readmit hp)
  · exact next_eq (exec_dieReset hd) (dieReset_brings ha hf)
  · exact next_eq (exec_warmZone hd) (if_neg (Nat.not_le.mpr ht))

end Sys2Proof.Machine
end


section
/-! SUPPORT. Repacks and packing (R62, R78), and the commit of due results (R107 to R109). -/

namespace Sys2Proof.Machine

/-! ## Packing (R62) -/

/-- Refutes O25: a width of zero fits behind a row that is full, and its place is then the first bit of the next row. With one row and
the widths 128 and 0 the second name's row is row 1, and there is none. -/
theorem not_repackAndPacking : ¬ Obligations.RepackAndPacking := by
  intro h
  obtain ⟨-, hpack⟩ := h
  obtain ⟨-, hrows, -⟩ := hpack 1 [128, 0] [0, 128] rfl
  obtain ⟨hrow, -⟩ := hrows 1 128 0 rfl rfl
  exact absurd hrow (by decide)

/-! ## Commits (R107 to R109) -/

/-- What the writes of a commit of slot `k` of core `n` leave: everything but the register rows and `dirty` there. -/
structure CommitFrame (n k : Nat) (s t : State) : Prop where
  mem : t.mem = s.mem
  ctrl : t.ctrl = s.ctrl
  llc : t.llc = s.llc
  clusters : t.clusters = s.clusters
  threads : t.threads = s.threads
  other : ∀ m j, m ≠ n ∨ j ≠ k → t.slot m j = s.slot m j
  slot : t.slot n k = { s.slot n k with rows := (t.slot n k).rows, dirty := (t.slot n k).dirty }
  sig : ∀ m, (t.core m).sig = (s.core m).sig
  pairSig : ∀ p, (t.pair p).sig = (s.pair p).sig
  cycle : ∀ m, (t.core m).cycle = (s.core m).cycle

namespace CommitFrame

variable {n k : Nat} {s t u : State}

theorem refl (s : State) : CommitFrame n k s s := ⟨rfl, rfl, rfl, rfl, rfl, fun _ _ _ => rfl, rfl, fun _ => rfl, fun _ => rfl, fun _ => rfl⟩

theorem trans (h : CommitFrame n k s t) (g : CommitFrame n k t u) : CommitFrame n k s u where
  mem := g.mem.trans h.mem
  ctrl := g.ctrl.trans h.ctrl
  llc := g.llc.trans h.llc
  clusters := g.clusters.trans h.clusters
  threads := g.threads.trans h.threads
  other := fun m j hm => (g.other m j hm).trans (h.other m j hm)
  slot := by rw [g.slot, h.slot]
  sig := fun m => (g.sig m).trans (h.sig m)
  pairSig := fun p => (g.pairSig p).trans (h.pairSig p)
  cycle := fun m => (g.cycle m).trans (h.cycle m)

end CommitFrame

theorem core_modSlot_same {α : Type} (g : Core → α) (hg : ∀ c k x, g (c.setSlot k x) = g c) (s : State) (n k : Nat) (f : Slot → Slot) (m : Nat) :
    g ((s.modSlot n k f).core m) = g (s.core m) := by
  by_cases h : m = n
  · subst h
    rw [modSlot_core, hg]
  · rw [modSlot_otherCore _ _ _ _ _ h]

theorem core_modCore_same {α : Type} (g : Core → α) (s : State) (n : Nat) {f : Core → Core} (hf : ∀ c, g (f c) = g c) (m : Nat) :
    g ((s.modCore n f).core m) = g (s.core m) := by
  by_cases h : m = n
  · subst h
    rw [modCore_same, hf]
  · rw [modCore_other _ _ _ _ h]

theorem slot_modCore_same (s : State) (n : Nat) {f : Core → Core} (hf : ∀ c, (f c).slots = c.slots) (m j : Nat) :
    (s.modCore n f).slot m j = s.slot m j := by
  have h := core_modCore_same Core.slots s n hf m
  simp only [State.slot, Core.slot, h]

theorem commitFrame_modSlot (s : State) (n k : Nat) {f : Slot → Slot}
    (hf : ∀ x, f x = { x with rows := (f x).rows, dirty := (f x).dirty }) : CommitFrame n k s (s.modSlot n k f) where
  mem := rfl
  ctrl := rfl
  llc := rfl
  clusters := rfl
  threads := rfl
  other := fun m j h => modSlot_other s n k f m j h
  slot := by rw [modSlot_same]; exact hf _
  sig := core_modSlot_same Core.sig (fun _ _ _ => rfl) s n k f
  pairSig := fun _ => rfl
  cycle := core_modSlot_same Core.cycle (fun _ _ _ => rfl) s n k f

theorem commitFrame_shared (s : State) (n k : Nat) (v : Core → BitVec 2048) :
    CommitFrame n k s (s.modCore n (fun c => { c with sharedRows := v c })) where
  mem := rfl
  ctrl := rfl
  llc := rfl
  clusters := rfl
  threads := rfl
  other := fun m j _ => slot_modCore_same s n (f := fun c => { c with sharedRows := v c }) (fun _ => rfl) m j
  slot := by rw [slot_modCore_same s n (f := fun c => { c with sharedRows := v c }) (fun _ => rfl) n k]
  sig := core_modCore_same Core.sig s n fun _ => rfl
  pairSig := fun _ => rfl
  cycle := core_modCore_same Core.cycle s n fun _ => rfl

theorem commitFrame_pair (s : State) (n k q : Nat) (v : Pair → BitVec 1024) :
    CommitFrame n k s (s.modPair q (fun p => { p with rows := v p })) where
  mem := rfl
  ctrl := rfl
  llc := rfl
  clusters := rfl
  threads := rfl
  other := fun _ _ _ => rfl
  slot := rfl
  sig := fun _ => rfl
  pairSig := fun p => by
    by_cases h : p = q
    · subst h
      rw [modPair_same]
    · rw [modPair_other _ _ _ _ h]
  cycle := fun _ => rfl

theorem commitFrame_writeBits (s : State) (n k m v : Nat) : CommitFrame n k s (writeBits s n k m v) := by
  unfold writeBits
  split
  · exact .refl s
  split
  · exact .refl s
  next i hi =>
    split
    · exact commitFrame_modSlot s n k fun _ => rfl
    · exact commitFrame_shared s n k _
    · exact commitFrame_pair s n k _ _

theorem commitFrame_commitList (n k : Nat) (l : List Pending) : ∀ s : State, CommitFrame n k s (commitList s n k l) := by
  induction l with
  | nil => exact .refl
  | cons p r ih =>
    intro s
    refine .trans ?_ (ih _)
    split
    · exact commitFrame_writeBits ..
    · exact .refl s

/-! ### What stays pending (R108) -/

theorem mem_of_withoutPending {gone : Pending → Bool} {p : Pending} {l : List Pending} (h : p ∈ withoutPending gone l) : p ∈ l ∧ gone p = false := by
  induction l with
  | nil => exact absurd h (List.not_mem_nil)
  | cons q r ih =>
    simp only [withoutPending] at h
    split at h
    · exact ⟨List.mem_cons_of_mem q (ih h).1, (ih h).2⟩
    · next hq =>
      rcases List.mem_cons.mp h with rfl | hp
      · simp only [Bool.or_eq_true, not_or, Bool.not_eq_true] at hq
        exact ⟨List.mem_cons_self, hq.1⟩
      · exact ⟨List.mem_cons_of_mem q (ih hp).1, (ih hp).2⟩

theorem mem_withoutPending {gone : Pending → Bool} {p : Pending} {b : List Pending} (hp : gone p = false)
    (hb : ∀ q ∈ b, q.name = p.name → gone q = false) : ∀ a : List Pending, p ∈ withoutPending gone (a ++ p :: b)
  | [] => by
    have hlater : b.any (fun q => decide (q.name = p.name) && gone q) = false := by
      refine List.any_eq_false.mpr fun q hq => ?_
      by_cases hn : q.name = p.name
      · simp [hb q hq hn]
      · simp [hn]
    simp only [List.nil_append, withoutPending, hp, hlater, Bool.or_self, Bool.false_eq_true, if_false]
    exact List.mem_cons_self
  | q :: a => by
    have ih := mem_withoutPending hp hb a
    simp only [List.cons_append, withoutPending]
    split
    · exact ih
    · exact List.mem_cons_of_mem q ih

/-! ### The name that a commit writes -/

theorem nameInfo_commit {s t : State} {n k : Nat} (h : CommitFrame n k s t) (m : Nat) : nameInfo t n k m = nameInfo s n k m := by
  have hmap : (t.slot n k).map = (s.slot n k).map := by rw [h.slot]
  have hcur : currentNames t n = currentNames s n := by
    funext l g
    cases g
    · rfl
    · exact h.sig n
    · exact h.pairSig (pairOf n)
  simp only [nameInfo, hmap, hcur]

/-- The bits just written read back, cut to the width. -/
theorem nameBits_writeBits {s : State} {n k m v : Nat} {i : Info} (hi : nameInfo s n k m = some i) (hm : m ≠ 63)
    (hfit : i.off + i.width ≤ 128 * i.region.rows) : nameBits (writeBits s n k m v) n k m = v % 2 ^ i.width := by
  have hinfo := (nameInfo_commit (commitFrame_writeBits s n k m v) m).trans hi
  rw [nameBits, if_neg hm, hinfo]
  simp only [writeBits, if_neg hm, hi]
  cases hg : i.region <;> rw [hg] at hfit
  · simp only [regionBits, modSlot_same]
    exact wideGet_wideSet_same _ _ hfit
  · simp only [regionBits, modCore_same]
    exact wideGet_wideSet_same _ _ hfit
  · simp only [regionBits, modPair_same]
    exact wideGet_wideSet_same _ _ hfit

/-- What is pending is no part of a name's bits. -/
theorem nameBits_pending (s : State) (n k m : Nat) (f : Slot → List Pending) :
    nameBits (s.modSlot n k (fun x => { x with pending := f x })) n k m = nameBits s n k m := by
  have hsig (q : Nat) : ((s.modSlot n k (fun x => { x with pending := f x })).core q).sig = (s.core q).sig :=
    core_modSlot_same Core.sig (fun _ _ _ => rfl) s n k _ q
  have hrows (q : Nat) : ((s.modSlot n k (fun x => { x with pending := f x })).core q).sharedRows = (s.core q).sharedRows :=
    core_modSlot_same Core.sharedRows (fun _ _ _ => rfl) s n k _ q
  have hcur : currentNames (s.modSlot n k (fun x => { x with pending := f x })) n = currentNames s n := by
    funext l g
    cases g
    · rfl
    · exact hsig n
    · rfl
  have hbits : regionBits (s.modSlot n k (fun x => { x with pending := f x })) n k = regionBits s n k := by
    funext g lo w
    cases g
    · simp only [regionBits, modSlot_same]
    · simp only [regionBits, hrows]
    · rfl
  simp only [nameBits, nameInfo, hcur, hbits, modSlot_same]

/-! ### The commit of a slot -/

theorem commitSlot_quiet {s : State} {n k : Nat} (h : (s.slot n k).pending.any (dueNow (s.core n).cycle) = false) : commitSlot s n k = s :=
  if_neg (by rw [h]; decide)

theorem commitSlot_due {s : State} {n k : Nat} (h : (s.slot n k).pending.any (dueNow (s.core n).cycle) = true) : commitSlot s n k =
    (commitList s n k (s.slot n k).pending).modSlot n k (fun x => { x with pending := stillPending (s.core n).cycle x.pending }) :=
  if_pos h

/-- What is pending after a commit. -/
theorem pending_commitSlot (s : State) (n k : Nat) : ((commitSlot s n k).slot n k).pending = stillPending (s.core n).cycle (s.slot n k).pending := by
  cases h : (s.slot n k).pending.any (dueNow (s.core n).cycle) with
  | true =>
    rw [commitSlot_due h, modSlot_same, (commitFrame_commitList n k (s.slot n k).pending s).slot]
  | false =>
    have hnone (l : List Pending) (hl : l.any (dueNow (s.core n).cycle) = false) : stillPending (s.core n).cycle l = l := by
      induction l with
      | nil => rfl
      | cons p r ih =>
        rw [List.any_cons, Bool.or_eq_false_iff] at hl
        obtain ⟨hp, hr⟩ := hl
        have hlater : r.any (fun q => decide (q.name = p.name) && dueNow (s.core n).cycle q) = false := by
          refine List.any_eq_false.mpr fun q hq => ?_
          simp [List.any_eq_false.mp hr q hq]
        rw [stillPending] at ih ⊢
        simp only [withoutPending, hp, hlater, Bool.or_self, Bool.false_eq_true, if_false, ih hr]
    rw [commitSlot_quiet h, hnone _ h]

/-- A due result that is alone is written. -/
theorem nameBits_commitSlot {s : State} {n k : Nat} {p : Pending} {i : Info} (hp : (s.slot n k).pending = [p])
    (hdue : dueNow (s.core n).cycle p = true) (hi : nameInfo s n k p.name = some i) (hm : p.name ≠ 63)
    (hfit : i.off + i.width ≤ 128 * i.region.rows) : nameBits (commitSlot s n k) n k p.name = p.bits.toNat % 2 ^ i.width := by
  have hany : (s.slot n k).pending.any (dueNow (s.core n).cycle) = true := by simp [hp, hdue]
  rw [commitSlot_due hany, nameBits_pending, hp]
  simp only [commitList, hdue, if_true]
  exact nameBits_writeBits hi hm hfit

/-- Settles O11: the writes by their frame, what stays pending by `withoutPending`. -/
theorem commitWrites : Obligations.CommitWrites := by
  intro s n k t
  have hpending : (t.slot n k).pending = stillPending (s.core n).cycle (s.slot n k).pending := pending_commitSlot s n k
  have hleaves : t.mem = s.mem ∧ t.ctrl = s.ctrl ∧ t.llc = s.llc ∧ t.clusters = s.clusters ∧ t.threads = s.threads ∧
      (∀ m j, m ≠ n ∨ j ≠ k → t.slot m j = s.slot m j) ∧
      t.slot n k = { s.slot n k with rows := (t.slot n k).rows, dirty := (t.slot n k).dirty, pending := (t.slot n k).pending } := by
    cases h : (s.slot n k).pending.any (dueNow (s.core n).cycle) with
    | true =>
      have hf := commitFrame_commitList n k (s.slot n k).pending s
      have ht : t = _ := commitSlot_due h
      rw [ht]
      refine ⟨hf.mem, hf.ctrl, hf.llc, hf.clusters, hf.threads, fun m j hm => (modSlot_other _ n k _ m j hm).trans (hf.other m j hm), ?_⟩
      rw [modSlot_same, hf.slot]
    | false =>
      have ht : t = s := commitSlot_quiet h
      rw [ht]
      exact ⟨rfl, rfl, rfl, rfl, rfl, fun _ _ _ => rfl, rfl⟩
  obtain ⟨hmem, hctrl, hllc, hclusters, hthreads, hother, hslot⟩ := hleaves
  refine ⟨hmem, hctrl, hllc, hclusters, hthreads, hother,
    fun p hp => mem_of_withoutPending (gone := dueNow (s.core n).cycle) (by rwa [hpending] at hp),
    fun a b p hl hp hb => ?_, hslot,
    fun p i hp hdue hi hm hfit => nameBits_commitSlot hp hdue hi hm hfit⟩
  rw [hpending, hl]
  exact mem_withoutPending hp hb a

end Sys2Proof.Machine
end


section
/-! SUPPORT. What an instruction that only computes leaves (R8, R113, R117 to R127). -/

namespace Sys2Proof.Machine

/-! ## A trap holds its slot -/

theorem takeTrap_held (s : State) (n k : Nat) (len32 : Bool) (c : Cause) (v pc : Word) : ((takeTrap s n k len32 c v pc).slot n k).phase = .held := by
  unfold takeTrap
  split
  next hk =>
    subst hk
    unfold trapSystem
    simp only [(keepsSlots_traceAuto ..).slot, (keepsSlots_machineCheck ..).slot, modCore_slots, implies_true, modSlot_same]
  next hk =>
    unfold trapUser
    simp only [(keepsSlots_traceAuto ..).slot, modCore_slots, implies_true, (keepsSlots_modThread ..).slot, modSlot_same]

theorem takeTrap_me_held (s : State) (len32 : Bool) (c : Cause) (v pc : Word) :
    (takeTrap s s.cur.1 s.cur.2 len32 c v pc).me.phase = .held := by
  rw [State.me, (keepsPending_takeTrap ..).cur]
  exact takeTrap_held ..

/-! ## The frame of a result for name `d` -/

/-- Of the current slot only what a computing instruction may change differs: the pc and the turn, what it waits for, and a pending result
of name `d`. -/
structure SlotComputes (d : Nat) (x y : Slot) : Prop where
  rest : y = { x with pc := y.pc, nextTurn := y.nextTurn, latch := y.latch, issued := y.issued, woken := y.woken, stalled := y.stalled,
                      wait := y.wait, pptWait := y.pptWait, demand := y.demand, pending := y.pending }
  pending : ∀ p ∈ y.pending, p ∈ x.pending ∨ p.name = d

/-- Nothing outside the current slot differs, and in it only that. -/
structure Computes (d : Nat) (s t : State) : Prop where
  outside : sameOutside s t
  me : SlotComputes d s.me t.me

namespace SlotComputes

variable {d : Nat} {x y z : Slot}

theorem refl (x : Slot) : SlotComputes d x x := ⟨rfl, fun _ h => .inl h⟩

theorem trans (h : SlotComputes d x y) (g : SlotComputes d y z) : SlotComputes d x z where
  rest := by rw [g.rest, h.rest]
  pending := fun p hp => (g.pending p hp).elim (h.pending p) .inr

end SlotComputes

theorem sameOutside_refl (s : State) : sameOutside s s := ⟨rfl, fun _ _ => rfl, rfl, fun _ _ => rfl⟩

section
variable {d : Nat} {s t : State}

theorem sameOutside_cur (h : sameOutside s t) : t.cur = s.cur := by rw [h.1]

theorem sameOutside_modMe (h : sameOutside s t) (f : Slot → Slot) : sameOutside s (t.modMe f) := by
  have hcur := sameOutside_cur h
  obtain ⟨hrest, hcores, hcore, hslots⟩ := h
  have hmod : t.modMe f = t.modSlot s.cur.1 s.cur.2 f := by rw [← hcur]; rfl
  rw [hmod]
  refine ⟨by rw [hrest]; rfl, fun n hn => (modSlot_otherCore t _ _ _ n hn).trans (hcores n hn), ?_,
    fun k hk => (modSlot_other t _ _ _ _ _ (.inr hk)).trans (hslots k hk)⟩
  exact (core_modSlot_same Core.besideSlots (fun _ _ _ => rfl) t _ _ f _).trans hcore

theorem Computes.refl (s : State) : Computes d s s := ⟨sameOutside_refl s, .refl s.me⟩

theorem Computes.modMe (h : Computes d s t) {f : Slot → Slot} (hf : SlotComputes d t.me (f t.me)) : Computes d s (t.modMe f) :=
  ⟨sameOutside_modMe h.outside f, by rw [modMe_me]; exact h.me.trans hf⟩

theorem computes_putBits (s : State) (d l bits : Nat) : Computes d s (putBits s d l bits) := by
  unfold putBits
  split
  · exact .refl s
  · refine (Computes.refl s).modMe ⟨rfl, fun p hp => ?_⟩
    rcases List.mem_append.mp hp with h | h
    · exact .inl h
    · rw [List.mem_singleton.mp h]
      exact .inr rfl

theorem computes_advance (h : Computes d s t) (pc : Word) (sl : Nat) : Computes d s (advance t pc sl) :=
  h.modMe ⟨rfl, fun _ hp => .inl hp⟩

end

/-! ## The ways an instruction that computes ends -/

/-- It completes or stalls within the frame, or traps with nothing changed. -/
def Eff.computes (s : State) (d : Nat) : Eff → Prop
  | .done t | .stall t => Computes d s t
  | .trap _ _ | .trapWord _ => True
  | .jump _ _ | .trapIn _ _ _ | .block _ _ _ | .leave _ => False

section
variable {s t : State} {d : Nat}

theorem readyName_computes {n : Nat} {e : Eff} (h : readyName s n = some e) : e.computes s d := by
  simp only [readyName] at h
  split at h
  · cases h
  split at h
  · cases h
    exact Computes.refl s
  split at h
  · cases h
  split at h
  · cases h
    trivial
  split at h <;> cases h
  exact Computes.refl s

theorem kindName_computes {q : KindReq} {e : Eff} (h : kindName s q = some e) : e.computes s d := by
  simp only [kindName] at h
  split at h
  · split at h <;> cases h
    trivial
  · cases h
    trivial

/-- A row that is not resident is asked for. -/
theorem touchName_computes {read : Bool} {n : Nat} {e : Eff} (h : touchName s read n = some e) : e.computes s d := by
  simp only [touchName] at h
  split at h
  · cases h
  split at h
  · cases h
    exact (Computes.refl s).modMe ⟨rfl, fun _ hp => .inl hp⟩
  split at h
  · cases h
    exact Computes.refl s
  split at h <;> cases h
  trivial

theorem pre_computes {reads writes : List Nat} {kinds : List KindReq} {body : Eff} (hb : body.computes s d) :
    (pre s reads writes kinds body).computes s d := by
  unfold pre
  split
  next h => exact of_firstOf (fun _ _ => readyName_computes) h
  split
  next h => exact of_firstOf (fun _ _ => kindName_computes) h
  split
  next h => exact of_firstOf (fun _ _ => touchName_computes) h
  split
  next h => exact of_firstOf (fun _ _ => touchName_computes) h
  exact hb

theorem putI_computes (s : State) (d l : Nat) (x : Int) : (putI s d l x).computes s d := by
  unfold putI
  split
  · exact Computes.refl s
  dsimp only
  split
  · trivial
  · exact computes_putBits ..

theorem putMove_computes (s : State) (d l a : Nat) : (putMove s d l a).computes s d := by
  unfold putMove
  split
  · exact computes_putBits ..
  · exact putI_computes ..

/-- The slot still runs, so the instruction did not trap. -/
theorem finish_computes {e : Eff} (h : e.computes s d) {len sl word : Nat} (hrun : (finish s len sl word e).me.phase = .running) :
    Computes d s (finish s len sl word e) := by
  cases e with
  | done t => exact computes_advance h _ _
  | stall t => exact h
  | trap c v => exact absurd ((takeTrap_me_held ..).symm.trans hrun) nofun
  | trapWord c => exact absurd ((takeTrap_me_held ..).symm.trans hrun) nofun
  | jump | trapIn | block | leave => exact h.elim

theorem run_computes {i : Instr} {len sl : Nat} {body : State → Eff} (h : run i len sl body s = .next t) (hb : (body s).computes s d)
    (hrun : t.me.phase = .running) : Computes d s t := by
  unfold run at h
  split at h
  · cases h
    refine finish_computes ?_ hrun
    split
    · exact hb
    · trivial
  · cases h

end

/-! ## The operations -/

section
variable (s : State) (d a b l : Nat)

theorem bin_computes (f : Int → Int → Int) : (bin l f d a b s).computes s d := pre_computes (putI_computes ..)

theorem divide_computes (f : Int → Int → Int) : (divide f d a b s).computes s d := by
  refine pre_computes ?_
  split
  · trivial
  · exact putI_computes ..

theorem rotate_computes (sign : Int) : (rotate sign d a b s).computes s d := pre_computes (putI_computes ..)

theorem fitsOp_computes : (fitsOp d a b s).computes s d := pre_computes (putI_computes ..)

theorem binImm_computes (f : Int → Int → Int) (x : Int) : (binImm f d a x s).computes s d := pre_computes (putI_computes ..)

theorem unary_computes (f : Info → Nat → Int) : (unary f d a s).computes s d := pre_computes (putI_computes ..)

theorem property_computes (f : Info → Int) : (property f d a s).computes s d := pre_computes (putI_computes ..)

theorem moveOp_computes : (moveOp d a s).computes s d := pre_computes (putMove_computes ..)

end

/-! ## The instructions -/

/-- An instruction whose operation on state `s` computes a result for name `d`. -/
def RunsComputing (i : Instr) (d : Nat) (s : State) : Prop :=
  ∃ (len sl : Nat) (body : State → Eff), exec i s = run i len sl body s ∧ (body s).computes s d

theorem RunsComputing.leaves {i : Instr} {d : Nat} {s t : State} (hi : RunsComputing i d s) (h : exec i s = .next t)
    (hrun : t.me.phase = .running) : Computes d s t := by
  obtain ⟨len, sl, body, he, hb⟩ := hi
  exact run_computes (he.symm.trans h) hb hrun

section
variable (sl : BitVec 2) (s : State)

theorem threeNames_compute {f : Form3} (hf : f ∈ ([.add, .sub, .mul, .mulh, .div, .rem, .min, .max, .and, .or, .xor, .andn, .shl, .shr, .rol,
    .ror, .seteq, .setne, .setlt, .setle, .absd, .shli, .shri, .fits] : List Form3)) (d a b : BitVec 6) :
    RunsComputing (f sl d a b) d.toNat s := by
  have hbin (l : Nat) (g : Int → Int → Int) := bin_computes s d.toNat a.toNat b.toNat l g
  have hdiv (g : Int → Int → Int) := divide_computes s d.toNat a.toNat b.toNat g
  have hrot (x : Int) := rotate_computes s d.toNat a.toNat b.toNat x
  have himm (g : Int → Int → Int) := binImm_computes s d.toNat a.toNat g b.toNat
  simp only [List.mem_cons, List.not_mem_nil, or_false] at hf
  rcases hf with rfl | rfl | rfl | rfl | hf
  · exact ⟨4, _, _, rfl, hbin ..⟩
  · exact ⟨4, _, _, rfl, hbin ..⟩
  · exact ⟨4, _, _, rfl, hbin ..⟩
  · exact ⟨4, _, _, rfl, hbin ..⟩
  rcases hf with rfl | rfl | rfl | rfl | hf
  · exact ⟨4, _, _, rfl, hdiv ..⟩
  · exact ⟨4, _, _, rfl, hdiv ..⟩
  · exact ⟨4, _, _, rfl, hbin ..⟩
  · exact ⟨4, _, _, rfl, hbin ..⟩
  rcases hf with rfl | rfl | rfl | rfl | hf
  · exact ⟨4, _, _, rfl, hbin ..⟩
  · exact ⟨4, _, _, rfl, hbin ..⟩
  · exact ⟨4, _, _, rfl, hbin ..⟩
  · exact ⟨4, _, _, rfl, hbin ..⟩
  rcases hf with rfl | rfl | rfl | rfl | hf
  · exact ⟨4, _, _, rfl, hbin ..⟩
  · exact ⟨4, _, _, rfl, hbin ..⟩
  · exact ⟨4, _, _, rfl, hrot ..⟩
  · exact ⟨4, _, _, rfl, hrot ..⟩
  rcases hf with rfl | rfl | rfl | rfl | rfl | rfl | rfl | rfl
  · exact ⟨4, _, _, rfl, hbin ..⟩
  · exact ⟨4, _, _, rfl, hbin ..⟩
  · exact ⟨4, _, _, rfl, hbin ..⟩
  · exact ⟨4, _, _, rfl, hbin ..⟩
  · exact ⟨4, _, _, rfl, hbin ..⟩
  · exact ⟨4, _, _, rfl, himm ..⟩
  · exact ⟨4, _, _, rfl, himm ..⟩
  · exact ⟨4, _, _, rfl, fitsOp_computes ..⟩

theorem twoNames_compute {f : Form2} (hf : f ∈ ([.mov, .neg, .abs, .not, .clz, .ctz, .popc, .brev, .getw, .getm] : List Form2))
    (d a : BitVec 6) : RunsComputing (f sl d a) d.toNat s := by
  have hun (g : Info → Nat → Int) := unary_computes s d.toNat a.toNat g
  have hprop (g : Info → Int) := property_computes s d.toNat a.toNat g
  simp only [List.mem_cons, List.not_mem_nil, or_false] at hf
  rcases hf with rfl | rfl | rfl | rfl | rfl | rfl | rfl | rfl | rfl | rfl
  · exact ⟨4, _, _, rfl, moveOp_computes ..⟩
  · exact ⟨4, _, _, rfl, hun ..⟩
  · exact ⟨4, _, _, rfl, hun ..⟩
  · exact ⟨4, _, _, rfl, hun ..⟩
  · exact ⟨4, _, _, rfl, hun ..⟩
  · exact ⟨4, _, _, rfl, hun ..⟩
  · exact ⟨4, _, _, rfl, hun ..⟩
  · exact ⟨4, _, _, rfl, hun ..⟩
  · exact ⟨4, _, _, rfl, hprop ..⟩
  · exact ⟨4, _, _, rfl, hprop ..⟩

theorem immediates_compute {f : BitVec 2 → BitVec 6 → BitVec 6 → BitVec 11 → Instr}
    (hf : f ∈ ([.addi, .muli, .andi, .ori, .xori, .seteqi, .setlti] : List (BitVec 2 → BitVec 6 → BitVec 6 → BitVec 11 → Instr)))
    (d a : BitVec 6) (v : BitVec 11) : RunsComputing (f sl d a v) d.toNat s := by
  have himm (g : Int → Int → Int) (x : Int) := binImm_computes s d.toNat a.toNat g x
  simp only [List.mem_cons, List.not_mem_nil, or_false] at hf
  rcases hf with rfl | rfl | rfl | rfl | rfl | rfl | rfl
  all_goals exact ⟨4, _, _, rfl, himm ..⟩

theorem compacts_compute {f : FormC} (hf : f ∈ ([.addCompact, .subCompact, .andCompact, .orCompact, .xorCompact, .movCompact, .addiCompact,
    .shliCompact, .shriCompact, .seteqCompact, .setltCompact] : List FormC)) (d a : BitVec 5) : RunsComputing (f d a) d.toNat s := by
  have hbin (g : Int → Int → Int) := bin_computes s d.toNat d.toNat a.toNat 1 g
  have himm (g : Int → Int → Int) (x : Int) := binImm_computes s d.toNat d.toNat g x
  simp only [List.mem_cons, List.not_mem_nil, or_false] at hf
  rcases hf with rfl | rfl | rfl | rfl | rfl | rfl | rfl | rfl | rfl | rfl | rfl
  · exact ⟨2, _, _, rfl, hbin ..⟩
  · exact ⟨2, _, _, rfl, hbin ..⟩
  · exact ⟨2, _, _, rfl, hbin ..⟩
  · exact ⟨2, _, _, rfl, hbin ..⟩
  · exact ⟨2, _, _, rfl, hbin ..⟩
  · exact ⟨2, _, _, rfl, moveOp_computes ..⟩
  · exact ⟨2, _, _, rfl, himm ..⟩
  · exact ⟨2, _, _, rfl, himm ..⟩
  · exact ⟨2, _, _, rfl, himm ..⟩
  · exact ⟨2, _, _, rfl, hbin ..⟩
  · exact ⟨2, _, _, rfl, hbin ..⟩

end

/-- Settles O12: every operation completes or stalls within the frame, and a trap leaves the slot held. -/
theorem registerFrame : Obligations.RegisterFrame := by
  unfold Obligations.RegisterFrame
  intro frame
  have hframe {i : Instr} {d : Nat} {s t : State} (hi : RunsComputing i d s) (h : exec i s = .next t) (hrun : t.me.phase = .running) :
      frame d s t := by
    obtain ⟨hout, hrest, hpending⟩ := hi.leaves h hrun
    exact ⟨hout, hrest, hpending, fun a => by rw [hout.1]; rfl⟩
  exact ⟨fun f hf sl d a b s t h hrun => hframe (threeNames_compute sl s hf d a b) h hrun,
    fun f hf sl d a s t h hrun => hframe (twoNames_compute sl s hf d a) h hrun,
    fun f hf sl d a v s t h hrun => hframe (immediates_compute sl s hf d a v) h hrun,
    fun f hf d a s t h hrun => hframe (compacts_compute s hf d a) h hrun⟩

end Sys2Proof.Machine
end


section
/-! SUPPORT. What the work of the storage, the homes and the caches leaves: no thread, no slot and no other unit of a core (R8, R189, R190,
R261 to R268). -/

namespace Sys2Proof.Machine

/-! ## Work at the homes and in the L2 slices -/

/-- The current party, the time, the threads and the cores are as they were, but for what pool pressure puts into an inbox; memory keeps
its form. -/
structure HomeWork (s t : State) : Prop where
  cur : t.cur = s.cur
  time : t.time = s.time
  threads : t.threads = s.threads
  core : ∀ m, t.core m = { s.core m with inbox := (t.core m).inbox, inboxWait := (t.core m).inboxWait }
  mem : memWf s.mem = true → memWf t.mem = true

theorem HomeWork.refl (s : State) : HomeWork s s := ⟨rfl, rfl, rfl, fun _ => rfl, id⟩

theorem HomeWork.trans {s t u : State} (h : HomeWork s t) (g : HomeWork t u) : HomeWork s u where
  cur := g.cur.trans h.cur
  time := g.time.trans h.time
  threads := g.threads.trans h.threads
  core := fun m => by rw [g.core m, h.core m]
  mem := fun hs => g.mem (h.mem hs)

/-- A step that touches no core. -/
theorem homeWork_of_cores {s t : State} (hcores : t.cores = s.cores) (hcur : t.cur = s.cur) (htime : t.time = s.time)
    (hthreads : t.threads = s.threads) (hmem : memWf s.mem = true → memWf t.mem = true) : HomeWork s t :=
  ⟨hcur, htime, hthreads, fun m => by simp only [State.core, hcores], hmem⟩

theorem homeWork_ite {c : Prop} [Decidable c] {s t u : State} (ht : HomeWork s t) (hu : HomeWork s u) : HomeWork s (if c then t else u) := by
  split <;> assumption

theorem homeWork_foldl {α : Type} {f : State → α → State} (hf : ∀ s x, HomeWork s (f s x)) (l : List α) : ∀ s, HomeWork s (l.foldl f s) := by
  induction l with
  | nil => exact HomeWork.refl
  | cons x r ih => exact fun s => (hf s x).trans (ih (f s x))

section
variable (s : State)

theorem homeWork_ticked : HomeWork s s.ticked := homeWork_of_cores rfl rfl rfl rfl id

theorem homeWork_setLlc (l : List Line) : HomeWork s { s with llc := l } := homeWork_of_cores rfl rfl rfl rfl id

theorem homeWork_setCtrl (off : Nat) (w : Word) : HomeWork s (setCtrl s off w) := homeWork_of_cores rfl rfl rfl rfl id

theorem homeWork_setLogs (l : Table (List LogEntry)) : HomeWork s (setLogs s l) := homeWork_of_cores rfl rfl rfl rfl id

theorem homeWork_modCluster (n : Nat) (f : Cluster → Cluster) : HomeWork s (s.modCluster n f) := homeWork_of_cores rfl rfl rfl rfl id

theorem homeWork_modTower (n : Nat) (f : Tower → Tower) : HomeWork s (s.modTower n f) := homeWork_of_cores rfl rfl rfl rfl id

/-! ### The storage and the LLC -/

theorem homeWork_chanWrite (a n v : Nat) : HomeWork s (chanWrite s a n v) :=
  homeWork_of_cores rfl rfl rfl rfl (fun h => memOk_chanWrite h a n v)

theorem homeWork_machineCheck (kind level addr : Nat) (ctx : Option (BitVec 16)) (wher : Nat) :
    HomeWork s (machineCheck s kind level addr ctx wher) :=
  homeWork_ite (homeWork_of_cores rfl rfl rfl rfl id) (homeWork_of_cores rfl rfl rfl rfl id)

theorem homeWork_metaCheck (a : Nat) : HomeWork s (metaCheck s a) := homeWork_ite (homeWork_machineCheck ..) (.refl s)

theorem homeWork_pushChunk (t k : Nat) : HomeWork s (pushChunk s t k) :=
  homeWork_of_cores rfl rfl rfl rfl (fun h => memOk_pushChunk h t k)

theorem homeWork_setPoison (p : List Nat) : HomeWork s { s with memPoison := p } := homeWork_of_cores rfl rfl rfl rfl id

theorem homeWork_setDram (a n v : Nat) (p : List Nat) : HomeWork s { s with mem := memWriteLE s.mem a n v, memPoison := p } :=
  homeWork_of_cores rfl rfl rfl rfl (memWf_writeLE n a v)

theorem homeWork_setTick (k : Nat) : HomeWork s { s with tick := k } := homeWork_of_cores rfl rfl rfl rfl id

theorem homeWork_writeChunk (t : Nat) (c : Nat × BitVec 256 × BitVec 32) : HomeWork s (writeChunk s t c) := by
  unfold writeChunk
  exact (homeWork_chanWrite s _ 32 _).trans (homeWork_setPoison _ _)

end

theorem homeWork_popChunk {s u : State} {t k : Nat} (h : popChunk s t = some (u, k)) : HomeWork s u := by
  simp only [popChunk] at h
  split at h
  · cases h
  · cases h
    exact homeWork_setCtrl ..

theorem homeWork_popChunks (t n : Nat) : ∀ {s u : State} {ks : List Nat}, popChunks s t n = some (u, ks) → HomeWork s u := by
  induction n with
  | zero =>
    intro s u ks h
    cases h
    exact .refl s
  | succ n ih =>
    intro s u ks h
    simp only [popChunks] at h
    split at h
    · cases h
    next v k hv =>
      split at h
      · cases h
      next w ks' hw =>
        cases h
        exact (homeWork_popChunk hv).trans (ih hw)

theorem homeWork_logWords (ws : List Nat) : ∀ (s : State) (pa : Nat), HomeWork s (logWords s pa ws) := by
  induction ws with
  | nil => exact fun s _ => .refl s
  | cons w r ih => exact fun s pa => (homeWork_chanWrite s pa 8 w).trans (ih _ (pa + 8))

section
variable (s : State)

theorem homeWork_logPut (ch pa : Nat) (e : LogEntry) : HomeWork s (logPut s ch pa e) := by
  unfold logPut
  exact (homeWork_logWords (logBytes e) s pa).trans (homeWork_setLogs ..)

theorem homeWork_logAppend (ch a old : Nat) (i : Interval) : HomeWork s (logAppend s ch a old i) :=
  homeWork_ite (.refl s) (homeWork_ite (homeWork_of_cores rfl rfl rfl rfl id) (homeWork_logPut ..))

theorem homeWork_logLine (a : Nat) (ctx : Option (BitVec 16)) : HomeWork s (logLine s a ctx) := by
  unfold logLine
  split
  · exact .refl s
  · split
    · exact homeWork_logAppend ..
    · exact .refl s

theorem homeWork_storeHome (a data poison : Nat) (ctx : Option (BitVec 16)) : HomeWork s (storeHome s a data poison ctx) := by
  unfold storeHome
  exact (homeWork_logLine s a ctx).trans (homeWork_setDram _ a 128 data _)

end

theorem homeWork_poolStore {s u : State} {a data poison : Nat} {hot : Bool} {ctx : Option (BitVec 16)}
    (h : poolStore s a data poison hot ctx = some u) : HomeWork s u := by
  simp only [poolStore] at h
  split at h
  · cases h
  next v new hv =>
    cases h
    have hpop := (homeWork_logLine s a ctx).trans (homeWork_popChunks _ _ hv)
    refine .trans ?_ (homeWork_chanWrite ..)
    refine .trans ?_ (homeWork_foldl (fun s c => homeWork_writeChunk s _ c) _ _)
    refine .trans ?_ (homeWork_modTower ..)
    refine .trans ?_ (homeWork_ticked _)
    exact hpop.trans (homeWork_foldl (fun s k => homeWork_pushChunk s _ k) _ v)

section
variable (s : State)

theorem homeWork_dropPool (a : Nat) : HomeWork s (dropPool s a) := homeWork_of_cores rfl rfl rfl rfl id

theorem homeWork_inboxSendBy (n : Nat) (by_ : Option (Nat × Nat)) (head data aux : Word) : HomeWork s (inboxSendBy s n by_ head data aux) := by
  refine ⟨rfl, rfl, rfl, fun m => ?_, id⟩
  unfold inboxSendBy
  by_cases h : m = n
  · subst h
    rw [modCore_same]
    split <;> rfl
  · rw [modCore_other _ _ _ _ h]

theorem homeWork_inboxSend (n : Nat) (head data aux : Word) : HomeWork s (inboxSend s n head data aux) := homeWork_inboxSendBy ..

theorem homeWork_poolPress (t a : Nat) : HomeWork s (poolPress s t a) := by
  unfold poolPress
  exact homeWork_ite (.refl s) ((homeWork_setCtrl ..).trans (homeWork_inboxSend ..))

theorem homeWork_poolKeep (a : Nat) : HomeWork s (poolKeep s a) :=
  homeWork_ite (.refl s) (homeWork_ite (homeWork_ite (.refl s) (homeWork_modTower ..))
    ((homeWork_modTower ..).trans (homeWork_poolPress ..)))

theorem homeWork_llcEvict (l : Line) : HomeWork s (llcEvict s l) := by
  unfold llcEvict
  refine homeWork_ite ?_ (homeWork_ite (homeWork_dropPool ..) ?_)
  · exact (homeWork_ite (.refl s) (homeWork_storeHome ..)).trans (homeWork_setLlc ..)
  · split
    next u hu => exact (homeWork_poolStore hu).trans (homeWork_dropPool ..)
    next => exact homeWork_poolKeep ..

theorem homeWork_llcRoom (a : Nat) : HomeWork s (llcRoom s a) := by
  unfold llcRoom
  refine homeWork_ite (.refl s) ?_
  dsimp only
  split
  · exact (homeWork_ticked s).trans (homeWork_llcEvict ..)
  · exact .refl s

theorem homeWork_homePut (l : Line) : HomeWork s (homePut s l) := by
  unfold homePut
  exact homeWork_ite (homeWork_storeHome ..)
    (homeWork_ite ((homeWork_setLlc s _).trans (homeWork_poolKeep ..)) (homeWork_setLlc ..))

theorem homeWork_homeWrite (a data mask poison : Nat) (ctx : Option (BitVec 16)) : HomeWork s (homeWrite s a data mask poison ctx) :=
  ((homeWork_metaCheck s a).trans (homeWork_llcRoom _ a)).trans (homeWork_homePut ..)

/-! ### The L2 slices -/

theorem homeWork_l2ToHome (cl a : Nat) : HomeWork s (l2ToHome s cl a) := by
  unfold l2ToHome
  dsimp only
  split
  · exact .refl s
  · exact (homeWork_ite (.refl s) (homeWork_homeWrite ..)).trans (homeWork_modCluster ..)

theorem homeWork_l2Room (cl a : Nat) : HomeWork s (l2Room s cl a) := by
  unfold l2Room
  refine homeWork_ite (.refl s) (homeWork_ite (.refl s) ?_)
  dsimp only
  split
  · exact ((homeWork_ticked s).trans (homeWork_l2ToHome ..)).trans (homeWork_modCluster ..)
  · exact .refl s

theorem homeWork_recallOwned (a : Nat) (but : Option Nat) : HomeWork s (recallOwned s a but) := by
  unfold recallOwned
  refine homeWork_foldl (fun s k => ?_) _ s
  split
  · exact homeWork_ite ((homeWork_l2ToHome ..).trans (homeWork_modCluster ..)) (.refl s)
  · exact .refl s

theorem homeWork_l2Fetch (cl a : Nat) : HomeWork s (l2Fetch s cl a).1 := by
  unfold l2Fetch
  split
  · exact .refl s
  · refine .trans ((homeWork_recallOwned s a (some cl)).trans (homeWork_metaCheck _ a)) ?_
    have room (t : State) : HomeWork t (if l2Bypass t cl a then t else l2Room t cl a) := homeWork_ite (.refl t) (homeWork_l2Room t cl a)
    exact (room _).trans (homeWork_ite (.refl _) (homeWork_modCluster ..))

theorem homeWork_l2Take (cl a : Nat) : HomeWork s (l2Take s cl a).1 :=
  ((homeWork_recallOwned s a (some cl)).trans (homeWork_modCluster ..)).trans (homeWork_l2Fetch ..)

theorem homeWork_l2Write (cl a data mask poison scope : Nat) (ctx : Option (BitVec 16)) :
    HomeWork s (l2Write s cl a data mask poison scope ctx) :=
  homeWork_ite ((homeWork_recallOwned s a none).trans (homeWork_homeWrite ..)) ((homeWork_l2Take s cl a).trans (homeWork_modCluster ..))

theorem homeWork_homeWriteLE (a n v poison : Nat) (ctx : Option (BitVec 16)) : HomeWork s (homeWriteLE s a n v poison ctx) :=
  homeWork_homeWrite ..

/-! ### Writes by physical address -/

theorem homeWork_physWrite (pa n v poison : Nat) (ctx : Option (BitVec 16)) : HomeWork s (physWrite s pa n v poison ctx) := by
  have home (a : Nat) : HomeWork s (homeWriteLE (recallOwned s (lineBase a) none) a n v poison ctx) :=
    (homeWork_recallOwned ..).trans (homeWork_homeWriteLE ..)
  unfold physWrite
  split
  · exact home _
  · exact home _
  · exact homeWork_ite (homeWork_of_cores rfl rfl rfl rfl (memWf_writeLE n pa v)) (.refl s)
  · exact .refl s

end

theorem homeWork_physWriteWords (ctx : Option (BitVec 16)) (ws : List Word) :
    ∀ (s : State) (pa : Nat), HomeWork s (physWriteWords s pa ctx ws) := by
  induction ws with
  | nil => exact fun s _ => .refl s
  | cons w r ih => exact fun s pa => (homeWork_physWrite s pa 8 w.toNat 0 ctx).trans (ih _ (pa + 8))

/-! ## Work of one core's L1 -/

/-- As `HomeWork`, but that core `n` also changes its L1 and the place of its next trace entry. -/
structure CacheWork (n : Nat) (s t : State) : Prop where
  cur : t.cur = s.cur
  time : t.time = s.time
  threads : t.threads = s.threads
  other : ∀ m, m ≠ n → t.core m = { s.core m with inbox := (t.core m).inbox, inboxWait := (t.core m).inboxWait }
  own : t.core n = { s.core n with l1 := (t.core n).l1, traceNext := (t.core n).traceNext, inbox := (t.core n).inbox,
                                   inboxWait := (t.core n).inboxWait }
  mem : memWf s.mem = true → memWf t.mem = true

theorem HomeWork.cacheWork {s t : State} (h : HomeWork s t) (n : Nat) : CacheWork n s t :=
  ⟨h.cur, h.time, h.threads, fun m _ => h.core m, by rw [h.core n], h.mem⟩

namespace CacheWork

variable {n : Nat} {s t u : State}

theorem refl (s : State) : CacheWork n s s := (HomeWork.refl s).cacheWork n

theorem trans (h : CacheWork n s t) (g : CacheWork n t u) : CacheWork n s u where
  cur := g.cur.trans h.cur
  time := g.time.trans h.time
  threads := g.threads.trans h.threads
  other := fun m hm => by rw [g.other m hm, h.other m hm]
  own := by rw [g.own, h.own]
  mem := fun hs => g.mem (h.mem hs)

end CacheWork

theorem cacheWork_modCore (s : State) (n : Nat) {f : Core → Core}
    (hf : ∀ c, f c = { c with l1 := (f c).l1, traceNext := (f c).traceNext }) : CacheWork n s (s.modCore n f) where
  cur := rfl
  time := rfl
  threads := rfl
  other := fun m hm => by rw [modCore_other _ _ _ _ hm]
  own := by
    rw [modCore_same, hf (s.core n)]
  mem := id

theorem cacheWork_ite {n : Nat} {c : Prop} [Decidable c] {s t u : State} (ht : CacheWork n s t) (hu : CacheWork n s u) :
    CacheWork n s (if c then t else u) := by split <;> assumption

section
variable (s : State) (n : Nat)

theorem cacheWork_l1ToL2 (a : Nat) : CacheWork n s (l1ToL2 s n a) := by
  unfold l1ToL2
  split
  · exact .refl s
  · exact cacheWork_ite (.refl s) (((homeWork_l2Write ..).cacheWork n).trans (cacheWork_modCore _ n fun _ => rfl))

theorem cacheWork_l1Drop (a : Nat) : CacheWork n s (l1Drop s n a) := cacheWork_modCore s n fun _ => rfl

theorem cacheWork_toHome (a : Nat) : CacheWork n s (toHome s n a) := by
  unfold toHome
  refine .trans ?_ ((homeWork_modCluster ..).cacheWork n)
  refine .trans ?_ (cacheWork_l1Drop ..)
  exact (cacheWork_l1ToL2 s n a).trans ((homeWork_recallOwned ..).cacheWork n)

theorem cacheWork_l1Place (l : Line) : CacheWork n s (l1Place s n l) := by
  unfold l1Place
  refine .trans ?_ (cacheWork_modCore _ n fun _ => rfl)
  split
  · exact .refl s
  · next v _ => exact ((cacheWork_l1ToL2 s n v).trans (cacheWork_l1Drop ..)).trans ((homeWork_setTick _ _).cacheWork n)

theorem cacheWork_l1Fill (a need : Nat) (keep : Bool) : CacheWork n s (l1Fill s n a need keep).1 := by
  have miss (l : Line) : CacheWork n s (l1Place (l2Fetch s (clusterOf n) a).1 n l) :=
    ((homeWork_l2Fetch s (clusterOf n) a).cacheWork n).trans (cacheWork_l1Place _ n l)
  unfold l1Fill
  cases findLine (s.core n).l1 a with
  | none =>
    dsimp only
    split
    · exact .refl s
    · exact miss _
  | some l =>
    dsimp only
    split
    · exact cacheWork_modCore s n (f := fun c => { c with l1 := putLine c.l1 _ }) fun _ => rfl
    · exact miss _

/-! ## Traces and traps (R295, R314) -/

theorem cacheWork_traceWrite (kind slot : Nat) (handle pc value : Word) : CacheWork n s (traceWrite s n kind slot handle pc value) := by
  unfold traceWrite
  refine cacheWork_ite ?_ (.refl s)
  exact ((cacheWork_toHome s n _).trans ((homeWork_physWriteWords ..).cacheWork n)).trans (cacheWork_modCore _ n fun _ => rfl)

theorem cacheWork_traceAuto (kind slot : Nat) (handle pc value : Word) : CacheWork n s (traceAuto s n kind slot handle pc value) :=
  cacheWork_ite (cacheWork_traceWrite ..) (.refl s)

end

end Sys2Proof.Machine
end


section
/-! SUPPORT. What taking a trap saves and leaves (R295, R299). -/

namespace Sys2Proof.Machine

/-! ## The queues that a trapping instruction leaves -/

/-- Only the queues of senders and callers of the cores, and what is in flight to other devices, may differ. -/
structure QueueWork (s t : State) : Prop where
  time : t.time = s.time
  threads : t.threads = s.threads
  core : ∀ m, t.core m = { s.core m with callQ := (t.core m).callQ, sendQ := (t.core m).sendQ }

theorem QueueWork.refl (s : State) : QueueWork s s := ⟨rfl, rfl, fun _ => rfl⟩

theorem QueueWork.trans {s t u : State} (h : QueueWork s t) (g : QueueWork t u) : QueueWork s u where
  time := g.time.trans h.time
  threads := g.threads.trans h.threads
  core := fun m => by rw [g.core m, h.core m]

theorem queueWork_of_cores {s t : State} (htime : t.time = s.time) (hthreads : t.threads = s.threads) (hcores : t.cores = s.cores) :
    QueueWork s t := ⟨htime, hthreads, fun m => by simp only [State.core, hcores]⟩

theorem queueWork_ite {c : Prop} [Decidable c] {s t u : State} (ht : QueueWork s t) (hu : QueueWork s u) :
    QueueWork s (if c then t else u) := by split <;> assumption

theorem queueWork_foldl {α : Type} {f : State → α → State} (hf : ∀ s x, QueueWork s (f s x)) (l : List α) :
    ∀ s, QueueWork s (l.foldl f s) := by
  induction l with
  | nil => exact QueueWork.refl
  | cons x r ih => exact fun s => (hf s x).trans (ih (f s x))

section
variable (s : State) (n k : Nat)

theorem queueWork_sendPacket (kind flags src dst ddev own : Nat) (coll : BitVec 120) (payload : List Byte) :
    QueueWork s (sendPacket s kind flags src dst ddev own coll payload) :=
  queueWork_ite (queueWork_of_cores rfl rfl rfl) (queueWork_of_cores rfl rfl rfl)

theorem queueWork_givePlaceBack (r : RemoteOp) : QueueWork s (givePlaceBack s n r) := by
  unfold givePlaceBack
  split
  · exact queueWork_sendPacket ..
  · exact .refl s

theorem queueWork_setRemoteOps (l : List RemoteOp) : QueueWork s { s with remoteOps := l } := queueWork_of_cores rfl rfl rfl

theorem queueWork_dropCall : QueueWork s (dropCall s n k) := by
  unfold dropCall
  exact (queueWork_setRemoteOps s _).trans (queueWork_foldl (fun s r => queueWork_givePlaceBack s n r) _ _)

theorem queueWork_dropQueues : QueueWork s (dropQueues s n k) := by
  refine ⟨rfl, rfl, fun m => ?_⟩
  unfold dropQueues State.core
  dsimp only
  rw [table_get_map (fun c : Core => if c.callQ.contains (n, k) || c.sendQ.any (fun w => w.2 = (n, k)) then
    { c with callQ := c.callQ.filter (fun w => w ≠ (n, k)), sendQ := c.sendQ.filter (fun w => w.2 ≠ (n, k)) } else c) rfl]
  split <;> rfl

theorem queueWork_drop : QueueWork s (dropQueues (dropCall s n k) n k) := (queueWork_dropCall s n k).trans (queueWork_dropQueues _ n k)

theorem keepsSlots_drop : KeepsSlots s (dropQueues (dropCall s n k) n k) := (keepsSlots_dropCall s n k).trans (keepsSlots_dropQueues _ n k)

end

/-! ## The units of the core around a trap -/

section
variable (s : State) (n k : Nat)

theorem traceAuto_trapPend (kind : Nat) (handle pc value : Word) :
    ((traceAuto s n kind k handle pc value).core n).trapPend = (s.core n).trapPend := by rw [(cacheWork_traceAuto ..).own]

theorem traceAuto_stopped (kind : Nat) (handle pc value : Word) :
    ((traceAuto s n kind k handle pc value).core n).stopped = (s.core n).stopped := by rw [(cacheWork_traceAuto ..).own]

theorem drop_trapPend : ((dropQueues (dropCall s n k) n k).core n).trapPend = (s.core n).trapPend := by rw [(queueWork_drop s n k).core n]

theorem drop_stopped : ((dropQueues (dropCall s n k) n k).core n).stopped = (s.core n).stopped := by rw [(queueWork_drop s n k).core n]

theorem thread_traceAuto (kind : Nat) (handle pc value : Word) (i : Nat) :
    (traceAuto s n kind k handle pc value).thread i = s.thread i := by rw [State.thread, (cacheWork_traceAuto ..).threads, State.thread]

theorem thread_modCore (f : Core → Core) (i : Nat) : (s.modCore n f).thread i = s.thread i := rfl

theorem core_modThread (f : Thread → Thread) (i m : Nat) : (s.modThread i f).core m = s.core m := rfl

theorem core_machineCheck (kind level addr : Nat) (ctx : Option (BitVec 16)) (wher m : Nat) :
    (machineCheck s kind level addr ctx wher).core m = s.core m := by
  unfold machineCheck
  dsimp only
  split <;> rfl

end

/-- Slot `k` is among the slots that the mark of slot `k` adds. -/
theorem getLsbD_or_mark (v : BitVec 7) {k : Nat} (h : k < 7) : (v ||| BitVec.ofNat 7 (2 ^ k)).getLsbD k = true := by
  rw [BitVec.getLsbD_or, BitVec.getLsbD_ofNat, Nat.testBit_two_pow_self, decide_eq_true h, Bool.and_true, Bool.or_true]

/-! ## What a trap writes -/

/-- The slot that a trap holds: its trap registers are written and its rows, map and pc stay. -/
structure HeldBy (s : State) (len32 : Bool) (c : Cause) (v pc : Word) (x y : Slot) : Prop where
  phase : y.phase = .held
  cause : y.trCause = BitVec.ofNat 64 (c.code + if len32 then 256 else 0)
  value : y.trVal = v
  pc : y.trPc = pc
  time : y.trTime = s.time
  rows : y.rows = x.rows
  map : y.map = x.map
  keptPc : y.pc = x.pc

section
variable (s : State) (n k : Nat) (len32 : Bool) (c : Cause) (v pc : Word)

theorem trapUser_slot : HeldBy s len32 c v pc (s.slot n k) ((trapUser s n k len32 c v pc).slot n k) := by
  unfold trapUser
  simp only [(keepsSlots_traceAuto ..).slot, modCore_slots, implies_true, (keepsSlots_modThread ..).slot, modSlot_same,
    (keepsSlots_drop s n k).slot, (queueWork_drop s n k).time]
  exact ⟨rfl, rfl, rfl, rfl, rfl, rfl, rfl, rfl⟩

theorem trapSystem_slot : HeldBy s len32 c v pc (s.slot n 7) ((trapSystem s n len32 c v pc).slot n 7) := by
  unfold trapSystem
  simp only [(keepsSlots_traceAuto ..).slot, (keepsSlots_machineCheck ..).slot, modCore_slots, implies_true, modSlot_same,
    (keepsSlots_drop s n 7).slot, (queueWork_drop s n 7).time]
  exact ⟨rfl, rfl, rfl, rfl, rfl, rfl, rfl, rfl⟩

theorem trapUser_otherSlot {j : Nat} (h : j ≠ k) : (trapUser s n k len32 c v pc).slot n j = s.slot n j := by
  unfold trapUser
  simp only [(keepsSlots_traceAuto ..).slot, modCore_slots, implies_true, (keepsSlots_modThread ..).slot, modSlot_other _ n k _ n j (.inr h),
    (keepsSlots_drop s n k).slot]

theorem trapSystem_otherSlot {j : Nat} (h : j ≠ 7) : (trapSystem s n len32 c v pc).slot n j = s.slot n j := by
  unfold trapSystem
  simp only [(keepsSlots_traceAuto ..).slot, (keepsSlots_machineCheck ..).slot, modCore_slots, implies_true,
    modSlot_other _ n 7 _ n j (.inr h), (keepsSlots_drop s n 7).slot]

theorem trapUser_trapPend (h : k < 7) : ((trapUser s n k len32 c v pc).core n).trapPend.getLsbD k = true := by
  unfold trapUser
  simp only [traceAuto_trapPend, modCore_same]
  exact getLsbD_or_mark _ h

theorem trapUser_stopped : ((trapUser s n k len32 c v pc).core n).stopped = (s.core n).stopped := by
  unfold trapUser
  simp only [traceAuto_stopped, modCore_same, core_modThread]
  exact (core_modSlot_same Core.stopped (fun _ _ _ => rfl) ..).trans (drop_stopped s n k)

theorem trapUser_thread : ((trapUser s n k len32 c v pc).thread (s.slot n k).img).state = 4 := by
  unfold trapUser
  simp only [thread_traceAuto, thread_modCore, modThread_same]

theorem trapSystem_stopped : ((trapSystem s n len32 c v pc).core n).stopped = true := by
  unfold trapSystem
  simp only [traceAuto_stopped, core_machineCheck, modCore_same]

theorem trapSystem_trapPend : ((trapSystem s n len32 c v pc).core n).trapPend = (s.core n).trapPend := by
  unfold trapSystem
  simp only [traceAuto_trapPend, core_machineCheck, modCore_same]
  exact (core_modSlot_same Core.trapPend (fun _ _ _ => rfl) ..).trans (drop_trapPend s n 7)

end

/-- Settles O13: a user slot by `trapUser`, the system slot by `trapSystem`. -/
theorem trapTaken : Obligations.TrapTaken := by
  unfold Obligations.TrapTaken
  intro s n k len32 c v pc hk
  by_cases h7 : k = 7
  · subst h7
    obtain ⟨hphase, hcause, hval, hpc, htime, hrows, hmap, hkept⟩ := trapSystem_slot s n len32 c v pc
    simp only [takeTrap, if_pos]
    exact ⟨hphase, hcause, hval, hpc, htime, hrows, hmap, hkept, fun j hj => trapSystem_otherSlot s n len32 c v pc hj,
      fun h => absurd h (by decide), fun _ => ⟨trapSystem_stopped .., trapSystem_trapPend ..⟩⟩
  · obtain ⟨hphase, hcause, hval, hpc, htime, hrows, hmap, hkept⟩ := trapUser_slot s n k len32 c v pc
    simp only [takeTrap, if_neg h7]
    exact ⟨hphase, hcause, hval, hpc, htime, hrows, hmap, hkept, fun j hj => trapUser_otherSlot s n k len32 c v pc hj,
      fun h => ⟨trapUser_trapPend s n k len32 c v pc h, trapUser_stopped .., trapUser_thread ..⟩, fun h => absurd h h7⟩

end Sys2Proof.Machine
end


section
/-! SUPPORT. Lines of a cache, and the bytes of a mask (R2, R18, R189, R190). -/

namespace Sys2Proof.Machine

/-! ## Finding a line -/

theorem findLine_addr {ls : List Line} {a : Nat} {l : Line} (h : findLine ls a = some l) : l.addr = a := by
  simpa using List.find?_some h

theorem findLine_putLine_same (ls : List Line) (l : Line) : findLine (putLine ls l) l.addr = some l :=
  List.find?_cons_of_pos (decide_eq_true rfl)

theorem findLine_dropLine_other (ls : List Line) {a b : Nat} (h : b ≠ a) : findLine (dropLine ls a) b = findLine ls b := by
  unfold findLine dropLine
  rw [List.find?_filter]
  congr 1
  funext l
  by_cases hl : l.addr = b
  · simp [hl, h]
  · simp [hl]

theorem findLine_putLine_other (ls : List Line) {l : Line} {b : Nat} (h : b ≠ l.addr) : findLine (putLine ls l) b = findLine ls b := by
  unfold putLine findLine
  rw [List.find?_cons_of_neg (by simpa using fun e => h e.symm)]
  exact findLine_dropLine_other ls h

/-! ## The bits of a sum over disjoint places -/

/-- A fold that adds `c` at place `w * i` for every set bit `i` of `m`. -/
def placedBits (w c m k : Nat) : Nat := (List.range k).foldl (fun acc i => if m / 2 ^ i % 2 = 1 then acc + c * 2 ^ (w * i) else acc) 0

theorem placedBits_succ (w c m k : Nat) :
    placedBits w c m (k + 1) = if m.testBit k then placedBits w c m k + c * 2 ^ (w * k) else placedBits w c m k := by
  unfold placedBits
  rw [List.range_succ, List.foldl_append]
  simp only [List.foldl_cons, List.foldl_nil, Nat.testBit_eq_decide_div_mod_eq, decide_eq_true_eq]

theorem placedBits_lt {w c : Nat} (hc : c < 2 ^ w) (m k : Nat) : placedBits w c m k < 2 ^ (w * k) := by
  induction k with
  | zero => exact Nat.two_pow_pos _
  | succ k ih =>
    have hpow : 2 ^ (w * (k + 1)) = 2 ^ w * 2 ^ (w * k) := by rw [← pow_add, Nat.mul_succ, Nat.add_comm]
    have hmul : c * 2 ^ (w * k) + 2 ^ (w * k) ≤ 2 ^ w * 2 ^ (w * k) := by
      rw [← Nat.succ_mul]
      exact Nat.mul_le_mul_right _ hc
    rw [placedBits_succ, hpow]
    split <;> omega

theorem testBit_placedBits {w c : Nat} (hw : 0 < w) (hc : c < 2 ^ w) (m k i : Nat) :
    (placedBits w c m k).testBit i = (decide (i / w < k) && m.testBit (i / w) && c.testBit (i % w)) := by
  induction k with
  | zero => simp [placedBits]
  | succ k ih =>
    have hlt : i < w * k ↔ i / w < k := by rw [Nat.div_lt_iff_lt_mul hw, Nat.mul_comm]
    rw [placedBits_succ, Nat.mul_comm c, Nat.add_comm (placedBits w c m k)]
    by_cases hm : m.testBit k = true
    · rw [if_pos hm, Nat.testBit_two_pow_mul_add _ (placedBits_lt hc m k), ih]
      rcases Nat.lt_trichotomy (i / w) k with h | h | h
      · simp [hlt.2 h, h, Nat.lt_succ_of_lt h]
      · have hmod : i - w * k = i % w := by rw [← h, Nat.mod_eq_sub_mul_div]
        rw [if_neg (by omega), hmod, h, hm]
        simp
      · have hhigh : c < 2 ^ (i - w * k) := by
          have hmul : w + w * k ≤ i := by
            have := (Nat.le_div_iff_mul_le hw).1 h
            rwa [Nat.succ_mul, Nat.mul_comm, Nat.add_comm] at this
          exact hc.trans_le (Nat.pow_le_pow_right (by decide) (by omega))
        rw [if_neg (by omega), Nat.testBit_lt_two_pow hhigh, decide_eq_false (by omega)]
        rfl
    · rw [if_neg hm, ih]
      rcases Nat.lt_trichotomy (i / w) k with h | h | h
      · simp [h, Nat.lt_succ_of_lt h]
      · simp [h, hm]
      · rw [decide_eq_false (by omega), decide_eq_false (by omega)]

/-! ## Byte and sector masks -/

theorem testBit_byteBits (m : Nat) {i : Nat} (h : i < 1024) : (byteBits m).testBit i = m.testBit (i / 8) := by
  have hbits : byteBits m = placedBits 8 0xFF m 128 := rfl
  have hbyte : Nat.testBit 0xFF (i % 8) = true := by
    rw [show 0xFF = 2 ^ 8 - 1 from rfl, Nat.testBit_two_pow_sub_one, decide_eq_true (Nat.mod_lt i (by decide))]
  rw [hbits, testBit_placedBits (by decide) (by decide), hbyte, decide_eq_true (by omega)]
  simp

theorem testBit_spanMask (off n j : Nat) : (spanMask off n).testBit j = (decide (off ≤ j) && decide (j < off + n) && decide (j < 128)) := by
  unfold spanMask
  rw [Nat.testBit_mod_two_pow, Nat.testBit_mul_two_pow, Nat.testBit_two_pow_sub_one]
  by_cases h : off ≤ j
  · have hlt : decide (j - off < n) = decide (j < off + n) := decide_eq_decide.2 (by omega)
    simp [h, hlt, Bool.and_comm]
  · simp [h]

/-- A fold that adds the powers of two of the places below `k` at which `p` holds. -/
theorem foldl_two_pow_lt (p : Nat → Prop) [DecidablePred p] (k : Nat) :
    (List.range k).foldl (fun acc i => if p i then acc + 2 ^ i else acc) 0 < 2 ^ k := by
  induction k with
  | zero => exact Nat.one_pos
  | succ k ih =>
    rw [List.range_succ, List.foldl_append, List.foldl_cons, List.foldl_nil, Nat.pow_succ]
    split <;> omega

theorem spanSectors_lt (off n : Nat) : spanSectors off n < 256 := foldl_two_pow_lt (fun i => off < 16 * (i + 1) ∧ 16 * i < off + n) 8

/-! ## Bytes merged into a line -/

theorem testBit_mergeBytes (old new mask : Nat) {i : Nat} (h : i < 1024) :
    (mergeBytes old new mask).testBit i = if mask.testBit (i / 8) then new.testBit i else old.testBit i := by
  have hones : (2 ^ 1024 - 1).testBit i = true := by rw [Nat.testBit_two_pow_sub_one, decide_eq_true h]
  unfold mergeBytes
  rw [Nat.testBit_or, Nat.testBit_and, Nat.testBit_and, Nat.testBit_xor, hones, testBit_byteBits mask h]
  cases mask.testBit (i / 8) <;> simp

theorem testBit_bitsAt (v lo w j : Nat) : (bitsAt v lo w).testBit j = (decide (j < w) && v.testBit (lo + j)) := by
  unfold bitsAt
  rw [Nat.testBit_mod_two_pow, Nat.testBit_div_two_pow, Nat.add_comm]

/-- The bytes of the mask read as what was merged in. -/
theorem bitsAt_mergeBytes_span (old v : Nat) {off size : Nat} (h : off + size ≤ 128) :
    bitsAt (mergeBytes old (v % 2 ^ (8 * size) * 2 ^ (8 * off)) (spanMask off size) % 2 ^ 1024) (8 * off) (8 * size) = v % 2 ^ (8 * size) := by
  apply Nat.eq_of_testBit_eq
  intro j
  rw [testBit_bitsAt, Nat.testBit_mod_two_pow v]
  by_cases hj : j < 8 * size
  · have hmask : (spanMask off size).testBit ((8 * off + j) / 8) = true := by
      rw [testBit_spanMask]
      simp only [Bool.and_eq_true, decide_eq_true_eq]
      omega
    have hlt : 8 * off + j < 1024 := by omega
    rw [Nat.testBit_mod_two_pow, testBit_mergeBytes _ _ _ hlt, if_pos hmask, Nat.testBit_mul_two_pow, Nat.testBit_mod_two_pow,
      Nat.add_sub_cancel_left, decide_eq_true hlt]
    simp
  · simp only [hj, decide_false, Bool.false_and]

/-- A byte outside of the mask stays. -/
theorem bitsAt_mergeBytes_other (old new : Nat) {off size j : Nat} (hj : j < 128) (h : j < off ∨ off + size ≤ j) :
    bitsAt (mergeBytes old new (spanMask off size) % 2 ^ 1024) (8 * j) 8 = bitsAt old (8 * j) 8 := by
  apply Nat.eq_of_testBit_eq
  intro i
  rw [testBit_bitsAt, testBit_bitsAt]
  by_cases hi : i < 8
  · have hmask : (spanMask off size).testBit ((8 * j + i) / 8) = false := by
      rw [testBit_spanMask, Bool.eq_false_iff]
      simp only [ne_eq, Bool.and_eq_true, decide_eq_true_eq]
      omega
    have hlt : 8 * j + i < 1024 := by omega
    rw [Nat.testBit_mod_two_pow, testBit_mergeBytes _ _ _ hlt, if_neg (by simp [hmask]), decide_eq_true hlt]
    simp
  · simp only [hi, decide_false, Bool.false_and]

/-- The bytes of the mask lose their poison when nothing poisoned is written. -/
theorem bitsAt_poison_span (p : Nat) {off size : Nat} (h : off + size ≤ 128) :
    bitsAt ((p &&& ((2 ^ 128 - 1) ^^^ spanMask off size) ||| 0 &&& spanMask off size) % 2 ^ 128) off size = 0 := by
  apply Nat.eq_of_testBit_eq
  intro j
  rw [testBit_bitsAt, Nat.zero_testBit]
  by_cases hj : j < size
  · have hmask : (spanMask off size).testBit (off + j) = true := by
      rw [testBit_spanMask]
      simp only [Bool.and_eq_true, decide_eq_true_eq]
      omega
    have hones : (2 ^ 128 - 1).testBit (off + j) = true := by rw [Nat.testBit_two_pow_sub_one, decide_eq_true (by omega)]
    rw [Nat.testBit_mod_two_pow, Nat.zero_and, Nat.or_zero, Nat.testBit_and, Nat.testBit_xor, hones, hmask]
    simp
  · simp [hj]

end Sys2Proof.Machine
end


section
/-! SUPPORT. A store with a write-back policy and the load after it (R189, R190). -/

namespace Sys2Proof.Machine

section
variable (s : State) (n a need : Nat) (keep : Bool)

/-! ## The line that a fill leaves -/

/-- A fill of sectors that the line holds only uses it. -/
theorem l1Fill_hit {l : Line} (hl : findLine (s.core n).l1 a = some l) (hneed : need &&& l.valid.toNat = need) :
    l1Fill s n a need keep = (s.modCore n (fun c => { c with l1 := putLine c.l1 { l with keep := l.keep || keep } }),
      { l with keep := l.keep || keep }) := by
  simp only [l1Fill, hl, if_pos hneed]

theorem and_or_self_of_lt {m : Nat} (h : m < 256) (v : BitVec 8) : m &&& (v ||| BitVec.ofNat 8 m).toNat = m := by
  rw [BitVec.toNat_or, BitVec.toNat_ofNat, Nat.mod_eq_of_lt h]
  apply Nat.eq_of_testBit_eq
  intro i
  rw [Nat.testBit_and, Nat.testBit_or]
  cases m.testBit i <;> simp

theorem l1Fill_valid (h : need < 256) : need &&& (l1Fill s n a need keep).2.valid.toNat = need := by
  unfold l1Fill
  cases findLine (s.core n).l1 a with
  | none =>
    dsimp only
    split
    · assumption
    · exact and_or_self_of_lt h _
  | some l =>
    dsimp only
    split
    · assumption
    · exact and_or_self_of_lt h _

theorem l1Fill_addr : (l1Fill s n a need keep).2.addr = a := by
  unfold l1Fill
  cases hl : findLine (s.core n).l1 a with
  | none =>
    dsimp only
    split <;> rfl
  | some l =>
    have ha : l.addr = a := findLine_addr hl
    dsimp only
    split <;> exact ha

end

/-! ## The line that a store leaves -/

/-- A line with the bytes of a store, recorded CORE (R190). -/
def storedLine (l : Line) (off size v : Nat) (ctx : BitVec 16) : Line :=
  { l with data := BitVec.ofNat 1024 (mergeBytes l.data.toNat (v % 2 ^ (8 * size) * 2 ^ (8 * off)) (spanMask off size)),
           dirty := l.dirty ||| BitVec.ofNat 8 (spanSectors off size),
           poison := BitVec.ofNat 128 ((l.poison.toNat &&& ((2 ^ 128 - 1) ^^^ spanMask off size)) ||| (0 &&& spanMask off size)),
           scope := 1, ctx := some ctx }

section
variable (s : State) (n a off size v pol : Nat) (ctx : BitVec 16)

theorem cacheStore_writeBack (hpol : pol = 0 ∨ pol = 2) :
    cacheStore s n a off size v pol 0 ctx = (l1Fill s n a (spanSectors off size) (pol = 2)).1.modCore n
      (fun c => { c with l1 := putLine c.l1 (storedLine (l1Fill s n a (spanSectors off size) (pol = 2)).2 off size v ctx) }) := by
  have h3 : pol ≠ 3 := by omega
  have h1 : pol ≠ 1 := by omega
  simp only [cacheStore, if_neg h3, if_neg h1, Nat.zero_mul]
  rfl

theorem cacheStore_line (hpol : pol = 0 ∨ pol = 2) :
    findLine ((cacheStore s n a off size v pol 0 ctx).core n).l1 a =
      some (storedLine (l1Fill s n a (spanSectors off size) (pol = 2)).2 off size v ctx) := by
  have haddr : (storedLine (l1Fill s n a (spanSectors off size) (pol = 2)).2 off size v ctx).addr = a := l1Fill_addr ..
  rw [cacheStore_writeBack s n a off size v pol ctx hpol, modCore_same]
  have := findLine_putLine_same (((l1Fill s n a (spanSectors off size) (pol = 2)).1).core n).l1
    (storedLine (l1Fill s n a (spanSectors off size) (pol = 2)).2 off size v ctx)
  rwa [haddr] at this

/-- A cached load of sectors that the line holds reads the line. -/
theorem cacheLoad_hit {l : Line} (hl : findLine (s.core n).l1 a = some l) (hneed : spanSectors off size &&& l.valid.toNat = spanSectors off size) :
    (cacheLoad s n a off size 0).2 = (bitsAt l.data.toNat (8 * off) (8 * size), bitsAt l.poison.toNat off size) := by
  have h3 : (0 : Nat) ≠ 3 := by decide
  have h1 : ¬ ((0 : Nat) = 1 ∧ (decide (spanSectors off size &&& l.valid.toNat = spanSectors off size)) = false) := fun h => absurd h.1 (by decide)
  simp only [cacheLoad, if_neg h3, hl, if_neg h1, l1Fill_hit s n a (spanSectors off size) _ hl hneed]

theorem cacheLoad_cacheStore (h : off + size ≤ 128) (hpol : pol = 0 ∨ pol = 2) :
    (cacheLoad (cacheStore s n a off size v pol 0 ctx) n a off size 0).2 = (v % 2 ^ (8 * size), 0) := by
  rw [cacheLoad_hit _ n a off size (cacheStore_line s n a off size v pol ctx hpol) (l1Fill_valid s n a _ _ (spanSectors_lt off size))]
  simp only [storedLine, BitVec.toNat_ofNat, bitsAt_mergeBytes_span _ v h, bitsAt_poison_span _ h]

theorem cacheWork_cacheStore (hpol : pol = 0 ∨ pol = 2) : CacheWork n s (cacheStore s n a off size v pol 0 ctx) := by
  rw [cacheStore_writeBack s n a off size v pol ctx hpol]
  exact (cacheWork_l1Fill s n a _ _).trans (cacheWork_modCore _ n (f := fun c => { c with l1 := putLine c.l1 _ }) fun _ => rfl)

end

end Sys2Proof.Machine
end


section
/-! SUPPORT. While the sets of the LLC have room, work at the homes reaches neither storage nor the other cores (R16, R189, R190,
R354). -/

namespace Sys2Proof.Machine

/-! ## Room in the sets of the LLC -/

/-- Every set of the LLC has `k` ordinary ways free, and no reserve way is in use. -/
structure Spare (k : Nat) (s : State) : Prop where
  ways : ∀ b, (ordinaryLines s b).length + k ≤ llcWays
  reserve : ∀ q, (s.tower q).reserve = []

/-- The line stands in the LLC. -/
def inLlc (s : State) (a : Nat) : Bool := (findLine s.llc a).isSome

/-- Room for `k` more lines once the line `a` stands in the LLC. -/
def SpareBeside (a k : Nat) (s : State) : Prop := Spare (k + 1) s ∨ Spare k s ∧ inLlc s a = true

theorem Spare.mono {k j : Nat} {s : State} (h : Spare k s) (hj : j ≤ k) : Spare j s :=
  ⟨fun b => (Nat.add_le_add_left hj _).trans (h.ways b), h.reserve⟩

theorem SpareBeside.spare {a k : Nat} {s : State} (h : SpareBeside a k s) : Spare k s := by
  obtain h | h := h
  · exact h.mono (Nat.le_succ k)
  · exact h.1

theorem isReserved_of_spare {k : Nat} {s : State} (h : Spare k s) (a : Nat) : isReserved s a = false := by
  simp [isReserved, h.reserve]

theorem reserveTaken_of_spare {k : Nat} {s : State} (h : Spare k s) (a : Nat) : reserveTaken s a = false := by
  simp [reserveTaken, h.reserve]

theorem reserveFull_of_spare {k : Nat} {s : State} (h : Spare k s) (a : Nat) : reserveFull s a = false := by
  simp [reserveFull, reserveTaken_of_spare h]

/-- The lines of a set. -/
def setLines (ls : List Line) (b : Nat) : List Line := ls.filter (fun l => llcSet l.addr = llcSet b)

theorem ordinaryLines_of_reserve {s : State} (h : ∀ q, (s.tower q).reserve = []) (b : Nat) : ordinaryLines s b = setLines s.llc b := by
  simp [ordinaryLines, setLines, isReserved, h]

theorem setLines_length_dropLine_le (ls : List Line) (a b : Nat) : (setLines (dropLine ls a) b).length ≤ (setLines ls b).length :=
  (List.filter_sublist.filter _).length_le

theorem setLines_length_putLine_le (ls : List Line) (l : Line) (b : Nat) : (setLines (putLine ls l) b).length ≤ (setLines ls b).length + 1 := by
  have := setLines_length_dropLine_le ls l.addr b
  unfold putLine
  rw [setLines, List.filter_cons]
  split
  · exact Nat.succ_le_succ this
  · exact this.trans (Nat.le_succ _)

/-- A line that stands in the cache is replaced in its set. -/
theorem setLines_length_putLine_held {ls : List Line} {l : Line} (h : (findLine ls l.addr).isSome = true) (b : Nat) :
    (setLines (putLine ls l) b).length ≤ (setLines ls b).length := by
  obtain ⟨x, hx⟩ := Option.isSome_iff_exists.1 h
  have hmem : x ∈ ls := List.mem_of_find?_eq_some hx
  have haddr : x.addr = l.addr := findLine_addr hx
  unfold putLine
  rw [setLines, List.filter_cons]
  split
  next hset =>
    have hin : x ∈ setLines ls b := List.mem_filter.2 ⟨hmem, by rw [haddr]; exact hset⟩
    have hcomm : List.filter (fun l => llcSet l.addr = llcSet b) (dropLine ls l.addr) = dropLine (setLines ls b) l.addr := List.filter_comm ..
    rw [List.length_cons, hcomm]
    exact List.length_filter_lt_length_iff_exists.2 ⟨x, hin, by simp [haddr]⟩
  next => exact setLines_length_dropLine_le ls l.addr b

/-! ## Work that reaches neither storage nor another core -/

/-- Storage and the cores but `n` are as they were. -/
structure Quiet (n : Nat) (s t : State) : Prop where
  mem : t.mem = s.mem
  poison : t.memPoison = s.memPoison
  other : ∀ m, m ≠ n → t.core m = s.core m

theorem Quiet.trans {n : Nat} {s t u : State} (h : Quiet n s t) (g : Quiet n t u) : Quiet n s u :=
  ⟨g.mem.trans h.mem, g.poison.trans h.poison, fun m hm => (g.other m hm).trans (h.other m hm)⟩

/-- Work that is quiet with `j` ways of every set, which it may use up. -/
structure Spends (n j : Nat) (s t : State) : Prop where
  quiet : ∀ k, Spare (k + j) s → Quiet n s t ∧ Spare k t

/-- Work that is quiet with a way for the one line `a`. -/
structure SpendsOn (n a : Nat) (s t : State) : Prop where
  quiet : ∀ k, SpareBeside a k s → Quiet n s t ∧ SpareBeside a k t

section
variable {n a i j : Nat} {s t u : State}

theorem Quiet.refl : Quiet n s s := ⟨rfl, rfl, fun _ _ => rfl⟩

theorem SpendsOn.refl : SpendsOn n a s s := ⟨fun _ h => ⟨.refl, h⟩⟩

theorem Spends.refl (j : Nat) : Spends n j s s := ⟨fun k h => ⟨.refl, h.mono (Nat.le_add_right k j)⟩⟩

theorem SpendsOn.trans (h : SpendsOn n a s t) (g : SpendsOn n a t u) : SpendsOn n a s u := by
  refine ⟨fun k hk => ?_⟩
  obtain ⟨hq, ht⟩ := h.quiet k hk
  obtain ⟨gq, hu⟩ := g.quiet k ht
  exact ⟨hq.trans gq, hu⟩

theorem Spends.trans (h : Spends n j s t) (g : Spends n i t u) : Spends n (i + j) s u := by
  refine ⟨fun k hk => ?_⟩
  obtain ⟨hq, ht⟩ := h.quiet (k + i) (by rwa [Nat.add_assoc])
  obtain ⟨gq, hu⟩ := g.quiet k ht
  exact ⟨hq.trans gq, hu⟩

theorem Spends.thenFree (h : Spends n j s t) (g : Spends n 0 t u) : Spends n j s u := (Nat.zero_add j) ▸ h.trans g

theorem SpendsOn.spends (h : SpendsOn n a s t) : Spends n 1 s t := by
  refine ⟨fun k hk => ?_⟩
  obtain ⟨hq, ht⟩ := h.quiet k (.inl hk)
  exact ⟨hq, ht.spare⟩

/-- Work that leaves the LLC, the towers, storage and the other cores. -/
theorem spare_of_same {k : Nat} (hllc : t.llc = s.llc) (htowers : t.towers = s.towers) (h : Spare k s) : Spare k t := by
  refine ⟨fun b => ?_, fun q => ?_⟩
  · simpa only [ordinaryLines, isReserved, State.tower, hllc, htowers] using h.ways b
  · simpa only [State.tower, htowers] using h.reserve q

theorem spendsOn_of_same (hllc : t.llc = s.llc) (htowers : t.towers = s.towers) (hq : Quiet n s t) : SpendsOn n a s t := by
  refine ⟨fun k hk => ⟨hq, hk.imp (spare_of_same hllc htowers) fun h => ⟨spare_of_same hllc htowers h.1, ?_⟩⟩⟩
  simpa only [inLlc, hllc] using h.2

theorem spends_of_same (hllc : t.llc = s.llc) (htowers : t.towers = s.towers) (hq : Quiet n s t) : Spends n 0 s t :=
  ⟨fun _ hk => ⟨hq, spare_of_same hllc htowers hk⟩⟩

theorem spendsOn_ite {c : Prop} [Decidable c] (ht : SpendsOn n a s t) (hu : SpendsOn n a s u) : SpendsOn n a s (if c then t else u) := by
  split <;> assumption

theorem spendsOn_foldl {α : Type} {f : State → α → State} (hf : ∀ s x, SpendsOn n a s (f s x)) (l : List α) :
    ∀ s, SpendsOn n a s (l.foldl f s) := by
  induction l with
  | nil => exact fun s => .refl
  | cons x r ih => exact fun s => (hf s x).trans (ih (f s x))

end

section
variable (s : State) (n a : Nat)

theorem spendsOn_modCluster (cl : Nat) (f : Cluster → Cluster) : SpendsOn n a s (s.modCluster cl f) :=
  spendsOn_of_same rfl rfl ⟨rfl, rfl, fun _ _ => rfl⟩

theorem spendsOn_modCore (f : Core → Core) : SpendsOn n a s (s.modCore n f) :=
  spendsOn_of_same rfl rfl ⟨rfl, rfl, fun m hm => modCore_other s n f m hm⟩

theorem spends_ticked : Spends n 0 s s.ticked := spends_of_same rfl rfl ⟨rfl, rfl, fun _ _ => rfl⟩

theorem spends_setTick (k : Nat) : Spends n 0 s { s with tick := k } := spends_of_same rfl rfl ⟨rfl, rfl, fun _ _ => rfl⟩

theorem spends_modCluster (cl : Nat) (f : Cluster → Cluster) : Spends n 0 s (s.modCluster cl f) :=
  spends_of_same rfl rfl ⟨rfl, rfl, fun _ _ => rfl⟩

theorem spends_modCore (f : Core → Core) : Spends n 0 s (s.modCore n f) :=
  spends_of_same rfl rfl ⟨rfl, rfl, fun m hm => modCore_other s n f m hm⟩

theorem spendsOn_metaCheck (b : Nat) : SpendsOn n a s (metaCheck s b) := by
  have hcheck : SpendsOn n a s (machineCheck s 2 3 b none (poolCluster b)) :=
    spendsOn_ite (spendsOn_of_same rfl rfl ⟨rfl, rfl, fun _ _ => rfl⟩) (spendsOn_of_same rfl rfl ⟨rfl, rfl, fun _ _ => rfl⟩)
  exact spendsOn_ite hcheck .refl

/-! ### A write at a home -/

variable {s a}

theorem llcRoom_of_spareBeside {k : Nat} (h : SpareBeside a k s) : llcRoom s a = s := by
  unfold llcRoom
  refine if_pos ?_
  obtain h | h := h
  · exact .inr (by have := h.ways a; omega)
  · exact .inl h.2

theorem llcPinned_of_spareBeside {k : Nat} (h : SpareBeside a k s) : llcPinned s a = false := by
  unfold llcPinned
  obtain h | h := h
  · have hways : ¬ llcWays ≤ (ordinaryLines s a).length := by
      have := h.ways a
      omega
    simp [hways]
  · have hheld : (findLine s.llc a).isNone = false := by
      rw [Option.isNone_eq_false_iff]
      exact h.2
    simp [hheld]

/-- With a way for its line, a write at its home only puts the line into the LLC. -/
theorem homePut_of_spareBeside {k : Nat} {l : Line} (ha : l.addr = a) (h : SpareBeside a k s) :
    homePut s l = { s with llc := putLine s.llc l } := by
  have hfull : reserveFull { s with llc := putLine s.llc l } l.addr = false := by
    simp [reserveFull, reserveTaken, show ∀ q, (State.tower { s with llc := putLine s.llc l } q).reserve = [] from h.spare.reserve]
  have hpin : ¬ (l.addr < Config.windowBase ∧ llcPinned s l.addr = true) := by simp [ha, llcPinned_of_spareBeside h]
  unfold homePut
  rw [if_neg hpin]
  exact if_neg (by simp [hfull])

theorem spareBeside_putLine {k : Nat} {l : Line} (ha : l.addr = a) (h : SpareBeside a k s) :
    SpareBeside a k { s with llc := putLine s.llc l } := by
  have hres : ∀ q, (State.tower { s with llc := putLine s.llc l } q).reserve = [] := h.spare.reserve
  refine .inr ⟨⟨fun b => ?_, hres⟩, ?_⟩
  · rw [ordinaryLines_of_reserve hres]
    obtain h | h := h
    · have hways := h.ways b
      have hput := setLines_length_putLine_le s.llc l b
      rw [ordinaryLines_of_reserve h.reserve] at hways
      dsimp only
      omega
    · have hways := h.1.ways b
      have hput := setLines_length_putLine_held (l := l) (by rw [ha]; exact h.2) b
      rw [ordinaryLines_of_reserve h.1.reserve] at hways
      dsimp only
      omega
  · rw [← ha]
    exact congrArg Option.isSome (findLine_putLine_same s.llc l)

theorem homeLine_addr (s : State) (a : Nat) : (homeLine s a).addr = a := by
  unfold homeLine
  split
  next l hl => exact findLine_addr hl
  next => rfl

theorem spendsOn_homePut {l : Line} (ha : l.addr = a) : SpendsOn n a s (homePut s l) := by
  refine ⟨fun k hk => ?_⟩
  rw [homePut_of_spareBeside ha hk]
  exact ⟨⟨rfl, rfl, fun _ _ => rfl⟩, spareBeside_putLine ha hk⟩

theorem spendsOn_llcRoom : SpendsOn n a s (llcRoom s a) := by
  refine ⟨fun k hk => ?_⟩
  rw [llcRoom_of_spareBeside hk]
  exact ⟨.refl, hk⟩

variable (s a)

theorem spendsOn_homeWrite (data mask poison : Nat) (ctx : Option (BitVec 16)) : SpendsOn n a s (homeWrite s a data mask poison ctx) :=
  ((spendsOn_metaCheck s n a a).trans (spendsOn_llcRoom n)).trans (spendsOn_homePut n (homeLine_addr s a))

/-! ### The L2 slices and the L1 -/

theorem spendsOn_l2ToHome (cl : Nat) : SpendsOn n a s (l2ToHome s cl a) := by
  unfold l2ToHome
  dsimp only
  split
  · exact .refl
  · exact (spendsOn_ite .refl (spendsOn_homeWrite ..)).trans (spendsOn_modCluster ..)

theorem spendsOn_recallOwned (but : Option Nat) : SpendsOn n a s (recallOwned s a but) := by
  unfold recallOwned
  refine spendsOn_foldl (fun s k => ?_) _ s
  split
  · exact spendsOn_ite ((spendsOn_l2ToHome s n a k).trans (spendsOn_modCluster ..)) .refl
  · exact .refl

theorem spends_l2Room (cl b : Nat) : Spends n 1 s (l2Room s cl b) := by
  have hsame : Spends n 1 s s := .refl 1
  unfold l2Room
  dsimp only
  split
  · exact hsame
  · split
    · exact hsame
    · split
      · exact ((spends_ticked s n).trans (spendsOn_l2ToHome _ n _ cl).spends).trans (spends_modCluster ..)
      · exact hsame

/-- Work with a way for the line `a`, and then with one more. -/
def Fetches (n a : Nat) (s t : State) : Prop := ∃ u, SpendsOn n a s u ∧ Spends n 1 u t

variable {s a} in
theorem Fetches.spends {t : State} {n : Nat} (h : Fetches n a s t) : Spends n 2 s t := by
  obtain ⟨u, hu, ht⟩ := h
  exact hu.spends.trans ht

variable {s a} in
theorem SpendsOn.fetches {t : State} {n : Nat} (h : SpendsOn n a s t) : Fetches n a s t :=
  ⟨t, h, .refl 1⟩

variable {s a} in
theorem SpendsOn.thenFetches {t u : State} {n : Nat} (h : SpendsOn n a s t) (g : Fetches n a t u) : Fetches n a s u := by
  obtain ⟨v, hv, hu⟩ := g
  exact ⟨v, h.trans hv, hu⟩

theorem fetches_l2Fetch (cl : Nat) : Fetches n a s (l2Fetch s cl a).1 := by
  unfold l2Fetch
  split
  · exact SpendsOn.refl.fetches
  · have hput (t : State) (b : Bool) (f : Cluster → Cluster) : Spends n 0 t (if b then t else t.modCluster cl f) := by
      split
      · exact .refl 0
      · exact spends_modCluster ..
    have hroom (t : State) (b : Bool) : Spends n 1 t (if b then t else l2Room t cl a) := by
      split
      · exact .refl 1
      · exact spends_l2Room ..
    exact ⟨_, (spendsOn_recallOwned s n a (some cl)).trans (spendsOn_metaCheck _ n a a), (hroom _ _).trans (hput ..)⟩

theorem fetches_l2Take (cl : Nat) : Fetches n a s (l2Take s cl a).1 :=
  ((spendsOn_recallOwned s n a (some cl)).trans (spendsOn_modCluster ..)).thenFetches (fetches_l2Fetch ..)

theorem spends_l2Write (cl data mask poison scope : Nat) (ctx : Option (BitVec 16)) :
    Spends n 2 s (l2Write s cl a data mask poison scope ctx) := by
  unfold l2Write
  split
  · exact ((spendsOn_recallOwned s n a none).trans (spendsOn_homeWrite ..)).fetches.spends
  · exact (fetches_l2Take s n a cl).spends.trans (spends_modCluster ..)

theorem spends_l1ToL2 : Spends n 2 s (l1ToL2 s n a) := by
  have hsame : Spends n 2 s s := .refl 2
  unfold l1ToL2
  split
  · exact hsame
  · split
    · exact hsame
    · exact (spends_l2Write s n a ..).trans (spends_modCore ..)

theorem spends_l1Place (l : Line) : Spends n 2 s (l1Place s n l) := by
  unfold l1Place
  dsimp only
  refine .thenFree ?_ (spends_modCore _ n (fun c => { c with l1 := putLine c.l1 l }))
  split
  · exact .refl 2
  next v _ => exact ((spends_l1ToL2 s n v).trans (spends_modCore _ n (fun c => { c with l1 := dropLine c.l1 v }))).trans (spends_setTick ..)

theorem spends_l1Fill (need : Nat) (keep : Bool) : Spends n 4 s (l1Fill s n a need keep).1 := by
  have hmiss (l : Line) : Spends n 4 s (l1Place (l2Fetch s (clusterOf n) a).1 n l) :=
    (fetches_l2Fetch s n a (clusterOf n)).spends.trans (spends_l1Place _ n l)
  unfold l1Fill
  cases findLine (s.core n).l1 a with
  | none =>
    dsimp only
    split
    · exact .refl 4
    · exact hmiss _
  | some l =>
    dsimp only
    split
    · exact (Spends.refl 4).thenFree (spends_modCore s n (fun c => { c with l1 := putLine c.l1 _ }))
    · exact hmiss _

theorem spends_cacheStore (off size v pol : Nat) (ctx : BitVec 16) (hpol : pol = 0 ∨ pol = 2) :
    Spends n 4 s (cacheStore s n a off size v pol 0 ctx) := by
  rw [cacheStore_writeBack s n a off size v pol ctx hpol]
  exact (spends_l1Fill s n a _ _).trans (spends_modCore ..)

end

end Sys2Proof.Machine
end


section
/-! SUPPORT. What a store of a thread to a scratchpad leaves in memory (R80, R186). -/

namespace Sys2Proof.Machine

/-- The state after a write of bytes in a scratchpad. -/
def afterSpadWrite (s : State) (a size v poison : Nat) : State :=
  { s with mem := memWriteLE s.mem a size v, memPoison := poisonWrite s.memPoison a size (2 ^ size - 1) poison }

/-- A store to sectors that the line holds changes the line only. -/
theorem cacheStore_hit (s : State) (n a off size v pol : Nat) (ctx : BitVec 16) (hpol : pol = 0 ∨ pol = 2) {l : Line}
    (hl : findLine (s.core n).l1 a = some l) (hneed : spanSectors off size &&& l.valid.toNat = spanSectors off size) :
    cacheStore s n a off size v pol 0 ctx =
      (s.modCore n (fun c => { c with l1 := putLine c.l1 { l with keep := l.keep || decide (pol = 2) } })).modCore n
        (fun c => { c with l1 := putLine c.l1 (storedLine { l with keep := l.keep || decide (pol = 2) } off size v ctx) }) := by
  rw [cacheStore_writeBack s n a off size v pol ctx hpol, l1Fill_hit s n a _ _ hl hneed]

/-- A store through the window to a scratchpad, outside of its counter area, writes its bytes. -/
theorem windowWrite_spad {s u : State} {q : Req} {c off size v poison pa w r at_ : Nat} {va : Word} (hoff : off < 0x200000)
    (harea : inCtrArea s c off size = false) (h : windowWrite s q c off size v poison pa va = .ok u w r at_) :
    u = afterSpadWrite s (spadAddr c off) size v poison := by
  unfold windowWrite at h
  simp only [if_pos hoff, harea, Bool.false_eq_true, if_false] at h
  split at h
  · cases h
  · split at h
    · cases h
    · cases h
      rfl

/-- An accepted store of a thread at a window address is the window's. -/
theorem threadStore_window {s t u : State} {n k va size v pol poison pa attr c off w r at_ : Nat}
    (htr : translate s n (decide (k < 7)) .store va = .ok t pa attr) (hplace : placeOf t pa = .window c off)
    (h : threadStore s n k va size v pol poison = .ok u w r at_) :
    windowWrite t { core := n, slot := some k } c off size v poison pa (BitVec.ofNat 64 va) = .ok u w r at_ := by
  unfold threadStore at h
  split at h
  · cases h
  · simp only [htr, hplace] at h
    split at h
    · cases h
    · exact h

/-- Settles O32: the cache by the line that the fill and the store leave and by what its room in the LLC spends, the scratchpad by the rules
of the byte store. -/
theorem memoryReadBack : Obligations.MemoryReadBack := by
  unfold Obligations.MemoryReadBack
  refine ⟨fun s n a off size v pol ctx hsize hend hpol => ⟨?_, ?_, ?_, ?_⟩, ?_⟩
  · exact cacheLoad_cacheStore s n a off size v pol ctx hend hpol
  · exact (cacheWork_cacheStore s n a off size v pol ctx hpol).other
  · intro hways hreserve
    obtain ⟨hmem, hpoison, hother⟩ := ((spends_cacheStore s n a off size v pol ctx hpol).quiet 0 ⟨hways, hreserve⟩).1
    exact ⟨hmem, hpoison, hother⟩
  · intro l hl hneed
    have ha : l.addr = a := findLine_addr hl
    rw [cacheStore_hit s n a off size v pol ctx hpol hl hneed]
    refine ⟨fun b hb => ?_, rfl, rfl, rfl, rfl,
      storedLine { l with keep := l.keep || decide (pol = 2) } off size v ctx, ?_, fun j hj hout => ?_⟩
    · rw [modCore_same, modCore_same]
      exact (findLine_putLine_other _ (ha ▸ hb)).trans (findLine_putLine_other _ (ha ▸ hb))
    · rw [modCore_same, ← ha]
      exact findLine_putLine_same ..
    · simp only [storedLine, BitVec.toNat_ofNat, bitsAt_mergeBytes_other _ _ hj hout]
  · intro s t u n k va size v pol pa attr c off htr _ hplace hend hsize hmem harea _ _ _ h
    have hu := windowWrite_spad (by omega) harea (threadStore_window htr hplace h)
    subst hu
    refine ⟨fun a ha => memRead_writeLE_other size _ _ _ hmem ha, ?_, rfl, rfl⟩
    have hread := memReadLE_writeLE size (spadAddr c off) v hmem
    rwa [show (256 : Nat) = 2 ^ 8 from rfl, ← pow_mul] at hread

end Sys2Proof.Machine
end


section
/-! SUPPORT. The form of memory in the answers of the model's functions (R7): an answer is formed when every state in it has its memory in
the one form. -/

namespace Sys2Proof.Machine

/-- Memory has its one form. -/
def State.Formed (s : State) : Prop := memWf s.mem = true

/-- The state in front of an answer is formed. -/
def FstFormed {α : Type} (p : State × α) : Prop := p.1.Formed

/-- An optional answer, when there is one, has the property. -/
def SomeOf {α : Type} (P : α → Prop) : Option α → Prop
  | some x => P x
  | none => True

/-- A successful answer has the property. -/
def OkOf {ε α : Type} (P : α → Prop) : Except ε α → Prop
  | .ok x => P x
  | .error _ => True

def Eff.Formed : Eff → Prop
  | .done t | .jump t _ | .trapIn t _ _ | .block t _ _ | .stall t | .leave t => t.Formed
  | .trap _ _ | .trapWord _ => True

def Access.Formed (a : Access) : Prop := a.leaves State.Formed

def Xlat.Formed (x : Xlat) : Prop := x.leaves State.Formed

def Raw.Formed : Raw → Prop
  | .ok t _ _ _ => t.Formed
  | .trap _ _ => True

def Convey.Formed : Convey → Prop
  | .ok t | .stale t | .wait t => t.Formed
  | .fault _ _ => True

def Fetched.Formed {α : Type} : Fetched α → Prop
  | .ok t _ | .wait t | .trap t _ _ _ => t.Formed

/-- A successful answer, or the access that is answered in its place, has its property. -/
def FoundOf {α : Type} (P : α → Prop) : Except Access α → Prop
  | .ok x => P x
  | .error a => a.Formed

/-- The next state of an outcome is formed. -/
def NextFormed : Host.Outcome State Fault Refusal → Prop
  | .next t => t.Formed
  | _ => True

theorem formed_ite {α : Type} {P : α → Prop} {c : Prop} [Decidable c] {x y : α} (hx : P x) (hy : P y) : P (if c then x else y) := by
  split <;> assumption

theorem fstFormed_ite {α : Type} {c : Prop} [Decidable c] {x y : State × α} (hx : FstFormed x) (hy : FstFormed y) :
    FstFormed (if c then x else y) := by split <;> assumption

theorem foldl_of {α β : Type} {P : β → Prop} {f : β → α → β} {l : List α} {b : β} (hf : ∀ t x, P t → P (f t x)) (h : P b) :
    P (l.foldl f b) := by
  induction l generalizing b with
  | nil => exact h
  | cons x r ih => exact ih (hf b x h)

theorem formed_foldl {α : Type} {f : State → α → State} {l : List α} {s : State} (hf : ∀ t x, t.Formed → (f t x).Formed) (h : s.Formed) :
    (l.foldl f s).Formed := foldl_of hf h

theorem formed_setLlc {s : State} {l : List Line} (h : s.Formed) : State.Formed { s with llc := l } := h

theorem formed_of_eq {α : Type} {P : α → Prop} {x y : α} (e : x = y) (h : P x) : P y := e ▸ h

section
variable {α ε : Type} {P : α → Prop} {x : α}

theorem formed_getD {o : Option α} (ho : SomeOf P o) (hx : P x) : P (o.getD x) := by
  cases o with
  | none => exact hx
  | some y => exact ho

theorem SomeOf.some {o : Option α} (e : o = some x) (h : SomeOf P o) : P x := by
  subst e
  exact h

theorem OkOf.ok {r : Except ε α} (e : r = .ok x) (h : OkOf P r) : P x := by
  subst e
  exact h

theorem FoundOf.ok {r : Except Access α} (e : r = .ok x) (h : FoundOf P r) : P x := by
  subst e
  exact h

theorem FoundOf.error {r : Except Access α} {a : Access} (e : r = .error a) (h : FoundOf P r) : a.Formed := by
  subst e
  exact h

end

theorem FstFormed.fst {α : Type} {p : State × α} (h : FstFormed p) : p.1.Formed := h

section
variable {a : Access} {t : State}

theorem Access.Formed.ok {v q pa : Nat} (e : a = .ok t v q pa) (h : a.Formed) : t.Formed := by
  subst e
  exact h

theorem Access.Formed.wait (e : a = .wait t) (h : a.Formed) : t.Formed := by
  subst e
  exact h

theorem Access.Formed.remote {dev off : Nat} (e : a = .remote t dev off) (h : a.Formed) : t.Formed := by
  subst e
  exact h

theorem Xlat.Formed.ok {x : Xlat} {pa attr : Nat} (e : x = .ok t pa attr) (h : x.Formed) : t.Formed := by
  subst e
  exact h

theorem Eff.Formed.done {e : Eff} (he : e = .done t) (h : e.Formed) : t.Formed := by
  subst he
  exact h

theorem Eff.Formed.jump {e : Eff} {pc : Word} (he : e = .jump t pc) (h : e.Formed) : t.Formed := by
  subst he
  exact h

theorem Eff.Formed.trapIn {e : Eff} {c : Cause} {v : Word} (he : e = .trapIn t c v) (h : e.Formed) : t.Formed := by
  subst he
  exact h

theorem Eff.Formed.block {e : Eff} {w : Wait} {arg : Word} (he : e = .block t w arg) (h : e.Formed) : t.Formed := by
  subst he
  exact h

theorem Eff.Formed.stall {e : Eff} (he : e = .stall t) (h : e.Formed) : t.Formed := by
  subst he
  exact h

theorem Eff.Formed.leave {e : Eff} (he : e = .leave t) (h : e.Formed) : t.Formed := by
  subst he
  exact h

theorem Raw.Formed.ok {r : Raw} {v p pa : Nat} (e : r = .ok t v p pa) (h : r.Formed) : t.Formed := by
  subst e
  exact h

theorem Convey.Formed.ok {r : Convey} (e : r = .ok t) (h : r.Formed) : t.Formed := by
  subst e
  exact h

theorem Convey.Formed.stale {r : Convey} (e : r = .stale t) (h : r.Formed) : t.Formed := by
  subst e
  exact h

theorem Convey.Formed.wait {r : Convey} (e : r = .wait t) (h : r.Formed) : t.Formed := by
  subst e
  exact h

theorem Fetched.Formed.ok {α : Type} {r : Fetched α} {v : α} (e : r = .ok t v) (h : r.Formed) : t.Formed := by
  subst e
  exact h

theorem Fetched.Formed.wait {α : Type} {r : Fetched α} (e : r = .wait t) (h : r.Formed) : t.Formed := by
  subst e
  exact h

theorem Fetched.Formed.trap {α : Type} {r : Fetched α} {c : Cause} {v : Word} {b : Bool} (e : r = .trap t c v b) (h : r.Formed) :
    t.Formed := by
  subst e
  exact h

end

end Sys2Proof.Machine
end


section
/-! SUPPORT. The storage, the accesses and the ends of instructions keep the form of memory (R7). -/

namespace Sys2Proof.Machine

/-! ## The storage, the LLC and the caches -/

theorem memOk_setCore {s : State} {n : Nat} {c : Core} (h : s.Formed) : (s.setCore n c).Formed := h

theorem memOk_setPair {s : State} {n : Nat} {p : Pair} (h : s.Formed) : (s.setPair n p).Formed := h

theorem memOk_setCluster {s : State} {n : Nat} {c : Cluster} (h : s.Formed) : (s.setCluster n c).Formed := h

theorem memOk_setTower {s : State} {n : Nat} {t : Tower} (h : s.Formed) : (s.setTower n t).Formed := h

theorem memOk_setDie {s : State} {n : Nat} {d : Die} (h : s.Formed) : (s.setDie n d).Formed := h

theorem memOk_setThread {s : State} {img : Nat} {t : Thread} (h : s.Formed) : (s.setThread img t).Formed := h

theorem memOk_setTask {s : State} {n : Nat} {t : Task} (h : s.Formed) : (s.setTask n t).Formed := h

theorem memOk_setHostQueue {s : State} {n : Nat} {q : HostQueue} (h : s.Formed) : (s.setHostQueue n q).Formed := h

theorem memOk_setSlot {s : State} {n k : Nat} {x : Slot} (h : s.Formed) : (s.setSlot n k x).Formed := memOk_setCore h

theorem memOk_modCore {s : State} {n : Nat} {f : Core → Core} (h : s.Formed) : (s.modCore n f).Formed := memOk_setCore h

theorem memOk_modSlot {s : State} {n k : Nat} {f : Slot → Slot} (h : s.Formed) : (s.modSlot n k f).Formed := memOk_setSlot h

theorem memOk_modPair {s : State} {n : Nat} {f : Pair → Pair} (h : s.Formed) : (s.modPair n f).Formed := memOk_setPair h

theorem memOk_modCluster {s : State} {n : Nat} {f : Cluster → Cluster} (h : s.Formed) : (s.modCluster n f).Formed := memOk_setCluster h

theorem memOk_modTower {s : State} {n : Nat} {f : Tower → Tower} (h : s.Formed) : (s.modTower n f).Formed := memOk_setTower h

theorem memOk_modDie {s : State} {n : Nat} {f : Die → Die} (h : s.Formed) : (s.modDie n f).Formed := memOk_setDie h

theorem memOk_modThread {s : State} {img : Nat} {f : Thread → Thread} (h : s.Formed) : (s.modThread img f).Formed := memOk_setThread h

theorem memOk_modTask {s : State} {n : Nat} {f : Task → Task} (h : s.Formed) : (s.modTask n f).Formed := memOk_setTask h

theorem memOk_modQueue {s : State} {n : Nat} {f : HostQueue → HostQueue} (h : s.Formed) : (s.modQueue n f).Formed := memOk_setHostQueue h

theorem memOk_modMe {s : State} {f : Slot → Slot} (h : s.Formed) : (s.modMe f).Formed := memOk_modSlot h

theorem memOk_modMyCore {s : State} {f : Core → Core} (h : s.Formed) : (s.modMyCore f).Formed := memOk_modCore h

theorem memOk_ticked {s : State} (h : s.Formed) : (s.ticked).Formed := h

theorem memOk_machineCheck {s : State} {kind level addr : Nat} {ctx : Option (BitVec 16)} {wher : Nat} (h : s.Formed) :
    (machineCheck s kind level addr ctx wher).Formed :=
  (homeWork_machineCheck ..).mem h

theorem memOk_metaCheck {s : State} {a : Nat} (h : s.Formed) : (metaCheck s a).Formed := (homeWork_metaCheck ..).mem h

theorem memOk_setCtrl {s : State} {off : Nat} {w : Word} (h : s.Formed) : (setCtrl s off w).Formed := h

theorem memOk_dropPool {s : State} {a : Nat} (h : s.Formed) : (dropPool s a).Formed := (homeWork_dropPool ..).mem h

theorem memOk_inboxSendBy {s : State} {n : Nat} {by_ : Option (Nat × Nat)} {head data aux : Word} (h : s.Formed) :
    (inboxSendBy s n by_ head data aux).Formed :=
  (homeWork_inboxSendBy ..).mem h

theorem memOk_inboxSend {s : State} {n : Nat} {head data aux : Word} (h : s.Formed) : (inboxSend s n head data aux).Formed :=
  (homeWork_inboxSend ..).mem h

theorem memOk_poolKeep {s : State} {a : Nat} (h : s.Formed) : (poolKeep s a).Formed := (homeWork_poolKeep ..).mem h

theorem memOk_l2ToHome {s : State} {cl a : Nat} (h : s.Formed) : (l2ToHome s cl a).Formed := (homeWork_l2ToHome ..).mem h

theorem memOk_recallOwned {s : State} {a : Nat} {but : Option Nat} (h : s.Formed) : (recallOwned s a but).Formed :=
  (homeWork_recallOwned ..).mem h

theorem memOk_l2Fetch {s : State} {cl a : Nat} (h : s.Formed) : FstFormed (l2Fetch s cl a) := (homeWork_l2Fetch ..).mem h

theorem memOk_l2Take {s : State} {cl a : Nat} (h : s.Formed) : FstFormed (l2Take s cl a) := (homeWork_l2Take ..).mem h

theorem memOk_l2Write {s : State} {cl a data mask poison scope : Nat} {ctx : Option (BitVec 16)} (h : s.Formed) :
    (l2Write s cl a data mask poison scope ctx).Formed :=
  (homeWork_l2Write ..).mem h

theorem memOk_l1ToL2 {s : State} {n a : Nat} (h : s.Formed) : (l1ToL2 s n a).Formed := (cacheWork_l1ToL2 ..).mem h

theorem memOk_l1Drop {s : State} {n a : Nat} (h : s.Formed) : (l1Drop s n a).Formed := memOk_modCore h

theorem memOk_l1Fill {s : State} {n a need : Nat} {keep : Bool} (h : s.Formed) : FstFormed (l1Fill s n a need keep) := (cacheWork_l1Fill ..).mem h

theorem memOk_cacheLoad {s : State} {n a off size pol : Nat} (h : s.Formed) : FstFormed (cacheLoad s n a off size pol) := by
  refine formed_ite (memOk_metaCheck (memOk_modCluster (memOk_l1Drop (memOk_recallOwned (memOk_l1ToL2 h))))) ?_
  refine formed_ite ?_ ?_
  · dsimp only
    exact memOk_l2Fetch (memOk_l1ToL2 h)
  · dsimp only
    exact memOk_l1Fill h

theorem memOk_cacheStore {s : State} {n a off size v pol poison : Nat} {ctx : BitVec 16} (h : s.Formed) :
    (cacheStore s n a off size v pol poison ctx).Formed := by
  refine memOk_ite (memOk_homeWrite (memOk_modCluster (memOk_l1Drop (memOk_recallOwned (memOk_l1ToL2 h)))) _ _ _ _ _) ?_
  refine memOk_ite ?_ ?_
  · dsimp only
    split
    · exact memOk_l2Write (memOk_l1ToL2 h)
    · exact memOk_modCore (memOk_l2Write (memOk_l1ToL2 h))
  · dsimp only
    exact memOk_modCore (memOk_l1Fill h)

theorem memOk_toHome {s : State} {n a : Nat} (h : s.Formed) : (toHome s n a).Formed := (cacheWork_toHome ..).mem h

theorem memOk_releaseL1 {s : State} {n : Nat} (h : s.Formed) : (releaseL1 s n).Formed := formed_foldl (fun _ _ ht => memOk_l1ToL2 ht) h

theorem memOk_releaseL2 {s : State} {cl : Nat} (h : s.Formed) : (releaseL2 s cl).Formed := formed_foldl (fun _ _ ht => memOk_l2ToHome ht) h

theorem memOk_widenRecords {s : State} {n sc : Nat} (h : s.Formed) : (widenRecords s n sc).Formed := memOk_modCluster (memOk_modCore h)

theorem memOk_release {s : State} {n sc : Nat} (h : s.Formed) : (release s n sc).Formed :=
  memOk_ite h (memOk_ite (memOk_releaseL1 h) (memOk_widenRecords (memOk_releaseL2 (memOk_releaseL1 h))))

theorem memOk_acquire {s : State} {n sc : Nat} (h : s.Formed) : (acquire s n sc).Formed :=
  memOk_ite h (memOk_ite (memOk_modCore h) (memOk_modCluster (memOk_modCore h)))

/-! ## Operands -/

theorem memOk_writeBits {s : State} {core slot n v : Nat} (h : s.Formed) : (writeBits s core slot n v).Formed := by
  refine memOk_ite h ?_
  split
  · exact h
  · split
    · exact memOk_modSlot h
    · exact memOk_modCore h
    · exact memOk_modPair h

/-! ## Translations and accesses -/

theorem memOk_physWrite {s : State} {pa n v poison : Nat} {ctx : Option (BitVec 16)} (h : s.Formed) : (physWrite s pa n v poison ctx).Formed :=
  (homeWork_physWrite ..).mem h

theorem memOk_useLeaf {s : State} {need : Need} {user : Bool} {va e log : Nat} (h : s.Formed) : (useLeaf s need user va e log).Formed :=
  formed_ite h trivial

theorem memOk_translate {s : State} {n : Nat} {user : Bool} {need : Need} {va : Nat} (h : s.Formed) : (translate s n user need va).Formed := by
  unfold translate
  refine formed_ite trivial (formed_ite (formed_ite trivial h) ?_)
  extract_lets -underBinder ctx held fresh old
  clear_value ctx held fresh old
  split
  · exact memOk_useLeaf h
  · split
    · exact trivial
    · exact trivial
    · exact trivial
    · exact memOk_useLeaf (memOk_ite h h)

theorem memOk_markHot {s : State} {a : Nat} (h : s.Formed) : (markHot s a).Formed := memOk_ite (memOk_modTower h) h

theorem memOk_lineLoad {s : State} {n a size attr pol : Nat} (h : s.Formed) : FstFormed (lineLoad s n a size attr pol) := (memOk_cacheLoad h).fst

theorem memOk_lineStore {s : State} {n a size v attr pol poison : Nat} (h : s.Formed) : (lineStore s n a size v attr pol poison).Formed :=
  memOk_cacheStore h

theorem memOk_recordScope {s : State} {n a sc : Nat} (h : s.Formed) : (recordScope s n a sc).Formed := memOk_modCluster (memOk_modCore h)

theorem memOk_storeThrough {s : State} {n a sc : Nat} (h : s.Formed) : (storeThrough s n a sc).Formed :=
  memOk_ite h (memOk_recordScope (memOk_ite (memOk_l1ToL2 h) (memOk_l2ToHome (memOk_l1ToL2 h))))

theorem memOk_lineAtomic {s : State} {n a size attr sc : Nat} {f : Nat → Nat} (h : s.Formed) : FstFormed (lineAtomic s n a size attr sc f) := by
  unfold lineAtomic
  split
  · dsimp only
    exact formed_ite ((memOk_cacheLoad h).fst) (memOk_cacheStore ((memOk_cacheLoad h).fst))
  · extract_lets -underBinder _ _ s1
    have hs1 : s1.Formed := memOk_l1Drop (memOk_l1ToL2 h)
    dsimp only
    exact formed_ite (memOk_l2Take hs1) (memOk_l2Write (memOk_l2Take hs1))
  · extract_lets -underBinder _ _ s1 _ _ _
    have hs1 : s1.Formed := memOk_metaCheck (memOk_toHome h)
    exact formed_ite hs1 (memOk_markHot (memOk_homeWrite hs1 _ _ _ _ _))

/-! ## Rows, maps and windows of a core -/

theorem memOk_packetLeaves {s : State} {p : Packet} (h : s.Formed) : (packetLeaves s p).Formed := h

theorem memOk_sendPacket {s : State} {kind flags src dst ddev own : Nat} {coll : BitVec 120} {payload : List Byte} (h : s.Formed) :
    (sendPacket s kind flags src dst ddev own coll payload).Formed :=
  memOk_ite (memOk_packetLeaves h) h

theorem memOk_farWrite {s : State} {n k : Nat} {cmd : Option Nat} {dev off size : Nat} {atom : Bool} (h : s.Formed) :
    (farWrite s n k cmd dev off size atom).Formed :=
  h

theorem memOk_sendPut {s : State} {n k : Nat} {cmd : Option Nat} {dev off size v poison : Nat} (h : s.Formed) :
    (sendPut s n k cmd dev off size v poison).Formed :=
  memOk_sendPacket (memOk_farWrite h)

theorem memOk_traceWrite {s : State} {n kind slot : Nat} {handle pc value : Word} (h : s.Formed) :
    (traceWrite s n kind slot handle pc value).Formed :=
  (cacheWork_traceWrite ..).mem h

theorem memOk_traceAuto {s : State} {n kind slot : Nat} {handle pc value : Word} (h : s.Formed) :
    (traceAuto s n kind slot handle pc value).Formed :=
  (cacheWork_traceAuto ..).mem h

theorem memOk_loadRaw {s : State} {n : Nat} {user : Bool} {va size : Nat} (h : s.Formed) : (loadRaw s n user va size).Formed := by
  unfold loadRaw
  split
  · exact trivial
  next heq =>
    have ht := Xlat.Formed.ok heq (memOk_translate h)
    split
    · dsimp only
      exact (memOk_lineLoad ht).fst
    · dsimp only
      exact (memOk_lineLoad ht).fst
    · exact formed_ite ht trivial
    · exact memOk_ticked ht
    · exact formed_ite trivial trivial
    · exact trivial

theorem memOk_storeRaw {s : State} {n : Nat} {user : Bool} {va size v : Nat} (h : s.Formed) : (storeRaw s n user va size v).Formed := by
  unfold storeRaw
  split
  · exact trivial
  next heq =>
    have ht := Xlat.Formed.ok heq (memOk_translate h)
    split
    · exact formed_ite trivial (memOk_lineStore ht)
    · exact formed_ite trivial (memOk_lineStore ht)
    · exact formed_ite (memOk_physWrite ht) trivial
    · exact memOk_sendPut ht
    · exact formed_ite trivial trivial
    · exact trivial

theorem memOk_loadRawAll {s : State} {n : Nat} {user : Bool} {va size a : Nat} (h : s.Formed) : FstFormed (loadRawAll s n user va size a) := by
  induction a generalizing s va with
  | zero =>
    rw [loadRawAll]
    exact h
  | succ k ih =>
    rw [loadRawAll]
    split
    · exact h
    next heq =>
      have ht := Raw.Formed.ok heq (memOk_loadRaw h)
      split
      next heq1 =>
        have ht1 := formed_of_eq heq1 (ih ht)
        exact ht1
      next heq1 =>
        have ht1 := formed_of_eq heq1 (ih ht)
        exact ht1

theorem memOk_loadRawList {s : State} {n : Nat} {user : Bool} {va size k : Nat} (h : s.Formed) : FstFormed (loadRawList s n user va size k) := by
  unfold loadRawList
  split
  next heq =>
    have ht := formed_of_eq heq (memOk_loadRawAll h)
    exact ht
  next heq =>
    have ht := formed_of_eq heq (memOk_loadRawAll h)
    split <;> exact ht

theorem memOk_mapInstall {s : State} {n k : Nat} {resume : Bool} {count : Nat} {descs : List Nat} (h : s.Formed) :
    OkOf State.Formed (mapInstall s n k resume count descs) := by
  refine formed_ite trivial ?_
  split
  · exact trivial
  · split
    · exact trivial
    · split
      · exact trivial
      · split
        · exact trivial
        · split
          · exact trivial
          · exact memOk_modSlot (memOk_modPair (memOk_modCore h))

theorem memOk_readMapRecord {s : State} {n : Nat} {user : Bool} {va : Nat} (h : s.Formed) : FstFormed (readMapRecord s n user va) := by
  unfold readMapRecord
  split
  · exact h
  next heq =>
    have ht := Raw.Formed.ok heq (memOk_loadRaw h)
    refine formed_ite ht ?_
    split
    next heq1 =>
      have ht1 := formed_of_eq heq1 (memOk_loadRawList ht)
      exact ht1
    next heq1 =>
      have ht1 := formed_of_eq heq1 (memOk_loadRawList ht)
      exact ht1

theorem memOk_rowWrite {s : State} {n k row : Nat} {v : BitVec 128} (h : s.Formed) : (rowWrite s n k row v).Formed := memOk_modSlot h

theorem memOk_imageWrite {s : State} {n pa size v : Nat} (h : s.Formed) : (imageWrite s n pa size v).Formed := memOk_physWrite (memOk_toHome h)

theorem memOk_setThreadState {s : State} {n img state wait : Nat} (h : s.Formed) : (setThreadState s n img state wait).Formed :=
  memOk_imageWrite (memOk_modThread h)

theorem memOk_imageWords {s : State} {n pa : Nat} {a : List Nat} (h : s.Formed) : (imageWords s n pa a).Formed := by
  induction a generalizing s pa with
  | nil =>
    rw [imageWords]
    exact h
  | cons x r ih =>
    rw [imageWords]
    exact ih (memOk_imageWrite h)

theorem memOk_trapRecord {s : State} {n img cause value pc time : Nat} {d0 d1 : Option Deferred} (h : s.Formed) :
    (trapRecord s n img cause value pc time d0 d1).Formed :=
  memOk_imageWords h

theorem memOk_saveImage {s : State} {n k state wait : Nat} {pc : Word} (h : s.Formed) : (saveImage s n k state wait pc).Formed :=
  memOk_imageWords (memOk_imageWords (memOk_imageWrite (memOk_setThreadState (memOk_imageWrite (memOk_imageWords h)))))

theorem memOk_writeEstate {s : State} {n img : Nat} {base : Word} (h : s.Formed) : (writeEstate s n img base).Formed := by
  refine formed_foldl ?_ (memOk_imageWords (memOk_ticked h))
  intro _ _ ht
  split
  · exact memOk_imageWords ht
  · exact ht

theorem memOk_evictRows {s : State} {n k : Nat} (h : s.Formed) : (evictRows s n k).Formed := memOk_modCore h

theorem memOk_writeRows {s : State} {n : Nat} {f : FormerRows} (h : s.Formed) : (writeRows s n f).Formed :=
  memOk_modCore (formed_foldl (fun _ _ ht => memOk_ite (memOk_lineStore ht) ht) h)

theorem memOk_mapWriteGo {s : State} {n va : Nat} {a : List (Nat × Nat)} (h : s.Formed) : (mapWriteGo s n va a).Formed := by
  induction a generalizing s with
  | nil =>
    rw [mapWriteGo]
    exact h
  | cons x r ih =>
    rw [mapWriteGo]
    split
    next heq =>
      have ht := Raw.Formed.ok heq (memOk_storeRaw h)
      exact ih ht
    · exact ih h

theorem memOk_writeMapRecord {s : State} {n k : Nat} (h : s.Formed) : OkOf State.Formed (writeMapRecord s n k) := by
  unfold writeMapRecord
  dsimp only
  split
  · exact trivial
  · exact memOk_mapWriteGo h

/-! ## Packets -/

theorem memOk_flushHeld {s : State} (h : s.Formed) : (flushHeld s).Formed := memOk_ite (formed_foldl (fun _ _ ht => memOk_packetLeaves ht) h) h

theorem memOk_sendAtom {s : State} {n dev id off op size shape a b guard : Nat} (h : s.Formed) :
    (sendAtom s n dev id off op size shape a b guard).Formed :=
  memOk_sendPacket h

theorem memOk_givePlaceBack {s : State} {n : Nat} {r : RemoteOp} (h : s.Formed) : (givePlaceBack s n r).Formed := by
  unfold givePlaceBack
  split
  · exact memOk_sendAtom h
  · exact h

theorem memOk_sendAborts {s : State} {n : Nat} {ctx : BitVec 16} {b : BitVec 512} (h : s.Formed) : (sendAborts s n ctx b).Formed :=
  formed_foldl (fun _ _ ht => memOk_sendPacket ht) h

/-! ## Traps and the ends of instructions -/

theorem memOk_dropCall {s : State} {n k : Nat} (h : s.Formed) : (dropCall s n k).Formed := formed_foldl (fun _ _ ht => memOk_givePlaceBack ht) h

theorem memOk_dropQueues {s : State} {n k : Nat} (h : s.Formed) : (dropQueues s n k).Formed := h

theorem memOk_trapUser {s : State} {n k : Nat} {len32 : Bool} {c : Cause} {v pc : Word} (h : s.Formed) : (trapUser s n k len32 c v pc).Formed :=
  memOk_traceAuto (memOk_modCore (memOk_modThread (memOk_modSlot (memOk_dropQueues (memOk_dropCall h)))))

theorem memOk_trapSystem {s : State} {n : Nat} {len32 : Bool} {c : Cause} {v pc : Word} (h : s.Formed) : (trapSystem s n len32 c v pc).Formed :=
  memOk_traceAuto (memOk_machineCheck (memOk_modCore (memOk_modSlot (memOk_dropQueues (memOk_dropCall h)))))

theorem memOk_takeTrap {s : State} {n k : Nat} {len32 : Bool} {c : Cause} {v pc : Word} (h : s.Formed) : (takeTrap s n k len32 c v pc).Formed :=
  memOk_ite (memOk_trapSystem h) (memOk_trapUser h)

theorem memOk_advance {s : State} {pc : Word} {sl : Nat} (h : s.Formed) : (advance s pc sl).Formed := memOk_modMe h

theorem memOk_finish {s : State} {len sl word : Nat} {e : Eff} (h : s.Formed) (h2 : e.Formed) : (finish s len sl word e).Formed := by
  unfold finish
  split
  · split
    · exact memOk_advance h2
    · exact memOk_advance h2
    · exact memOk_takeTrap h
    · exact memOk_takeTrap h
    · exact memOk_takeTrap h2
    · exact memOk_modThread (memOk_modMe h2)
    · exact h2
    · exact h2

theorem memOk_run {i : Instr} {len sl : Nat} {body : State → Eff} {s : State} (hbody : ∀ t, t.Formed → (body t).Formed) (h : s.Formed) :
    NextFormed (run i len sl body s) :=
  formed_ite (memOk_finish h (formed_ite (hbody _ h) trivial)) trivial

theorem memOk_run32 {i : Instr} {sl : BitVec 2} {body : State → Eff} {s : State} (hbody : ∀ t, t.Formed → (body t).Formed)
    (h : s.Formed) : NextFormed (run32 i sl body s) :=
  memOk_run (fun _ ht => hbody _ ht) h

theorem memOk_run16 {i : Instr} {body : State → Eff} {s : State} (hbody : ∀ t, t.Formed → (body t).Formed) (h : s.Formed) :
    NextFormed (run16 i body s) :=
  memOk_run (fun _ ht => hbody _ ht) h

theorem memOk_runSys {i : Instr} {sl : BitVec 2} {body : State → Eff} {s : State} (hbody : ∀ t, t.Formed → (body t).Formed)
    (h : s.Formed) : NextFormed (runSys i sl body s) :=
  formed_ite (memOk_finish h trivial) (memOk_run (fun _ ht => hbody _ ht) h)

theorem memOk_readyName {s : State} {n : Nat} (h : s.Formed) : SomeOf Eff.Formed (readyName s n) := by
  unfold readyName
  split
  · dsimp only
    split
    · exact trivial
    · split
      · exact h
      · exact formed_ite trivial trivial
  · dsimp only
    split
    · exact trivial
    · split
      · exact h
      · exact formed_ite trivial (formed_ite h trivial)

theorem memOk_firstOf {α : Type} {f : α → Check} {l : List α} (hf : ∀ x, SomeOf Eff.Formed (f x)) : SomeOf Eff.Formed (firstOf f l) := by
  induction l with
  | nil => exact trivial
  | cons x r ih =>
    rw [firstOf]
    split
    next e heq => exact heq ▸ hf x
    next => exact ih

theorem memOk_kindName {s : State} {q : KindReq} : SomeOf Eff.Formed (kindName s q) := by
  unfold kindName
  split
  · exact formed_ite trivial trivial
  · exact trivial

theorem memOk_touchName {s : State} {read : Bool} {n : Nat} (h : s.Formed) : SomeOf Eff.Formed (touchName s read n) := by
  refine formed_ite trivial ?_
  dsimp only
  exact formed_ite (memOk_modMe h) (formed_ite h (formed_ite trivial trivial))

theorem memOk_pre {s : State} {reads writes : List Nat} {kinds : List KindReq} {body : Eff} (h : s.Formed) (h2 : body.Formed) :
    (pre s reads writes kinds body).Formed := by
  unfold pre
  split
  next heq =>
    have hx1 := SomeOf.some heq (memOk_firstOf (fun _ => memOk_readyName h))
    exact hx1
  · split
    next heq1 =>
      have hx2 := SomeOf.some heq1 (memOk_firstOf (fun _ => memOk_kindName))
      exact hx2
    · split
      next heq2 =>
        have hx3 := SomeOf.some heq2 (memOk_firstOf (fun _ => memOk_touchName h))
        exact hx3
      · split
        next heq3 =>
          have hx4 := SomeOf.some heq3 (memOk_firstOf (fun _ => memOk_touchName h))
          exact hx4
        · exact h2

theorem memOk_latchOn {s t : State} {reads : List Nat} (h : t.Formed) : (latchOn s t reads).Formed := memOk_modMe h

theorem memOk_holdLatch {s : State} {reads : List Nat} {a : Eff} (h : a.Formed) : (holdLatch s reads a).Formed := by
  unfold holdLatch
  split
  · exact memOk_latchOn h
  · exact memOk_latchOn h
  · exact h
  · exact h
  · exact trivial
  · exact trivial
  · exact h
  · exact h

theorem memOk_settle {s : State} {reads : List Nat} {body : Eff} (h : s.Formed) (h2 : body.Formed) : (settle s reads body).Formed :=
  formed_ite (memOk_holdLatch h2) (memOk_modMe (memOk_latchOn h))

theorem memOk_push {s : State} {d bits : Nat} {due : Option Nat} {turn : Nat} (h : s.Formed) : (push s d bits due turn).Formed := memOk_modMe h

theorem memOk_putBits {s : State} {d l bits : Nat} (h : s.Formed) : (putBits s d l bits).Formed := memOk_ite h (memOk_push h)

theorem memOk_putI {s : State} {d l : Nat} {x : Int} (h : s.Formed) : (putI s d l x).Formed := by
  refine formed_ite h ?_
  dsimp only
  split
  · exact trivial
  · exact memOk_putBits h

theorem memOk_putLate {s : State} {d bits : Nat} (h : s.Formed) : (putLate s d bits).Formed := memOk_ite h (memOk_push h)

theorem memOk_putILate {s : State} {d : Nat} {x : Int} (h : s.Formed) : (putILate s d x).Formed := by
  refine formed_ite h ?_
  dsimp only
  split
  · exact trivial
  · exact memOk_putLate h

theorem memOk_putThen {s : State} {d : Nat} {x : Int} {effect : State → State} (h : s.Formed)
    (heffect : ∀ t, t.Formed → (effect t).Formed) : (putThen s d x effect).Formed := by
  unfold putThen
  split
  · split
    next heq1 =>
      have ht1 := Eff.Formed.done heq1 (memOk_putILate (heffect _ h))
      exact ht1
    · exact memOk_putILate (heffect _ h)
  · exact memOk_putILate h

theorem memOk_putF {s : State} {d l : Nat} {r : Nat × Nat} (h : s.Formed) : (putF s d l r).Formed :=
  formed_ite trivial (memOk_modMe (memOk_putBits h))

theorem memOk_clearTags {s : State} {v : Word} (h : s.Formed) : (clearTags s v).Formed := memOk_modMyCore h

theorem memOk_commitList {s : State} {n k : Nat} {a : List Pending} (h : s.Formed) : (commitList s n k a).Formed := by
  induction a generalizing s with
  | nil =>
    rw [commitList]
    exact h
  | cons x r ih =>
    rw [commitList]
    exact ih (memOk_ite (memOk_writeBits h) h)

theorem memOk_commitSlot {s : State} {n k : Nat} (h : s.Formed) : (commitSlot s n k).Formed := memOk_ite (memOk_modSlot (memOk_commitList h)) h

theorem memOk_commitCore {s : State} {n : Nat} (h : s.Formed) : (commitCore s n).Formed := formed_foldl (fun _ _ ht => memOk_commitSlot ht) h

theorem memOk_modifyName {s : State} {n k name : Nat} {f : NameD → NameD} (h : s.Formed) : (modifyName s n k name f).Formed := by
  unfold modifyName
  split
  · exact h
  · split
    · exact memOk_modSlot h
    · exact memOk_modCore h
    · exact memOk_modPair h

end Sys2Proof.Machine
end


section
/-! SUPPORT. Tasks, threads and their images keep the form of memory (R7). -/

namespace Sys2Proof.Machine

/-! ## Tasks and threads -/

theorem memOk_mapCores {s : State} {f : Core → Core} (h : s.Formed) : (s.mapCores f).Formed := h

theorem memOk_mapTowers {s : State} {f : Tower → Tower} (h : s.Formed) : (s.mapTowers f).Formed := h

theorem memOk_mapTasks {s : State} {f : Task → Task} (h : s.Formed) : (s.mapTasks f).Formed := h

theorem memOk_wakeCore {s : State} {n : Nat} {f : Slot → Bool} (h : s.Formed) : (wakeCore s n f).Formed := memOk_modCore h

theorem memOk_wakeAll {s : State} {w : Wait} (h : s.Formed) : (wakeAll s w).Formed := formed_foldl (fun _ _ ht => memOk_wakeCore ht) h

theorem memOk_wakeRecv {s : State} {n ch : Nat} (h : s.Formed) : (wakeRecv s n ch).Formed := by
  refine memOk_ite h ?_
  split
  · exact h
  · exact memOk_modSlot h

theorem memOk_reserveMsg {s : State} {n ch : Nat} {m : Msg} (h : s.Formed) : (reserveMsg s n ch m).Formed := memOk_modCore h

theorem memOk_wakeOf {s : State} {n k : Nat} {w : Wait} (h : s.Formed) : (wakeOf s n k w).Formed := memOk_modSlot h

theorem memOk_noteSender {s : State} {m ch n k : Nat} (h : s.Formed) : (noteSender s m ch n k).Formed := memOk_modCore h

theorem memOk_dropSender {s : State} {m ch n k : Nat} (h : s.Formed) : (dropSender s m ch n k).Formed := memOk_modCore h

theorem memOk_giveUser {s : State} {img : Nat} (h : s.Formed) : (giveUser s img).Formed := by
  unfold giveUser
  dsimp only
  split
  · exact h
  · exact memOk_wakeRecv (memOk_modThread (memOk_modCore h))

theorem memOk_grantPlace {s : State} {n ch dev src id : Nat} (h : s.Formed) : (grantPlace s n ch dev src id).Formed :=
  memOk_sendPacket (memOk_reserveMsg h)

theorem memOk_serveSenders {s : State} {n ch fuel : Nat} (h : s.Formed) : (serveSenders s n ch fuel).Formed := by
  induction fuel generalizing s with
  | zero =>
    rw [serveSenders]
    exact h
  | succ k ih =>
    rw [serveSenders]
    refine memOk_ite h ?_
    split
    · exact h
    · exact memOk_ite (ih (memOk_giveUser (memOk_modCore h))) (memOk_ite (ih (memOk_grantPlace (memOk_modCore h))) (memOk_ite (memOk_wakeOf h) h))

theorem memOk_wakeSender {s : State} {n ch : Nat} (h : s.Formed) : (wakeSender s n ch).Formed := memOk_serveSenders h

theorem memOk_noteCaller {s : State} {m n k : Nat} (h : s.Formed) : (noteCaller s m n k).Formed := memOk_modCore h

theorem memOk_wakeCaller {s : State} {m : Nat} (h : s.Formed) : (wakeCaller s m).Formed := by
  unfold wakeCaller
  split
  · exact h
  · exact memOk_ite (memOk_wakeOf h) h

theorem memOk_enterRun {s : State} {n : Nat} {e : RunEntry} (h : s.Formed) : (enterRun s n e).Formed :=
  memOk_ite (memOk_modCore h) (memOk_modTower h)

theorem memOk_enterThread {s : State} {n img : Nat} (h : s.Formed) : (enterThread s n img).Formed := memOk_enterRun h

theorem memOk_removeEntry {s : State} {w : EntryKind} (h : s.Formed) : (removeEntry s w).Formed := memOk_mapTowers (memOk_mapCores h)

theorem memOk_removeRun {s : State} {n : Nat} {w : EntryKind} (h : s.Formed) : (removeRun s n w).Formed := memOk_modCore h

theorem memOk_takeImage {s : State} {n : Nat} (h : s.Formed) : SomeOf FstFormed (takeImage s n) :=
  formed_ite trivial (memOk_imageWrite (memOk_imageWrite h))

theorem memOk_takeImages {s : State} {n a : Nat} (h : s.Formed) : SomeOf FstFormed (takeImages s n a) := by
  induction a generalizing s with
  | zero =>
    rw [takeImages]
    exact h
  | succ k ih =>
    rw [takeImages]
    split
    · exact trivial
    next heq =>
      have ht := SomeOf.some heq (memOk_takeImage h)
      split
      · exact trivial
      next heq1 =>
        have ht1 := SomeOf.some heq1 (ih ht)
        exact ht1

theorem memOk_returnImage {s : State} {n img : Nat} {x : BitVec 32} (h : s.Formed) : (returnImage s n img x).Formed :=
  memOk_imageWrite (memOk_imageWrite (memOk_imageWrite h))

theorem memOk_newThread {s : State} {n base : Nat} {x : BitVec 32} {pc mapPtr launch : Word} {parent : BitVec 32} {t : Thread}
    (h : s.Formed) : (newThread s n base x pc mapPtr launch parent t).Formed :=
  memOk_setThread (memOk_imageWords (memOk_imageWrite
      (memOk_imageWords (memOk_imageWrite (memOk_imageWrite (memOk_imageWrite (memOk_imageWords h)))))))

theorem memOk_writeRecord {s : State} {pa off v : Nat} {ctx : BitVec 16} (h : s.Formed) : (writeRecord s pa off v ctx).Formed := memOk_physWrite h

theorem memOk_writeStatus {s : State} {id : Nat} (h : s.Formed) : (writeStatus s id).Formed := memOk_writeRecord h

theorem memOk_freeCounter {s : State} {id : Nat} (h : s.Formed) : (freeCounter s id).Formed := by
  unfold freeCounter
  dsimp only
  split
  · exact h
  · exact memOk_modTask (memOk_modCore h)

theorem memOk_sendReply {s : State} {q : Nat} {b : BitVec 512} (h : s.Formed) : (sendReply s q b).Formed := memOk_ite h (memOk_ite h h)

theorem memOk_taskReply {s : State} {id kind : Nat} (h : s.Formed) : (taskReply s id kind).Formed := by
  unfold taskReply
  dsimp only
  split
  · exact memOk_ite h (memOk_ite (memOk_modTask h) (memOk_sendReply h))
  · exact h

theorem memOk_lateReplies {s : State} (h : s.Formed) : (lateReplies s).Formed := by
  refine formed_foldl ?_ h
  intro _ _ ht
  split
  · exact memOk_ite ht (memOk_taskReply (memOk_modTask ht))
  · exact ht

theorem memOk_countTask {s : State} {id : Nat} (h : s.Formed) : (countTask s id).Formed := by
  unfold countTask
  dsimp only
  split
  · exact h
  · exact memOk_modQueue h

theorem memOk_notePred {s : State} {pa : Nat} {p : Pred} (h : s.Formed) : (notePred s pa p).Formed := memOk_mapTasks h

theorem memOk_endTask {s : State} {id : Nat} {st : TaskState} {kind : Nat} (h : s.Formed) : (endTask s id st kind).Formed :=
  memOk_taskReply (memOk_countTask (memOk_freeCounter
      (formed_foldl (fun _ _ ht => memOk_notePred ht)
      (memOk_ite (formed_foldl (fun _ _ ht => memOk_release ht) (memOk_writeStatus (memOk_modTask h)))
      (memOk_writeStatus (memOk_modTask h))))))

theorem memOk_discardTask {s : State} {id kind : Nat} (h : s.Formed) : (discardTask s id kind).Formed :=
  memOk_endTask (memOk_modTask (memOk_removeEntry (memOk_ite (memOk_modTask h) h)))

theorem memOk_dispatchFault {s : State} {id : Nat} {data : Word} (h : s.Formed) : (dispatchFault s id data).Formed :=
  memOk_discardTask (memOk_inboxSend h)

theorem memOk_enterTask {s : State} {id : Nat} (h : s.Formed) : (enterTask s id).Formed :=
  memOk_ite (memOk_enterRun (memOk_modTask h)) (memOk_modTask h)

theorem memOk_taskReady {s : State} {id : Nat} (h : s.Formed) : (taskReady s id).Formed := by
  unfold taskReady
  split
  · exact memOk_discardTask h
  · exact memOk_dispatchFault h
  · dsimp only
    refine memOk_ite (memOk_dispatchFault h) ?_
    split
    · exact memOk_dispatchFault (memOk_modTask h)
    · exact memOk_ite (memOk_endTask (memOk_modTask (memOk_ticked (memOk_ite (memOk_acquire h) h))))
        (memOk_enterTask (memOk_writeStatus (memOk_modTask (memOk_modTask (memOk_ticked (memOk_ite (memOk_acquire h) h))))))

theorem memOk_acceptTask {s : State} {record : Word} {pa : Nat} {ctx : BitVec 16} {home : Nat} {parent : BitVec 32} {queue : Option Nat}
    {byHost : Bool} {tag : BitVec 32} {place : Nat} {preds : List Pred} (h : s.Formed) :
    (acceptTask s record pa ctx home parent queue byHost tag place preds).Formed :=
  memOk_ite (memOk_taskReady (memOk_writeStatus (memOk_physWrite (memOk_writeRecord (memOk_modCore (memOk_setTask h))))))
      (memOk_writeStatus (memOk_physWrite (memOk_writeRecord (memOk_modCore (memOk_setTask h)))))

theorem memOk_refuseRecord {s : State} {pa : Nat} {ctx : BitVec 16} (h : s.Formed) : (refuseRecord s pa ctx).Formed := memOk_writeRecord h

theorem memOk_decrementTask {s : State} {pa : Nat} {bereaved : Bool} (h : s.Formed) : (decrementTask s pa bereaved).Formed := by
  unfold decrementTask
  split
  · exact h
  next id _ =>
    extract_lets -underBinder t
    refine memOk_ite h ?_
    split
    · exact memOk_ite (memOk_writeStatus (memOk_modTask h)) h
    next place _ =>
      extract_lets -underBinder a c taken marked
      clear_value c
      have htaken : taken.Formed := memOk_physWrite h
      have hmarked : marked.Formed := memOk_ite (memOk_writeStatus (memOk_modTask htaken)) htaken
      clear_value marked
      exact memOk_ite (memOk_writeStatus (memOk_modTask h)) (memOk_ite (memOk_taskReady hmarked) hmarked)

theorem memOk_dropRows {s : State} {img : Nat} (h : s.Formed) : (dropRows s img).Formed := memOk_mapCores h

theorem memOk_threadLeft {s : State} {id : Nat} {killed : Bool} (h : s.Formed) : (threadLeft s id killed).Formed :=
  memOk_ite (memOk_ite (memOk_endTask (memOk_modTask h)) (memOk_endTask (memOk_modTask h))) (memOk_modTask h)

theorem memOk_threadGone {s : State} {img : Nat} (h : s.Formed) : (threadGone s img).Formed := by
  unfold threadGone
  dsimp only
  split
  · refine memOk_threadLeft ?_
    refine memOk_returnImage ?_
    refine memOk_dropRows ?_
    refine memOk_ite ?_ ?_
    · refine memOk_modSlot ?_
      refine memOk_ite ?_ ?_
      · refine memOk_imageWrite ?_
        refine memOk_setThreadState ?_
        split
        · exact memOk_trapRecord h
        · exact h
      · refine memOk_setThreadState ?_
        split
        · exact memOk_trapRecord h
        · exact h
    · refine memOk_ite ?_ ?_
      · refine memOk_imageWrite ?_
        refine memOk_setThreadState ?_
        split
        · exact memOk_trapRecord h
        · exact h
      · refine memOk_setThreadState ?_
        split
        · exact memOk_trapRecord h
        · exact h
  · refine memOk_returnImage ?_
    refine memOk_dropRows ?_
    refine memOk_ite ?_ ?_
    · refine memOk_modSlot ?_
      refine memOk_ite ?_ ?_
      · refine memOk_imageWrite ?_
        refine memOk_setThreadState ?_
        split
        · exact memOk_trapRecord h
        · exact h
      · refine memOk_setThreadState ?_
        split
        · exact memOk_trapRecord h
        · exact h
    · refine memOk_ite ?_ ?_
      · refine memOk_imageWrite ?_
        refine memOk_setThreadState ?_
        split
        · exact memOk_trapRecord h
        · exact h
      · refine memOk_setThreadState ?_
        split
        · exact memOk_trapRecord h
        · exact h

theorem memOk_estateSync {s : State} {img : Nat} (h : s.Formed) : (estateSync s img).Formed := memOk_ite (memOk_writeEstate h) h

theorem memOk_estateAdd {s : State} {img : Nat} {object : Word} {kind : Nat} {heirWord : Word} (h : s.Formed) :
    (estateAdd s img object kind heirWord).Formed :=
  memOk_ite h (memOk_estateSync (memOk_modThread h))

theorem memOk_estateAuto {s : State} {img : Nat} {object : Word} {kind : Nat} (h : s.Formed) : (estateAuto s img object kind).Formed :=
  memOk_estateAdd h

theorem memOk_estateDrop {s : State} {img : Nat} {f : EstEntry → Bool} (h : s.Formed) : (estateDrop s img f).Formed :=
  memOk_estateSync (memOk_modThread h)

theorem memOk_tryRestore {s : State} {n k : Nat} (h : s.Formed) : (tryRestore s n k).Formed := memOk_ite (memOk_modSlot (memOk_modCore h)) h

theorem memOk_tryRestores {s : State} {n : Nat} (h : s.Formed) : (tryRestores s n).Formed := formed_foldl (fun _ _ ht => memOk_tryRestore ht) h

theorem memOk_clearWaits {s : State} {img : Nat} (h : s.Formed) : (clearWaits s img).Formed := memOk_mapCores h

theorem memOk_modReq {s : State} {r : LicReq} {f : Slot → Slot} (h : s.Formed) : (modReq s r f).Formed := by
  unfold modReq
  split
  · exact memOk_modSlot h
  · exact h

theorem memOk_undue {s : State} {p : Nat} (h : s.Formed) : (undue s p).Formed := by
  unfold undue
  split
  · exact memOk_modReq h
  · exact h

theorem memOk_loseTiles {s : State} {n saved : Nat} (h : s.Formed) : (loseTiles s n saved).Formed := memOk_ticked (memOk_modCore h)

theorem memOk_licGrant {s : State} {p : Nat} {r : LicReq} (h : s.Formed) : (licGrant s p r).Formed := by
  refine memOk_ite ?_ ?_
  · split
    · refine memOk_tryRestore ?_
      refine memOk_estateAuto ?_
      refine memOk_ite ?_ ?_
      · refine memOk_modReq ?_
        refine memOk_modPair ?_
        split
        · exact memOk_ite (memOk_loseTiles (memOk_undue h)) (memOk_undue h)
        · exact memOk_undue h
      · refine memOk_modThread ?_
        refine memOk_modReq ?_
        refine memOk_modPair ?_
        split
        · exact memOk_ite (memOk_loseTiles (memOk_undue h)) (memOk_undue h)
        · exact memOk_undue h
    · refine memOk_estateAuto ?_
      refine memOk_ite ?_ ?_
      · refine memOk_modReq ?_
        refine memOk_modPair ?_
        split
        · exact memOk_ite (memOk_loseTiles (memOk_undue h)) (memOk_undue h)
        · exact memOk_undue h
      · refine memOk_modThread ?_
        refine memOk_modReq ?_
        refine memOk_modPair ?_
        split
        · exact memOk_ite (memOk_loseTiles (memOk_undue h)) (memOk_undue h)
        · exact memOk_undue h
  · refine memOk_clearWaits ?_
    refine memOk_estateAuto ?_
    refine memOk_ite ?_ ?_
    · refine memOk_modReq ?_
      refine memOk_modPair ?_
      split
      · exact memOk_ite (memOk_loseTiles (memOk_undue h)) (memOk_undue h)
      · exact memOk_undue h
    · refine memOk_modThread ?_
      refine memOk_modReq ?_
      refine memOk_modPair ?_
      split
      · exact memOk_ite (memOk_loseTiles (memOk_undue h)) (memOk_undue h)
      · exact memOk_undue h

theorem memOk_licRelease {s : State} {p : Nat} {grantee : Option LicReq} (h : s.Formed) : (licRelease s p grantee).Formed := by
  unfold licRelease
  split
  · exact h
  · exact memOk_modPair (memOk_undue h)

theorem memOk_licWithdrawReq {s : State} {p : Nat} {r : LicReq} (h : s.Formed) : (licWithdrawReq s p r).Formed :=
  memOk_ite (memOk_undue (memOk_modPair (memOk_modPair h))) (memOk_modPair h)

theorem memOk_licWithdraw {s : State} {p img : Nat} (h : s.Formed) : (licWithdraw s p img).Formed := memOk_licWithdrawReq h

theorem memOk_licEnter {s : State} {p : Nat} {r : LicReq} (h : s.Formed) : (licEnter s p r).Formed := memOk_modPair h

theorem memOk_licDrop {s : State} {img : Nat} (h : s.Formed) : (licDrop s img).Formed := memOk_ite h (memOk_estateDrop h)

theorem memOk_licOwe {s : State} {p : Nat} {r : LicReq} {grantee : Option LicReq} (h : s.Formed) : (licOwe s p r grantee).Formed :=
  memOk_modThread (memOk_modReq (memOk_licRelease (memOk_licDrop h)))

theorem memOk_conveyTarget {s : State} {n : Nat} {e : EstEntry} {size : Nat} (h : s.Formed) : OkOf FstFormed (conveyTarget s n e size) := by
  refine formed_ite trivial ?_
  split
  · exact trivial
  next heq =>
    have ht := Xlat.Formed.ok heq (memOk_translate h)
    split
    · exact formed_ite trivial (memOk_toHome ht)
    · exact formed_ite trivial (memOk_toHome ht)
    · exact formed_ite trivial (formed_ite trivial ht)
    · exact trivial
    · exact formed_ite trivial ht
    · exact trivial

theorem memOk_sendCall {s : State} {n : Nat} {key : Nat × Nat} {dev off op size shape a b guard : Nat} {heir : Heir} (h : s.Formed) :
    (sendCall s n key dev off op size shape a b guard heir).Formed :=
  memOk_sendAtom h

theorem memOk_tellFar {s : State} {n pa op size shape a b : Nat} (h : s.Formed) : (tellFar s n pa op size shape a b).Formed := by
  unfold tellFar
  split
  · exact memOk_sendAtom h
  · exact h

theorem memOk_barrierArrive {s : State} {pa : Nat} {bereaved : Bool} {ctx : Option (BitVec 16)} (h : s.Formed) :
    FstFormed (barrierArrive s pa bereaved ctx) := by
  unfold barrierArrive
  extract_lets -underBinder _ _ _ _ _ s1 s2 s3
  have hs1 : s1.Formed := memOk_physWrite h
  have hs2 : s2.Formed := memOk_ite (memOk_physWrite hs1) hs1
  have hs3 : s3.Formed := memOk_ite (memOk_physWrite hs2) hs2
  exact memOk_ite (memOk_wakeAll hs3) hs3

theorem memOk_barrierTorn {s : State} {pa : Nat} {ctx : Option (BitVec 16)} (h : s.Formed) : (barrierTorn s pa ctx).Formed := memOk_physWrite h

theorem memOk_tornAt {s : State} {n pa : Nat} {ctx : Option (BitVec 16)} (h : s.Formed) : (tornAt s n pa ctx).Formed :=
  memOk_ite (memOk_tellFar h) (memOk_barrierTorn h)

theorem memOk_arriveAt {s : State} {n pa : Nat} {torn : Bool} {ctx : Option (BitVec 16)} (h : s.Formed) : (arriveAt s n pa torn ctx).Formed :=
  memOk_ite (memOk_tellFar h) ((memOk_barrierArrive (memOk_ite (memOk_barrierTorn h) h)).fst)

theorem memOk_chunksAt {s : State} {n pa mask : Nat} {ctx : Option (BitVec 16)} (h : s.Formed) : (chunksAt s n pa mask ctx).Formed :=
  memOk_ite (memOk_tellFar h) (memOk_wakeAll (memOk_physWrite h))

theorem memOk_quitSenders {s : State} {gone : Nat × Nat × Nat → Bool} (h : s.Formed) : (quitSenders s gone).Formed :=
  formed_foldl (fun _ _ ht => memOk_wakeSender ht) (memOk_mapCores h)

theorem memOk_userMessage {s : State} {from_ : Nat × Nat} {heir : Nat} {e : EstEntry} {dead : BitVec 32} {fromCore fromSlot scope : Nat}
    (h : s.Formed) : (userMessage s from_ heir e dead fromCore fromSlot scope).Formed :=
  formed_ite (memOk_modThread (memOk_quitSenders h))
      (formed_ite (memOk_reserveMsg (memOk_quitSenders h)) (formed_ite h (memOk_noteSender (memOk_quitSenders h))))

theorem memOk_heirlessRecord {s : State} {n : Nat} {key : Nat × Nat} {t : Thread} {e : EstEntry} (h : s.Formed) :
    (heirlessRecord s n key t e).Formed :=
  memOk_inboxSendBy h

theorem memOk_conveyRecord {s : State} {n : Nat} {key : Nat × Nat} {t : Thread} {e : EstEntry} (h : s.Formed) :
    (conveyRecord s n key t e).Formed :=
  memOk_inboxSendBy h

theorem memOk_conveyTrace {s : State} {img : Nat} (h : s.Formed) : (conveyTrace s img).Formed := memOk_traceAuto h

theorem memOk_convFault {s : State} {n : Nat} {key : Nat × Nat} {t : Thread} {e : EstEntry} {cause : Nat} (h : s.Formed) :
    (convFault s n key t e cause).Formed :=
  memOk_inboxSendBy h

theorem memOk_Convey_andThen {f : State → State} {a : Convey} (hf : ∀ t, t.Formed → (f t).Formed) (h : a.Formed) :
    (Convey.andThen f a).Formed := by
  unfold Convey.andThen
  split
  · exact hf _ h
  · exact h
  · exact trivial
  · exact h

theorem memOk_conveyFar {s : State} {n : Nat} {key : Nat × Nat} {pa op size a b : Nat} {heir : Heir} {named : Nat → Bool}
    (h : s.Formed) : (conveyFar s n key pa op size a b heir named).Formed := by
  unfold conveyFar
  split
  · split
    · exact memOk_sendCall h
    · split
      · exact h
      · exact formed_ite trivial (formed_ite (memOk_dropCall h) (memOk_dropCall h))
  · exact h

theorem memOk_conveyLock {s : State} {key : Nat × Nat} {heir : Heir} {t : Thread} {pa owner flags : Nat} (h : s.Formed) :
    (conveyLock s key heir t pa owner flags).Formed :=
  formed_ite (memOk_conveyFar h) (formed_ite (memOk_physWrite h) h)

theorem memOk_conveyPromise {s : State} {key : Nat × Nat} {heir : Heir} {t : Thread} {pa holder st : Nat} (h : s.Formed) :
    (conveyPromise s key heir t pa holder st).Formed :=
  formed_ite (memOk_conveyFar h) (formed_ite (memOk_wakeAll (memOk_physWrite h)) h)

theorem memOk_conveyDecrement {s : State} {n pa : Nat} {far : Bool} {told : State → State} (h : s.Formed)
    (htold : ∀ t, t.Formed → (told t).Formed) : (conveyDecrement s n pa far told).Formed := by
  unfold conveyDecrement
  split
  · exact htold _ h
  · exact formed_ite h (htold _ (memOk_decrementTask (memOk_notePred h)))

theorem memOk_conveyEntry {s0 : State} {key : Nat × Nat} {img : Nat} {e : EstEntry} (h : s0.Formed) : (conveyEntry s0 key img e).Formed := by
  unfold conveyEntry
  split
  · dsimp only
    split
    · exact trivial
    next heq1 =>
      have ht := OkOf.ok heq1 (memOk_conveyTarget (memOk_release h))
      split
      · exact memOk_Convey_andThen (fun _ ht1 => memOk_estateAuto ht1) (memOk_conveyLock ht)
      · refine memOk_Convey_andThen ?_ (memOk_conveyLock ht)
        intro _ ht1
        split
        · exact memOk_conveyRecord ht1
        · exact memOk_heirlessRecord ht1
      · refine memOk_Convey_andThen ?_ (memOk_conveyLock ht)
        intro _ ht1
        split
        · exact memOk_conveyRecord ht1
        · exact memOk_heirlessRecord ht1
  · dsimp only
    split
    · exact trivial
    next heq1 =>
      have ht := OkOf.ok heq1 (memOk_conveyTarget (memOk_release h))
      split
      · exact memOk_Convey_andThen (fun _ ht1 => memOk_estateAuto ht1) (memOk_conveyPromise ht)
      · refine memOk_Convey_andThen ?_ (memOk_conveyPromise ht)
        intro _ ht1
        split
        · exact memOk_conveyRecord ht1
        · exact memOk_heirlessRecord ht1
      · refine memOk_Convey_andThen ?_ (memOk_conveyPromise ht)
        intro _ ht1
        split
        · exact memOk_conveyRecord ht1
        · exact memOk_heirlessRecord ht1
  · dsimp only
    split
    · exact formed_ite (memOk_release h) (formed_ite (memOk_licGrant (memOk_release h)) (memOk_licRelease (memOk_release h)))
    · split
      · exact memOk_conveyRecord (memOk_licRelease (memOk_release h))
      · exact memOk_heirlessRecord (memOk_licRelease (memOk_release h))
  · dsimp only
    split
    · exact memOk_estateAuto (memOk_release h)
    · split
      · exact trivial
      next heq2 =>
        have ht := OkOf.ok heq2 (memOk_conveyTarget (memOk_release h))
        refine memOk_conveyDecrement ht ?_
        intro _ ht1
        split
        · exact memOk_conveyRecord ht1
        · exact memOk_heirlessRecord ht1
  · dsimp only
    split
    · exact memOk_estateAuto (memOk_release h)
    · split
      · exact trivial
      next heq2 =>
        have ht := OkOf.ok heq2 (memOk_conveyTarget (memOk_release h))
        refine memOk_Convey_andThen ?_ (formed_ite (memOk_conveyFar ht) ((memOk_barrierArrive ht).fst))
        intro _ ht1
        split
        · exact memOk_conveyRecord ht1
        · exact memOk_heirlessRecord ht1
  · dsimp only
    split
    · exact memOk_estateAuto (memOk_release h)
    · split
      · exact memOk_conveyRecord (memOk_release h)
      · exact memOk_heirlessRecord (memOk_release h)
  · split
    · dsimp only
      split
      · exact memOk_userMessage (memOk_release h)
      · split
        · exact memOk_conveyRecord (memOk_quitSenders (memOk_release h))
        · exact memOk_heirlessRecord (memOk_quitSenders (memOk_release h))
    · dsimp only
      split
      · exact memOk_userMessage (memOk_release h)
      · split
        · exact memOk_conveyRecord (memOk_quitSenders (memOk_release h))
        · exact memOk_heirlessRecord (memOk_quitSenders (memOk_release h))

theorem memOk_conveyOne {s : State} {key : Nat × Nat} {img : Nat} {e : EstEntry} (h : s.Formed) : (conveyOne s key img e).Formed :=
  formed_ite h (memOk_Convey_andThen (fun _ ht => memOk_conveyTrace ht) (memOk_conveyEntry h))

theorem memOk_dropWrites {s : State} {n k : Nat} {x : BitVec 32} (h : s.Formed) : (dropWrites s n k x).Formed := memOk_modCore h

theorem memOk_dropCmd {s : State} {n : Nat} {c : Cmd} (h : s.Formed) : (dropCmd s n c).Formed := by
  unfold dropCmd
  extract_lets -underBinder _ s2
  have hs2 : s2.Formed := memOk_ite (memOk_tryRestores h) h
  split
  · exact memOk_estateDrop hs2
  · exact hs2

theorem memOk_killTorn {s : State} {n : Nat} {c : Cmd} (h : s.Formed) : (killTorn s n c).Formed := by
  unfold killTorn
  split
  · exact memOk_tornAt h
  · exact h

theorem memOk_collAbort {s : State} {n : Nat} {c : Cmd} (h : s.Formed) : (collAbort s n c).Formed := by
  unfold collAbort
  split
  · split
    · exact memOk_sendAborts (memOk_arriveAt (memOk_chunksAt (memOk_tornAt h)))
    · exact memOk_arriveAt (memOk_chunksAt (memOk_tornAt h))
  · split
    · exact memOk_sendAborts h
    · exact h

theorem memOk_killCmdsAt {img : Nat} {hard : Bool} {s : State} {n : Nat} (h : s.Formed) : (killCmdsAt img hard s n).Formed := by
  refine memOk_tryRestores ?_
  refine memOk_modCore ?_
  refine formed_foldl ?_ h
  intro _ _ ht
  split
  · exact memOk_collAbort ht
  · exact memOk_killTorn ht

theorem memOk_killCmds {s : State} {img : Nat} {hard : Bool} (h : s.Formed) : (killCmds s img hard).Formed :=
  formed_foldl (fun _ _ ht => memOk_killCmdsAt ht) h

theorem memOk_dropBorrow {s : State} {img : Nat} (h : s.Formed) : (dropBorrow s img).Formed := by
  unfold dropBorrow
  dsimp only
  split
  · exact h
  · exact memOk_modThread (memOk_ite (memOk_modSlot (memOk_modSlot h)) (memOk_modSlot h))

theorem memOk_dropWaits {s : State} {n k : Nat} (h : s.Formed) : (dropWaits s n k).Formed :=
  formed_foldl (fun _ _ ht => memOk_wakeCaller ht) (memOk_quitSenders (memOk_mapCores (memOk_dropCall h)))

theorem memOk_killStop {s : State} {img : Nat} {hard : Bool} (h : s.Formed) : (killStop s img hard).Formed := by
  refine memOk_traceAuto ?_
  refine memOk_licWithdraw ?_
  refine memOk_ite ?_ ?_
  · refine memOk_modThread ?_
    refine memOk_clearWaits ?_
    refine memOk_killCmds ?_
    refine memOk_dropBorrow ?_
    split
    · exact memOk_dropWaits (memOk_dropWrites (memOk_modCore (memOk_modSlot h)))
    · exact h
  · refine memOk_clearWaits ?_
    refine memOk_killCmds ?_
    refine memOk_dropBorrow ?_
    split
    · exact memOk_dropWaits (memOk_dropWrites (memOk_modCore (memOk_modSlot h)))
    · exact h

theorem memOk_killGo {s : State} {img : Nat} (h : s.Formed) : (killGo s img).Formed := by
  unfold killGo
  split
  · exact memOk_ite (memOk_killStop h) h
  · exact h

theorem memOk_killMark {s : State} {img : Nat} {hard : Bool} {val : Word} (h : s.Formed) : (killMark s img hard val).Formed :=
  memOk_ite h (memOk_modThread h)

theorem memOk_killThread {s : State} {img : Nat} {hard : Bool} {val : Word} (h : s.Formed) : (killThread s img hard val).Formed :=
  memOk_ite h (memOk_killGo (memOk_killMark h))

end Sys2Proof.Machine
end


section
/-! SUPPORT. The control space, the windows, the loads and stores and the estates keep the form of memory (R7). -/

namespace Sys2Proof.Machine

/-! ## The control space -/

theorem memOk_rampBegin {s : State} {c target : Nat} (h : s.Formed) : (rampBegin s c target).Formed := memOk_setCluster h

theorem memOk_goActs {s : State} {c grant : Nat} (h : s.Formed) : (goActs s c grant).Formed :=
  memOk_ite (memOk_modCluster h) (memOk_rampBegin (memOk_modCluster h))

theorem memOk_stepWrite {s : State} {c : Nat} {v : Word} (h : s.Formed) : (stepWrite s c v).Formed :=
  memOk_ite h (memOk_modCluster (memOk_setCtrl h))

theorem memOk_grantWrite {s : State} {c : Nat} {v : Word} (h : s.Formed) : (grantWrite s c v).Formed :=
  memOk_ite (memOk_ite (memOk_modCluster (memOk_setCtrl h)) (memOk_goActs (memOk_setCtrl h))) (memOk_setCtrl h)

theorem memOk_openQueue {s : State} {q : Nat} (h : s.Formed) : (openQueue s q).Formed := memOk_modQueue h

theorem memOk_teardown {s : State} {q : Nat} {hard reopen byCommand : Bool} {tag : BitVec 32} (h : s.Formed) :
    (teardown s q hard reopen byCommand tag).Formed :=
  formed_foldl (fun _ _ ht => memOk_ite (memOk_ite (memOk_endTask (memOk_mapTowers ht))
      (formed_foldl (fun _ _ ht1 => memOk_killThread ht1) (memOk_mapTowers ht))) ht)
      (formed_foldl (fun _ _ ht => memOk_ite (memOk_discardTask ht) ht) (memOk_modQueue h))

theorem memOk_hqctlWrite {s : State} {q : Nat} {v : Word} (h : s.Formed) : (hqctlWrite s q v).Formed := by
  unfold hqctlWrite
  extract_lets -underBinder _ _ _ _ _ _
  split
  · exact memOk_ite (memOk_openQueue h) h
  · exact memOk_teardown h
  · exact memOk_teardown h
  · exact h

theorem memOk_teardownAll {s : State} {f : Nat → Bool} (h : s.Formed) : (teardownAll s f).Formed :=
  formed_foldl (fun _ _ ht => memOk_teardown ht) h

theorem memOk_dropTlbAll {s : State} {f : TlbEntry → Bool} (h : s.Formed) : (dropTlbAll s f).Formed := h

theorem memOk_tlbshootWrite {s : State} {v : Word} (h : s.Formed) : (tlbshootWrite s v).Formed :=
  memOk_ite h (memOk_ite (memOk_ticked h) (memOk_dropTlbAll (memOk_ticked h)))

theorem memOk_tlbshootDone {s : State} (h : s.Formed) : (tlbshootDone s).Formed := h

theorem memOk_rollbackWrite {s : State} {v : Word} (h : s.Formed) : (rollbackWrite s v).Formed := memOk_ite (memOk_setCtrl h) (memOk_ite h h)

theorem memOk_cklogWrite {s : State} {n : Nat} {v : Word} (h : s.Formed) : (cklogWrite s n v).Formed := h

theorem memOk_dropPoolLine {s : State} {a : Nat} (h : s.Formed) : (dropPoolLine s a).Formed := by
  unfold dropPoolLine
  extract_lets cs pushed zeroed
  have hpushed : pushed.Formed := formed_foldl (fun _ _ ht => memOk_pushChunk ht _ _) h
  have hzeroed : zeroed.Formed := memOk_chanWrite hpushed _ _ _
  clear_value zeroed
  exact hzeroed

theorem memOk_poolDropPage {s : State} {a : Nat} (h : s.Formed) : (poolDropPage s a).Formed :=
  memOk_ite (formed_foldl (fun _ _ ht => memOk_dropPoolLine ht) h) h

theorem memOk_freeCopies {s : State} {a : Nat} (h : s.Formed) : (freeCopies s a).Formed := h

theorem memOk_poolWrite {s : State} {t i : Nat} {v : Word} (h : s.Formed) : (poolWrite s t i v).Formed := by
  unfold poolWrite
  extract_lets -underBinder _ _ _ s2 _
  have hs2 : s2.Formed := memOk_ite (memOk_ticked h) h
  split
  · exact memOk_setCtrl hs2
  · exact memOk_setCtrl hs2
  · exact memOk_setCtrl hs2
  · exact memOk_setCtrl hs2
  · exact memOk_pushChunk h _ _
  · exact memOk_poolDropPage (memOk_ite (memOk_freeCopies hs2) hs2)

theorem memOk_killCmd {s : State} {n : Nat} {c : Cmd} (h : s.Formed) : (killCmd s n c).Formed := memOk_dropCmd (memOk_killTorn h)

theorem memOk_resumeParked {s : State} {n p : Nat} (h : s.Formed) : (resumeParked s n p).Formed := memOk_modCore h

theorem memOk_engparkWrite {s : State} {n : Nat} {v : Word} (h : s.Formed) : (engparkWrite s n v).Formed := by
  unfold engparkWrite
  split
  · exact memOk_resumeParked h
  · exact memOk_killCmd h
  · exact h

theorem memOk_partOne {s : State} {v : Word} {p : Nat} (h : s.Formed) : (partOne s v p).Formed := memOk_ite (memOk_ite h h) (memOk_ite h h)

theorem memOk_partctlWrite {s : State} {v : Word} (h : s.Formed) : (partctlWrite s v).Formed := formed_foldl (fun _ _ ht => memOk_partOne ht) h

theorem memOk_placeWrite {s : State} {n : Nat} {v : Word} (h : s.Formed) : (placeWrite s n v).Formed := memOk_ite h (memOk_setCtrl h)

theorem memOk_ctrareaWrite {s : State} {n : Nat} {v : Word} (h : s.Formed) : (ctrareaWrite s n v).Formed :=
  memOk_ite (memOk_ite (memOk_ticked h) h) (memOk_setCtrl (memOk_ite (memOk_ticked h) h))

theorem memOk_wrstWrite {s : State} {d : Nat} {v : Word} (h : s.Formed) : (wrstWrite s d v).Formed :=
  memOk_ite h (memOk_ite (memOk_setDie h) (memOk_setDie h))

theorem memOk_losePairs {s : State} {d : Nat} (h : s.Formed) : (losePairs s d).Formed :=
  formed_foldl (fun _ _ ht => memOk_ite (memOk_modPair (memOk_ticked ht)) (memOk_modPair ht)) h

theorem memOk_zeroPairs {s : State} {d : Nat} (h : s.Formed) : (zeroPairs s d).Formed := formed_foldl (fun _ _ ht => memOk_modPair ht) h

theorem memOk_bringUpDie {s : State} {d : Nat} (h : s.Formed) : (bringUpDie s d).Formed :=
  memOk_zeroPairs (formed_foldl (fun _ _ ht => memOk_bringUp ht _) h)

theorem memOk_readmit {s : State} {d : Nat} (h : s.Formed) : (readmit s d).Formed := memOk_ite (memOk_modDie (memOk_bringUpDie h)) h

theorem memOk_thermstReadmit {s : State} {d : Nat} {v : Word} (h : s.Formed) : (thermstReadmit s d v).Formed := memOk_ite (memOk_readmit h) h

theorem memOk_ctrlWrite {s : State} {off : Nat} {v : Word} {by_ : Nat} (h : s.Formed) : (ctrlWrite s off v by_).Formed := by
  unfold ctrlWrite
  split
  · exact memOk_setCtrl h
  · exact memOk_setCtrl h
  · exact memOk_setCtrl h
  · exact memOk_engparkWrite h
  · exact memOk_cklogWrite h
  · exact memOk_setCtrl h
  · exact memOk_placeWrite h
  · exact memOk_setCtrl h
  · exact memOk_ctrareaWrite h
  · exact memOk_hqctlWrite h
  · exact memOk_tlbshootWrite h
  · exact memOk_rollbackWrite h
  · exact memOk_poolWrite h
  · exact memOk_ite (memOk_thermstReadmit h) h
  · exact memOk_ite (memOk_ite h (memOk_setCtrl h)) h
  · exact memOk_ite (memOk_grantWrite h) (memOk_stepWrite h)
  · exact h
  · exact memOk_partctlWrite h
  · exact memOk_setCtrl h
  · exact memOk_flushHeld (memOk_setCtrl h)
  · exact memOk_setCtrl h
  · exact memOk_wrstWrite h
  · exact memOk_ite (memOk_setCtrl h) h
  · exact h
  · exact h

/-! ## The windows of a core -/

theorem memOk_evictFormer {s : State} {n : Nat} {f : FormerRows} {m : BitVec 32} (h : s.Formed) : (evictFormer s n f m).Formed :=
  memOk_modCore (memOk_writeRows h)

theorem memOk_roomForRow {s : State} {n k : Nat} (h : s.Formed) : (roomForRow s n k).Formed := by
  refine memOk_ite h ?_
  split
  · exact h
  · dsimp only
    split
    · exact memOk_evictFormer (memOk_ticked h)
    · exact h

theorem memOk_clearFormer {s : State} {n k img : Nat} (h : s.Formed) : (clearFormer s n k img).Formed :=
  formed_foldl (fun _ _ ht => memOk_evictFormer ht) h

theorem memOk_fillRow {s : State} {n k row : Nat} {bad : Bool} (h : s.Formed) : (fillRow s n k row bad).Formed := by
  unfold fillRow
  dsimp only
  exact memOk_modSlot ((memOk_lineLoad (memOk_roomForRow h)).fst)

theorem memOk_fillBorrow {s : State} {n k r : Nat} {bad : Bool} (h : s.Formed) : (fillBorrow s n k r bad).Formed := by
  unfold fillBorrow
  split
  · exact memOk_modSlot h
  · dsimp only
    exact memOk_modSlot ((memOk_lineLoad (memOk_roomForRow h)).fst)

theorem memOk_needRow {s : State} {n k : Nat} {g : Region} {row : Nat} (h : s.Formed) : (needRow s n k g row).Formed := by
  refine memOk_ite ?_ h
  split
  · exact memOk_ite h (memOk_fillBorrow h)
  · exact memOk_ite h (memOk_fillRow h)

theorem memOk_busErr {pa : Nat} : (busErr pa).Formed := trivial

theorem memOk_widthEntry {s : State} {n slot name handle : Nat} {v : Word} {q : Req} {region : Nat} (h : s.Formed) :
    (widthEntry s n slot name handle v q region).Formed :=
  memOk_inboxSendBy h

theorem memOk_slotNameWrite {s : State} {n k i : Nat} {v : Word} {q : Req} (h : s.Formed) : (slotNameWrite s n k i v q).Formed := by
  unfold slotNameWrite
  split
  · exact h
  · split
    · exact memOk_writeBits (memOk_needRow h)
    · exact memOk_widthEntry (memOk_needRow h)

theorem memOk_nameWrite {s : State} {n off : Nat} {v : Word} {q : Req} (h : s.Formed) : SomeOf State.Formed (nameWrite s n off v q) := by
  refine formed_ite (formed_ite h (formed_ite (memOk_inboxSendBy h) (formed_ite trivial (memOk_slotNameWrite h)))) ?_
  split
  · exact h
  · refine formed_ite trivial ?_
    split
    · exact h
    · split
      · exact memOk_widthEntry h
      · split
        · exact memOk_modCore h
        · exact memOk_modPair h

theorem memOk_nameRead {s : State} {n off : Nat} (h : s.Formed) : SomeOf FstFormed (nameRead s n off) := by
  refine formed_ite ?_ ?_
  · refine formed_ite h ?_
    split
    · exact h
    · exact formed_ite trivial (memOk_needRow h)
  · split
    · exact h
    · refine formed_ite trivial ?_
      split <;> exact h

theorem memOk_rawWrite {s : State} {n k : Nat} {g : Region} {row v : Nat} (h : s.Formed) : (rawWrite s n k g row v).Formed := by
  refine memOk_ite h ?_
  split
  · split <;> exact memOk_modSlot h
  · exact memOk_modCore h
  · exact memOk_modPair h

theorem memOk_tileAccess {s : State} {q : Req} {n t : Nat} {perform : State → Access} (h : s.Formed)
    (hperform : ∀ t, t.Formed → (perform t).Formed) : (tileAccess s q n t perform).Formed :=
  formed_ite (memOk_ite h (memOk_modCore h)) (hperform _ (memOk_ite h (memOk_modCore h)))

theorem memOk_windowRead {s : State} {q : Req} {n off size pa : Nat} {va : Word} (h : s.Formed) : (windowRead s q n off size pa va).Formed := by
  refine formed_ite memOk_busErr ?_
  refine formed_ite (formed_ite h (formed_ite (memOk_ticked h) h)) ?_
  refine formed_ite (formed_ite memOk_busErr (memOk_tileAccess h (fun _ ht => ht))) ?_
  refine formed_ite ?_ ?_
  · refine formed_ite memOk_busErr ?_
    split
    · exact h
    next heq =>
      have ht := SomeOf.some heq (memOk_nameRead h)
      exact ht
    next heq =>
      have ht := SomeOf.some heq (memOk_nameRead h)
      exact ht
  · refine formed_ite ?_ memOk_busErr
    refine formed_ite ?_ (formed_ite trivial memOk_busErr)
    split
    · exact memOk_busErr
    · exact formed_ite h (memOk_needRow h)

theorem memOk_windowWrite {s : State} {q : Req} {n off size v poison pa : Nat} {va : Word} (h : s.Formed) :
    (windowWrite s q n off size v poison pa va).Formed := by
  refine formed_ite memOk_busErr ?_
  refine formed_ite (formed_ite h (memWf_writeLE _ _ _ (memOk_ite (memOk_ticked h) h))) ?_
  refine formed_ite (formed_ite memOk_busErr (memOk_tileAccess h (fun _ ht => memOk_modCore ht))) ?_
  refine formed_ite ?_ ?_
  · refine formed_ite memOk_busErr ?_
    refine formed_ite h ?_
    split
    · exact h
    next heq =>
      have ht := SomeOf.some heq (memOk_nameWrite h)
      exact ht
  · refine formed_ite ?_ memOk_busErr
    refine formed_ite ?_ (formed_ite trivial memOk_busErr)
    split
    · exact memOk_busErr
    · exact formed_ite h (memOk_rawWrite (memOk_needRow h))

theorem memOk_threadLoad {s : State} {n k va size pol : Nat} (h : s.Formed) : (threadLoad s n k va size pol).Formed := by
  refine formed_ite h ?_
  split
  · exact trivial
  next heq =>
    have ht := Xlat.Formed.ok heq (memOk_translate h)
    refine formed_ite ht ?_
    split
    · refine formed_ite ht ?_
      dsimp only
      exact (memOk_lineLoad ht).fst
    · refine formed_ite ht ?_
      dsimp only
      exact (memOk_lineLoad ht).fst
    · exact memOk_windowRead ht
    · exact formed_ite trivial (formed_ite memOk_busErr ht)
    · exact ht
    · exact memOk_busErr

theorem memOk_threadStore {s : State} {n k va size v pol poison : Nat} (h : s.Formed) : (threadStore s n k va size v pol poison).Formed := by
  refine formed_ite h ?_
  split
  · exact trivial
  next heq =>
    have ht := Xlat.Formed.ok heq (memOk_translate h)
    refine formed_ite ht ?_
    split
    · exact formed_ite trivial (formed_ite ht (memOk_lineStore ht))
    · exact formed_ite trivial (formed_ite ht (memOk_lineStore ht))
    · exact memOk_windowWrite ht
    · exact formed_ite trivial (formed_ite memOk_busErr (memOk_ctrlWrite ht))
    · exact formed_ite ht (memOk_sendPut ht)
    · exact memOk_busErr

theorem memOk_threadAtomic {s : State} {n k va size sc : Nat} {f : Nat → Nat} (h : s.Formed) : (threadAtomic s n k va size sc f).Formed := by
  refine formed_ite h ?_
  split
  · exact trivial
  next heq =>
    have ht := Xlat.Formed.ok heq (memOk_translate h)
    refine formed_ite ht ?_
    split
    · refine formed_ite memOk_busErr ?_
      refine formed_ite ht ?_
      dsimp only
      exact formed_ite trivial ((memOk_lineAtomic ht).fst)
    · refine formed_ite memOk_busErr ?_
      refine formed_ite ht ?_
      dsimp only
      exact formed_ite trivial ((memOk_lineAtomic ht).fst)
    · exact formed_ite memOk_busErr (formed_ite ht (formed_ite ht (formed_ite (memWf_writeLE _ _ _ ht) (memWf_writeLE _ _ _ ht))))
    · exact formed_ite trivial memOk_busErr
    · exact formed_ite memOk_busErr ht
    · exact memOk_busErr

theorem memOk_objectAt {s : State} {n k : Nat} {need : Need} {va size : Nat} (h : s.Formed) : (objectAt s n k need va size).Formed := by
  refine formed_ite h ?_
  split
  · exact trivial
  next heq =>
    have ht := Xlat.Formed.ok heq (memOk_translate h)
    refine formed_ite ht ?_
    split
    · refine formed_ite ht ?_
      dsimp only
      exact formed_ite trivial (memOk_metaCheck (memOk_toHome ht))
    · refine formed_ite ht ?_
      dsimp only
      exact formed_ite trivial (memOk_metaCheck (memOk_toHome ht))
    · refine formed_ite memOk_busErr ?_
      dsimp only
      exact ht
    · exact formed_ite trivial memOk_busErr
    · exact ht
    · exact memOk_busErr

/-! ## Effects that leave the core -/

theorem memOk_makeObject {s : State} {pa size x : Nat} {ctx : Option (BitVec 16)} (h : s.Formed) : (makeObject s pa size x ctx).Formed :=
  memOk_ite (memOk_physWrite (memOk_ticked h)) (memOk_physWrite h)

theorem memOk_homeOp {s : State} {pa op size a b shape : Nat} {ctx : Option (BitVec 16)} (h : s.Formed) :
    FstFormed (homeOp s pa op size a b shape ctx) := by
  refine formed_ite (memOk_wakeAll (memOk_markHot (memOk_physWrite h))) ?_
  refine formed_ite ?_ ?_
  · dsimp only
    exact memOk_physWrite h
  · refine formed_ite ?_ ?_
    · dsimp only
      exact memOk_physWrite h
    · refine formed_ite (memOk_makeObject h) ?_
      refine formed_ite ?_ (formed_ite (memOk_makeObject h)
          (formed_ite (memOk_barrierArrive (memOk_ite (memOk_barrierTorn h) h))
          (formed_ite (memOk_ite (memOk_physWrite h) h)
          (formed_ite (memOk_ite (memOk_wakeAll (memOk_physWrite h)) h) (formed_ite (memOk_barrierTorn h) (formed_ite h h))))))
      dsimp only
      exact memOk_wakeAll (memOk_physWrite h)

theorem memOk_latchReads {s : State} {n k : Nat} {reads : List Nat} (h : s.Formed) : (latchReads s n k reads).Formed := memOk_modSlot h

theorem memOk_remoteCall {s : State} {n k dev off op size a b shape guard : Nat} {reads : List Nat} (h : s.Formed) :
    (remoteCall s n k dev off op size a b shape guard reads).Formed := by
  unfold remoteCall
  split
  · split
    · exact memOk_dropCall h
    · exact h
  · exact formed_ite (memOk_latchReads h) (memOk_sendCall (memOk_latchReads h))

theorem memOk_remoteSend {s : State} {n k dev off op size a b shape : Nat} {reads : List Nat} (h : s.Formed) :
    (remoteSend s n k dev off op size a b shape reads).Formed :=
  formed_ite (memOk_latchReads h) (memOk_sendAtom (memOk_farWrite h))

theorem memOk_remoteTo {s : State} {d n k dev off op size a b shape : Nat} {reads : List Nat} (h : s.Formed) :
    (remoteTo s d n k dev off op size a b shape reads).Formed :=
  formed_ite (memOk_remoteSend h) (memOk_remoteCall h)

theorem memOk_viaRemote {a : Access} {call : State → Nat → Nat → Access} (h : a.Formed)
    (hcall : ∀ t x x1, t.Formed → (call t x x1).Formed) : (viaRemote a call).Formed := by
  unfold viaRemote
  split
  · exact hcall _ _ _ h
  · exact h

theorem memOk_dualDone {s : State} {img c v : Nat} (h : s.Formed) : (dualDone s img c v).Formed := memOk_modThread h

theorem memOk_plainEffect {waits : State → Eff} {s : State} {perform : State → Access} {deliver : State → Nat → Eff}
    (hwaits : ∀ t, t.Formed → (waits t).Formed) (h : s.Formed) (hperform : ∀ t, t.Formed → (perform t).Formed)
    (hdeliver : ∀ t x, t.Formed → (deliver t x).Formed) : (plainEffect waits s perform deliver).Formed := by
  unfold plainEffect
  split
  next heq =>
    have ht := Access.Formed.ok heq (hperform _ h)
    exact formed_ite ht (hdeliver _ _ ht)
  next heq =>
    have ht := Access.Formed.wait heq (hperform _ h)
    exact hwaits _ ht
  · exact trivial
  next heq =>
    have ht := Access.Formed.remote heq (hperform _ h)
    exact ht

theorem memOk_externalOr {waits : State → Eff} {s : State} {hash : List Nat} {perform : State → Access} {deliver : State → Nat → Eff}
    (hwaits : ∀ t, t.Formed → (waits t).Formed) (h : s.Formed) (hperform : ∀ t, t.Formed → (perform t).Formed)
    (hdeliver : ∀ t x, t.Formed → (deliver t x).Formed) : (externalOr waits s hash perform deliver).Formed := by
  unfold externalOr
  dsimp only
  split
  · exact memOk_plainEffect (fun _ ht => hwaits _ ht) h (fun _ ht => hperform _ ht) (fun _ _ ht => hdeliver _ _ ht)
  · split
    · exact h
    · refine formed_ite h ?_
      refine formed_ite (memOk_plainEffect (fun _ ht => hwaits _ ht) h (fun _ ht => hperform _ ht)
          (fun _ _ ht => hdeliver _ _ (memOk_dualDone ht))) ?_
      split
      · exact hdeliver _ _ (memOk_dualDone h)
      · exact h

theorem memOk_external {s : State} {hash : List Nat} {perform : State → Access} {deliver : State → Nat → Eff} (h : s.Formed)
    (hperform : ∀ t, t.Formed → (perform t).Formed) (hdeliver : ∀ t x, t.Formed → (deliver t x).Formed) :
    (external s hash perform deliver).Formed :=
  memOk_externalOr (fun _ ht => ht) h (fun _ ht => hperform _ ht) (fun _ _ ht => hdeliver _ _ ht)

theorem memOk_externalUnit {s : State} {hash : List Nat} {perform : State → Access} {deliver : State → Eff} (h : s.Formed)
    (hperform : ∀ t, t.Formed → (perform t).Formed) (hdeliver : ∀ t, t.Formed → (deliver t).Formed) :
    (externalUnit s hash perform deliver).Formed :=
  memOk_external h (fun _ ht => hperform _ ht) (fun _ _ ht => hdeliver _ ht)

theorem memOk_effectAt {s : State} {va : Nat} {hash : List Nat} {perform : State → Access} {deliver : State → Nat → Eff} (h : s.Formed)
    (hperform : ∀ t, t.Formed → (perform t).Formed) (hdeliver : ∀ t x, t.Formed → (deliver t x).Formed) :
    (effectAt s va hash perform deliver).Formed :=
  formed_ite (memOk_plainEffect (fun _ ht => ht) h (fun _ ht => hperform _ ht) (fun _ _ ht => hdeliver _ _ ht))
      (memOk_external h (fun _ ht => hperform _ ht) (fun _ _ ht => hdeliver _ _ ht))

theorem memOk_effectUnit {s : State} {va : Nat} {hash : List Nat} {perform : State → Access} {deliver : State → Eff} (h : s.Formed)
    (hperform : ∀ t, t.Formed → (perform t).Formed) (hdeliver : ∀ t, t.Formed → (deliver t).Formed) :
    (effectUnit s va hash perform deliver).Formed :=
  memOk_effectAt h (fun _ ht => hperform _ ht) (fun _ _ ht => hdeliver _ ht)

theorem memOk_always {f : State → State} {s : State} (hf : ∀ t, t.Formed → (f t).Formed) (h : s.Formed) : (always f s).Formed := hf _ h

/-! ## Loads, stores and atomics -/

theorem memOk_putLoaded {s : State} {d c v : Nat} (h : s.Formed) : (putLoaded s d c v).Formed := formed_ite (memOk_putLate h) (memOk_putILate h)

theorem memOk_loadAt {s : State} {n k ea c pol : Nat} {reads : List Nat} (h : s.Formed) : (loadAt s n k ea c pol reads).Formed :=
  memOk_viaRemote (memOk_threadLoad h) (fun _ _ _ ht => memOk_remoteCall ht)

theorem memOk_loadOp {d : Nat} {reads : List Nat} {kinds : List KindReq} {addr pol : State → Nat} {sc : Nat} {s : State} (h : s.Formed) :
    (loadOp d reads kinds addr pol sc s).Formed := by
  refine memOk_pre h ?_
  refine memOk_settle h ?_
  dsimp only
  refine formed_ite trivial ?_
  split
  next heq =>
    have ht := Access.Formed.ok heq (memOk_loadAt h)
    exact formed_ite ht (memOk_putLoaded (memOk_acquire ht))
  next heq =>
    have ht := Access.Formed.wait heq (memOk_loadAt h)
    exact ht
  · exact trivial
  next heq =>
    have ht := Access.Formed.remote heq (memOk_loadAt h)
    exact ht

theorem memOk_storeAt {s : State} {n k ea c v pol sc : Nat} (h : s.Formed) : (storeAt s n k ea c v pol sc).Formed := by
  unfold storeAt
  split
  next heq =>
    have ht := Access.Formed.ok heq (memOk_threadStore h)
    split
    · exact memOk_storeThrough ht
    · exact memOk_storeThrough ht
    · exact ht
  · exact memOk_threadStore h

theorem memOk_storeOp {d : Nat} {reads : List Nat} {kinds : List KindReq} {addr pol : State → Nat} {rel : Option Nat} {s : State}
    (h : s.Formed) : (storeOp d reads kinds addr pol rel s).Formed := by
  refine memOk_pre h ?_
  refine memOk_settle h ?_
  dsimp only
  exact formed_ite trivial (formed_ite h (memOk_effectUnit h (fun _ ht => memOk_storeAt (memOk_release ht)) (fun _ ht => ht)))

theorem memOk_ldOp {d a : Nat} {i : BitVec 11} {a1' : State} (h : a1'.Formed) : (ldOp d a i a1').Formed := memOk_loadOp h

theorem memOk_ldaOp {d a : Nat} {i : BitVec 11} {a1' : State} (h : a1'.Formed) : (ldaOp d a i a1').Formed := memOk_loadOp h

theorem memOk_ldxOp {d a b : Nat} {a1' : State} (h : a1'.Formed) : (ldxOp d a b a1').Formed := memOk_loadOp h

theorem memOk_stOp {d a : Nat} {i : BitVec 11} {a1' : State} (h : a1'.Formed) : (stOp d a i a1').Formed := memOk_storeOp h

theorem memOk_stlOp {d a : Nat} {i : BitVec 11} {a1' : State} (h : a1'.Formed) : (stlOp d a i a1').Formed := memOk_storeOp h

theorem memOk_stxOp {d a b : Nat} {a1' : State} (h : a1'.Formed) : (stxOp d a b a1').Formed := memOk_storeOp h

theorem memOk_ldCompactOp {d a : Nat} {a1' : State} (h : a1'.Formed) : (ldCompactOp d a a1').Formed := memOk_loadOp h

theorem memOk_stCompactOp {d a : Nat} {a1' : State} (h : a1'.Formed) : (stCompactOp d a a1').Formed := memOk_storeOp h

theorem memOk_setOx7 {s : State} {n k v : Nat} (h : s.Formed) : (setOx7 s n k v).Formed := memOk_modSlot h

theorem memOk_spillRow {s : State} {n k va row : Nat} (h : s.Formed) : (spillRow s n k va row).Formed := memOk_threadStore h

theorem memOk_fillRowOp {s : State} {n k va row : Nat} {reads : List Nat} (h : s.Formed) : (fillRowOp s n k va row reads).Formed := by
  unfold fillRowOp
  split
  next heq =>
    have ht := Access.Formed.ok heq (memOk_viaRemote (memOk_threadLoad h) (fun _ _ _ ht => memOk_remoteCall ht))
    exact memOk_modSlot (memOk_rowWrite ht)
  · exact memOk_viaRemote (memOk_threadLoad h) (fun _ _ _ ht => memOk_remoteCall ht)

theorem memOk_moveRows {one : State → Nat → Nat → Access} {s : State} {n k va row i left : Nat}
    (hone : ∀ t x x1, t.Formed → (one t x x1).Formed) (h : s.Formed) : (moveRows one s n k va row i left).Formed := by
  induction left generalizing s i with
  | zero =>
    rw [moveRows]
    exact memOk_setOx7 h
  | succ k1 ih =>
    rw [moveRows]
    split
    next heq =>
      have ht := Access.Formed.ok heq (hone _ _ _ h)
      exact ih ht
    next heq =>
      have ht := Access.Formed.wait heq (hone _ _ _ h)
      exact memOk_setOx7 ht
    · exact memOk_setOx7 h
    next heq =>
      have ht := Access.Formed.remote heq (hone _ _ _ h)
      exact memOk_setOx7 ht

theorem memOk_spillCopy {n k va row left : Nat} {a : State} {i : Nat} (h : a.Formed) : (spillCopy n k va row left a i).Formed := by
  induction left generalizing a i with
  | zero =>
    rw [spillCopy]
    exact memOk_setOx7 h
  | succ k1 ih =>
    rw [spillCopy]
    refine formed_ite ?_ ?_
    · split
      next heq =>
        have ht := Access.Formed.ok heq (by
            dsimp only
            split
            next heq1 =>
              have ht1 := Access.Formed.ok heq1 (memOk_spillRow (memOk_setOx7 h))
              exact ht1
            · exact memOk_setOx7 h
            · exact memOk_spillRow (memOk_setOx7 h))
        exact formed_ite (memOk_setOx7 ht) (ih ht)
      next heq =>
        have ht := Access.Formed.wait heq (by
            dsimp only
            split
            next heq1 =>
              have ht1 := Access.Formed.ok heq1 (memOk_spillRow (memOk_setOx7 h))
              exact ht1
            · exact memOk_setOx7 h
            · exact memOk_spillRow (memOk_setOx7 h))
        exact ht
      next heq =>
        have ht := Access.Formed.remote heq (by
            dsimp only
            split
            next heq1 =>
              have ht1 := Access.Formed.ok heq1 (memOk_spillRow (memOk_setOx7 h))
              exact ht1
            · exact memOk_setOx7 h
            · exact memOk_spillRow (memOk_setOx7 h))
        exact ht
      · exact trivial
    · refine memOk_external (memOk_setOx7 h) ?_ (fun _ _ ht => formed_ite (memOk_setOx7 ht) (ih ht))
      intro _ ht
      split
      next heq =>
        have ht1 := Access.Formed.ok heq (memOk_spillRow ht)
        exact ht1
      · exact ht
      · exact memOk_spillRow ht

theorem memOk_rowTransfer {fillForm : Bool} {d a count : Nat} {s : State} (h : s.Formed) : (rowTransfer fillForm d a count s).Formed := by
  refine memOk_pre h ?_
  refine formed_ite trivial ?_
  refine memOk_settle h ?_
  split
  · split
    · dsimp only
      split
      · exact memOk_modMe h
      · exact memOk_moveRows (fun _ _ _ ht => memOk_fillRowOp ht) h
    · split
      · dsimp only
        split
        · exact memOk_modMe h
        · exact memOk_spillCopy h
      · dsimp only
        split
        · exact memOk_modMe h
        · exact memOk_moveRows (fun _ _ _ ht => memOk_spillRow ht) h

theorem memOk_spillOp {d a count : Nat} {s : State} (h : s.Formed) : (spillOp d a count s).Formed := memOk_rowTransfer h

theorem memOk_fillOp {d a count : Nat} {s : State} (h : s.Formed) : (fillOp d a count s).Formed := memOk_rowTransfer h

theorem memOk_prefetch {s : State} {n k va level : Nat} (h : s.Formed) : (prefetch s n k va level).Formed := by
  refine memOk_ite h ?_
  split
  · exact h
  next heq =>
    have ht := Xlat.Formed.ok heq (memOk_translate h)
    split
    · refine memOk_ite ht ?_
      split
      · exact (memOk_lineLoad ht).fst
      · exact memOk_l2Fetch ht
      · exact memOk_ite (memOk_llcRoom (memOk_metaCheck ht) _) (memOk_llcRoom (memOk_metaCheck ht) _)
    · refine memOk_ite ht ?_
      split
      · exact (memOk_lineLoad ht).fst
      · exact memOk_l2Fetch ht
      · exact memOk_ite (memOk_llcRoom (memOk_metaCheck ht) _) (memOk_llcRoom (memOk_metaCheck ht) _)
    · exact ht

theorem memOk_pfOp {a level : Nat} {s : State} (h : s.Formed) : (pfOp a level s).Formed := memOk_pre h (memOk_prefetch h)

theorem memOk_foldLines {f : State → Nat → State} {s : State} {ls : List Line} {rs : List (Nat × Nat)}
    (hf : ∀ t x, t.Formed → (f t x).Formed) (h : s.Formed) : (foldLines f s ls rs).Formed :=
  formed_foldl (fun _ _ ht => hf _ _ ht) h

theorem memOk_flushRange {s : State} {n sc : Nat} {rs : List (Nat × Nat)} (h : s.Formed) : (flushRange s n sc rs).Formed := by
  unfold flushRange
  refine memOk_ite h ?_
  extract_lets -underBinder s1
  have hs1 : s1.Formed := memOk_foldLines (fun _ _ ht => memOk_l1ToL2 ht) h
  exact memOk_ite hs1 (memOk_foldLines (fun _ _ ht => memOk_l2ToHome ht) hs1)

theorem memOk_invRange {s : State} {n sc : Nat} {rs : List (Nat × Nat)} (h : s.Formed) : (invRange s n sc rs).Formed :=
  memOk_ite (memOk_modCore (memOk_flushRange h)) (memOk_modCluster (memOk_modCore (memOk_flushRange h)))

theorem memOk_invIcache {s : State} {n : Nat} {rs : List (Nat × Nat)} (h : s.Formed) : (invIcache s n rs).Formed := memOk_modCore h

theorem memOk_maintain {a b : Nat} {f : State → Nat → Nat → State} {s : State} (hf : ∀ t x x1, t.Formed → (f t x x1).Formed)
    (h : s.Formed) : (maintain a b f s).Formed :=
  memOk_pre h (memOk_settle h (formed_ite h (hf _ _ _ h)))

theorem memOk_flushOp {sc a b : Nat} {s : State} (h : s.Formed) : (flushOp sc a b s).Formed :=
  memOk_maintain (fun _ _ _ ht => memOk_flushRange ht) h

theorem memOk_invOp {sel a b : Nat} {s : State} (h : s.Formed) : (invOp sel a b s).Formed := by
  refine memOk_maintain ?_ h
  intro _ _ _ ht
  dsimp only
  exact memOk_ite (memOk_invIcache ht) (memOk_invRange ht)

theorem memOk_fenceOp {sc kind : Nat} {s : State} (h : s.Formed) : (fenceOp sc kind s).Formed := by
  refine memOk_settle h ?_
  dsimp only
  exact formed_ite h (memOk_ite (memOk_ite h (memOk_release h)) (memOk_acquire (memOk_ite h (memOk_release h))))

theorem memOk_homeStore {s : State} {n k va c v : Nat} (h : s.Formed) : (homeStore s n k va c v).Formed := memOk_threadStore h

theorem memOk_sendCput {s : State} {n k dev off bdev boff c v : Nat} (h : s.Formed) : (sendCput s n k dev off bdev boff c v).Formed :=
  memOk_sendPacket (memOk_farWrite h)

theorem memOk_stcAct {s : State} {n k va c v bar : Nat} (h : s.Formed) : (stcAct s n k va c v bar).Formed := by
  unfold stcAct
  split
  · exact trivial
  · split
    · exact trivial
    next heq1 =>
      have ht1 := Access.Formed.wait heq1 (memOk_objectAt h)
      exact ht1
    next heq1 =>
      have ht1 := Access.Formed.remote heq1 (memOk_objectAt h)
      split
      · exact formed_ite ht1 (memOk_sendCput ht1)
      · split
        next heq3 =>
          have ht2 := Access.Formed.ok heq3 (memOk_homeStore ht1)
          exact memOk_sendAtom ht2
        · exact memOk_homeStore ht1
    next heq1 =>
      have ht1 := Access.Formed.ok heq1 (memOk_objectAt h)
      refine formed_ite ht1 ?_
      split
      · exact formed_ite ht1 (memOk_sendCput ht1)
      · split
        next heq3 =>
          have ht2 := Access.Formed.ok heq3 (memOk_homeStore ht1)
          exact (memOk_barrierArrive ht2).fst
        · exact memOk_homeStore ht1

theorem memOk_stcOp {d a b : Nat} {s : State} (h : s.Formed) : (stcOp d a b s).Formed := by
  refine memOk_pre h ?_
  refine memOk_settle h ?_
  dsimp only
  exact formed_ite trivial (formed_ite trivial
      (formed_ite (memOk_effectUnit h (fun _ ht => memOk_stcAct ht) (fun _ ht => ht))
      (memOk_externalUnit h (fun _ ht => memOk_stcAct ht) (fun _ ht => ht))))

theorem memOk_atomOp {f d a b : Nat} {s : State} (h : s.Formed) : (atomOp f d a b s).Formed := by
  refine memOk_pre h ?_
  refine memOk_settle h ?_
  dsimp only
  exact formed_ite trivial (memOk_effectAt h (fun _ ht => memOk_viaRemote (memOk_threadAtomic ht) (fun _ _ _ ht1 => memOk_remoteTo ht1))
      (fun _ _ ht => memOk_putLate ht))

/-! ## Locks, promises and estates -/

theorem memOk_objectOp {s : State} {n k : Nat} {need : Need} {va size op a b guard : Nat} {reads : List Nat} (h : s.Formed) :
    (objectOp s n k need va size op a b guard reads).Formed := by
  unfold objectOp
  split
  next heq =>
    have ht := Access.Formed.remote heq (memOk_objectAt h)
    exact memOk_remoteCall ht
  next heq =>
    have ht := Access.Formed.ok heq (memOk_objectAt h)
    refine formed_ite ht ?_
    dsimp only
    exact (memOk_homeOp ht).fst
  · exact memOk_objectAt h

theorem memOk_lockOp {d a : Nat} {s : State} (h : s.Formed) : (lockOp d a s).Formed := by
  refine memOk_pre h ?_
  refine memOk_settle h ?_
  dsimp only
  exact formed_ite trivial (memOk_effectAt h (fun _ ht => memOk_objectOp ht)
      (fun _ _ ht => formed_ite trivial (memOk_putILate
      (memOk_ite (memOk_acquire (memOk_ite (memOk_estateAuto ht) ht))
      (memOk_ite (memOk_acquire (memOk_ite (memOk_estateAuto ht) ht)) (memOk_ite (memOk_estateAuto ht) ht))))))

theorem memOk_unlockOp {d a : Nat} {s : State} (h : s.Formed) : (unlockOp d a s).Formed := by
  refine memOk_pre h ?_
  refine memOk_settle h ?_
  dsimp only
  exact formed_ite trivial (formed_ite h (memOk_effectAt h (fun _ ht => memOk_objectOp (memOk_release ht))
      (fun _ _ ht => memOk_putILate (memOk_ite (memOk_estateDrop ht) ht))))

theorem memOk_holdOp {d a b : Nat} {s : State} (h : s.Formed) : (holdOp d a b s).Formed :=
  memOk_pre h (memOk_settle h (formed_ite trivial (formed_ite trivial (memOk_putI (memOk_estateAdd h)))))

theorem memOk_willOp {d a b : Nat} {s : State} (h : s.Formed) : (willOp d a b s).Formed :=
  memOk_pre h (memOk_settle h (formed_ite trivial (memOk_putI (memOk_modThread h))))

theorem memOk_relhOp {d a : Nat} {s : State} (h : s.Formed) : (relhOp d a s).Formed := by
  refine memOk_pre h ?_
  refine memOk_settle h ?_
  dsimp only
  split
  · exact memOk_putI h
  · exact memOk_putI (memOk_estateDrop h)

theorem memOk_conveyAct {s : State} {n k img : Nat} {e : EstEntry} (h : s.Formed) : (conveyAct s n k img e).Formed := by
  refine formed_ite h ?_
  split
  · exact trivial
  next heq =>
    have ht := Convey.Formed.wait heq (memOk_conveyOne h)
    exact ht
  next heq =>
    have ht := Convey.Formed.stale heq (memOk_conveyOne h)
    exact memOk_estateDrop (memOk_convFault ht)
  next heq =>
    have ht := Convey.Formed.ok heq (memOk_conveyOne h)
    exact memOk_estateDrop ht

theorem memOk_conveyOp {d a : Nat} {s : State} (h : s.Formed) : (conveyOp d a s).Formed := by
  refine memOk_pre h ?_
  refine memOk_settle h ?_
  split
  · split
    · exact memOk_putILate h
    · exact formed_ite (memOk_modMe (memOk_latchOn h))
        (formed_ite trivial (memOk_external h (fun _ ht => memOk_conveyAct ht) (fun _ _ ht => memOk_putILate ht)))

theorem memOk_estqOp {d a sel : Nat} {s : State} (h : s.Formed) : (estqOp d a sel s).Formed := by
  refine memOk_pre h ?_
  dsimp only
  split <;> exact memOk_putI h

theorem memOk_prmkOp {a : Nat} {s : State} (h : s.Formed) : (prmkOp a s).Formed := by
  refine memOk_pre h ?_
  refine memOk_settle h ?_
  dsimp only
  exact formed_ite trivial (formed_ite trivial (memOk_effectUnit h (fun _ ht => memOk_objectOp ht) (fun _ ht => memOk_estateAuto ht)))

theorem memOk_keepOp {d a b : Nat} {s : State} (h : s.Formed) : (keepOp d a b s).Formed := by
  refine memOk_pre h ?_
  refine memOk_settle h ?_
  dsimp only
  exact formed_ite trivial (formed_ite h (memOk_effectAt h (fun _ ht => memOk_objectOp (memOk_release ht))
      (fun _ _ ht => memOk_putILate (memOk_ite (memOk_estateDrop ht) ht))))

theorem memOk_noteWait {s : State} {pa : Nat} (h : s.Formed) : (noteWait s pa).Formed := memOk_modMe h

theorem memOk_promiseWord {s : State} {n k va : Nat} {reads : List Nat} (h : s.Formed) : (promiseWord s n k va reads).Formed :=
  memOk_viaRemote (memOk_objectAt h) (fun _ _ _ ht => memOk_remoteCall ht)

theorem memOk_awaitpOp {d a : Nat} {s : State} (h : s.Formed) : (awaitpOp d a s).Formed := by
  refine memOk_pre h ?_
  refine memOk_settle h ?_
  dsimp only
  refine formed_ite trivial ?_
  split
  next heq =>
    have ht := Access.Formed.ok heq (memOk_promiseWord h)
    exact formed_ite ht (formed_ite (memOk_noteWait ht) (memOk_putILate (memOk_acquire ht)))
  next heq =>
    have ht := Access.Formed.wait heq (memOk_promiseWord h)
    exact ht
  · exact trivial
  next heq =>
    have ht := Access.Formed.remote heq (memOk_promiseWord h)
    exact ht

theorem memOk_prmqOp {d a : Nat} {s : State} (h : s.Formed) : (prmqOp d a s).Formed := by
  refine memOk_pre h ?_
  refine memOk_settle h ?_
  dsimp only
  refine formed_ite trivial ?_
  split
  next heq =>
    have ht := Access.Formed.ok heq (memOk_promiseWord h)
    exact formed_ite ht (memOk_putILate ht)
  next heq =>
    have ht := Access.Formed.wait heq (memOk_promiseWord h)
    exact ht
  · exact trivial
  next heq =>
    have ht := Access.Formed.remote heq (memOk_promiseWord h)
    exact ht

end Sys2Proof.Machine
end


section
/-! SUPPORT. Integer, control, width and stream operations keep the form of memory (R7). -/

namespace Sys2Proof.Machine

/-! ## Integer instructions -/

theorem memOk_bin {l : Nat} {f : Int → Int → Int} {d a b : Nat} {s : State} (h : s.Formed) : (bin l f d a b s).Formed :=
  memOk_pre h (memOk_putI h)

theorem memOk_divide {f : Int → Int → Int} {d a b : Nat} {s : State} (h : s.Formed) : (divide f d a b s).Formed :=
  memOk_pre h (formed_ite trivial (memOk_putI h))

theorem memOk_rotate {sign : Int} {d a b : Nat} {s : State} (h : s.Formed) : (rotate sign d a b s).Formed := memOk_pre h (memOk_putI h)

theorem memOk_binImm {f : Int → Int → Int} {d a : Nat} {x : Int} {s : State} (h : s.Formed) : (binImm f d a x s).Formed :=
  memOk_pre h (memOk_putI h)

theorem memOk_unary {f : Info → Nat → Int} {d a : Nat} {s : State} (h : s.Formed) : (unary f d a s).Formed := memOk_pre h (memOk_putI h)

theorem memOk_property {f : Info → Int} {d a : Nat} {s : State} (h : s.Formed) : (property f d a s).Formed := memOk_pre h (memOk_putI h)

theorem memOk_putMove {s : State} {d l a : Nat} (h : s.Formed) : (putMove s d l a).Formed := formed_ite (memOk_putBits h) (memOk_putI h)

theorem memOk_moveOp {d a : Nat} {s : State} (h : s.Formed) : (moveOp d a s).Formed := memOk_pre h (memOk_putMove h)

theorem memOk_selOp {d a b p : Nat} {s : State} (h : s.Formed) : (selOp d a b p s).Formed := memOk_pre h (memOk_putMove h)

theorem memOk_fitsOp {d a b : Nat} {s : State} (h : s.Formed) : (fitsOp d a b s).Formed := memOk_pre h (memOk_putI h)

theorem memOk_bfiOp {d a pos len : Nat} {s : State} (h : s.Formed) : (bfiOp d a pos len s).Formed := memOk_pre h (memOk_putI h)

theorem memOk_moviOp {d : Nat} {x : Int} {s : State} (h : s.Formed) : (moviOp d x s).Formed := memOk_pre h (memOk_putI h)

theorem memOk_movkOp {d q v : Nat} {s : State} (h : s.Formed) : (movkOp d q v s).Formed := memOk_pre h (memOk_putI h)

/-! ## Control, message and task instructions -/

theorem memOk_brOp {c test : Nat} {off : Int} {s : State} (h : s.Formed) : (brOp c test off s).Formed :=
  formed_ite h (memOk_pre h (formed_ite h h))

theorem memOk_loopOp {c : Nat} {off : Int} {s : State} (h : s.Formed) : (loopOp c off s).Formed := by
  refine memOk_pre h ?_
  dsimp only
  split
  · exact trivial
  · exact formed_ite (memOk_putBits h) (memOk_putBits h)

theorem memOk_traceFlow {s : State} {kind : Nat} {target : Word} (h : s.Formed) : (traceFlow s kind target).Formed := memOk_traceAuto h

theorem memOk_linkTo {d : Nat} {target : Word} {s : State} (h : s.Formed) : (linkTo d target s).Formed := by
  unfold linkTo
  split
  next heq =>
    have ht := Eff.Formed.done heq (memOk_putI h)
    exact memOk_traceFlow ht
  · exact memOk_putI h

theorem memOk_callOp {d : Nat} {off : Int} {s : State} (h : s.Formed) : (callOp d off s).Formed := memOk_pre h (memOk_linkTo h)

theorem memOk_callrOp {d a : Nat} {s : State} (h : s.Formed) : (callrOp d a s).Formed := memOk_pre h (formed_ite trivial (memOk_linkTo h))

theorem memOk_jumpOp {kind a : Nat} {s : State} (h : s.Formed) : (jumpOp kind a s).Formed := memOk_pre h (formed_ite trivial (memOk_traceFlow h))

theorem memOk_userOnly {s : State} {body : Eff} (h : body.Formed) : (userOnly s body).Formed := formed_ite trivial h

theorem memOk_vacate {s : State} {n k : Nat} (h : s.Formed) : (vacate s n k).Formed :=
  memOk_modThread (memOk_modSlot (memOk_dropWaits (memOk_evictRows h)))

theorem memOk_leaveWaiter {s : State} {n k : Nat} (h : s.Formed) : (leaveWaiter s n k).Formed :=
  memOk_ite (memOk_ite (memOk_licWithdrawReq h) (memOk_modThread (memOk_licWithdrawReq h))) h

theorem memOk_yieldOp {len : Nat} {s : State} (h : s.Formed) : (yieldOp len s).Formed := by
  refine memOk_userOnly ?_
  refine memOk_settle h ?_
  dsimp only
  refine formed_ite h ?_
  split
  · exact trivial
  next heq =>
    have ht := OkOf.ok heq (memOk_writeMapRecord h)
    exact memOk_killGo (memOk_enterThread (memOk_vacate (memOk_writeEstate (memOk_imageWords (memOk_saveImage (memOk_leaveWaiter ht))))))

theorem memOk_beginExit {s : State} {n k : Nat} {ret : Word} (h : s.Formed) : (beginExit s n k ret).Formed := by
  unfold beginExit
  extract_lets -underBinder img released lent stopped waitless
  have hwaitless : waitless.Formed := memOk_clearWaits (memOk_licWithdraw (memOk_modSlot (memOk_dropBorrow (memOk_release h))))
  clear_value waitless
  exact hwaitless

theorem memOk_exitOp {a : Nat} {s : State} (h : s.Formed) : (exitOp a s).Formed := by
  refine memOk_userOnly ?_
  refine formed_ite ?_ ?_
  · refine memOk_pre h ?_
    refine memOk_settle h ?_
    dsimp only
    exact formed_ite h (memOk_externalUnit h (fun _ ht => memOk_always (fun _ ht1 => ht1) ht) (fun _ ht => memOk_beginExit ht))
  · refine memOk_settle h ?_
    dsimp only
    exact formed_ite h (memOk_externalUnit h (fun _ ht => memOk_always (fun _ ht1 => ht1) ht) (fun _ ht => memOk_beginExit ht))

theorem memOk_callTarget {s : State} {n k : Nat} {w : Word} (h : s.Formed) : OkOf FstFormed (callTarget s n k w) := by
  refine formed_ite ?_ ?_
  · split
    · exact trivial
    next heq =>
      have ht := Xlat.Formed.ok heq (memOk_translate h)
      split
      · exact trivial
      · exact formed_ite ht trivial
  · split
    · exact trivial
    · exact h

theorem memOk_placeCall {s : State} {n k m : Nat} {pc : Word} {reply : Option Callee} (h : s.Formed) : (placeCall s n k m pc reply).Formed :=
  memOk_wakeCaller (memOk_modCore (memOk_release h))

theorem memOk_callAct {n k m : Nat} {pc : Word} {reply : Option Callee} {s : State} (h : s.Formed) : (callAct n k m pc reply s).Formed :=
  formed_ite (memOk_placeCall h) (memOk_noteCaller h)

theorem memOk_placed {s : State} {hash : List Nat} {w : Wait} {arg : Word} {act : State → Access} (h : s.Formed)
    (hact : ∀ t, t.Formed → (act t).Formed) : (placed s hash w arg act).Formed :=
  memOk_externalOr (fun _ ht => ht) h (fun _ ht => hact _ ht) (fun _ _ ht => ht)

theorem memOk_callatOp {d a b : Nat} {s : State} (h : s.Formed) : (callatOp d a b s).Formed := by
  refine memOk_pre h ?_
  refine memOk_userOnly ?_
  dsimp only
  refine formed_ite trivial ?_
  refine formed_ite h ?_
  split
  · exact trivial
  next heq =>
    have ht := OkOf.ok heq (memOk_callTarget h)
    exact memOk_settle ht (formed_ite ht (memOk_placed ht (fun _ ht1 => memOk_callAct ht1)))

theorem memOk_rowsReady {s : State} {row count : Nat} {body : Eff} (h : s.Formed) (h2 : body.Formed) : (rowsReady s row count body).Formed := by
  unfold rowsReady
  split
  · dsimp only
    split
    · exact memOk_modMe h
    · split
      · exact trivial
      · exact h2

theorem memOk_sendLocal {s : State} {n k m ch row count : Nat} {rel : Option Nat} (h : s.Formed) : (sendLocal s n k m ch row count rel).Formed :=
  memOk_wakeSender (memOk_reserveMsg (memOk_dropSender h))

theorem memOk_sendRemote {s : State} {n k dev core ch row count flags id : Nat} (h : s.Formed) :
    (sendRemote s n k dev core ch row count flags id).Formed :=
  memOk_sendPacket h

theorem memOk_askPlace {s : State} {n k dev off : Nat} (h : s.Formed) : (askPlace s n k dev off).Formed := memOk_sendAtom h

theorem memOk_sendFar {s : State} {n k dev core ch row count flags : Nat} (h : s.Formed) :
    (sendFar s n k dev core ch row count flags).Formed := by
  unfold sendFar
  split
  · exact memOk_askPlace h
  · exact formed_ite h (memOk_sendRemote h)

theorem memOk_sendOp {a b : Nat} {s : State} (h : s.Formed) : (sendOp a b s).Formed := by
  refine memOk_pre h ?_
  dsimp only
  refine formed_ite trivial ?_
  split
  · exact trivial
  · refine formed_ite trivial ?_
    refine memOk_settle h ?_
    refine memOk_rowsReady h ?_
    refine formed_ite h ?_
    refine formed_ite (memOk_placed h (fun _ ht => memOk_sendFar (memOk_release ht))) ?_
    split
    · exact trivial
    · exact formed_ite h (memOk_placed h (fun _ ht => formed_ite (memOk_sendLocal (memOk_release ht)) (memOk_noteSender (memOk_release ht))))

theorem memOk_flitRows {s : State} {n k row : Nat} {a : List (BitVec 128)} (h : s.Formed) : (flitRows s n k row a).Formed := by
  induction a generalizing s row with
  | nil =>
    rw [flitRows]
    exact h
  | cons x r ih =>
    rw [flitRows]
    exact ih (memOk_modSlot (memOk_rowWrite h))

theorem memOk_receive {empty : State → Eff} {d a ch : Nat} {s : State} (hempty : ∀ t, t.Formed → (empty t).Formed) (h : s.Formed) :
    (receive empty d a ch s).Formed := by
  refine memOk_pre h ?_
  split
  · split
    · exact trivial
    · refine memOk_settle h ?_
      dsimp only
      split
      · exact hempty _ h
      · refine formed_ite trivial ?_
        split
        · exact memOk_modMe h
        · refine memOk_putILate ?_
          refine memOk_wakeSender ?_
          split
          · exact memOk_acquire (memOk_modCore (memOk_flitRows h))
          · exact memOk_modCore (memOk_flitRows h)

theorem memOk_recvOp {d a ch : Nat} {s : State} (h : s.Formed) : (recvOp d a ch s).Formed := memOk_receive (fun _ ht => ht) h

theorem memOk_tryrecvOp {d a ch : Nat} {s : State} (h : s.Formed) : (tryrecvOp d a ch s).Formed := memOk_receive (fun _ ht => memOk_putILate ht) h

theorem memOk_chstatOp {d ch : Nat} {s : State} (h : s.Formed) : (chstatOp d ch s).Formed := memOk_pre h (memOk_putI h)

theorem memOk_spawnAct {s : State} {n k : Nat} {va : Word} {pa : Nat} {duty : Bool} {name : Nat} (h : s.Formed) :
    (spawnAct s n k va pa duty name).Formed := by
  refine formed_ite (memOk_refuseRecord h) ?_
  refine formed_ite h ?_
  split
  · exact h
  · split
    · exact memOk_modSlot (memOk_ite h h)
    · exact memOk_acceptTask h

theorem memOk_spawnOp {d a : Nat} {duty : Bool} {s : State} (h : s.Formed) : (spawnOp d a duty s).Formed := by
  refine memOk_pre h ?_
  refine memOk_userOnly ?_
  dsimp only
  refine formed_ite h ?_
  split
  · exact trivial
  next heq =>
    have ht := Xlat.Formed.ok heq (memOk_translate h)
    exact formed_ite trivial (memOk_settle ht
        (formed_ite ht (memOk_external ht (fun _ ht1 => memOk_spawnAct (memOk_release ht1))
        (fun _ _ ht1 => memOk_putILate (memOk_ite (memOk_estateAuto ht1) ht1)))))

theorem memOk_depAct {s : State} {n pa : Nat} (h : s.Formed) : (depAct s n pa).Formed := h

theorem memOk_depOp {a : Nat} {s : State} (h : s.Formed) : (depOp a s).Formed := by
  refine memOk_pre h ?_
  dsimp only
  refine formed_ite trivial ?_
  refine formed_ite h ?_
  split
  · exact trivial
  next heq =>
    have ht := Xlat.Formed.ok heq (memOk_translate h)
    exact memOk_settle ht (formed_ite ht (memOk_externalUnit ht
        (fun _ ht1 => memOk_always (fun _ ht2 => memOk_depAct (memOk_release ht2)) ht1) (fun _ ht1 => memOk_estateDrop ht1)))

theorem memOk_waitTags {w : Wait} {ready : Word → Word → Bool} {d a : Nat} {s : State} (h : s.Formed) : (waitTags w ready d a s).Formed :=
  memOk_pre h (memOk_holdLatch (formed_ite (memOk_putILate h) h))

theorem memOk_waitanyOp {d a : Nat} {s : State} (h : s.Formed) : (waitanyOp d a s).Formed := memOk_waitTags h

theorem memOk_waitallOp {d a : Nat} {s : State} (h : s.Formed) : (waitallOp d a s).Formed := memOk_waitTags h

theorem memOk_ffrOp {d a : Nat} {s : State} (h : s.Formed) : (ffrOp d a s).Formed := memOk_pre h (memOk_putI h)

theorem memOk_tagclrOp {a : Nat} {s : State} (h : s.Formed) : (tagclrOp a s).Formed := memOk_pre h (memOk_settle h (memOk_clearTags h))

theorem memOk_bariInit {a b : Nat} {s : State} (h : s.Formed) : (bariInit a b s).Formed := by
  refine memOk_pre h ?_
  refine memOk_settle h ?_
  dsimp only
  exact formed_ite trivial (formed_ite h (memOk_effectUnit h (fun _ ht => memOk_objectOp (memOk_release ht)) (fun _ ht => ht)))

theorem memOk_barrierRead {s : State} {n k : Nat} {need : Need} {va off : Nat} {reads : List Nat} (h : s.Formed) :
    (barrierRead s n k need va off reads).Formed := by
  unfold barrierRead
  split
  next heq =>
    have ht := Access.Formed.remote heq (memOk_objectAt h)
    exact memOk_remoteCall ht
  next heq =>
    have ht := Access.Formed.ok heq (memOk_objectAt h)
    exact ht
  · exact memOk_objectAt h

theorem memOk_bariDuty {a : Nat} {s : State} (h : s.Formed) : (bariDuty a s).Formed := by
  refine memOk_pre h ?_
  refine memOk_settle h ?_
  dsimp only
  refine formed_ite trivial ?_
  refine formed_ite trivial ?_
  split
  next heq =>
    have ht := Access.Formed.ok heq (memOk_barrierRead h)
    exact formed_ite ht (memOk_estateAuto ht)
  next heq =>
    have ht := Access.Formed.wait heq (memOk_barrierRead h)
    exact ht
  · exact trivial
  next heq =>
    have ht := Access.Formed.remote heq (memOk_barrierRead h)
    exact ht

theorem memOk_bariOp {sel a b : Nat} {s : State} (h : s.Formed) : (bariOp sel a b s).Formed := formed_ite (memOk_bariInit h) (memOk_bariDuty h)

theorem memOk_arriveAct {s : State} {n k va d : Nat} {reads : List Nat} (h : s.Formed) : (arriveAct s n k va d reads).Formed := by
  unfold arriveAct
  split
  next heq =>
    have ht := Access.Formed.remote heq (formed_ite (memOk_objectAt h) h)
    exact memOk_remoteSend ht
  · exact memOk_objectOp h

theorem memOk_arriveOp {d a sc : Nat} {s : State} (h : s.Formed) : (arriveOp d a sc s).Formed := by
  refine memOk_pre h ?_
  refine memOk_settle h ?_
  dsimp only
  exact formed_ite trivial (formed_ite h (memOk_effectAt h (fun _ ht => memOk_arriveAct (memOk_release ht))
      (fun _ _ ht => memOk_putILate (memOk_estateDrop ht))))

theorem memOk_barrierWait {w : Wait} {arg : Word} {off : Nat} {ready : Nat → Bool} {value : Nat → Nat} {sc d a : Nat} {reads : List Nat}
    {s : State} (h : s.Formed) : (barrierWait w arg off ready value sc d a reads s).Formed := by
  refine memOk_settle h ?_
  dsimp only
  refine formed_ite trivial ?_
  split
  next heq =>
    have ht := Access.Formed.ok heq (memOk_barrierRead h)
    exact formed_ite ht (formed_ite (memOk_putILate (memOk_acquire ht)) (memOk_noteWait ht))
  next heq =>
    have ht := Access.Formed.wait heq (memOk_barrierRead h)
    exact ht
  · exact trivial
  next heq =>
    have ht := Access.Formed.remote heq (memOk_barrierRead h)
    exact ht

theorem memOk_waitbOp {d a b : Nat} {s : State} (h : s.Formed) : (waitbOp d a b s).Formed := memOk_pre h (memOk_barrierWait h)

theorem memOk_waitchOp {d a b : Nat} {s : State} (h : s.Formed) : (waitchOp d a b s).Formed := memOk_pre h (memOk_barrierWait h)

/-! ## Tensors -/

theorem memOk_putElems {s : State} {n bank : Nat} {f : Fmt} {els : List (Nat × Nat)} {bytes : Table Nat} (h : s.Formed) :
    (putElems s n bank f els bytes).Formed :=
  formed_foldl (fun _ _ ht => memOk_byteWrite ht _ _) (formed_foldl (fun _ _ ht => memOk_elemWrite ht _ _ _ _ _) h)

theorem memOk_convertInto {s : State} {n bank : Nat} {f : Fmt} {vs : List (Nat × FVal)} {seed : Nat} (h : s.Formed) :
    (convertInto s n bank f vs seed).Formed :=
  memOk_putElems h

theorem memOk_freeInto {s : State} {n bank : Nat} {f : Fmt} {is : List Nat} (h : s.Formed) : (freeInto s n bank f is).Formed :=
  memOk_ticked (memOk_putElems h)

theorem memOk_addCmd {s : State} {c : Cmd} (h : s.Formed) : (addCmd s c).Formed := memOk_modMyCore h

theorem memOk_stepSeed {s : State} (h : s.Formed) : (stepSeed s).Formed := memOk_modMe h

theorem memOk_objectPa {s : State} {n k : Nat} {need : Need} {va : Word} (h : s.Formed) : OkOf FstFormed (objectPa s n k need va) := by
  unfold objectPa
  split
  · exact trivial
  next heq =>
    have ht := Xlat.Formed.ok heq (memOk_translate h)
    split
    · exact trivial
    · exact ht

theorem memOk_chunkWait {s : State} (h : s.Formed) : OkOf FstFormed (chunkWait s) := by
  refine formed_ite h ?_
  refine formed_ite trivial ?_
  split
  · exact trivial
  next heq =>
    have ht := OkOf.ok heq (memOk_objectPa h)
    exact ht

theorem memOk_modCmd {s : State} {n seq : Nat} {f : Cmd → Cmd} (h : s.Formed) : (modCmd s n seq f).Formed := memOk_modCore h

theorem memOk_setTag {s : State} {n : Nat} {t : Option Nat} (h : s.Formed) : (setTag s n t).Formed := by
  unfold setTag
  split
  · exact h
  · exact memOk_wakeCore (memOk_modCore h)

theorem memOk_endCmd {s : State} {n : Nat} {c : Cmd} (h : s.Formed) : (endCmd s n c).Formed := memOk_dropCmd (memOk_setTag h)

theorem memOk_metaPoison {s : State} {n : Nat} {c : Cmd} {va : Word} (h : s.Formed) : (metaPoison s n c va).Formed := by
  unfold metaPoison
  split
  · split
    · exact memOk_metaCheck h
    · exact h
  · exact h

theorem memOk_faultCmd {s : State} {n : Nat} {c : Cmd} {cause : Cause} {v : Word} (h : s.Formed) : (faultCmd s n c cause v).Formed :=
  memOk_modCmd (memOk_ite (memOk_metaPoison h) h)

theorem memOk_atBarrier {s : State} {n : Nat} {c : Cmd} {va : Word} {k : State → Nat → State} (h : s.Formed)
    (hk : ∀ t x, t.Formed → (k t x).Formed) : (atBarrier s n c va k).Formed := by
  refine memOk_ite h ?_
  split
  · exact memOk_faultCmd h
  next heq =>
    have ht := Xlat.Formed.ok heq (memOk_translate h)
    refine memOk_ite h ?_
    split
    · exact hk _ _ ht
    · exact memOk_ite (memOk_faultCmd ht) (memOk_ite (memOk_faultCmd ht) (hk _ _ ht))
    · exact memOk_ite (memOk_faultCmd ht) (memOk_ite (memOk_faultCmd ht) (hk _ _ ht))
    · exact memOk_ite (memOk_faultCmd ht) (memOk_ite (memOk_faultCmd ht) (hk _ _ ht))
    · exact memOk_faultCmd ht

theorem memOk_countArrival {s : State} {n : Nat} {c : Cmd} {torn : Bool} {k : State → State} (h : s.Formed)
    (hk : ∀ t, t.Formed → (k t).Formed) : (countArrival s n c torn k).Formed := by
  unfold countArrival
  split
  · exact memOk_ite h (hk _ h)
  · exact memOk_atBarrier h (fun _ _ ht => hk _ (memOk_arriveAt ht))

theorem memOk_takeLines {s : State} {ls : List Nat} (h : s.Formed) : (takeLines s ls).Formed :=
  formed_foldl (fun _ _ ht => memOk_recallOwned ht) h

theorem memOk_setPlan {s : State} {n : Nat} {c : Cmd} {part : Nat} {l : List (Nat × Nat)} (h : s.Formed) : (setPlan s n c part l).Formed :=
  memOk_modCmd h

theorem memOk_decideGroup {s : State} {n : Nat} {c : Cmd} {part g : Nat} {bytes : List (Nat × Nat)} (h : s.Formed) :
    (decideGroup s n c part g bytes).Formed :=
  memOk_modCmd (memOk_ticked h)

theorem memOk_landBytes {s : State} {c : Cmd} {l : List (Nat × Nat)} (h : s.Formed) : (landBytes s c l).Formed :=
  formed_foldl (fun _ _ ht => memOk_physWrite ht) h

theorem memOk_landPart {s : State} {n : Nat} {c : Cmd} {part u : Nat} {lay : List DestByte} {place : Nat → Option Nat} {keep : List Nat}
    (h : s.Formed) : (landPart s n c part u lay place keep).Formed := by
  unfold landPart
  split
  · exact h
  · exact memOk_modCmd (memOk_ticked (memOk_landBytes h))

theorem memOk_readEarly {s : State} {n : Nat} {c : Cmd} {u : Nat} (h : s.Formed) : (readEarly s n c u).Formed := by
  unfold readEarly
  split
  · exact h
  · exact memOk_modCmd h

theorem memOk_landRest {s : State} {c : Cmd} {part : Nat} {lay : State → List DestByte} {whole : State → State} (h : s.Formed)
    (hwhole : ∀ t, t.Formed → (whole t).Formed) : (landRest s c part lay whole).Formed :=
  memOk_ite (hwhole _ h) (memOk_landBytes (memOk_ticked h))

theorem memOk_closePart {s : State} {n : Nat} {c : Cmd} {part : Nat} {lay : List DestByte} (h : s.Formed) : (closePart s n c part lay).Formed :=
  memOk_modCmd h

/-! ## Widths, maps and borrowing -/

theorem memOk_rszOp {d w : Nat} {s : State} (h : s.Formed) : (rszOp d w s).Formed := by
  refine formed_ite h ?_
  split
  next heq =>
    have hx1 := SomeOf.some heq (memOk_kindName)
    exact hx1
  · dsimp only
    refine formed_ite h ?_
    refine formed_ite h ?_
    refine formed_ite (memOk_modMe h) ?_
    split
    · exact trivial
    · refine formed_ite trivial ?_
      split <;> exact memOk_modMe h

theorem memOk_setmOp {d m : Nat} {s : State} (h : s.Formed) : (setmOp d m s).Formed := by
  refine memOk_pre h ?_
  refine formed_ite h ?_
  split
  · exact memOk_modifyName h
  · exact trivial

theorem memOk_borrowTrap {reason : Nat} : (borrowTrap reason).Formed := trivial

theorem memOk_backingArea {s : State} {n va : Nat} (h : s.Formed) : OkOf FstFormed (backingArea s n va) := by
  unfold backingArea
  split
  · exact trivial
  next heq =>
    have ht := Xlat.Formed.ok heq (memOk_translate h)
    refine formed_ite ht ?_
    split
    · exact trivial
    next heq1 =>
      have ht1 := Xlat.Formed.ok heq1 (memOk_translate ht)
      exact ht1

theorem memOk_borrowOp {d a b : Nat} {s : State} (h : s.Formed) : (borrowOp d a b s).Formed := by
  refine memOk_pre h ?_
  dsimp only
  refine formed_ite memOk_borrowTrap ?_
  refine formed_ite memOk_borrowTrap ?_
  split
  · exact memOk_borrowTrap
  · refine formed_ite trivial ?_
    refine formed_ite trivial ?_
    refine memOk_settle h ?_
    refine formed_ite h ?_
    split
    · exact trivial
    next heq1 =>
      have ht := formed_of_eq heq1 (memOk_readMapRecord h)
      split
      · exact trivial
      next heq2 =>
        have ht1 := OkOf.ok heq2 (memOk_backingArea ht)
        split
        · exact trivial
        · split
          next heq4 =>
            have ht2 := Eff.Formed.done heq4 (memOk_putI ht1)
            exact memOk_modSlot (memOk_modMe ht2)
          · exact memOk_putI ht1

theorem memOk_giveBack {s : State} {n k : Nat} (h : s.Formed) : (giveBack s n k).Formed := by
  unfold giveBack
  split
  · exact h
  · exact memOk_modSlot (memOk_modSlot h)

theorem memOk_givebackOp {s : State} (h : s.Formed) : (givebackOp s).Formed := by
  unfold givebackOp
  split
  · exact memOk_borrowTrap
  · exact memOk_settle h (memOk_giveBack h)

theorem memOk_withBorrow {s : State} {read : Bool} {k : Nat} {body : Borrow → Info → Eff} (h : s.Formed)
    (hbody : ∀ x x1, (body x x1).Formed) : (withBorrow s read k body).Formed := by
  unfold withBorrow
  split
  · exact memOk_borrowTrap
  · split
    · exact memOk_borrowTrap
    · exact formed_ite (formed_ite trivial (hbody _ _)) (memOk_modMe h)

theorem memOk_xgetOp {d k : Nat} {s : State} (h : s.Formed) : (xgetOp d k s).Formed :=
  memOk_pre h (memOk_withBorrow h (fun _ _ => formed_ite (memOk_putLate h) (memOk_putILate h)))

theorem memOk_borrowWrite {s : State} {i : Info} {bits : Nat} (h : s.Formed) : (borrowWrite s i bits).Formed := memOk_modMe h

theorem memOk_xputOp {k a : Nat} {s : State} (h : s.Formed) : (xputOp k a s).Formed := by
  refine memOk_pre h ?_
  refine memOk_withBorrow h ?_
  intro _ _
  refine formed_ite (memOk_borrowWrite h) ?_
  split
  · exact trivial
  · exact memOk_borrowWrite h

theorem memOk_putNow {s : State} {d bits : Nat} (h : s.Formed) : (putNow s d bits).Formed := memOk_ite h (memOk_push h)

theorem memOk_overBrim {s : State} {a : Nat} (h : s.Formed) : (overBrim s a).Formed :=
  memOk_ite h (formed_foldl (fun _ _ ht => memOk_modSlot ht) h)

theorem memOk_twxchOp {d a : Nat} {s : State} (h : s.Formed) : (twxchOp d a s).Formed := by
  refine memOk_pre h ?_
  refine formed_ite (memOk_overBrim (memOk_putNow (memOk_putNow h))) ?_
  split
  · exact trivial
  · exact trivial
  · exact memOk_overBrim (memOk_putNow (memOk_putNow h))

theorem memOk_mapldOp {a : Nat} {s : State} (h : s.Formed) : (mapldOp a s).Formed := by
  refine memOk_pre h ?_
  dsimp only
  refine formed_ite trivial ?_
  refine memOk_settle h ?_
  refine formed_ite h ?_
  split
  · exact trivial
  next heq =>
    have ht := formed_of_eq heq (memOk_readMapRecord h)
    split
    · exact trivial
    next heq1 =>
      have ht1 := OkOf.ok heq1 (memOk_mapInstall ht)
      exact formed_ite h (memOk_modMe ht1)

theorem memOk_mapqOp {d a : Nat} {s : State} (h : s.Formed) : (mapqOp d a s).Formed := memOk_pre h (memOk_putI h)

theorem memOk_getsOp {d r : Nat} {s : State} (h : s.Formed) : (getsOp d r s).Formed := memOk_pre h (formed_ite h (memOk_putI h))

theorem memOk_putsOp {a r : Nat} {s : State} (h : s.Formed) : (putsOp a r s).Formed := by
  refine memOk_pre h ?_
  split
  · exact memOk_settle h (memOk_clearTags h)
  · exact memOk_modMe h
  · exact memOk_modMe h
  · exact memOk_modMe h
  · exact memOk_modMe h
  · exact h

theorem memOk_oxSet {s : State} {k : Nat} {v : Word} (h : s.Formed) : (oxSet s k v).Formed := memOk_modMe h

theorem memOk_oxlOp {k a : Nat} {s : State} (h : s.Formed) : (oxlOp k a s).Formed := memOk_pre h (memOk_oxSet h)

theorem memOk_oxrOp {d k : Nat} {s : State} (h : s.Formed) : (oxrOp d k s).Formed := memOk_pre h (memOk_putI h)

theorem memOk_oxclrOp {all : Bool} {k : Nat} {s : State} (h : s.Formed) : (oxclrOp all k s).Formed := memOk_ite (memOk_modMe h) (memOk_oxSet h)

theorem memOk_oxiOp {mode : Bool} {q k : Nat} {i : BitVec 17} {s : State} (h : s.Formed) : (oxiOp mode q k i s).Formed :=
  memOk_ite (memOk_oxSet h) (memOk_oxSet h)

/-! ## Stream commands -/

theorem memOk_acceptStream {s : State} {op : CmdOp} {rd wr : List (Nat × Nat)} {tag : Option Nat} {chunk : Option (Nat × Nat)}
    (h : s.Formed) : (acceptStream s op rd wr tag chunk).Formed :=
  formed_ite h (memOk_stepSeed (memOk_addCmd h))

theorem memOk_recordsOk {s : State} {offs : List Nat} {body : Eff} (h : s.Formed) (h2 : body.Formed) : (recordsOk s offs body).Formed := by
  unfold recordsOk
  split
  · exact trivial
  · split
    · exact trivial
    · exact formed_ite h h2

theorem memOk_chainOp {d a b : Nat} {s : State} (h : s.Formed) : (chainOp d a b s).Formed := by
  unfold chainOp
  refine memOk_pre h ?_
  refine memOk_settle h ?_
  refine formed_ite trivial ?_
  refine formed_ite trivial ?_
  refine formed_ite trivial ?_
  refine formed_ite h ?_
  split
  · dsimp only
    split
    · exact trivial
    · refine formed_ite trivial ?_
      refine memOk_recordsOk h ?_
      refine formed_ite trivial ?_
      split
      · exact trivial
      · exact h
  · split
    · dsimp only
      split
      · exact trivial
      · refine formed_ite trivial ?_
        refine memOk_recordsOk h ?_
        refine formed_ite trivial ?_
        split <;> exact trivial
    next heq1 =>
      have ht := OkOf.ok heq1 (memOk_chunkWait h)
      dsimp only
      split
      · exact trivial
      · refine formed_ite trivial ?_
        refine memOk_recordsOk h ?_
        refine formed_ite trivial ?_
        split
        · exact trivial
        · exact memOk_acceptStream ht

theorem memOk_twoRecords {d a b : Nat} {reduce : Bool} {body : State → Word → Nat → Nat → Eff} {s : State}
    (hbody : ∀ t x x1 x2, t.Formed → (body t x x1 x2).Formed) (h : s.Formed) : (twoRecords d a b reduce body s).Formed := by
  unfold twoRecords
  exact memOk_pre h (memOk_settle h (formed_ite trivial (memOk_recordsOk h (hbody _ _ _ _ h))))

theorem memOk_reduceOp {d a b : Nat} {s : State} (h : s.Formed) : (reduceOp d a b s).Formed :=
  memOk_twoRecords (fun _ _ _ _ ht => formed_ite trivial (formed_ite trivial (memOk_acceptStream ht))) h

theorem memOk_cpybOp {d a b : Nat} {s : State} (h : s.Formed) : (cpybOp d a b s).Formed :=
  memOk_twoRecords (fun _ _ _ _ ht => formed_ite trivial (formed_ite trivial (memOk_acceptStream ht))) h

theorem memOk_indexedOp {scatter : Bool} {d a b : Nat} {s : State} (h : s.Formed) : (indexedOp scatter d a b s).Formed := by
  unfold indexedOp
  exact memOk_pre h (memOk_settle h (formed_ite trivial
      (memOk_recordsOk h (formed_ite trivial (formed_ite trivial (formed_ite trivial (memOk_acceptStream h)))))))

theorem memOk_gatherOp {d a b : Nat} {s : State} (h : s.Formed) : (gatherOp d a b s).Formed := memOk_indexedOp h

theorem memOk_scatterOp {d a b : Nat} {s : State} (h : s.Formed) : (scatterOp d a b s).Formed := memOk_indexedOp h

theorem memOk_fillsOp {d a b : Nat} {s : State} (h : s.Formed) : (fillsOp d a b s).Formed := by
  unfold fillsOp
  exact memOk_pre h (memOk_settle h (formed_ite h
      (formed_ite trivial (formed_ite trivial (memOk_recordsOk h (formed_ite trivial (memOk_acceptStream h)))))))

theorem memOk_setfOp {a bank : Nat} {s : State} (h : s.Formed) : (setfOp a bank s).Formed :=
  memOk_pre h (memOk_settle h (formed_ite trivial (formed_ite h (memOk_modMyCore (memOk_addCmd h)))))

theorem memOk_getfOp {d bank : Nat} {s : State} (h : s.Formed) : (getfOp d bank s).Formed := memOk_pre h (memOk_putI h)

theorem memOk_srandOp {a : Nat} {s : State} (h : s.Formed) : (srandOp a s).Formed := memOk_pre h (memOk_modMe h)

theorem memOk_storeTensor {s : State} {n : Nat} {c : Cmd} {dst : Shape} {clash : Bool} {vs : List (Nat × FVal)} (h : s.Formed) :
    (storeTensor s n c dst clash vs).Formed :=
  memOk_ite (memOk_freeInto h) (memOk_convertInto h)

theorem memOk_storeRawElems {s : State} {n : Nat} {c : Cmd} {dst : Shape} {clash : Bool} {vs : List (Nat × Nat)} (h : s.Formed) :
    (storeRawElems s n c dst clash vs).Formed :=
  memOk_ite (memOk_freeInto h) (memOk_putElems h)

theorem memOk_performStream {s : State} {n : Nat} {c : Cmd} (h : s.Formed) : (performStream s n c).Formed := by
  unfold performStream
  split
  · exact memOk_storeTensor h
  · exact memOk_ite h (memOk_storeTensor h)
  · exact memOk_ticked (memOk_ite (memOk_storeRawElems h) (memOk_storeTensor h))
  · exact memOk_ticked (memOk_ite (memOk_storeRawElems h) (memOk_storeTensor h))
  · exact memOk_ite (memOk_storeRawElems h) (memOk_storeTensor h)
  · exact memOk_ite (memOk_storeRawElems h) (memOk_storeTensor h)
  · exact h

theorem memOk_streamSome {s : State} {n : Nat} {c : Cmd} {u : Nat} (h : s.Formed) : (streamSome s n c u).Formed := by
  unfold streamSome
  split
  · exact memOk_readEarly h
  · dsimp only
    split
    · exact memOk_decideGroup h
    · exact h
  · exact memOk_landPart h

theorem memOk_performSetf {s : State} {n : Nat} {c : Cmd} (h : s.Formed) : (performSetf s n c).Formed := by
  unfold performSetf
  split
  · exact memOk_modCore h
  · exact h

end Sys2Proof.Machine
end


section
/-! SUPPORT. Engines, collectives and matrix commands keep the form of memory (R7). -/

namespace Sys2Proof.Machine

/-! ## Engine commands -/

theorem memOk_atVa {va : Nat} {a : Access} (h : a.Formed) : (atVa va a).Formed := by
  unfold atVa
  split
  · exact trivial
  · exact h

theorem memOk_engWindow {s : State} {q : Req} {w off size pa va : Nat} (h : s.Formed) : (engWindow s q w off size pa va).Formed := by
  refine formed_ite ?_ (memOk_windowRead h)
  split
  next heq =>
    have ht := Access.Formed.ok heq (memOk_windowRead h)
    exact ht
  · exact memOk_windowRead h

theorem memOk_engRead {s : State} {n : Nat} {c : Cmd} {va size : Nat} (h : s.Formed) : (engRead s n c va size).Formed := by
  refine formed_ite h ?_
  refine memOk_atVa ?_
  split
  · exact trivial
  next heq =>
    have ht := Xlat.Formed.ok heq (memOk_translate h)
    refine formed_ite ht ?_
    split
    · dsimp only
      exact formed_ite ht (formed_ite trivial (memOk_metaCheck ht))
    · dsimp only
      exact formed_ite ht (formed_ite trivial (memOk_metaCheck ht))
    · split
      next heq2 =>
        have ht1 := Access.Formed.ok heq2 (memOk_engWindow ht)
        exact formed_ite trivial ht1
      · exact memOk_engWindow ht
    · exact memOk_ticked ht
    · exact memOk_busErr

theorem memOk_engWrite {s : State} {n : Nat} {c : Cmd} {va size v : Nat} (h : s.Formed) : (engWrite s n c va size v).Formed := by
  refine formed_ite h ?_
  refine memOk_atVa ?_
  split
  · exact trivial
  next heq =>
    have ht := Xlat.Formed.ok heq (memOk_translate h)
    refine formed_ite ht ?_
    split
    · exact formed_ite trivial (formed_ite ht (memOk_physWrite ht))
    · exact formed_ite trivial (formed_ite ht (memOk_physWrite ht))
    · exact memOk_windowWrite ht
    · exact memOk_sendPut ht
    · exact memOk_busErr

theorem memOk_engBytes {s : State} {n : Nat} {c : Cmd} {va count : Nat} (h : s.Formed) : (engBytes s n c va count).Formed := by
  induction count generalizing s va with
  | zero =>
    rw [engBytes]
    exact h
  | succ k ih =>
    rw [engBytes]
    split
    next heq =>
      have ht := Access.Formed.ok heq (memOk_engRead h)
      split
      next heq1 =>
        have ht1 := Access.Formed.ok heq1 (ih ht)
        exact ht1
      · exact ih ht
    · exact memOk_engRead h

theorem memOk_engRead8 {s : State} {n : Nat} {c : Cmd} {va : Nat} (h : s.Formed) : (engRead8 s n c va).Formed :=
  formed_ite (memOk_engRead h) (memOk_engBytes h)

theorem memOk_landVa {n : Nat} {c : Cmd} {f : Nat} {l : List (Nat × Nat)} {s : State} (h : s.Formed) : FstFormed (landVa n c f l s) := by
  induction f generalizing l s with
  | zero => exact h
  | succ f ih =>
    cases l with
    | nil => exact h
    | cons p r =>
      rw [landVa]
      split
      next t _ _ _ heq => exact ih (Access.Formed.ok heq (memOk_engWrite h))
      · exact h
      next t heq => exact Access.Formed.wait heq (memOk_engWrite h)
      next t _ _ heq => exact Access.Formed.remote heq (memOk_engWrite h)

theorem memOk_copyRead {s : State} {n : Nat} {c : Cmd} {b : BitVec 512} {u : Nat × Nat} (h : s.Formed) : (copyRead s n c b u).Formed :=
  formed_ite (memOk_engRead8 h) (memOk_engRead h)

theorem memOk_copyPut {s : State} {n : Nat} {c : Cmd} {b : BitVec 512} {u : Nat × Nat} {v : Nat} (h : s.Formed) : (copyPut s n c b u v).Formed :=
  memOk_engWrite (memOk_ticked h)

theorem memOk_setCopy {s : State} {n : Nat} {c : Cmd} {b : BitVec 512} {unread found : List (Nat × Nat)} (h : s.Formed) :
    (setCopy s n c b unread found).Formed :=
  memOk_modCmd h

theorem memOk_copyFound {n : Nat} {c : Cmd} {b : BitVec 512} {unread a : List (Nat × Nat)} {a1' : State} (h : a1'.Formed) :
    FstFormed (copyFound n c b unread a a1') := by
  induction a generalizing a1' with
  | nil =>
    rw [copyFound]
    exact h
  | cons x r ih =>
    rw [copyFound]
    split
    next heq =>
      have ht := Access.Formed.ok heq (memOk_copyPut h)
      exact ih (memOk_setCopy ht)
    · exact memOk_faultCmd h
    next heq =>
      have ht := Access.Formed.wait heq (memOk_copyPut h)
      exact ht
    next heq =>
      have ht := Access.Formed.remote heq (memOk_copyPut h)
      exact ht

theorem memOk_copyRest {n : Nat} {c : Cmd} {b : BitVec 512} {a : List (Nat × Nat)} {a1' : State} (h : a1'.Formed) :
    FstFormed (copyRest n c b a a1') := by
  induction a generalizing a1' with
  | nil =>
    rw [copyRest]
    exact h
  | cons x r ih =>
    rw [copyRest]
    split
    next heq =>
      have ht := Access.Formed.ok heq (memOk_copyRead h)
      split
      next heq1 =>
        have ht1 := Access.Formed.ok heq1 (memOk_copyPut ht)
        exact ih (memOk_setCopy ht1)
      · exact memOk_faultCmd ht
      next heq1 =>
        have ht1 := Access.Formed.wait heq1 (memOk_copyPut ht)
        exact ht1
      next heq1 =>
        have ht1 := Access.Formed.remote heq1 (memOk_copyPut ht)
        exact ht1
    · exact memOk_faultCmd h
    next heq =>
      have ht := Access.Formed.wait heq (memOk_copyRead h)
      exact ht
    next heq =>
      have ht := Access.Formed.remote heq (memOk_copyRead h)
      exact ht

theorem memOk_copySome {s : State} {n : Nat} {c : Cmd} {b : BitVec 512} {u : Nat} (h : s.Formed) : (copySome s n c b u).Formed := by
  refine memOk_ite ?_ ?_
  · split
    · exact h
    · split
      next heq1 =>
        have ht := Access.Formed.ok heq1 (memOk_copyRead h)
        exact memOk_setCopy ht
      · exact memOk_faultCmd h
      next heq1 =>
        have ht := Access.Formed.wait heq1 (memOk_copyRead h)
        exact ht
      next heq1 =>
        have ht := Access.Formed.remote heq1 (memOk_copyRead h)
        exact ht
  · split
    · exact h
    · split
      · split
        · dsimp only
          split
          · exact h
          · split
            next heq4 =>
              have ht := Access.Formed.ok heq4 (memOk_copyPut h)
              exact memOk_setCopy ht
            · exact memOk_faultCmd h
            next heq4 =>
              have ht := Access.Formed.wait heq4 (memOk_copyPut h)
              exact ht
            next heq4 =>
              have ht := Access.Formed.remote heq4 (memOk_copyPut h)
              exact ht
        · dsimp only
          split
          · exact h
          · split
            next heq4 =>
              have ht := Access.Formed.ok heq4 (memOk_copyPut h)
              exact memOk_setCopy ht
            · exact memOk_faultCmd h
            next heq4 =>
              have ht := Access.Formed.wait heq4 (memOk_copyPut h)
              exact ht
            next heq4 =>
              have ht := Access.Formed.remote heq4 (memOk_copyPut h)
              exact ht
      · dsimp only
        split
        · exact h
        · split
          next heq3 =>
            have ht := Access.Formed.ok heq3 (memOk_copyPut h)
            exact memOk_setCopy ht
          · exact memOk_faultCmd h
          next heq3 =>
            have ht := Access.Formed.wait heq3 (memOk_copyPut h)
            exact ht
          next heq3 =>
            have ht := Access.Formed.remote heq3 (memOk_copyPut h)
            exact ht

theorem memOk_startCmd {s : State} {n : Nat} {c : Cmd} (h : s.Formed) : (startCmd s n c).Formed := memOk_modCmd h

theorem memOk_startOwning {s : State} {n : Nat} {c : Cmd} {lines : List Nat} (h : s.Formed) : (startOwning s n c lines).Formed :=
  memOk_ite h (memOk_modCmd (memOk_startCmd (memOk_takeLines h)))

theorem memOk_copyStart {s : State} {n : Nat} {c : Cmd} (h : s.Formed) : (copyStart s n c).Formed := by
  unfold copyStart
  split
  · exact memOk_ite (memOk_faultCmd h) (memOk_startOwning (memOk_ite h (memOk_setPlan h)))
  · exact h

theorem memOk_copyComplete {s : State} {n : Nat} {c : Cmd} (h : s.Formed) : (copyComplete s n c).Formed := by
  unfold copyComplete
  split
  · dsimp only
    exact memOk_ite (memOk_ite (memOk_countArrival ((memOk_copyRest ((memOk_copyFound h).fst)).fst) (fun _ ht => memOk_endCmd ht))
        ((memOk_copyRest ((memOk_copyFound h).fst)).fst)) ((memOk_copyFound h).fst)
  · exact h

theorem memOk_hostSend {s : State} {n : Nat} {c : Cmd} (h : s.Formed) : (hostSend s n c).Formed := by
  unfold hostSend
  split
  · exact memOk_ite (memOk_faultCmd h) (memOk_ite (memOk_faultCmd h) (memOk_ite (memOk_endCmd (memOk_sendReply h)) h))
  · exact h

theorem memOk_matRead {s : State} {n : Nat} {c : Cmd} {m : Mat} {r k : Nat} (h : s.Formed) : (matRead s n c m r k).Formed := by
  unfold matRead
  split
  · dsimp only
    split
    next heq1 =>
      have ht := Access.Formed.ok heq1 (memOk_engBytes h)
      split
      next heq2 =>
        have ht1 := Access.Formed.ok heq2 (memOk_engRead ht)
        exact ht1
      · exact memOk_engRead ht
    · exact memOk_engBytes h
  · dsimp only
    split
    next heq1 =>
      have ht := Access.Formed.ok heq1 (memOk_engBytes h)
      exact ht
    · exact memOk_engBytes h

theorem memOk_matReads {s : State} {n : Nat} {c : Cmd} {m : Mat} {a : List (Nat × Nat)} (h : s.Formed) :
    FoundOf FstFormed (matReads s n c m a) := by
  induction a generalizing s with
  | nil =>
    rw [matReads]
    exact h
  | cons x r ih =>
    rw [matReads]
    split
    next heq =>
      have ht := Access.Formed.ok heq (memOk_matRead h)
      split
      next heq1 =>
        have ht1 := FoundOf.ok heq1 (ih ht)
        exact ht1
      next heq1 =>
        have hx6 := FoundOf.error heq1 (ih ht)
        exact hx6
    · exact memOk_matRead h

theorem memOk_matWrite {s : State} {n : Nat} {c : Cmd} {m : Mat} {clash : Bool} {els : List (Nat × Nat)} {bytes : Table Nat}
    (h : s.Formed) : FoundOf FstFormed (matWrite s n c m clash els bytes) := by
  unfold matWrite
  extract_lets -underBinder els' bytes' rowVal total cells row
  have hrow (a : Found) (r : Nat) (ha : FoundOf FstFormed a) : FoundOf FstFormed (row a r) := by
    cases a with
    | error e => exact ha
    | ok p =>
      unfold row
      dsimp only
      split
      · exact ha
      · split
        next t old _ _ heq => exact Access.Formed.ok heq (memOk_engRead ha)
        next x _ heq => exact memOk_engRead ha
  have hrows : FoundOf FstFormed ((List.range m.rows).foldl row (.ok (s, []))) := foldl_of hrow h
  clear_value row
  split
  next t l heq =>
    have ht := FoundOf.ok heq hrows
    exact ht
  next x heq => exact hrows

theorem memOk_matConvert {s : State} {n : Nat} {c : Cmd} {clash : Bool} {src dst : Mat} {pick : Nat → Option (Nat × Nat)}
    {want : Nat → Bool} {seed : Nat} (h : s.Formed) : FoundOf FstFormed (matConvert s n c clash src dst pick want seed) := by
  unfold matConvert
  split
  · dsimp only
    split
    next heq1 =>
      have hx1 := FoundOf.error heq1 (memOk_matReads h)
      exact hx1
    next heq1 =>
      have ht := FoundOf.ok heq1 (memOk_matReads h)
      exact memOk_matWrite ht
  · dsimp only
    split
    next heq1 =>
      have hx1 := FoundOf.error heq1 (memOk_matReads h)
      exact hx1
    next heq1 =>
      have ht := FoundOf.ok heq1 (memOk_matReads h)
      exact memOk_matWrite ht

theorem memOk_xformWork {s : State} {n : Nat} {c : Cmd} {op : Nat} {l : BitVec 512} {want : Nat → Nat → Bool} (h : s.Formed) :
    FoundOf FstFormed (xformWork s n c op l want) := by
  unfold xformWork
  split
  · exact memOk_matConvert h
  · dsimp only
    split
    next heq =>
      have hx2 := FoundOf.error heq (memOk_matReads h)
      exact hx2
    next heq =>
      have ht := FoundOf.ok heq (memOk_matReads h)
      exact memOk_matWrite ht
  · dsimp only
    split
    next heq =>
      have ht := FoundOf.ok heq (memOk_matConvert h)
      split
      next heq1 =>
        have ht1 := FoundOf.ok heq1 (memOk_matConvert ht)
        exact ht1
      · exact memOk_matConvert ht
    · exact memOk_matConvert h
  · exact memOk_matConvert h
  · split
    next heq4 =>
      have ht := Access.Formed.ok heq4 (memOk_engBytes h)
      exact memOk_matConvert ht
    · exact memOk_engBytes h

theorem memOk_xformStartCmd {s : State} {n : Nat} {c : Cmd} (h : s.Formed) : (xformStartCmd s n c).Formed := by
  unfold xformStartCmd
  split
  · split
    next heq1 =>
      have ht := Access.Formed.ok heq1 (memOk_engBytes h)
      exact memOk_startOwning (memOk_modCmd ht)
    · exact memOk_faultCmd h
    next heq1 =>
      have ht := Access.Formed.wait heq1 (memOk_engBytes h)
      exact ht
    next heq1 =>
      have ht := Access.Formed.remote heq1 (memOk_engBytes h)
      exact ht
  · exact h

theorem memOk_xformEnd {s : State} {n : Nat} {c : Cmd} (h : s.Formed) : (xformEnd s n c).Formed := by
  unfold xformEnd
  split
  · refine memOk_ite (memOk_countArrival h (fun _ ht => memOk_endCmd ht)) ?_
    split
    · exact memOk_faultCmd h
    · exact h
    next heq1 =>
      have ht := FoundOf.ok heq1 (memOk_xformWork h)
      dsimp only
      split
      · exact memOk_faultCmd (memOk_modCmd ((memOk_landVa ht).fst))
      · exact memOk_ite (memOk_countArrival (memOk_modCmd ((memOk_landVa ht).fst)) (fun _ ht1 => memOk_endCmd ht1))
          (memOk_modCmd ((memOk_landVa ht).fst))
  · exact h

theorem memOk_xformSome {s : State} {n : Nat} {c : Cmd} {u : Nat} (h : s.Formed) : (xformSome s n c u).Formed := by
  unfold xformSome
  split
  · refine memOk_ite h ?_
    refine memOk_ite ?_ (memOk_ite (memOk_landPart h) h)
    split
    · exact h
    · split
      next heq2 =>
        have ht := FoundOf.ok heq2 (memOk_xformWork h)
        exact memOk_decideGroup ht
      · exact memOk_faultCmd h
      · exact h
  · exact h

theorem memOk_acceptEngine {s : State} {c : Cmd} {object : Word} (h : s.Formed) : (acceptEngine s c object).Formed :=
  memOk_estateAuto (memOk_addCmd h)

theorem memOk_acceptCopy {s : State} {b : BitVec 512} (h : s.Formed) : (acceptCopy s b).Formed := memOk_acceptEngine h

theorem memOk_acceptXform {s : State} {op record : Nat} {bar : Word} (h : s.Formed) : (acceptXform s op record bar).Formed :=
  memOk_acceptEngine (memOk_stepSeed h)

theorem memOk_xformOp {d a op : Nat} {s : State} (h : s.Formed) : (xformOp d a op s).Formed := by
  refine memOk_pre h ?_
  refine memOk_settle h ?_
  dsimp only
  refine formed_ite trivial ?_
  refine formed_ite trivial ?_
  refine formed_ite h ?_
  split
  · exact trivial
  next heq =>
    have ht := OkOf.ok heq (memOk_objectPa h)
    refine formed_ite ht ?_
    split
    · exact formed_ite (memOk_putI (memOk_release ht))
        (formed_ite (memOk_release ht) (memOk_external (memOk_release ht)
        (fun _ ht2 => memOk_always (fun _ ht3 => memOk_acceptXform ht3) ht2) (fun _ _ ht2 => memOk_putI ht2)))
    · exact memOk_putI (memOk_release ht)

theorem memOk_qstatOp {d q : Nat} {s : State} (h : s.Formed) : (qstatOp d q s).Formed := memOk_pre h (memOk_putI h)

theorem memOk_engineReport {s : State} {n : Nat} {c : Cmd} {cause : Cause} {v : Word} {park : Nat} (h : s.Formed) :
    (engineReport s n c cause v park).Formed :=
  memOk_inboxSend h

theorem memOk_parkCmd {s : State} {n : Nat} {c : Cmd} (h : s.Formed) : (parkCmd s n c).Formed := by
  unfold parkCmd
  split
  · exact h
  · refine memOk_ite h ?_
    split
    · exact memOk_dropCmd (memOk_engineReport h)
    · split
      · exact h
      · exact memOk_engineReport (memOk_modCmd h)

/-! ## Collectives -/

theorem memOk_pieceBytes {s : State} {n : Nat} {c : Cmd} {b : BitVec 512} {src : Nat × Nat} {off count : Nat} (h : s.Formed) :
    (pieceBytes s n c b src off count).Formed := by
  unfold pieceBytes
  split
  · dsimp only
    split
    next heq1 =>
      have ht := Access.Formed.ok heq1 (memOk_engBytes h)
      split
      next heq2 =>
        have ht1 := Access.Formed.ok heq2 (memOk_engBytes ht)
        exact ht1
      · exact memOk_engBytes ht
    · exact memOk_engBytes h
  · dsimp only
    split
    next heq1 =>
      have ht := Access.Formed.ok heq1 (memOk_engBytes h)
      exact ht
    · exact memOk_engBytes h

theorem memOk_sendPiece {s : State} {n : Nat} {c : Cmd} {b : BitVec 512} {v : View} {dev sgid : Nat} {own : Bool} {x : Nat × Nat × Nat}
    (h : s.Formed) : (sendPiece s n c b v dev sgid own x).Formed := by
  unfold sendPiece
  split
  next heq =>
    have ht := Access.Formed.ok heq (memOk_pieceBytes h)
    exact formed_ite (memOk_modCmd ht) (memOk_sendPacket ht)
  · exact memOk_pieceBytes h

theorem memOk_sendPieces {s : State} {n : Nat} {c : Cmd} {b : BitVec 512} {v : View} {dev sgid : Nat} {own : Bool}
    {a : List (Nat × Nat × Nat)} (h : s.Formed) : (sendPieces s n c b v dev sgid own a).Formed := by
  induction a generalizing s with
  | nil =>
    rw [sendPieces]
    exact h
  | cons x r ih =>
    rw [sendPieces]
    split
    next heq =>
      have ht := Access.Formed.ok heq (memOk_sendPiece h)
      exact ih ht
    · exact memOk_sendPiece h

theorem memOk_sendToMembers {s : State} {n : Nat} {c : Cmd} {b : BitVec 512} {v : View} {ok : Nat × Nat × Nat → Bool} {ms : List Nat}
    {a : Nat} (h : s.Formed) : (sendToMembers s n c b v ok ms a).Formed := by
  induction ms generalizing s a with
  | nil =>
    rw [sendToMembers]
    exact h
  | cons x r ih =>
    rw [sendToMembers]
    split
    next heq =>
      have ht := Access.Formed.ok heq (memOk_sendPieces h)
      exact ih ht
    · exact memOk_sendPieces h

theorem memOk_sendToSwitch {s : State} {n : Nat} {c : Cmd} {b : BitVec 512} {v : View} {sgid : Nat} (h : s.Formed) :
    (sendToSwitch s n c b v sgid).Formed :=
  memOk_sendPieces h

theorem memOk_collStart {s : State} {n : Nat} {c : Cmd} (h : s.Formed) : (collStart s n c).Formed := by
  unfold collStart
  split
  · refine memOk_ite ?_ ?_
    · split
      · exact memOk_startOwning h
      · exact h
    · refine memOk_ite (memOk_faultCmd h) ?_
      split
      · exact memOk_faultCmd h
      · refine memOk_ite (memOk_faultCmd h) ?_
        refine memOk_ite h ?_
        dsimp only
        split
        next heq2 =>
          have ht := Access.Formed.ok heq2 (formed_ite (memOk_sendToSwitch h) (memOk_sendToMembers h))
          exact memOk_modCmd (memOk_startOwning ht)
        · exact memOk_faultCmd h
        · exact h
        · exact h
  · exact h

theorem memOk_collTimeout {s : State} {n : Nat} {c : Cmd} (h : s.Formed) : (collTimeout s n c).Formed := by
  unfold collTimeout
  split
  · split
    · exact h
    · dsimp only
      split
      · exact h
      · split
        next heq3 =>
          have ht := Access.Formed.ok heq3 (memOk_sendToMembers (memOk_ticked h))
          exact memOk_modCmd ht
        · exact memOk_faultCmd h
        · exact h
        · exact h
  · exact h

theorem memOk_abortCmd {s : State} {n : Nat} {c : Cmd} (h : s.Formed) : (abortCmd s n c).Formed :=
  memOk_engineReport (memOk_dropCmd (memOk_collAbort h))

theorem memOk_collDeliver {s : State} {n : Nat} {c : Cmd} {p : Packet} (h : s.Formed) : (collDeliver s n c p).Formed := by
  unfold collDeliver
  split
  · exact memOk_ite (memOk_abortCmd h) (memOk_modCmd h)
  · exact h

theorem memOk_collReceive {s : State} {n : Nat} {p : Packet} (h : s.Formed) : (collReceive s n p).Formed := by
  unfold collReceive
  split
  · exact memOk_collDeliver h
  · exact memOk_modTower h

theorem memOk_landBank {s : State} {c : Cmd} {b : BitVec 512} {d : Nat × Nat × Nat} {first : Nat} {r : List (Nat × Nat) × Table Nat}
    (h : s.Formed) : (landBank s c b d first r).Formed :=
  memOk_ite (memOk_freeInto h) (memOk_ite (memOk_putElems h) (memOk_convertInto h))

theorem memOk_setChunks {s : State} {n : Nat} {c : Cmd} {mask : Nat} {k : State → State} (h : s.Formed)
    (hk : ∀ t, t.Formed → (k t).Formed) : (setChunks s n c mask k).Formed := by
  unfold setChunks
  split
  · exact hk _ h
  · exact memOk_atBarrier h (fun _ _ ht => hk _ (memOk_chunksAt ht))

theorem memOk_collFinish {s : State} {n seq : Nat} {b : BitVec 512} (h : s.Formed) : (collFinish s n seq b).Formed := by
  unfold collFinish
  split
  · exact memOk_ite (memOk_countArrival h (fun _ ht => memOk_endCmd ht)) h
  · exact h

theorem memOk_noteFmt {s : State} {n : Nat} {c : Cmd} {d : Nat × Nat × Nat} (h : s.Formed) : (noteFmt s n c d).Formed := memOk_modCmd h

theorem memOk_landBankRest {s : State} {c : Cmd} {b : BitVec 512} {v : View} {d : Nat × Nat × Nat} {k : Nat}
    {r : List (Nat × Nat) × Table Nat} (h : s.Formed) : (landBankRest s c b v d k r).Formed :=
  memOk_landRest h (fun _ ht => memOk_landBank ht)

theorem memOk_landMemory {s : State} {n : Nat} {c : Cmd} {b : BitVec 512} {m k : Nat} {r : List (Nat × Nat) × Table Nat} (h : s.Formed) :
    FstFormed (landMemory s n c b m k r) := by
  unfold landMemory
  dsimp only
  split
  · exact memOk_faultCmd (memOk_modCmd ((memOk_landVa h).fst))
  · exact memOk_modCmd ((memOk_landVa h).fst)

theorem memOk_chunkDone {s : State} {n : Nat} {c : Cmd} {b : BitVec 512} {m k : Nat} (h : s.Formed) : (chunkDone s n c b m k).Formed :=
  memOk_setChunks (memOk_setPlan h) (fun _ ht => memOk_collFinish (memOk_modCmd ht))

theorem memOk_landChunk {s : State} {n : Nat} {c : Cmd} {k : Nat} (h : s.Formed) : (landChunk s n c k).Formed := by
  unfold landChunk
  split
  · refine memOk_ite (memOk_collFinish h) ?_
    refine memOk_ite h ?_
    split
    · exact h
    · split
      · exact h
      · split
        · exact memOk_ite (memOk_faultCmd h) (memOk_chunkDone (memOk_noteFmt (memOk_closePart (memOk_landBankRest h))))
        · dsimp only
          exact memOk_ite (memOk_chunkDone ((memOk_landMemory h).fst)) ((memOk_landMemory h).fst)
  · exact h

theorem memOk_chunkSome {s : State} {n : Nat} {c : Cmd} {k u : Nat} (h : s.Formed) : (chunkSome s n c k u).Formed := by
  unfold chunkSome
  split
  · refine memOk_ite h ?_
    split
    · exact h
    · split
      · exact h
      · split
        · refine memOk_ite h ?_
          refine memOk_ite ?_ (memOk_landPart h)
          split
          · exact memOk_noteFmt (memOk_decideGroup h)
          · exact h
        · refine memOk_ite ?_ (memOk_ite (memOk_landPart h) h)
          split
          · exact memOk_decideGroup h
          · exact h
  · exact h

theorem memOk_emptyChunks {s : State} {n : Nat} {c : Cmd} {b : BitVec 512} (h : s.Formed) : (emptyChunks s n c b).Formed := by
  refine memOk_ite h ?_
  split
  · exact h
  · dsimp only
    split
    · exact h
    · exact h
    · exact memOk_setChunks h (fun _ ht => memOk_modCmd ht)

theorem memOk_acceptColl {s : State} {b : BitVec 512} (h : s.Formed) : (acceptColl s b).Formed := by
  refine formed_foldl ?_ (memOk_mapTowers (memOk_emptyChunks (memOk_acceptEngine (memOk_stepSeed h))))
  intro _ _ ht
  split
  · exact memOk_collDeliver ht
  · exact ht

theorem memOk_acceptHost {s : State} {b : BitVec 512} (h : s.Formed) : (acceptHost s b).Formed := memOk_addCmd h

theorem memOk_acceptPush {s : State} {q : Nat} {b : BitVec 512} (h : s.Formed) : (acceptPush s q b).Formed := by
  unfold acceptPush
  split
  · exact memOk_acceptCopy h
  · exact memOk_acceptColl h
  · exact memOk_acceptHost h

theorem memOk_pushOp {d q b : Nat} {s : State} (h : s.Formed) : (pushOp d q b s).Formed := by
  unfold pushOp
  refine memOk_pre h ?_
  split
  · split
    · exact trivial
    · refine formed_ite trivial ?_
      refine memOk_settle h ?_
      refine memOk_rowsReady h ?_
      refine formed_ite h ?_
      extract_lets -underBinder _ s1 _ _
      have hs1 : s1.Formed := memOk_release h
      split
      · exact formed_ite (memOk_putILate hs1) (formed_ite hs1
          (memOk_external hs1 (fun _ ht1 => memOk_always (fun _ ht2 => memOk_acceptPush ht2) ht1) (fun _ _ ht1 => memOk_putILate ht1)))
      · exact memOk_putILate hs1

/-! ## Matrix commands -/

theorem memOk_putFirst {s : State} {d : Nat} {x : Int} {effect : State → State} (h : s.Formed)
    (heffect : ∀ t, t.Formed → (effect t).Formed) : (putFirst s d x effect).Formed := by
  unfold putFirst
  split
  · exact memOk_putI (heffect _ h)
  · exact memOk_putI h

theorem memOk_licqOp {d : Nat} {s : State} (h : s.Formed) : (licqOp d s).Formed := by
  refine memOk_pre h ?_
  refine memOk_settle h ?_
  dsimp only
  exact formed_ite (memOk_putI h) (formed_ite trivial (formed_ite (memOk_putFirst h (fun _ ht => memOk_licGrant ht)) (memOk_putI h)))

theorem memOk_licwOp {d : Nat} {s : State} (h : s.Formed) : (licwOp d s).Formed := by
  refine memOk_pre h ?_
  refine memOk_settle h ?_
  dsimp only
  refine formed_ite (memOk_putILate h) ?_
  refine formed_ite h ?_
  refine formed_ite trivial ?_
  refine formed_ite (memOk_putThen h (fun _ ht => memOk_licGrant ht)) ?_
  split
  · exact memOk_ite (memOk_licEnter h) (memOk_modThread (memOk_licEnter h))
  · exact memOk_putILate h

theorem memOk_licGiveUp {s : State} {p : Nat} {r : LicReq} (h : s.Formed) : (licGiveUp s p r).Formed := memOk_licRelease (memOk_licDrop h)

theorem memOk_licForget {s : State} {p : Nat} {r : LicReq} (h : s.Formed) : (licForget s p r).Formed :=
  memOk_ite (memOk_modSlot (memOk_clearWaits (memOk_licWithdrawReq h)))
      (memOk_modThread (memOk_modSlot (memOk_clearWaits (memOk_licWithdrawReq h))))

theorem memOk_licrOp {d : Nat} {s : State} (h : s.Formed) : (licrOp d s).Formed := by
  refine memOk_pre h ?_
  refine memOk_settle h ?_
  dsimp only
  exact formed_ite (memOk_putFirst h (fun _ ht => memOk_licGiveUp ht))
      (formed_ite (memOk_putFirst h (fun _ ht => memOk_licForget ht)) (memOk_putI h))

theorem memOk_licsOp {d : Nat} {s : State} (h : s.Formed) : (licsOp d s).Formed := memOk_pre h (memOk_putI h)

theorem memOk_acceptMatrix {s : State} {c : Cmd} {after : State → State} (h : s.Formed) (hafter : ∀ t, t.Formed → (after t).Formed) :
    (acceptMatrix s c after).Formed :=
  formed_ite h (hafter _ (memOk_addCmd h))

theorem memOk_noteSeq {w : Word} {s : State} (h : s.Formed) : (noteSeq w s).Formed := memOk_modMe h

theorem memOk_mmaOp {minus : Bool} {d a b : Nat} {s : State} (h : s.Formed) : (mmaOp minus d a b s).Formed := by
  refine memOk_pre h ?_
  refine memOk_settle h ?_
  dsimp only
  refine formed_ite trivial ?_
  refine formed_ite (formed_ite h trivial) ?_
  refine formed_ite trivial ?_
  refine formed_ite trivial ?_
  refine formed_ite h ?_
  split
  · exact trivial
  next heq =>
    have ht := OkOf.ok heq (memOk_chunkWait h)
    exact memOk_acceptMatrix ht (fun _ ht1 => memOk_noteSeq (memOk_modPair ht1))

theorem memOk_topkOp {d a b : Nat} {s : State} (h : s.Formed) : (topkOp d a b s).Formed :=
  memOk_pre h (memOk_settle h (formed_ite trivial
      (memOk_recordsOk h (formed_ite trivial (formed_ite trivial (memOk_acceptMatrix h (fun _ ht => memOk_noteSeq ht)))))))

theorem memOk_aclrOp {mask : BitVec 4} {s : State} (h : s.Formed) : (aclrOp mask s).Formed :=
  memOk_settle h (memOk_acceptMatrix h (fun _ ht => ht))

theorem memOk_acceptDrain {s : State} {c : Cmd} {object cw : Word} (h : s.Formed) : (acceptDrain s c object cw).Formed :=
  formed_ite h (formed_ite (memOk_noteSeq (memOk_stepSeed (memOk_addCmd h))) (memOk_noteSeq (memOk_stepSeed (memOk_estateAuto (memOk_addCmd h)))))

theorem memOk_drainOp {two : Bool} {d a b : Nat} {s : State} (h : s.Formed) : (drainOp two d a b s).Formed := by
  unfold drainOp
  refine memOk_pre h ?_
  refine memOk_settle h ?_
  dsimp only
  refine formed_ite trivial ?_
  split
  · exact trivial
  · refine formed_ite trivial ?_
    refine memOk_recordsOk h ?_
    split
    · exact trivial
    · refine formed_ite ?_ (memOk_acceptDrain h)
      refine formed_ite trivial ?_
      refine formed_ite h ?_
      split
      · exact trivial
      next heq2 =>
        have ht := OkOf.ok heq2 (memOk_objectPa h)
        exact memOk_acceptDrain ht

theorem memOk_pieces {s : State} {n : Nat} {user save : Bool} {base mask count i : Nat} (h : s.Formed) :
    OkOf FstFormed (pieces s n user save base mask count i) := by
  induction count generalizing s i with
  | zero =>
    rw [pieces]
    exact h
  | succ k ih =>
    rw [pieces]
    refine formed_ite ?_ ?_
    · split
      · exact trivial
      next heq =>
        have ht := Xlat.Formed.ok heq (memOk_translate h)
        split
        · exact trivial
        · split
          next heq2 =>
            have ht1 := OkOf.ok heq2 (ih ht)
            exact ht1
          · exact ih ht
    · split
      next heq =>
        have ht := OkOf.ok heq (ih h)
        exact ht
      · exact ih h

theorem memOk_saveOp {save : Bool} {d a b : Nat} {s : State} (h : s.Formed) : (saveOp save d a b s).Formed := by
  unfold saveOp
  dsimp only
  refine memOk_pre h ?_
  refine memOk_settle h ?_
  refine formed_ite trivial ?_
  refine formed_ite trivial ?_
  refine formed_ite ?_ (memOk_acceptMatrix h (fun _ ht => memOk_modSlot ht))
  refine formed_ite trivial ?_
  refine formed_ite h ?_
  split
  · exact trivial
  next heq =>
    have ht := OkOf.ok heq (memOk_pieces h)
    exact memOk_acceptMatrix ht (fun _ ht1 => ht1)

theorem memOk_pptOp {mask : BitVec 4} {s : State} (h : s.Formed) : (pptOp mask s).Formed :=
  formed_ite (memOk_settle h (formed_ite (memOk_modMe h) (memOk_modMe h))) h

theorem memOk_mwaitOp {d tag : Nat} {s : State} (h : s.Formed) : (mwaitOp d tag s).Formed :=
  memOk_pre h (memOk_settle h (formed_ite h (memOk_putFirst h (fun _ ht => memOk_addCmd ht))))

theorem memOk_tileCheck {s : State} {n : Nat} {bad : Bool} (h : s.Formed) : (tileCheck s n bad).Formed :=
  memOk_ite (memOk_machineCheck (memOk_ticked h)) h

theorem memOk_setTile {s : State} {n t bits bad : Nat} (h : s.Formed) : (setTile s n t bits bad).Formed := memOk_modCore h

theorem memOk_readOperand {s : State} {n : Nat} {c : Cmd} {part v kk : Nat} (h : s.Formed) : (readOperand s n c part v kk).Formed :=
  memOk_ite h (memOk_modCmd h)

theorem memOk_performMma {s : State} {n : Nat} {c : Cmd} {minus : Bool} {t : Nat} {acc : Bool} {kb da db : Nat} (h : s.Formed) :
    (performMma s n c minus t acc kb da db).Formed :=
  memOk_tileCheck (memOk_setTile h)

theorem memOk_performTopk {s : State} {n : Nat} {c : Cmd} {t k : Nat} {idx val : Shape} (h : s.Formed) : (performTopk s n c t k idx val).Formed :=
  memOk_convertInto (memOk_convertInto h)

theorem memOk_performDrain {s : State} {n : Nat} {c : Cmd} {t : Nat} {dsts : List Shape} (h : s.Formed) : (performDrain s n c t dsts).Formed :=
  FstFormed.fst (foldl_of (fun _ _ ht => memOk_convertInto ht) h)

theorem memOk_performSave {s : State} {n : Nat} {c : Cmd} {mask : Nat} {pages : List Nat} (h : s.Formed) :
    (performSave s n c mask pages).Formed := by
  refine formed_foldl ?_ h
  intro _ _ ht
  refine formed_foldl ?_ ht
  intro _ _ ht1
  split
  · exact memOk_sendPut ht1
  · exact memOk_physWrite ht1

theorem memOk_performRestore {s : State} {n mask : Nat} {pages : List Nat} (h : s.Formed) : (performRestore s n mask pages).Formed :=
  formed_foldl (fun _ _ ht => memOk_setTile ht) (memOk_ticked (memOk_acquire h))

theorem memOk_drainArrive {s : State} {n : Nat} {c : Cmd} (h : s.Formed) : (drainArrive s n c).Formed := by
  unfold drainArrive
  split
  · exact h
  · exact memOk_arriveAt h

theorem memOk_endRestore {s : State} {n : Nat} {c : Cmd} {ps : List Nat} (h : s.Formed) : (endRestore s n c ps).Formed :=
  memOk_clearWaits (memOk_endCmd (memOk_ite (memOk_modSlot h) (memOk_imageWrite h)))

theorem memOk_tileChecks {s : State} {n : Nat} {ts : List Nat} (h : s.Formed) : (tileChecks s n ts).Formed :=
  formed_foldl (fun _ _ ht => memOk_tileCheck ht) h

theorem memOk_matrixWhole {s : State} {n : Nat} {c : Cmd} (h : s.Formed) : SomeOf State.Formed (matrixWhole s n c) := by
  unfold matrixWhole
  split
  · exact memOk_performTopk h
  · exact memOk_performDrain h
  · exact memOk_performSave h
  · exact trivial

theorem memOk_matrixSome {s : State} {n : Nat} {c : Cmd} {part u : Nat} (h : s.Formed) : (matrixSome s n c part u).Formed := by
  unfold matrixSome
  split
  · exact memOk_readOperand h
  · split
    · exact h
    · refine memOk_ite h ?_
      refine memOk_ite ?_ (memOk_landPart h)
      split
      · exact memOk_decideGroup h
      · exact h

theorem memOk_matrixWritten {s : State} {n : Nat} {c : Cmd} (h : s.Formed) : (matrixWritten s n c).Formed := by
  unfold matrixWritten
  extract_lets -underBinder t
  have ht : t.Formed := memOk_closePart (memOk_landRest h (fun _ ht => formed_getD (memOk_matrixWhole ht) ht))
  exact memOk_ite ht (memOk_endCmd (memOk_tileChecks (memOk_drainArrive ht)))

theorem memOk_performMatrix {s : State} {n : Nat} {c : Cmd} (h : s.Formed) : (performMatrix s n c).Formed := by
  unfold performMatrix
  split
  · exact memOk_endCmd (memOk_performMma h)
  · exact memOk_matrixWritten h
  · exact memOk_endCmd (formed_foldl (fun _ _ ht => memOk_setTile ht) h)
  · exact memOk_matrixWritten h
  · exact memOk_matrixWritten h
  · exact memOk_endCmd (memOk_performRestore h)
  · exact memOk_endRestore (memOk_performRestore h)
  · exact memOk_endCmd h
  · exact h

theorem memOk_startMatrix {s : State} {n : Nat} {c : Cmd} (h : s.Formed) : (startMatrix s n c).Formed :=
  memOk_ite (memOk_modCore (memOk_modCmd (memOk_startCmd h))) (memOk_startCmd h)

theorem memOk_matrixStart {s : State} {n : Nat} {c : Cmd} (h : s.Formed) : (matrixStart s n c).Formed :=
  memOk_ite h (memOk_ite (memOk_startMatrix h) (memOk_ite (memOk_modCmd h) (memOk_ite (memOk_startMatrix h) h)))

theorem memOk_mcastExpire {s : State} {n : Nat} {c : Cmd} (h : s.Formed) : (mcastExpire s n c).Formed := memOk_ite (memOk_startMatrix h) h

theorem memOk_arrayTick {s : State} {n : Nat} (h : s.Formed) : (arrayTick s n).Formed := by
  unfold arrayTick
  extract_lets -underBinder s1
  have hs1 : s1.Formed := formed_foldl (fun _ _ ht => memOk_ite (memOk_performMatrix ht) ht) h
  split
  · exact hs1
  · exact memOk_mcastExpire (memOk_matrixStart hs1)
  · split
    · exact memOk_mcastExpire (memOk_matrixStart (memOk_ticked hs1))
    · exact hs1

end Sys2Proof.Machine
end


section
/-! SUPPORT. The system slot, the dispatcher, the fetch and the events of a core keep the form of memory (R7). -/

namespace Sys2Proof.Machine

/-! ## System instructions -/

theorem memOk_getpOp {d r a : Nat} {s : State} (h : s.Formed) : (getpOp d r a s).Formed := memOk_pre h (memOk_putI h)

theorem memOk_privWrite {s : State} {n r k : Nat} {v : Word} (h : s.Formed) : (privWrite s n r k v).Formed := by
  unfold privWrite
  extract_lets -underBinder _ _ _ s1
  have hs1 : s1.Formed := memOk_ite (memOk_ticked h) h
  split
  · exact memOk_ite (memOk_modSlot h) h
  · exact memOk_ite (memOk_modSlot h) h
  · exact memOk_ite (memOk_modSlot h) h
  · exact memOk_ite (memOk_modSlot h) h
  · exact memOk_modCore hs1
  · exact memOk_modCore h
  · exact memOk_modCore hs1
  · exact memOk_modCore hs1
  · exact memOk_ite (memOk_modSlot h) h
  · exact hs1

theorem memOk_putpOp {r d a : Nat} {s : State} (h : s.Formed) : (putpOp r d a s).Formed := by
  unfold putpOp
  exact memOk_pre h (memOk_settle h (memOk_privWrite h))

theorem memOk_performDeferred {s : State} {n k : Nat} {d : Option Deferred} (h : s.Formed) : (performDeferred s n k d).Formed := by
  unfold performDeferred
  split
  · exact h
  · exact memOk_slotNameWrite h

theorem memOk_performWrite {s : State} {n : Nat} {e : InboxEntry} (h : s.Formed) : (performWrite s n e).Formed := memOk_slotNameWrite h

theorem memOk_pendingWrites {s : State} {n k : Nat} (h : s.Formed) : (pendingWrites s n k).Formed :=
  formed_foldl (fun _ _ ht => memOk_performWrite ht) (memOk_modCore (memOk_performDeferred (memOk_performDeferred (memOk_modSlot h))))

theorem memOk_enterOwed {s : State} {n k : Nat} (h : s.Formed) : (enterOwed s n k).Formed :=
  memOk_ite (memOk_ite (memOk_licGrant h) (memOk_licEnter h)) h

theorem memOk_dueAgain {s : State} {n k : Nat} (h : s.Formed) : (dueAgain s n k).Formed := memOk_ite (memOk_modSlot h) h

theorem memOk_resumeHeld {s : State} {n k : Nat} {pc : Word} {retry : Bool} (h : s.Formed) : (resumeHeld s n k pc retry).Formed :=
  memOk_modThread (memOk_modSlot (memOk_dueAgain (memOk_enterOwed (memOk_pendingWrites h))))

theorem memOk_endEvent {s : State} {n : Nat} (h : s.Formed) : (endEvent s n).Formed := memOk_modSlot (memOk_modCore h)

theorem memOk_sretOp {a sel : Nat} {s : State} (h : s.Formed) : (sretOp a sel s).Formed :=
  memOk_pre h (memOk_settle h (formed_ite (formed_ite h (memOk_endEvent (memOk_resumeHeld (memOk_traceAuto h))))
      (memOk_endEvent (memOk_traceAuto h))))

theorem memOk_tlbiOp {a sel : Nat} {s : State} (h : s.Formed) : (tlbiOp a sel s).Formed :=
  memOk_pre h (memOk_settle h (memOk_modCluster (memOk_modCore h)))

theorem memOk_openInterval {s : State} {ctx : BitVec 16} (h : s.Formed) : (openInterval s ctx).Formed := h

theorem memOk_closeInterval {s : State} {ctx : BitVec 16} (h : s.Formed) : (closeInterval s ctx).Formed := h

theorem memOk_ckptOp {d op : Nat} {s : State} (h : s.Formed) : (ckptOp d op s).Formed :=
  memOk_pre h (memOk_settle h (formed_ite (memOk_putThen h (fun _ ht => memOk_openInterval ht))
      (memOk_putThen h (fun _ ht => memOk_closeInterval ht))))

theorem memOk_killOp {d a : Nat} {hard byHandle : Bool} {s : State} (h : s.Formed) : (killOp d a hard byHandle s).Formed := by
  refine memOk_pre h ?_
  refine memOk_settle h ?_
  split
  · exact formed_ite (memOk_putThen h (fun _ ht => memOk_modMe ht)) h
  · dsimp only
    split
    · exact memOk_putILate h
    · exact formed_ite (memOk_putILate h) (formed_ite (memOk_putThen h (fun _ _ => memOk_killThread h)) (memOk_modMe (memOk_killThread h)))

theorem memOk_slotsOp {d : Nat} {s : State} (h : s.Formed) : (slotsOp d s).Formed := memOk_pre h (memOk_putI h)

theorem memOk_resumeOp {d a : Nat} {s : State} (h : s.Formed) : (resumeOp d a s).Formed :=
  memOk_pre h (memOk_settle h (formed_ite (formed_ite h (memOk_putThen h (fun _ ht => memOk_enterThread (memOk_modThread ht))))
      (memOk_putILate h)))

theorem memOk_licfOp {d a b : Nat} {s : State} (h : s.Formed) : (licfOp d a b s).Formed := by
  refine memOk_pre h ?_
  refine memOk_settle h ?_
  refine formed_ite (memOk_putILate h) ?_
  refine formed_ite (memOk_putILate h) ?_
  split
  · exact memOk_putILate h
  · exact memOk_putThen h (fun _ ht => memOk_licOwe ht)

theorem memOk_ibpeekOp {d w : Nat} {s : State} (h : s.Formed) : (ibpeekOp d w s).Formed := memOk_pre h (memOk_putI h)

theorem memOk_takeHead {s : State} {n : Nat} {perform : Bool} (h : s.Formed) : (takeHead s n perform).Formed := by
  unfold takeHead
  split
  · exact h
  · exact memOk_ite (memOk_performWrite (memOk_modCore h)) (memOk_modCore h)

theorem memOk_ibtakeOp {d how : Nat} {s : State} (h : s.Formed) : (ibtakeOp d how s).Formed := by
  refine memOk_pre h ?_
  refine memOk_settle h ?_
  dsimp only
  split
  · exact memOk_putILate h
  · exact formed_ite h (memOk_putThen h (fun _ ht => memOk_takeHead ht))

theorem memOk_deferOp {d : Nat} {s : State} (h : s.Formed) : (deferOp d s).Formed := by
  refine memOk_pre h ?_
  refine memOk_settle h ?_
  dsimp only
  split
  · exact memOk_putI h
  · exact formed_ite (memOk_putI h) (formed_ite (memOk_putI h) (memOk_putFirst h (fun _ ht => memOk_modSlot (memOk_modCore ht))))

theorem memOk_writeBorrow {s : State} {n : Nat} {b : Borrow} (h : s.Formed) : (writeBorrow s n b).Formed :=
  formed_foldl (fun _ _ ht => memOk_ite (memOk_lineStore ht) ht) h

theorem memOk_releaseBorrow {s : State} {n k : Nat} (h : s.Formed) : (releaseBorrow s n k).Formed := by
  unfold releaseBorrow
  split
  · exact h
  · exact memOk_giveBack (memOk_writeBorrow h)

theorem memOk_leaveLicence {s : State} {n k : Nat} (h : s.Formed) : (leaveLicence s n k).Formed :=
  memOk_ite (memOk_licOwe h) (memOk_leaveWaiter h)

theorem memOk_saveThread {s : State} {n k cause value : Nat} (h : s.Formed) : (saveThread s n k cause value).Formed :=
  memOk_vacate (memOk_writeEstate (memOk_trapRecord (memOk_saveImage (memOk_releaseBorrow (memOk_leaveLicence h)))))

theorem memOk_evictGo {s : State} {n k : Nat} {park : Bool} (h : s.Formed) : (evictGo s n k park).Formed :=
  memOk_ite (memOk_modThread (memOk_saveThread (memOk_traceAuto h))) (memOk_enterThread (memOk_saveThread (memOk_traceAuto h)))

theorem memOk_evictOp {d a how : Nat} {s : State} (h : s.Formed) : (evictOp d a how s).Formed := by
  refine memOk_pre h ?_
  refine memOk_settle h ?_
  refine formed_ite (memOk_putILate h) ?_
  refine formed_ite (memOk_putILate h) ?_
  refine formed_ite h ?_
  split
  · exact memOk_putILate h
  · refine memOk_putThen h ?_
    intro _ ht1
    split
    next heq1 =>
      have ht2 := OkOf.ok heq1 (memOk_writeMapRecord ht1)
      exact memOk_evictGo ht2
    · exact ht1

theorem memOk_traceOp {a kind : Nat} {s : State} (h : s.Formed) : (traceOp a kind s).Formed := memOk_pre h (memOk_settle h (memOk_traceWrite h))

/-! ## Dispatch -/

theorem memOk_runEvent {ok : Bool} {f : State → State} {s : State} (hf : ∀ t, t.Formed → (f t).Formed) (h : s.Formed) :
    NextFormed (runEvent ok f s) :=
  memOk_ite (hf _ h) h

theorem memOk_submissionGo {s : State} {n : Nat} (h : s.Formed) : (submissionGo s n).Formed := by
  unfold submissionGo
  split
  · split
    · exact memOk_modSlot h
    · exact memOk_ite (memOk_acceptTask (memOk_sendReply (memOk_acquire h))) (memOk_sendReply (memOk_refuseRecord h))
  · exact h

theorem memOk_decrementGo {s : State} {pa : Nat} {bereaved : Bool} (h : s.Formed) : (decrementGo s pa bereaved).Formed := by
  unfold decrementGo
  split
  · exact memOk_decrementTask h
  · exact h

theorem memOk_enterGroup {s : State} {d : Deal} {ms : List Member} {size base : Nat} {hs1' : List (BitVec 32)} (h : s.Formed) :
    (enterGroup s d ms size base hs1').Formed :=
  memOk_modTask (formed_foldl (fun _ _ ht => memOk_enterRun (memOk_newThread ht)) (memOk_ite h h))

theorem memOk_dealt {s : State} {id : Nat} (h : s.Formed) : (dealt s id).Formed := memOk_ite (memOk_endTask (memOk_modTask h)) (memOk_modTask h)

theorem memOk_dealGo {s : State} {d : Deal} {fuel : Nat} (h : s.Formed) : FstFormed (dealGo s d fuel) := by
  induction fuel generalizing s d with
  | zero =>
    rw [dealGo]
    exact h
  | succ k ih =>
    rw [dealGo]
    refine formed_ite (memOk_dealt h) ?_
    dsimp only
    refine formed_ite h ?_
    split
    next heq =>
      have ht := SomeOf.some heq (by
          split
          · exact memOk_takeImages h
          · exact trivial)
      exact ih (memOk_enterGroup ht)
    · exact formed_ite h (memOk_inboxSend h)

theorem memOk_holdDeal {s : State} {w : Nat} {d : Deal} (h : s.Formed) : (holdDeal s w d).Formed := memOk_modTask (memOk_modTower h)

theorem memOk_dealTask {s : State} {n : Nat} (h : s.Formed) : (dealTask s n).Formed := by
  unfold dealTask
  refine memOk_ite h ?_
  split
  · split
    · exact h
    · extract_lets -underBinder _ s1 s2 s3
      have hs2 : s2.Formed := memOk_writeStatus (memOk_modTask h)
      have hs3 : s3.Formed := memOk_ite (memOk_openInterval hs2) hs2
      refine memOk_ite (memOk_removeRun h) ?_
      split
      next heq2 =>
        have ht := formed_of_eq heq2 (memOk_dealGo hs3)
        exact ht
      next heq2 =>
        have ht := formed_of_eq heq2 (memOk_dealGo hs3)
        exact memOk_holdDeal ht
  · exact h

theorem memOk_dealResume {s : State} {i : Nat} (h : s.Formed) : (dealResume s i).Formed := by
  unfold dealResume
  split
  · exact h
  · split
    next heq1 =>
      have ht := formed_of_eq heq1 (memOk_dealGo (memOk_modTower h))
      exact ht
    next heq1 =>
      have ht := formed_of_eq heq1 (memOk_dealGo (memOk_modTower h))
      exact memOk_holdDeal ht

theorem memOk_successorStart {s : State} {id : Nat} (h : s.Formed) : (successorStart s id).Formed :=
  memOk_ite h (memOk_modTask (formed_foldl (fun _ _ ht => formed_foldl (fun _ _ ht1 => memOk_release ht1) ht) h))

theorem memOk_loadMap {s : State} {n k : Nat} {resume : Bool} {ptr pc : Word} (h : s.Formed) : (loadMap s n k resume ptr pc).Formed := by
  refine memOk_ite (memOk_trapUser h) ?_
  split
  next heq =>
    have ht := formed_of_eq heq (memOk_readMapRecord h)
    exact memOk_trapUser ht
  next heq =>
    have ht := formed_of_eq heq (memOk_readMapRecord h)
    split
    · exact memOk_trapUser ht
    next heq1 =>
      have ht1 := OkOf.ok heq1 (memOk_mapInstall ht)
      exact ht1

theorem memOk_deliverUser {s : State} {img fuel : Nat} (h : s.Formed) : (deliverUser s img fuel).Formed := by
  induction fuel generalizing s with
  | zero =>
    rw [deliverUser]
    exact h
  | succ k ih =>
    rw [deliverUser]
    exact memOk_ite (ih (memOk_giveUser h)) (memOk_modCore h)

theorem memOk_noteRan {s : State} {n : Nat} {t : Thread} (h : s.Formed) : (noteRan s n t).Formed := by
  unfold noteRan
  split
  · exact memOk_modTask h
  · exact h

theorem memOk_startThread {s : State} {n k img : Nat} (h : s.Formed) : (startThread s n k img).Formed :=
  memOk_deliverUser (memOk_loadMap (memOk_modCore
      (memOk_acquire (memOk_modThread (memOk_modSlot (memOk_noteRan (memOk_clearFormer (memOk_removeRun h))))))))

theorem memOk_placeSaved {s : State} {n k img : Nat} (h : s.Formed) : (placeSaved s n k img).Formed := by
  refine memOk_loadMap ?_
  refine memOk_modThread ?_
  refine memOk_modCore ?_
  split
  · exact memOk_modSlot (memOk_modSlot (memOk_noteRan (memOk_removeRun h)))
  · exact memOk_modSlot (memOk_noteRan (memOk_removeRun h))

theorem memOk_resumeThread {s : State} {n k img : Nat} (h : s.Formed) : (resumeThread s n k img).Formed :=
  memOk_ite (memOk_deliverUser (memOk_modSlot (memOk_placeSaved (memOk_ite h (memOk_imageWrite (memOk_imageWrite h))))))
      (memOk_ite h (memOk_deliverUser (memOk_dueAgain
      (memOk_tryRestore (memOk_enterOwed (memOk_pendingWrites
      (memOk_modSlot (memOk_placeSaved (memOk_ite h (memOk_imageWrite (memOk_imageWrite h)))))))))))

theorem memOk_slotFill {s : State} {n : Nat} (h : s.Formed) : (slotFill s n).Formed := by
  unfold slotFill
  split
  · exact memOk_ite h (memOk_ite (memOk_startThread h) (memOk_ite (memOk_resumeThread h) h))
  · exact h

theorem memOk_resumeAfterWriteback {s : State} {n i : Nat} (h : s.Formed) : (resumeAfterWriteback s n i).Formed := by
  unfold resumeAfterWriteback
  split
  · exact memOk_ite h (memOk_resumeThread (memOk_release (memOk_dropRows (formed_foldl (fun _ _ ht => memOk_writeRows ht) h))))
  · exact h

theorem memOk_promoteThread {s : State} {n : Nat} {e : RunEntry} (h : s.Formed) : (promoteThread s n e).Formed := by
  unfold promoteThread
  split
  · exact h
  · exact memOk_imageWrite (memOk_modThread h)

theorem memOk_agePromote {s : State} {n i : Nat} (h : s.Formed) : (agePromote s n i).Formed := by
  unfold agePromote
  dsimp only
  split
  · exact memOk_ite (memOk_promoteThread (memOk_modCore h)) h
  · split
    · exact memOk_ite (memOk_promoteThread (memOk_modTower h)) h
    · exact h

theorem memOk_callEntryTake {s : State} {n : Nat} (h : s.Formed) : (callEntryTake s n).Formed := by
  unfold callEntryTake
  split
  · exact h
  next e r _ =>
    extract_lets -underBinder from_
    refine memOk_ite h ?_
    have himage : SomeOf FstFormed (match from_ with | some c => takeImage s c | none => none) := by
      clear_value from_
      cases from_ with
      | some c => exact memOk_takeImage h
      | none => exact trivial
    split
    · exact memOk_ite h (memOk_modCore (memOk_inboxSend h))
    next t x heq =>
      have ht := SomeOf.some heq himage
      exact memOk_wakeCaller (memOk_enterThread (memOk_modCore (memOk_newThread ht)))

theorem memOk_overflowEnter {s : State} {w : Nat} (h : s.Formed) : (overflowEnter s w).Formed := by
  unfold overflowEnter
  split
  · exact h
  · exact memOk_modCore (memOk_modTower h)

theorem memOk_wakeRecheck {s : State} {n k : Nat} (h : s.Formed) : (wakeRecheck s n k).Formed := memOk_ite (memOk_modThread (memOk_modSlot h)) h

theorem memOk_eccCount {s : State} {n lo what : Nat} (h : s.Formed) : (eccCount s n lo what).Formed := memOk_setCtrl h

theorem memOk_eccNote {s : State} {n what : Nat} (h : s.Formed) : (eccNote s n what).Formed := memOk_eccCount h

theorem memOk_rowFill {s : State} {n k : Nat} {bad : Bool} (h : s.Formed) : (rowFill s n k bad).Formed := by
  unfold rowFill
  split
  · exact h
  · exact memOk_ite h (memOk_ite (memOk_fillRow (memOk_ite (memOk_eccNote h) h)) (memOk_fillBorrow (memOk_ite (memOk_eccNote h) h)))

theorem memOk_writeSavedBorrow {s : State} {n img : Nat} (h : s.Formed) : (writeSavedBorrow s n img).Formed := by
  unfold writeSavedBorrow
  split
  · exact h
  · exact memOk_modThread (memOk_writeBorrow h)

theorem memOk_rowIdleWriteback {s : State} {n i : Nat} (h : s.Formed) : (rowIdleWriteback s n i).Formed := by
  unfold rowIdleWriteback
  dsimp only
  split
  · exact memOk_writeRows h
  · split
    · exact memOk_writeSavedBorrow h
    · exact h

theorem memOk_repackSpoil {s : State} {n k : Nat} {bad : BitVec 32} (h : s.Formed) : (repackSpoil s n k bad).Formed := by
  unfold repackSpoil
  split
  · exact memOk_modSlot (memOk_eccNote h)
  · exact h

theorem memOk_bumpMapGen {s : State} {n : Nat} (h : s.Formed) : (bumpMapGen s n).Formed := memOk_modCore h

theorem memOk_completeRepack {s : State} {n k : Nat} (h : s.Formed) : (completeRepack s n k).Formed := by
  unfold completeRepack
  split
  · exact h
  · split
    · exact memOk_bumpMapGen (memOk_modSlot (formed_foldl (fun _ _ ht => memOk_roomForRow ht) (memOk_modSlot (memOk_modifyName h))))
    · exact memOk_bumpMapGen (memOk_modCore (memOk_modSlot (memOk_modifyName h)))
    · exact memOk_bumpMapGen (memOk_bumpMapGen (memOk_modPair (memOk_modSlot (memOk_modifyName h))))

theorem memOk_repackSlot {s : State} {n k : Nat} (h : s.Formed) : (repackSlot s n k).Formed := by
  unfold repackSlot
  split
  · exact memOk_ite (memOk_completeRepack h) h
  · exact h

theorem memOk_repackDone {s : State} {n : Nat} (h : s.Formed) : (repackDone s n).Formed := formed_foldl (fun _ _ ht => memOk_repackSlot ht) h

theorem memOk_messageDeliver {s : State} {n ch i : Nat} (h : s.Formed) : (messageDeliver s n ch i).Formed := by
  unfold messageDeliver
  dsimp only
  split
  · exact memOk_ite h (memOk_ite (memOk_wakeRecv (memOk_modCore h)) (memOk_wakeRecv (memOk_modCore h)))
  · exact h

/-! ## The fetch -/

theorem memOk_codeLine {s : State} {n a : Nat} (h : s.Formed) : FstFormed (codeLine s n a) := by
  unfold codeLine
  split
  next heq =>
    have ht := formed_of_eq heq (memOk_l2Fetch h)
    split
    · exact formed_ite h (formed_ite (memOk_ticked h) (memOk_modCore (memOk_ticked ht)))
    · exact memOk_modCore ht

theorem memOk_fetchParcel {s : State} {n k va : Nat} {len32 : Bool} (h : s.Formed) : (fetchParcel s n k va len32).Formed := by
  refine formed_ite h ?_
  split
  · exact h
  next heq =>
    have ht := Xlat.Formed.ok heq (memOk_translate h)
    refine formed_ite ht ?_
    refine formed_ite ht ?_
    split
    · refine formed_ite ht ?_
      dsimp only
      exact formed_ite ((memOk_codeLine ht).fst) ((memOk_codeLine ht).fst)
    · refine formed_ite ht ?_
      dsimp only
      exact formed_ite ((memOk_codeLine ht).fst) ((memOk_codeLine ht).fst)
    · split
      next heq2 =>
        have ht1 := Access.Formed.ok heq2 (memOk_windowRead ht)
        exact formed_ite ht1 ht1
      next heq2 =>
        have ht1 := Access.Formed.wait heq2 (memOk_windowRead ht)
        exact ht1
      · exact ht
      next heq2 =>
        have ht1 := Access.Formed.remote heq2 (memOk_windowRead ht)
        exact ht1
    · exact formed_ite ht ht
    · exact memOk_ticked ht
    · exact ht

theorem memOk_fetchBytes {s : State} {n k va : Nat} (h : s.Formed) : (fetchBytes s n k va).Formed := by
  refine formed_ite h ?_
  split
  next heq =>
    have ht := Fetched.Formed.wait heq (memOk_fetchParcel h)
    exact ht
  next heq =>
    have ht := Fetched.Formed.trap heq (memOk_fetchParcel h)
    exact ht
  next heq =>
    have ht := Fetched.Formed.ok heq (memOk_fetchParcel h)
    refine formed_ite ?_ ht
    split
    next heq1 =>
      have ht1 := Fetched.Formed.wait heq1 (memOk_fetchParcel ht)
      exact ht1
    next heq1 =>
      have ht1 := Fetched.Formed.trap heq1 (memOk_fetchParcel ht)
      exact ht1
    next heq1 =>
      have ht1 := Fetched.Formed.ok heq1 (memOk_fetchParcel ht)
      exact ht1

theorem memOk_fetchInstr {s : State} {n k va : Nat} (h : s.Formed) : (fetchInstr s n k va).Formed := by
  unfold fetchInstr
  split
  next heq =>
    have ht := Fetched.Formed.wait heq (memOk_fetchBytes h)
    exact ht
  next heq =>
    have ht := Fetched.Formed.trap heq (memOk_fetchBytes h)
    exact ht
  next heq =>
    have ht := Fetched.Formed.ok heq (memOk_fetchBytes h)
    split <;> exact ht

/-! ## Events of a core -/

theorem memOk_resultArrival {s : State} {n k i : Nat} (h : s.Formed) : (resultArrival s n k i).Formed := by
  unfold resultArrival
  split
  · exact memOk_ite h (memOk_modSlot (memOk_writeBits h))
  · exact h

theorem memOk_timerExpire {s : State} {n k : Nat} (h : s.Formed) : (timerExpire s n k).Formed :=
  memOk_ite (memOk_ite (memOk_modSlot (memOk_modSlot h)) (memOk_modCore (memOk_modSlot h))) h

theorem memOk_takePreempt {s : State} {n k value : Nat} (h : s.Formed) : (takePreempt s n k value).Formed :=
  memOk_modSlot (memOk_ticked (memOk_trapUser (memOk_dropWaits h)))

theorem memOk_preemptTake {s : State} {n k : Nat} (h : s.Formed) : (preemptTake s n k).Formed := memOk_ite (memOk_takePreempt h) h

theorem memOk_preemptForce {s : State} {n k : Nat} (h : s.Formed) : (preemptForce s n k).Formed := memOk_ite (memOk_takePreempt h) h

theorem memOk_resetMap {s : State} {n : Nat} (h : s.Formed) : OkOf State.Formed (resetMap s n) := by
  refine formed_ite (memOk_modSlot h) ?_
  refine formed_ite trivial ?_
  split
  · exact trivial
  · refine formed_ite trivial ?_
    split
    · exact trivial
    · split
      next heq2 =>
        have ht := OkOf.ok heq2 (memOk_mapInstall h)
        exact memOk_modSlot ht
      · exact trivial

theorem memOk_systemEventBegin {s : State} {n : Nat} (h : s.Formed) : (systemEventBegin s n).Formed := by
  refine memOk_ite h ?_
  split
  · exact h
  · refine memOk_ite (memOk_modSlot (memOk_modCore h)) ?_
    split
    next heq1 =>
      have ht := OkOf.ok heq1 (memOk_resetMap (memOk_modSlot (memOk_modCore h)))
      exact ht
    · exact memOk_trapSystem (memOk_modSlot (memOk_modCore h))

theorem memOk_systemSlotRestart {s : State} {n : Nat} (h : s.Formed) : (systemSlotRestart s n).Formed :=
  memOk_ite (memOk_systemEventBegin (memOk_modSlot (memOk_modCore h))) h

theorem memOk_lastSteps {s : State} {img : Nat} (h : s.Formed) : (lastSteps s img).Formed := by
  unfold lastSteps
  dsimp only
  split
  · exact memOk_threadGone h
  · exact memOk_ite (memOk_threadGone (memOk_wakeSender (memOk_reserveMsg (memOk_dropSender h)))) (memOk_noteSender h)

theorem memOk_conveyStep {s : State} {i : Nat} (h : s.Formed) : (conveyStep s i).Formed := by
  unfold conveyStep
  split
  · exact h
  · refine memOk_ite h ?_
    split
    · exact memOk_ite h (memOk_lastSteps h)
    · refine memOk_ite h ?_
      split
      next heq2 =>
        have ht := Convey.Formed.wait heq2 (memOk_conveyOne h)
        exact ht
      next heq2 =>
        have ht := Convey.Formed.ok heq2 (memOk_conveyOne h)
        exact memOk_estateDrop ht
      next heq2 =>
        have ht := Convey.Formed.stale heq2 (memOk_conveyOne h)
        exact memOk_estateDrop (memOk_convFault ht)
      · exact memOk_estateDrop (memOk_convFault (memOk_dropCall h))

theorem memOk_dualMismatch {s : State} {e : DualEffect} (h : s.Formed) : (dualMismatch s e).Formed := by
  unfold dualMismatch
  dsimp only
  split
  · refine memOk_killThread ?_
    split
    · refine memOk_killThread ?_
      split <;> split <;> exact h
    · split <;> split <;> exact h
  · split
    · refine memOk_killThread ?_
      split <;> split <;> exact h
    · split <;> split <;> exact h

theorem memOk_dualCompare {s : State} {task group : Nat} (h : s.Formed) : (dualCompare s task group).Formed := by
  unfold dualCompare
  dsimp only
  split
  · exact h
  · split
    · exact h
    · exact memOk_ite h (memOk_dualMismatch h)

theorem memOk_dualTimeout {s : State} {task group : Nat} (h : s.Formed) : (dualTimeout s task group).Formed := by
  unfold dualTimeout
  dsimp only
  split
  · exact h
  · exact memOk_dualMismatch h

end Sys2Proof.Machine
end


section
/-! SUPPORT. The events of the engines, the host, the platform and the fabric keep the form of memory (R7). -/

namespace Sys2Proof.Machine

/-! ## Events of the engines -/

theorem memOk_cmdEvent {s : State} {n i : Nat} {ok : Cmd → Bool} {f : State → Cmd → State} (h : s.Formed)
    (hf : ∀ t x, t.Formed → (f t x).Formed) : (cmdEvent s n i ok f).Formed := by
  unfold cmdEvent
  split
  · exact memOk_ite (hf _ _ h) h
  · exact h

theorem memOk_setfTakeEffect {s : State} {n i : Nat} (h : s.Formed) : (setfTakeEffect s n i).Formed :=
  memOk_cmdEvent h (fun _ _ ht => memOk_dropCmd (memOk_performSetf ht))

theorem memOk_streamStart {s : State} {n i : Nat} (h : s.Formed) : (streamStart s n i).Formed :=
  memOk_cmdEvent h (fun _ _ ht => memOk_startCmd ht)

theorem memOk_streamComplete {s : State} {n i : Nat} (h : s.Formed) : (streamComplete s n i).Formed :=
  memOk_cmdEvent h (fun _ _ ht => memOk_endCmd (memOk_landRest ht (fun _ ht1 => memOk_performStream ht1)))

theorem memOk_chunkRelease {s : State} {n i : Nat} (h : s.Formed) : (chunkRelease s n i).Formed :=
  memOk_cmdEvent h (fun _ _ ht => memOk_modCmd (memOk_acquire (memOk_ticked ht)))

theorem memOk_copyStarts {s : State} {n i : Nat} (h : s.Formed) : (copyStarts s n i).Formed := memOk_cmdEvent h (fun _ _ ht => memOk_copyStart ht)

theorem memOk_copyEnds {s : State} {n i : Nat} (h : s.Formed) : (copyEnds s n i).Formed := memOk_cmdEvent h (fun _ _ ht => memOk_copyComplete ht)

theorem memOk_collStarts {s : State} {n i : Nat} (h : s.Formed) : (collStarts s n i).Formed := memOk_cmdEvent h (fun _ _ ht => memOk_collStart ht)

theorem memOk_chunkLands {s : State} {n i k : Nat} (h : s.Formed) : (chunkLands s n i k).Formed :=
  memOk_cmdEvent h (fun _ _ ht => memOk_landChunk ht)

theorem memOk_switchTimeout {s : State} {n i : Nat} (h : s.Formed) : (switchTimeout s n i).Formed :=
  memOk_cmdEvent h (fun _ _ ht => memOk_collTimeout ht)

theorem memOk_hostSends {s : State} {n i : Nat} (h : s.Formed) : (hostSends s n i).Formed := memOk_cmdEvent h (fun _ _ ht => memOk_hostSend ht)

theorem memOk_xformStarts {s : State} {n i : Nat} (h : s.Formed) : (xformStarts s n i).Formed :=
  memOk_cmdEvent h (fun _ _ ht => memOk_xformStartCmd ht)

theorem memOk_xformEnds {s : State} {n i : Nat} (h : s.Formed) : (xformEnds s n i).Formed := memOk_cmdEvent h (fun _ _ ht => memOk_xformEnd ht)

theorem memOk_matrixStarts {s : State} {n i : Nat} (h : s.Formed) : (matrixStarts s n i).Formed := by
  refine memOk_cmdEvent h ?_
  intro _ _ ht
  split
  · exact memOk_ite (memOk_performMatrix ht) ht
  · exact memOk_matrixStart ht

theorem memOk_mmaEnds {s : State} {n i : Nat} (h : s.Formed) : (mmaEnds s n i).Formed := memOk_cmdEvent h (fun _ _ ht => memOk_performMatrix ht)

theorem memOk_mcastExpires {s : State} {n i : Nat} (h : s.Formed) : (mcastExpires s n i).Formed :=
  memOk_cmdEvent h (fun _ _ ht => memOk_mcastExpire ht)

theorem memOk_matrixEnds {s : State} {n i : Nat} {op : CmdOp → Bool} (h : s.Formed) : (matrixEnds s n i op).Formed :=
  memOk_cmdEvent h (fun _ _ ht => memOk_performMatrix ht)

theorem memOk_markerFires {s : State} {n i : Nat} (h : s.Formed) : (markerFires s n i).Formed :=
  memOk_cmdEvent h (fun _ _ ht => memOk_performMatrix ht)

theorem memOk_landUnit {s : State} {n : Nat} {c : Cmd} {part u : Nat} (h : s.Formed) : (landUnit s n c part u).Formed := by
  unfold landUnit
  split
  · exact memOk_copySome h
  · exact memOk_chunkSome h
  · exact memOk_xformSome h
  · exact memOk_matrixSome h
  · exact memOk_matrixSome h
  · exact memOk_matrixSome h
  · exact memOk_matrixSome h
  · exact memOk_ite (memOk_streamSome h) h

theorem memOk_engineProgress {s : State} {n i part u : Nat} (h : s.Formed) : (engineProgress s n i part u).Formed :=
  memOk_cmdEvent h (fun _ _ ht => memOk_landUnit ht)

theorem memOk_parks {s : State} {n i : Nat} (h : s.Formed) : (parks s n i).Formed := memOk_cmdEvent h (fun _ _ ht => memOk_parkCmd ht)

theorem memOk_termEnds {s : State} {p : Nat} (h : s.Formed) : (termEnds s p).Formed := by
  unfold termEnds
  dsimp only
  split
  · exact h
  · exact memOk_ite (memOk_modReq (memOk_modPair h)) h

theorem memOk_drainGrant {s : State} {p : Nat} (h : s.Formed) : (drainGrant s p).Formed := by
  refine memOk_ite h ?_
  split
  · exact memOk_licGrant (memOk_modPair h)
  · exact memOk_modPair h

/-! ## Host commands and the controller -/

theorem memOk_hcRefuse {s : State} {q : Nat} {c : BitVec 512} (h : s.Formed) : (hcRefuse s q c).Formed := memOk_sendReply h

theorem memOk_hostCommand {want : Nat} {s : State} {q : Nat} {c : BitVec 512} {act : State → State} (h : s.Formed)
    (hact : ∀ t, t.Formed → (act t).Formed) : (hostCommand want s q c act).Formed :=
  memOk_ite h (memOk_ite (memOk_ite (memOk_hcRefuse h) h) (memOk_ite h (memOk_ite (memOk_hcRefuse h) (hact _ h))))

theorem memOk_hostSubmit {s : State} {q : Nat} {c : BitVec 512} (h : s.Formed) : (hostSubmit s q c).Formed := by
  refine memOk_hostCommand h ?_
  intro _ ht
  split
  · exact memOk_hcRefuse ht
  · refine memOk_ite (memOk_hcRefuse (memOk_refuseRecord ht)) ?_
    split
    · exact memOk_hcRefuse ht
    · split
      · exact ht
      · exact memOk_acceptTask (memOk_sendReply (memOk_acquire ht))

theorem memOk_hostDecr {s : State} {q : Nat} {c : BitVec 512} (h : s.Formed) : (hostDecr s q c).Formed := by
  refine memOk_hostCommand h ?_
  intro _ ht
  split
  · exact memOk_hcRefuse ht
  · exact memOk_sendReply (memOk_decrementTask ht)

theorem memOk_hostClose {s : State} {q : Nat} {c : BitVec 512} (h : s.Formed) : (hostClose s q c).Formed :=
  memOk_hostCommand h (fun _ ht => memOk_teardown ht)

theorem memOk_hostReset {s : State} {q : Nat} {c : BitVec 512} (h : s.Formed) : (hostReset s q c).Formed :=
  memOk_hostCommand h (fun _ ht => memOk_teardown ht)

theorem memOk_hqctlReq {req : Nat} {s : State} {q : Nat} {v : Word} (h : s.Formed) : (hqctlReq req s q v).Formed :=
  memOk_ite (memOk_hqctlWrite h) h

theorem memOk_refuseWaiting {s : State} {q : Nat} (h : s.Formed) : (refuseWaiting s q).Formed := by
  refine formed_foldl ?_ h
  intro _ _ ht
  split
  · exact memOk_sendReply (memOk_refuseRecord ht)
  · exact ht

theorem memOk_taskReplies {s : State} {q : Nat} (h : s.Formed) : (taskReplies s q).Formed := by
  refine formed_foldl ?_ h
  intro _ _ ht
  split
  · exact memOk_sendReply (memOk_modTask ht)
  · exact ht

theorem memOk_teardownComplete {s : State} {q : Nat} (h : s.Formed) : (teardownComplete s q).Formed :=
  memOk_ite h (memOk_ite (memOk_openQueue (memOk_sendReply (memOk_ticked (memOk_taskReplies (memOk_refuseWaiting h)))))
      (memOk_modQueue (memOk_sendReply (memOk_ticked (memOk_taskReplies (memOk_refuseWaiting h))))))

theorem memOk_writeEndpoint {s : State} {e v : Nat} (h : s.Formed) : (writeEndpoint s e v).Formed := memOk_physWrite h

theorem memOk_endpointInstall {s : State} {e : Nat} {ctx : BitVec 16} {host : BitVec 32} (h : s.Formed) : (endpointInstall s e ctx host).Formed :=
  memOk_ite (memOk_writeEndpoint h) h

theorem memOk_endpointRevoke {s : State} {e : Nat} (h : s.Formed) : (endpointRevoke s e).Formed :=
  memOk_ite h (memOk_teardownAll (memOk_writeEndpoint h))

theorem memOk_revokeAll {s : State} (h : s.Formed) : (revokeAll s).Formed := formed_foldl (fun _ _ ht => memOk_endpointRevoke ht) h

theorem memOk_fwdogKick {s : State} {v : Word} (h : s.Formed) : (fwdogKick s v).Formed := memOk_ite (memOk_ctrlWrite h) h

theorem memOk_fwdogExpire {s : State} (h : s.Formed) : (fwdogExpire s).Formed := memOk_ite h h

theorem memOk_firmwareVerify {s : State} {pss slh : Bool} {version : Nat} (h : s.Formed) : (firmwareVerify s pss slh version).Formed :=
  memOk_ite h h

theorem memOk_attestationReport {s : State} {nonce : BitVec 256} (h : s.Formed) : (attestationReport s nonce).Formed := memOk_ite h h

theorem memOk_clearEndpoints {s : State} (h : s.Formed) : (clearEndpoints s).Formed := h

theorem memOk_lockDown {s : State} (h : s.Formed) : (lockDown s).Formed := h

theorem memOk_alarmRaise {s : State} {source : Nat} (h : s.Formed) : (alarmRaise s source).Formed := by
  unfold alarmRaise
  extract_lets level noted checked torn revoked
  have hchecked : checked.Formed := memOk_machineCheck h
  have htorn : torn.Formed := memOk_ite (memOk_teardownAll hchecked) hchecked
  have hrevoked : revoked.Formed := memOk_ite (memOk_clearEndpoints (memOk_revokeAll htorn)) htorn
  exact memOk_ite (memOk_lockDown hrevoked) hrevoked

theorem memOk_coldStart {s : State} : (coldStart s).Formed := memOk_reset

/-! ## Platform writes, pools and lines -/

theorem memOk_poolLineWriteback {s : State} {t line : Nat} {bad : Bool} (h : s.Formed) : (poolLineWriteback s t line bad).Formed := by
  unfold poolLineWriteback
  dsimp only
  split
  · exact h
  · exact memOk_ite h (memOk_ite (memOk_llcEvict (formed_setLlc (memOk_machineCheck h)) _) (memOk_llcEvict h _))

theorem memOk_shadowReplay {s : State} {t slice : Nat} (h : s.Formed) : (shadowReplay s t slice).Formed :=
  memOk_modTower (formed_foldl (fun _ _ ht => memOk_chanWrite (formed_foldl (fun _ _ ht1 => memOk_writeChunk ht1 _ _) ht) _ _ _) h)

theorem memOk_poolHotExpire {s : State} {t line : Nat} (h : s.Formed) : (poolHotExpire s t line).Formed := by
  unfold poolHotExpire
  dsimp only
  split
  · exact h
  · exact memOk_ite h (memOk_ite (memOk_chanWrite (memOk_modTower h) _ _ _) (memOk_modTower h))

theorem memOk_poolAct {s : State} {t i : Nat} {v : Word} (h : s.Formed) : (poolAct s t i v).Formed := memOk_poolWrite h

theorem memOk_lineWriteBack {s : State} {level unit_ a : Nat} {bad : Bool} (h : s.Formed) : (lineWriteBack s level unit_ a bad).Formed := by
  unfold lineWriteBack
  split
  · split
    · exact h
    · extract_lets -underBinder bad' noted
      have hnoted : noted.Formed := memOk_ite (memOk_eccNote (memOk_machineCheck h)) h
      clear_value noted
      exact memOk_ite h (memOk_l1Drop (memOk_l1ToL2 (memOk_modCore hnoted)))
  · split
    · exact h
    · extract_lets -underBinder bad' noted
      have hnoted : noted.Formed := memOk_ite (memOk_machineCheck h) h
      clear_value noted
      exact memOk_ite h (memOk_modCluster (memOk_l2ToHome (memOk_modCluster hnoted)))
  · split
    · exact h
    · extract_lets -underBinder l' noted stored
      have hnoted : noted.Formed := memOk_ite (memOk_machineCheck h) h
      have hstored : stored.Formed := memOk_storeHome hnoted _ _ _ _
      clear_value stored
      exact memOk_ite (memOk_ite (memOk_dropPool h) h) (memOk_ite (formed_setLlc h) (formed_setLlc hstored))

theorem memOk_scrubPass {s : State} {line : Nat} {bad : Bool} (h : s.Formed) : (scrubPass s line bad).Formed := memOk_ite h h

theorem memOk_flawRow {s : State} {n k r : Nat} (h : s.Formed) : (flawRow s n k r).Formed := memOk_modSlot h

theorem memOk_flawAct {s : State} {a : Flaw} (h : s.Formed) : (flawAct s a).Formed := by
  unfold flawAct
  split
  · exact h
  · exact memOk_flawRow h
  · exact memOk_modCore h
  · exact memOk_modPair h
  · exact memOk_modCore h
  · exact memOk_modCore h
  · exact memOk_modCluster h
  · exact h
  · exact h
  · exact h
  · exact memOk_modCore h

theorem memOk_flaw {s : State} {f : Flaw} {old : Option (Nat × Nat)} (h : s.Formed) : (flaw s f old).Formed := by
  unfold flaw
  split
  · exact memOk_ite (memOk_eccCount (memOk_flawAct h)) (memOk_flawAct h)
  · exact memOk_ite (memOk_eccCount (memOk_flawAct h)) (memOk_flawAct h)
  · exact memOk_flawAct h

theorem memOk_forgetLine {s : State} {a : Nat} (h : s.Formed) : (forgetLine s a).Formed := memOk_ite h (memOk_dropPool h)

theorem memOk_replayPool {s : State} {a old : Nat} (h : s.Formed) : (replayPool s a old).Formed := by
  unfold replayPool
  split
  next heq => exact memOk_poolStore h _ _ _ _ _ heq
  next => exact memOk_poolKeep h

theorem memOk_replayLog {s : State} {ch : Nat} {ctx : BitVec 16} {id : BitVec 32} (h : s.Formed) : (replayLog s ch ctx id).Formed := by
  refine formed_foldl ?_ h
  intro _ _ ht
  split
  · exact ht
  · exact memOk_ite ht (memOk_chanWrite (memOk_ite (memOk_storeHome (memOk_forgetLine ht) _ _ _ _)
      (memOk_replayPool (memOk_forgetLine ht))) _ _ _)

theorem memOk_rollbackComplete {s : State} (h : s.Formed) : (rollbackComplete s).Formed :=
  memOk_ite h (formed_foldl (fun _ _ ht => memOk_replayLog ht) (memOk_mapTowers h))

theorem memOk_registerWrite {s : State} {off : Nat} {v : Word} {by_ : Nat} (h : s.Formed) : (registerWrite s off v by_).Formed :=
  memOk_ite h (memOk_ctrlWrite h)

theorem memOk_tlbshoot {sel : Nat} {s : State} {v : Word} (h : s.Formed) : (tlbshoot sel s v).Formed := memOk_ite (memOk_tlbshootWrite h) h

theorem memOk_tlbshootComplete {s : State} (h : s.Formed) : (tlbshootComplete s).Formed := memOk_ite (memOk_tlbshootDone h) h

theorem memOk_rollbackStart {s : State} {v : Word} (h : s.Formed) : (rollbackStart s v).Formed := memOk_ite (memOk_rollbackWrite h) h

theorem memOk_partctlOpen {s : State} {v : Word} (h : s.Formed) : (partctlOpen s v).Formed := memOk_partctlWrite h

theorem memOk_partctlClose {s : State} {v : Word} (h : s.Formed) : (partctlClose s v).Formed := memOk_partctlWrite h

theorem memOk_portLinkChange {s : State} {port : Nat} {up : Bool} (h : s.Formed) : (portLinkChange s port up).Formed := memOk_flushHeld h

theorem memOk_ucieFail {s : State} {m : Nat} (h : s.Formed) : (ucieFail s m).Formed := memOk_machineCheck (memOk_ticked h)

theorem memOk_ucieReturn {s : State} {m : Nat} (h : s.Formed) : (ucieReturn s m).Formed := h

/-! ## Power and thermal events -/

theorem memOk_toStepEight {s : State} {c : Nat} (h : s.Formed) : (toStepEight s c).Formed :=
  memOk_ite (memOk_modCluster h) (memOk_ite h (memOk_rampBegin h))

theorem memOk_toStepEights {s : State} {d : Nat} (h : s.Formed) : (toStepEights s d).Formed := formed_foldl (fun _ _ ht => memOk_toStepEight ht) h

theorem memOk_stopSite {s : State} {n : Nat} (h : s.Formed) : (stopSite s n).Formed :=
  formed_foldl (fun _ _ ht => memOk_dropCmd ht) (memOk_modCore h)

theorem memOk_inboxMove {s : State} {n : Nat} {e : InboxEntry × Option (Nat × Nat)} (h : s.Formed) : (inboxMove s n e).Formed := memOk_modCore h

theorem memOk_homeBorrow {s : State} {n img : Nat} {back : Bool} (h : s.Formed) : (homeBorrow s n img back).Formed := by
  unfold homeBorrow
  split
  · exact h
  · exact memOk_dropBorrow (memOk_imageWrite (memOk_ite (memOk_writeBorrow h) h))

theorem memOk_moveRunList {s : State} {n r : Nat} (h : s.Formed) : (moveRunList s n r).Formed :=
  formed_foldl (fun _ _ ht => memOk_enterRun ht) (memOk_modTower (memOk_modCore h))

theorem memOk_saveTiles {s : State} {n img : Nat} (h : s.Formed) : (saveTiles s n img).Formed :=
  formed_foldl (fun _ _ ht => memOk_tileCheck (formed_foldl (fun _ _ ht1 => memOk_physWrite ht1) ht)) h

theorem memOk_saveLicensed {s : State} {n k : Nat} (h : s.Formed) : (saveLicensed s n k).Formed :=
  memOk_ite (memOk_licOwe (memOk_modSlot (memOk_saveTiles h))) h

theorem memOk_saveAbsent {s : State} {n : Nat} (h : s.Formed) : (saveAbsent s n).Formed := by
  unfold saveAbsent
  split
  · exact h
  · exact memOk_ite (memOk_ite (memOk_licRelease h) h) (memOk_ite h (memOk_licOwe (memOk_imageWrite (memOk_saveTiles h))))

theorem memOk_moveThread {s : State} {n k r : Nat} (h : s.Formed) : (moveThread s n k r).Formed := by
  unfold moveThread
  extract_lets -underBinder x held licensed saved written
  have hsaved : saved.Formed := memOk_saveLicensed h
  have hwritten : written.Formed := memOk_ite (memOk_pendingWrites hsaved) (memOk_modSlot hsaved)
  have hmap : SomeOf State.Formed (if imageLost written n x.img then none else (writeMapRecord written n k).toOption) := by
    refine formed_ite trivial ?_
    have hrecord : OkOf State.Formed (writeMapRecord written n k) := memOk_writeMapRecord hwritten
    cases hr : writeMapRecord written n k with
    | error e => exact trivial
    | ok t =>
      have ht := OkOf.ok hr hrecord
      exact ht
  clear_value written
  refine memOk_ite h ?_
  split
  · exact memOk_killThread hwritten
  next t heq =>
    have ht := SomeOf.some heq hmap
    exact memOk_ite (memOk_inboxSend (memOk_modThread (memOk_modCore (memOk_saveThread ht)))) (memOk_enterThread (memOk_saveThread (memOk_ticked ht)))

theorem memOk_loseSite {s : State} {n : Nat} (h : s.Formed) : (loseSite s n).Formed :=
  memOk_modPair (memOk_ticked (memOk_modCore (memOk_release (formed_foldl (fun _ _ ht => memOk_writeRows ht) h))))

theorem memOk_emptySite {s : State} {n : Nat} (h : s.Formed) : (emptySite s n).Formed := by
  unfold emptySite
  split
  · exact memOk_loseSite (formed_foldl (fun _ _ ht => memOk_ite (memOk_killThread ht) ht) h)
  · exact memOk_loseSite (formed_foldl (fun _ _ ht => memOk_inboxMove ht)
      (memOk_modCore (memOk_moveRunList (formed_foldl (fun _ _ ht => memOk_homeBorrow ht)
      (memOk_saveAbsent (formed_foldl (fun _ _ ht => memOk_moveThread ht) h))))))

theorem memOk_heldGos {s : State} {d : Nat} (h : s.Formed) : (heldGos s d).Formed := by
  refine formed_foldl ?_ h
  intro _ _ ht
  split
  · exact memOk_ite ht (memOk_goActs ht)
  · exact ht

theorem memOk_offlineGo {s : State} {d : Nat} (h : s.Formed) : (offlineGo s d).Formed :=
  memOk_ite h (memOk_ite (memOk_ite (formed_foldl (fun _ _ ht => memOk_stopSite ht) h) h)
      (memOk_ite h (memOk_heldGos (memOk_modDie (formed_foldl (fun _ _ ht => memOk_emptySite ht) h)))))

theorem memOk_offlineBegin {s : State} {d : Nat} (h : s.Formed) : (offlineBegin s d).Formed :=
  memOk_offlineGo (memOk_toStepEights (memOk_modDie h))

theorem memOk_thermalOffline {s : State} {d temp : Nat} (h : s.Formed) : (thermalOffline s d temp).Formed :=
  memOk_ite (memOk_offlineGo h) (memOk_ite h (memOk_offlineBegin (memOk_modDie h)))

theorem memOk_thermalClamp {s : State} {d temp : Nat} (h : s.Formed) : (thermalClamp s d temp).Formed :=
  memOk_ite h (memOk_toStepEights (memOk_modDie h))

theorem memOk_cutDie {s : State} {d : Nat} (h : s.Formed) : (cutDie s d).Formed := by
  unfold cutDie
  extract_lets -underBinder ns cut away killed lost
  have haway : away.Formed := formed_foldl (fun _ _ ht => memOk_modCore ht) (memOk_modDie h)
  have hkilled : killed.Formed := formed_foldl (fun _ _ ht => formed_foldl (fun _ _ ht1 =>
    memOk_ite (memOk_ite (memOk_modSlot ht1) (memOk_killStop (memOk_killMark ht1))) ht1) ht) haway
  have hlost : lost.Formed := by
    refine formed_foldl (fun t n ht => memOk_loseSite (memOk_modCore ?_)) hkilled
    have hhome : State.Formed ((waitingThreads t n).foldl (fun s img => homeBorrow s n img false) t) :=
      formed_foldl (fun _ _ ht1 => memOk_homeBorrow ht1) ht
    split
    · exact memOk_moveRunList (formed_foldl (fun _ _ ht1 => memOk_inboxMove ht1) (memOk_modCore (memOk_modCore hhome)))
    · exact memOk_modCore hhome
  clear_value lost
  exact memOk_machineCheck (memOk_ticked hlost)

theorem memOk_thermalCut {s : State} {d temp : Nat} (h : s.Formed) : (thermalCut s d temp).Formed := memOk_ite h (memOk_cutDie (memOk_modDie h))

theorem memOk_offlineTimeout {s : State} {d : Nat} (h : s.Formed) : (offlineTimeout s d).Formed := memOk_ite (memOk_cutDie h) h

theorem memOk_warmZone {s : State} {d temp : Nat} (h : s.Formed) : (warmZone s d temp).Formed := memOk_ite h (memOk_modDie h)

theorem memOk_pwrreqGo {s : State} {c : Nat} {v : Word} (h : s.Formed) : (pwrreqGo s c v).Formed := memOk_ite (memOk_grantWrite h) h

theorem memOk_stepDown {s : State} {c : Nat} (h : s.Formed) : (stepDown s c).Formed :=
  memOk_ite (memOk_modCluster h) (memOk_rampBegin (memOk_modCluster h))

theorem memOk_rampComplete {s : State} {c : Nat} (h : s.Formed) : (rampComplete s c).Formed := by
  refine memOk_ite h ?_
  refine formed_foldl (fun _ _ ht => memOk_offlineGo ht) ?_
  refine memOk_ite (memOk_rampBegin (memOk_setCluster h)) ?_
  refine memOk_ite (memOk_stepDown (memOk_setCluster h)) ?_
  split
  · exact memOk_ite (memOk_modCluster (memOk_setCluster h)) (memOk_goActs (memOk_modCluster (memOk_setCluster h)))
  · exact memOk_modCluster (memOk_setCluster h)

theorem memOk_currentSample {s : State} {c amps : Nat} (h : s.Formed) : (currentSample s c amps).Formed :=
  memOk_ite h (memOk_ite (memOk_setCluster h) (memOk_ite (memOk_ite (memOk_setCluster h) (memOk_setCluster h)) (memOk_setCluster h)))

theorem memOk_currentStepDown {s : State} {c : Nat} (h : s.Formed) : (currentStepDown s c).Formed :=
  memOk_ite h (memOk_ite (memOk_setCluster h) (memOk_stepDown h))

theorem memOk_wrstGo {s : State} {d : Nat} {v : Word} (h : s.Formed) : (wrstGo s d v).Formed := memOk_ite (memOk_wrstWrite h) h

theorem memOk_emptyL2 {d : Nat} {s : State} {c : Nat} (h : s.Formed) : (emptyL2 d s c).Formed :=
  memOk_modCluster (formed_foldl (fun _ _ ht => memOk_l2ToHome ht) h)

theorem memOk_warmPhase {s : State} {d : Nat} {ok : Bool} (h : s.Formed) : (warmPhase s d ok).Formed := by
  unfold warmPhase
  split
  · exact h
  · exact memOk_ite (memOk_modDie h) (memOk_ite (memOk_ite (memOk_modDie (memOk_offlineGo h)) (memOk_offlineGo h)) (memOk_offlineBegin h))
  · exact memOk_ite (memOk_modDie (formed_foldl (fun _ _ ht => memOk_ite (memOk_killCmd ht) ht) h))
      (formed_foldl (fun _ _ ht => memOk_ite (memOk_killCmd ht) ht) h)
  · exact memOk_ite h (memOk_modDie (memOk_losePairs (formed_foldl (fun _ _ ht => memOk_emptyL2 ht) h)))
  · exact memOk_modDie h
  · exact memOk_ite (memOk_modDie h) (memOk_modDie (memOk_machineCheck (memOk_ticked h)))
  · exact memOk_modDie (memOk_bringUpDie h)

theorem memOk_dieReset {s : State} {d : Nat} (h : s.Formed) : (dieReset s d).Formed := memOk_ite h (memOk_bringUpDie h)

/-! ## A cycle of a pair -/

theorem memOk_timerTick {s : State} {n k : Nat} (h : s.Formed) : (timerTick s n k).Formed := memOk_ite (memOk_timerExpire (memOk_modSlot h)) h

theorem memOk_timersTick {s : State} {n : Nat} (h : s.Formed) : (timersTick s n).Formed := formed_foldl (fun _ _ ht => memOk_timerTick ht) h

theorem memOk_fillSlotTick {s : State} {n k : Nat} (h : s.Formed) : (fillSlotTick s n k).Formed :=
  memOk_ite (memOk_modSlot h) (memOk_ite (memOk_modSlot h) (formed_foldl (fun _ _ ht => memOk_ite (memOk_slotFill ht) ht) h))

theorem memOk_waitingTasks {s : State} {n : Nat} (h : s.Formed) : (waitingTasks s n).Formed :=
  formed_foldl (fun _ _ ht => memOk_ite (memOk_enterTask ht) ht) h

theorem memOk_dealTick {s : State} {n : Nat} (h : s.Formed) : (dealTick s n).Formed :=
  memOk_ite h (memOk_ite (memOk_dealTask h) (memOk_modCore h))

theorem memOk_ageTick {s : State} {n : Nat} (h : s.Formed) : (ageTick s n).Formed := by
  refine formed_foldl ?_ h
  intro _ _ ht
  split
  · exact memOk_agePromote ht
  · exact ht

theorem memOk_fillTick {s : State} {n : Nat} (h : s.Formed) : (fillTick s n).Formed :=
  formed_foldl (fun _ _ ht => memOk_fillSlotTick ht) (memOk_dealTick (memOk_waitingTasks (memOk_ageTick h)))

theorem memOk_currentTick {s : State} {n : Nat} (h : s.Formed) : (currentTick s n).Formed := by
  unfold currentTick
  exact memOk_rampComplete (memOk_currentStepDown (memOk_ite h (memOk_currentSample (memOk_ticked h))))

theorem memOk_beginCore {s : State} {n : Nat} (h : s.Formed) : (beginCore s n).Formed :=
  memOk_fillTick (memOk_currentTick (memOk_termEnds (memOk_timersTick (memOk_arrayTick (memOk_repackDone (memOk_modCore h))))))

theorem memOk_turnTick {s : State} {n : Nat} (h : s.Formed) : (turnTick s n).Formed := by
  unfold turnTick
  extract_lets -underBinder _ s1 s2 s3
  have hs1 : s1.Formed := memOk_ite (memOk_killGo h) h
  have hs2 : s2.Formed := memOk_preemptForce (memOk_preemptTake hs1)
  have hs3 : s3.Formed := memOk_ite (memOk_wakeRecheck hs2) hs2
  exact memOk_ite (memOk_systemEventBegin hs3) hs3

theorem formed_setAgenda {s : State} {l : List Move} (h : s.Formed) : State.Formed { s with agenda := l } := h

theorem memOk_startCycle {s : State} {n : Nat} (h : s.Formed) : (startCycle s n).Formed :=
  formed_setAgenda (memOk_turnTick (memOk_turnTick (memOk_commitCore (memOk_commitCore (memOk_beginCore (memOk_beginCore h))))))

theorem memOk_beginTurn {s : State} {n k : Nat} (h : s.Formed) : (beginTurn s n k).Formed := h

theorem memOk_freeTick {s : State} (h : s.Formed) : (freeTick s).Formed := h

/-! ## Packets that arrive -/

theorem memOk_countDrop {s : State} (h : s.Formed) : (countDrop s).Formed := by
  unfold countDrop
  split <;> exact h

theorem memOk_dropPlace {s : State} {n ch party id : Nat} (h : s.Formed) : (dropPlace s n ch party id).Formed := memOk_modCore h

theorem memOk_deliverMsg {s : State} {p : Packet} (h : s.Formed) : (deliverMsg s p).Formed := by
  unfold deliverMsg
  extract_lets k there
  have hthere : SomeOf FstFormed there := by
    unfold there
    split
    · exact memOk_dropPlace h
    · cases packetCore s p with
      | none => exact trivial
      | some m => exact h
  clear_value there
  split
  · exact memOk_ticked h
  · have ht := SomeOf.some rfl hthere
    exact memOk_ite (memOk_ticked ht) (memOk_reserveMsg (memOk_ticked ht))

theorem memOk_putBytes {s : State} {off poison : Nat} {a : List Byte} (h : s.Formed) : (putBytes s off poison a).Formed := by
  induction a generalizing s off poison with
  | nil =>
    rw [putBytes]
    exact h
  | cons x r ih =>
    rw [putBytes]
    exact ih (memOk_physWrite h)

theorem memOk_answer {s : State} {p : Packet} {id v : Nat} {bad : Bool} (h : s.Formed) : (answer s p id v bad).Formed :=
  memOk_ite h (memOk_sendPacket h)

theorem memOk_deliverPut {s : State} {p : Packet} (h : s.Formed) : (deliverPut s p).Formed := memOk_answer (memOk_putBytes h)

theorem memOk_deliverCput {s : State} {p : Packet} (h : s.Formed) : (deliverCput s p).Formed :=
  memOk_answer (memOk_ite ((memOk_barrierArrive (memOk_putBytes h)).fst) (memOk_sendPacket (memOk_putBytes h)))

theorem memOk_deliverPlace {s : State} {p : Packet} {id off : Nat} (h : s.Formed) : (deliverPlace s p id off).Formed := by
  unfold deliverPlace
  dsimp only
  split
  · exact memOk_ticked h
  · exact memOk_ite (memOk_grantPlace (memOk_ticked h)) (memOk_noteSender (memOk_ticked h))

theorem memOk_deliverPlaceBack {s : State} {p : Packet} {id : Nat} (h : s.Formed) : (deliverPlaceBack s p id).Formed := by
  unfold deliverPlaceBack
  split
  · exact memOk_wakeSender (memOk_dropPlace h)
  · exact memOk_mapCores h

theorem memOk_deliverAtom {s : State} {p : Packet} (h : s.Formed) : (deliverAtom s p).Formed := by
  refine memOk_ite (memOk_deliverPlace h) ?_
  refine memOk_ite (memOk_deliverPlaceBack h) ?_
  dsimp only
  exact memOk_ite (memOk_answer h) (memOk_answer (memOk_ite ((memOk_homeOp h).fst) h))

theorem memOk_deliverReply {s : State} {p : Packet} (h : s.Formed) : (deliverReply s p).Formed := by
  unfold deliverReply
  dsimp only
  split
  · exact memOk_givePlaceBack h
  · exact memOk_lateReplies h

theorem memOk_deliverPacket {s : State} {p : Packet} (h : s.Formed) : (deliverPacket s p).Formed := by
  unfold deliverPacket
  split
  · exact memOk_deliverMsg h
  · exact memOk_deliverPut h
  · exact memOk_deliverCput h
  · exact memOk_deliverAtom h
  · exact memOk_deliverReply h
  · exact h

theorem memOk_passFlow {s : State} {p : Packet} (h : s.Formed) : (passFlow s p).Formed := memOk_ite h h

theorem memOk_drainFlows {fuel : Nat} {a : State} (h : a.Formed) : (drainFlows fuel a).Formed := by
  induction fuel generalizing a with
  | zero =>
    rw [drainFlows]
    exact h
  | succ k ih =>
    rw [drainFlows]
    split
    · exact h
    · exact ih (memOk_deliverPacket (memOk_passFlow h))

theorem memOk_drainAll {s : State} (h : s.Formed) : (drainAll s).Formed := memOk_drainFlows h

theorem memOk_arrivePacket {want : Nat} {s : State} {p : Packet} (h : s.Formed) : (arrivePacket want s p).Formed :=
  memOk_ite h (memOk_ite (memOk_countDrop h) (memOk_ite (memOk_drainAll h) (memOk_drainAll h)))

theorem memOk_arriveColl {abort : Bool} {n : Nat} {s : State} {p : Packet} (h : s.Formed) : (arriveColl abort n s p).Formed :=
  memOk_ite h (memOk_ite (memOk_countDrop h) (memOk_ite h (memOk_collReceive h)))

theorem memOk_windowEvent {s : State} {pa lo hi1' by_ : Nat} {f : Req → Nat → Nat → Access} {slot : Option Nat} (h : s.Formed)
    (hf : ∀ x x1 x2, (f x x1 x2).Formed) : (windowEvent s pa lo hi1' by_ f slot).Formed := by
  refine memOk_ite h ?_
  split
  · refine memOk_ite h ?_
    split
    next heq1 =>
      have ht := Access.Formed.ok heq1 (hf _ _ _)
      exact ht
    · exact h
  · exact h

theorem memOk_nameWindowWrite {s : State} {pa size : Nat} {v : Word} {by_ : Nat} (h : s.Formed) : (nameWindowWrite s pa size v by_).Formed :=
  memOk_windowEvent h (fun _ _ _ => memOk_windowWrite h)

theorem memOk_nameWindowRead {s : State} {pa size by_ : Nat} (h : s.Formed) : (nameWindowRead s pa size by_).Formed :=
  memOk_windowEvent h (fun _ _ _ => memOk_windowRead h)

theorem memOk_rawRowAccess {s : State} {pa : Nat} {store : Bool} {v : Word} {by_ : Nat} (h : s.Formed) : (rawRowAccess s pa store v by_).Formed :=
  memOk_windowEvent h (fun _ _ _ => formed_ite (memOk_windowWrite h) (memOk_windowRead h))

theorem memOk_accWindowRead {s : State} {pa size by_ : Nat} (h : s.Formed) : (accWindowRead s pa size by_).Formed :=
  memOk_windowEvent h (fun _ _ _ => memOk_windowRead h)

theorem memOk_accWindowWrite {s : State} {pa size : Nat} {v : Word} {by_ : Nat} (h : s.Formed) : (accWindowWrite s pa size v by_).Formed :=
  memOk_windowEvent h (fun _ _ _ => memOk_windowWrite h)

theorem memOk_inboxEntryEnter {s : State} {n : Nat} (h : s.Formed) : (inboxEntryEnter s n).Formed := memOk_modCore h

/-! ## Float instructions -/

theorem memOk_putV {s : State} {d l : Nat} {r : FVal × Nat} (h : s.Formed) : (putV s d l r).Formed := memOk_putF h

theorem memOk_fbin {l : Nat} {f : Bool → FVal → FVal → FVal × Nat} {d a b : Nat} {s : State} (h : s.Formed) : (fbin l f d a b s).Formed :=
  memOk_pre h (memOk_putV h)

theorem memOk_fcpysOp {d a b : Nat} {s : State} (h : s.Formed) : (fcpysOp d a b s).Formed := memOk_pre h (memOk_putV h)

theorem memOk_funary {l : Nat} {f : FVal → FVal × Nat} {d a : Nat} {s : State} (h : s.Formed) : (funary l f d a s).Formed :=
  memOk_pre h (memOk_putV h)

theorem memOk_frndOp {d a r : Nat} {s : State} (h : s.Formed) : (frndOp d a r s).Formed := memOk_funary h

theorem memOk_fclassOp {d a : Nat} {s : State} (h : s.Formed) : (fclassOp d a s).Formed := memOk_pre h (memOk_putV h)

theorem memOk_toIntOp {mode : Rnd} {d : Nat} {v : FVal} {s : State} (h : s.Formed) : (toIntOp mode d v s).Formed := by
  unfold toIntOp
  split
  · exact formed_ite trivial (memOk_putF h)
  · split
    · dsimp only
      split
      · exact trivial
      · exact memOk_putF h
      · exact memOk_putF h
    · dsimp only
      split
      · exact trivial
      · exact memOk_putF h
      · exact memOk_putF h
  · dsimp only
    refine formed_ite (memOk_putF h) ?_
    split
    · exact trivial
    · exact memOk_putF h

theorem memOk_fcvtOp {d a r : Nat} {s : State} (h : s.Formed) : (fcvtOp d a r s).Formed :=
  memOk_pre h (formed_ite (formed_ite (formed_ite (memOk_putF h) (memOk_putF h)) (memOk_toIntOp h)) (memOk_putF h))

theorem memOk_approx {l : Nat} {f : Nat → Nat × Nat} {d a : Nat} {s : State} (h : s.Formed) : (approx l f d a s).Formed :=
  memOk_pre h (memOk_putF h)

theorem memOk_fma {minus : Bool} {d a b : Nat} {s : State} (h : s.Formed) : (fma minus d a b s).Formed := memOk_pre h (memOk_putV h)

theorem memOk_refine {f : Bool → FVal → FVal → FVal} {d a b : Nat} {s : State} (h : s.Formed) : (refine f d a b s).Formed :=
  memOk_pre h (formed_ite (memOk_putV h) (formed_ite (memOk_putF h) (memOk_putV h)))

theorem memOk_faddOp {d a b : Nat} {s : State} (h : s.Formed) : (faddOp d a b s).Formed := memOk_fbin h

theorem memOk_fmulOp {d a b : Nat} {s : State} (h : s.Formed) : (fmulOp d a b s).Formed := memOk_fbin h

end Sys2Proof.Machine
end


section
/-! SUPPORT. Every instruction, every event and every step keep the form of memory (R7). -/

namespace Sys2Proof.Machine

/-- Each instruction runs its operation's lemma behind the checks of its format. -/
theorem memOk_exec_instr {i : Instr} {s : State} (hi : isEvent i = false) (h : s.Formed) : NextFormed (exec i s) := by
  cases i with
  | add | sub | mul | mulh | min | max | and | or | xor | andn | shl | shr | seteq | setne | setlt | setle | absd =>
    exact memOk_run32 (fun _ ht => memOk_bin ht) h
  | div | rem => exact memOk_run32 (fun _ ht => memOk_divide ht) h
  | rol | ror => exact memOk_run32 (fun _ ht => memOk_rotate ht) h
  | mov => exact memOk_run32 (fun _ ht => memOk_moveOp ht) h
  | neg | abs | not | clz | ctz | popc | brev => exact memOk_run32 (fun _ ht => memOk_unary ht) h
  | fits => exact memOk_run32 (fun _ ht => memOk_fitsOp ht) h
  | getw | getm => exact memOk_run32 (fun _ ht => memOk_property ht) h
  | sel => exact memOk_run32 (fun _ ht => memOk_selOp ht) h
  | bfx | addi | muli | andi | ori | xori | shli | shri | seteqi | setlti => exact memOk_run32 (fun _ ht => memOk_binImm ht) h
  | bfi => exact memOk_run32 (fun _ ht => memOk_bfiOp ht) h
  | movi => exact memOk_run32 (fun _ ht => memOk_moviOp ht) h
  | movk => exact memOk_run32 (fun _ ht => memOk_movkOp ht) h
  | rsz => exact memOk_run32 (fun _ ht => memOk_rszOp ht) h
  | setm => exact memOk_run32 (fun _ ht => memOk_setmOp ht) h
  | borrow => exact memOk_run32 (fun _ ht => memOk_borrowOp ht) h
  | giveback => exact memOk_run32 (fun _ ht => memOk_givebackOp ht) h
  | xget => exact memOk_run32 (fun _ ht => memOk_xgetOp ht) h
  | xput => exact memOk_run32 (fun _ ht => memOk_xputOp ht) h
  | twxch => exact memOk_run32 (fun _ ht => memOk_twxchOp ht) h
  | mapld => exact memOk_run32 (fun _ ht => memOk_mapldOp ht) h
  | mapq => exact memOk_run32 (fun _ ht => memOk_mapqOp ht) h
  | gets => exact memOk_run32 (fun _ ht => memOk_getsOp ht) h
  | puts => exact memOk_run32 (fun _ ht => memOk_putsOp ht) h
  | oxl => exact memOk_run32 (fun _ ht => memOk_oxlOp ht) h
  | oxr => exact memOk_run32 (fun _ ht => memOk_oxrOp ht) h
  | oxclr => exact memOk_run32 (fun _ ht => memOk_oxclrOp ht) h
  | oxi => exact memOk_run32 (fun _ ht => memOk_oxiOp ht) h
  | fadd => exact memOk_run32 (fun _ ht => memOk_faddOp ht) h
  | fsub | fdiv | fmin | fmax | fseteq | fsetlt | fsetle | fsetun => exact memOk_run32 (fun _ ht => memOk_fbin ht) h
  | fmul => exact memOk_run32 (fun _ ht => memOk_fmulOp ht) h
  | fcpys => exact memOk_run32 (fun _ ht => memOk_fcpysOp ht) h
  | fabs | fneg | fsqrt => exact memOk_run32 (fun _ ht => memOk_funary ht) h
  | fcvt => exact memOk_run32 (fun _ ht => memOk_fcvtOp ht) h
  | frnd => exact memOk_run32 (fun _ ht => memOk_frndOp ht) h
  | fclass => exact memOk_run32 (fun _ ht => memOk_fclassOp ht) h
  | rcpa | rsqa | exp2a | log2a | siga | tanha => exact memOk_run32 (fun _ ht => memOk_approx ht) h
  | ffma | ffms => exact memOk_run32 (fun _ ht => memOk_fma ht) h
  | rcps | rsqs => exact memOk_run32 (fun _ ht => memOk_refine ht) h
  | br => exact memOk_run32 (fun _ ht => memOk_brOp ht) h
  | call => exact memOk_run32 (fun _ ht => memOk_callOp ht) h
  | loop => exact memOk_run32 (fun _ ht => memOk_loopOp ht) h
  | jmp | ret => exact memOk_run32 (fun _ ht => memOk_jumpOp ht) h
  | callr => exact memOk_run32 (fun _ ht => memOk_callrOp ht) h
  | yield => exact memOk_run32 (fun _ ht => memOk_yieldOp ht) h
  | exit => exact memOk_run32 (fun _ ht => memOk_exitOp ht) h
  | trap sl b =>
    change NextFormed (run32 (.trap sl b) sl (fun _ => .trap .syscall (.ofNat 64 b.toNat)) s)
    exact memOk_run32 (fun _ _ => trivial) h
  | brk sl =>
    change NextFormed (run32 (.brk sl) sl (fun _ => .trap .brk 0) s)
    exact memOk_run32 (fun _ _ => trivial) h
  | nop => exact memOk_run32 (fun _ ht => ht) h
  | callat => exact memOk_run32 (fun _ ht => memOk_callatOp ht) h
  | send => exact memOk_run32 (fun _ ht => memOk_sendOp ht) h
  | recv => exact memOk_run32 (fun _ ht => memOk_recvOp ht) h
  | tryrecv => exact memOk_run32 (fun _ ht => memOk_tryrecvOp ht) h
  | chstat => exact memOk_run32 (fun _ ht => memOk_chstatOp ht) h
  | spawn => exact memOk_run32 (fun _ ht => memOk_spawnOp ht) h
  | dep => exact memOk_run32 (fun _ ht => memOk_depOp ht) h
  | waitany => exact memOk_run32 (fun _ ht => memOk_waitanyOp ht) h
  | waitall => exact memOk_run32 (fun _ ht => memOk_waitallOp ht) h
  | ffr => exact memOk_run32 (fun _ ht => memOk_ffrOp ht) h
  | tagclr => exact memOk_run32 (fun _ ht => memOk_tagclrOp ht) h
  | bari => exact memOk_run32 (fun _ ht => memOk_bariOp ht) h
  | arrive => exact memOk_run32 (fun _ ht => memOk_arriveOp ht) h
  | waitb => exact memOk_run32 (fun _ ht => memOk_waitbOp ht) h
  | waitch => exact memOk_run32 (fun _ ht => memOk_waitchOp ht) h
  | push => exact memOk_run32 (fun _ ht => memOk_pushOp ht) h
  | qstat => exact memOk_run32 (fun _ ht => memOk_qstatOp ht) h
  | ld => exact memOk_run32 (fun _ ht => memOk_ldOp ht) h
  | st => exact memOk_run32 (fun _ ht => memOk_stOp ht) h
  | lda => exact memOk_run32 (fun _ ht => memOk_ldaOp ht) h
  | stl => exact memOk_run32 (fun _ ht => memOk_stlOp ht) h
  | spill => exact memOk_run32 (fun _ ht => memOk_spillOp ht) h
  | fill => exact memOk_run32 (fun _ ht => memOk_fillOp ht) h
  | pf => exact memOk_run32 (fun _ ht => memOk_pfOp ht) h
  | flush => exact memOk_run32 (fun _ ht => memOk_flushOp ht) h
  | inv => exact memOk_run32 (fun _ ht => memOk_invOp ht) h
  | fence => exact memOk_run32 (fun _ ht => memOk_fenceOp ht) h
  | ldx => exact memOk_run32 (fun _ ht => memOk_ldxOp ht) h
  | stx => exact memOk_run32 (fun _ ht => memOk_stxOp ht) h
  | stc => exact memOk_run32 (fun _ ht => memOk_stcOp ht) h
  | aadd | aand | aor | axor | amin | amax | aswp | acas | faadd => exact memOk_run32 (fun _ ht => memOk_atomOp ht) h
  | lock => exact memOk_run32 (fun _ ht => memOk_lockOp ht) h
  | unlock => exact memOk_run32 (fun _ ht => memOk_unlockOp ht) h
  | hold => exact memOk_run32 (fun _ ht => memOk_holdOp ht) h
  | will => exact memOk_run32 (fun _ ht => memOk_willOp ht) h
  | relh => exact memOk_run32 (fun _ ht => memOk_relhOp ht) h
  | convey => exact memOk_run32 (fun _ ht => memOk_conveyOp ht) h
  | estq => exact memOk_run32 (fun _ ht => memOk_estqOp ht) h
  | prmk => exact memOk_run32 (fun _ ht => memOk_prmkOp ht) h
  | keep => exact memOk_run32 (fun _ ht => memOk_keepOp ht) h
  | awaitp => exact memOk_run32 (fun _ ht => memOk_awaitpOp ht) h
  | prmq => exact memOk_run32 (fun _ ht => memOk_prmqOp ht) h
  | chain => exact memOk_run32 (fun _ ht => memOk_chainOp ht) h
  | reduce => exact memOk_run32 (fun _ ht => memOk_reduceOp ht) h
  | gather => exact memOk_run32 (fun _ ht => memOk_gatherOp ht) h
  | scatter => exact memOk_run32 (fun _ ht => memOk_scatterOp ht) h
  | cpyb => exact memOk_run32 (fun _ ht => memOk_cpybOp ht) h
  | fills => exact memOk_run32 (fun _ ht => memOk_fillsOp ht) h
  | setf => exact memOk_run32 (fun _ ht => memOk_setfOp ht) h
  | getf => exact memOk_run32 (fun _ ht => memOk_getfOp ht) h
  | xform => exact memOk_run32 (fun _ ht => memOk_xformOp ht) h
  | srand => exact memOk_run32 (fun _ ht => memOk_srandOp ht) h
  | licq => exact memOk_run32 (fun _ ht => memOk_licqOp ht) h
  | licw => exact memOk_run32 (fun _ ht => memOk_licwOp ht) h
  | licr => exact memOk_run32 (fun _ ht => memOk_licrOp ht) h
  | lics => exact memOk_run32 (fun _ ht => memOk_licsOp ht) h
  | mma | mmad => exact memOk_run32 (fun _ ht => memOk_mmaOp ht) h
  | topk => exact memOk_run32 (fun _ ht => memOk_topkOp ht) h
  | aclr => exact memOk_run32 (fun _ ht => memOk_aclrOp ht) h
  | drn | drn2 => exact memOk_run32 (fun _ ht => memOk_drainOp ht) h
  | asave | arst => exact memOk_run32 (fun _ ht => memOk_saveOp ht) h
  | ppt => exact memOk_run32 (fun _ ht => memOk_pptOp ht) h
  | mwait => exact memOk_run32 (fun _ ht => memOk_mwaitOp ht) h
  | sret => exact memOk_runSys (fun _ ht => memOk_sretOp ht) h
  | getp => exact memOk_runSys (fun _ ht => memOk_getpOp ht) h
  | putp => exact memOk_runSys (fun _ ht => memOk_putpOp ht) h
  | tlbi => exact memOk_runSys (fun _ ht => memOk_tlbiOp ht) h
  | ckpt => exact memOk_runSys (fun _ ht => memOk_ckptOp ht) h
  | kill => exact memOk_runSys (fun _ ht => memOk_killOp ht) h
  | slots => exact memOk_runSys (fun _ ht => memOk_slotsOp ht) h
  | licf => exact memOk_runSys (fun _ ht => memOk_licfOp ht) h
  | ibpeek => exact memOk_runSys (fun _ ht => memOk_ibpeekOp ht) h
  | ibtake => exact memOk_runSys (fun _ ht => memOk_ibtakeOp ht) h
  | defer => exact memOk_runSys (fun _ ht => memOk_deferOp ht) h
  | resume => exact memOk_runSys (fun _ ht => memOk_resumeOp ht) h
  | evict => exact memOk_runSys (fun _ ht => memOk_evictOp ht) h
  | trace => exact memOk_runSys (fun _ ht => memOk_traceOp ht) h
  | addCompact | subCompact | andCompact | orCompact | xorCompact | seteqCompact | setltCompact => exact memOk_run16 (fun _ ht => memOk_bin ht) h
  | movCompact => exact memOk_run16 (fun _ ht => memOk_moveOp ht) h
  | addiCompact | shliCompact | shriCompact => exact memOk_run16 (fun _ ht => memOk_binImm ht) h
  | ldCompact => exact memOk_run16 (fun _ ht => memOk_ldCompactOp ht) h
  | stCompact => exact memOk_run16 (fun _ ht => memOk_stCompactOp ht) h
  | brz | brnz => exact memOk_run16 (fun _ ht => memOk_brOp ht) h
  | nopCompact => exact memOk_run16 (fun _ ht => ht) h
  | yieldCompact => exact memOk_run16 (fun _ ht => memOk_yieldOp ht) h
  | faddCompact => exact memOk_run16 (fun _ ht => memOk_faddOp ht) h
  | fmulCompact => exact memOk_run16 (fun _ ht => memOk_fmulOp ht) h
  | _ => cases hi

theorem nextFormed_of_eq {i : Instr} {s t : State} (e : exec i s = .next t) (h : t.Formed) : NextFormed (exec i s) := by
  rw [e]
  exact h

/-- Each event runs its own lemma. -/
theorem memOk_exec_event {i : Instr} {s : State} (hi : isEvent i = true) (h : s.Formed) : NextFormed (exec i s) := by
  cases i with
  | submissionPlaceWait => exact nextFormed_of_eq rfl (formed_ite (memOk_submissionGo h) h)
  | taskCounterDecrement => exact nextFormed_of_eq rfl (formed_ite (memOk_decrementGo h) h)
  | dealTask => exact nextFormed_of_eq rfl (formed_ite (memOk_dealTask h) h)
  | dealResume => exact nextFormed_of_eq rfl (formed_ite (memOk_dealResume h) h)
  | slotFill => exact nextFormed_of_eq rfl (formed_ite (memOk_slotFill h) h)
  | resumeAfterWriteback => exact nextFormed_of_eq rfl (formed_ite (memOk_resumeAfterWriteback h) h)
  | agePromote => exact nextFormed_of_eq rfl (formed_ite (memOk_agePromote h) h)
  | callEntryTake => exact nextFormed_of_eq rfl (formed_ite (memOk_callEntryTake h) h)
  | overflowEnter => exact nextFormed_of_eq rfl (formed_ite (memOk_overflowEnter h) h)
  | successorStart => exact nextFormed_of_eq rfl (formed_ite (memOk_successorStart h) h)
  | wakeRecheck => exact nextFormed_of_eq rfl (formed_ite (memOk_wakeRecheck h) h)
  | rowFill => exact nextFormed_of_eq rfl (formed_ite (memOk_rowFill h) h)
  | rowIdleWriteback => exact nextFormed_of_eq rfl (formed_ite (memOk_rowIdleWriteback h) h)
  | repackComplete => exact nextFormed_of_eq rfl (formed_ite (memOk_repackDone h) h)
  | messageDeliver => exact nextFormed_of_eq rfl (formed_ite (memOk_drainAll (memOk_messageDeliver h)) h)
  | fabricMsgReceive | putReceive | cputReceive | atomReceive | replyReceive => exact nextFormed_of_eq rfl (formed_ite (memOk_arrivePacket h) h)
  | nameWindowWrite => exact nextFormed_of_eq rfl (formed_ite (memOk_nameWindowWrite h) h)
  | nameWindowRead => exact nextFormed_of_eq rfl (formed_ite (memOk_nameWindowRead h) h)
  | rawRowAccess => exact nextFormed_of_eq rfl (formed_ite (memOk_rawRowAccess h) h)
  | accWindowRead => exact nextFormed_of_eq rfl (formed_ite (memOk_accWindowRead h) h)
  | accWindowWrite => exact nextFormed_of_eq rfl (formed_ite (memOk_accWindowWrite h) h)
  | inboxEntryEnter => exact nextFormed_of_eq rfl (formed_ite (memOk_inboxEntryEnter h) h)
  | setfTakeEffect => exact nextFormed_of_eq rfl (formed_ite (memOk_setfTakeEffect h) h)
  | streamCommandStart => exact nextFormed_of_eq rfl (formed_ite (memOk_streamStart h) h)
  | streamCommandComplete => exact nextFormed_of_eq rfl (formed_ite (memOk_streamComplete h) h)
  | chunkWaitRelease => exact nextFormed_of_eq rfl (formed_ite (memOk_chunkRelease h) h)
  | copyCommandStart => exact nextFormed_of_eq rfl (formed_ite (memOk_copyStarts h) h)
  | copyCommandComplete => exact nextFormed_of_eq rfl (formed_ite (memOk_copyEnds h) h)
  | collCommandStart => exact nextFormed_of_eq rfl (formed_ite (memOk_collStarts h) h)
  | collPacketReceive | collAbortReceive => exact nextFormed_of_eq rfl (formed_ite (memOk_arriveColl h) h)
  | chunkLand => exact nextFormed_of_eq rfl (formed_ite (memOk_chunkLands h) h)
  | inswitchTimeout => exact nextFormed_of_eq rfl (formed_ite (memOk_switchTimeout h) h)
  | hostRecordSend => exact nextFormed_of_eq rfl (formed_ite (memOk_hostSends h) h)
  | xformStart => exact nextFormed_of_eq rfl (formed_ite (memOk_xformStarts h) h)
  | xformComplete => exact nextFormed_of_eq rfl (formed_ite (memOk_xformEnds h) h)
  | matrixCommandStart => exact nextFormed_of_eq rfl (formed_ite (memOk_matrixStarts h) h)
  | mcastWaitExpire => exact nextFormed_of_eq rfl (formed_ite (memOk_mcastExpires h) h)
  | mmaComplete => exact nextFormed_of_eq rfl (formed_ite (memOk_mmaEnds h) h)
  | topkComplete | drainComplete | accSaveComplete | accRestoreComplete => exact nextFormed_of_eq rfl (formed_ite (memOk_matrixEnds h) h)
  | mwaitMarkerFire => exact nextFormed_of_eq rfl (formed_ite (memOk_markerFires h) h)
  | engineFaultPark => exact nextFormed_of_eq rfl (formed_ite (memOk_parks h) h)
  | engparkResume | engparkKill => exact nextFormed_of_eq rfl (formed_ite (memOk_engparkWrite h) h)
  | licenceTermEnd => exact nextFormed_of_eq rfl (formed_ite (memOk_termEnds h) h)
  | licenceDrainGrant => exact nextFormed_of_eq rfl (formed_ite (memOk_drainGrant h) h)
  | timerExpire => exact nextFormed_of_eq rfl (formed_ite (memOk_timerExpire h) h)
  | preemptTake => exact nextFormed_of_eq rfl (formed_ite (memOk_preemptTake h) h)
  | preemptForce => exact nextFormed_of_eq rfl (formed_ite (memOk_preemptForce h) h)
  | systemEventBegin => exact nextFormed_of_eq rfl (formed_ite (memOk_systemEventBegin h) h)
  | systemSlotRestart => exact nextFormed_of_eq rfl (formed_ite (memOk_systemSlotRestart h) h)
  | conveyEntry => exact nextFormed_of_eq rfl (formed_ite (memOk_conveyStep h) h)
  | hostSubmit => exact nextFormed_of_eq rfl (formed_ite (memOk_hostSubmit h) h)
  | hostDecr => exact nextFormed_of_eq rfl (formed_ite (memOk_hostDecr h) h)
  | hostClose => exact nextFormed_of_eq rfl (formed_ite (memOk_hostClose h) h)
  | hostReset => exact nextFormed_of_eq rfl (formed_ite (memOk_hostReset h) h)
  | hqctlOpen | hqctlTeardownSoft | hqctlTeardownHard => exact nextFormed_of_eq rfl (formed_ite (memOk_hqctlReq h) h)
  | teardownComplete => exact nextFormed_of_eq rfl (formed_ite (memOk_teardownComplete h) h)
  | dualEffectCompare => exact nextFormed_of_eq rfl (formed_ite (memOk_dualCompare h) h)
  | dualPartnerTimeout => exact nextFormed_of_eq rfl (formed_ite (memOk_dualTimeout h) h)
  | tlbshootCtx | tlbshootPage | tlbshootAll => exact nextFormed_of_eq rfl (formed_ite (memOk_tlbshoot h) h)
  | tlbshootComplete => exact nextFormed_of_eq rfl (formed_ite (memOk_tlbshootComplete h) h)
  | poolLineWriteback => exact nextFormed_of_eq rfl (formed_ite (memOk_poolLineWriteback h) h)
  | shadowRecordReplay => exact nextFormed_of_eq rfl (formed_ite (memOk_shadowReplay h) h)
  | poolHotExpire => exact nextFormed_of_eq rfl (formed_ite (memOk_poolHotExpire h) h)
  | poolPush | poolDrop => exact nextFormed_of_eq rfl (formed_ite (memOk_poolAct h) h)
  | cklogWrite => exact nextFormed_of_eq rfl (formed_ite (memOk_cklogWrite h) h)
  | rollbackStart => exact nextFormed_of_eq rfl (formed_ite (memOk_rollbackStart h) h)
  | rollbackComplete => exact nextFormed_of_eq rfl (formed_ite (memOk_rollbackComplete h) h)
  | scrubPass => exact nextFormed_of_eq rfl (formed_ite (memOk_scrubPass h) h)
  | ctrareaWrite => exact nextFormed_of_eq rfl (formed_ite (memOk_ctrareaWrite h) h)
  | pwrreqStepWrite => exact nextFormed_of_eq rfl (formed_ite (memOk_stepWrite h) h)
  | pwrreqGo => exact nextFormed_of_eq rfl (formed_ite (memOk_pwrreqGo h) h)
  | rampComplete => exact nextFormed_of_eq rfl (formed_ite (memOk_rampComplete h) h)
  | currentSample => exact nextFormed_of_eq rfl (formed_ite (memOk_currentSample h) h)
  | currentStepDown => exact nextFormed_of_eq rfl (formed_ite (memOk_currentStepDown h) h)
  | thermalOffline => exact nextFormed_of_eq rfl (formed_ite (memOk_thermalOffline h) h)
  | thermalClamp => exact nextFormed_of_eq rfl (formed_ite (memOk_thermalClamp h) h)
  | thermalCut => exact nextFormed_of_eq rfl (formed_ite (memOk_thermalCut h) h)
  | offlineTimeoutCut => exact nextFormed_of_eq rfl (formed_ite (memOk_offlineTimeout h) h)
  | thermstReadmit => exact nextFormed_of_eq rfl (formed_ite (memOk_thermstReadmit h) h)
  | fwdogKick => exact nextFormed_of_eq rfl (formed_ite (memOk_fwdogKick h) h)
  | fwdogExpire => exact nextFormed_of_eq rfl (formed_ite (memOk_fwdogExpire h) h)
  | firmwareVerify => exact nextFormed_of_eq rfl (formed_ite (memOk_firmwareVerify h) h)
  | attestationReport => exact nextFormed_of_eq rfl (formed_ite (memOk_attestationReport h) h)
  | endpointInstall => exact nextFormed_of_eq rfl (formed_ite (memOk_endpointInstall h) h)
  | endpointRevoke => exact nextFormed_of_eq rfl (formed_ite (memOk_endpointRevoke h) h)
  | alarmRaise => exact nextFormed_of_eq rfl (formed_ite (memOk_ite (memOk_alarmRaise h) h) h)
  | portLinkChange => exact nextFormed_of_eq rfl (formed_ite (memOk_portLinkChange h) h)
  | ucieRetrainFail => exact nextFormed_of_eq rfl (formed_ite (memOk_ite (memOk_ucieFail h) h) h)
  | partctlOpen => exact nextFormed_of_eq rfl (formed_ite (memOk_partctlOpen h) h)
  | partctlClose => exact nextFormed_of_eq rfl (formed_ite (memOk_partctlClose h) h)
  | wrstGo => exact nextFormed_of_eq rfl (formed_ite (memOk_wrstGo h) h)
  | warmResetPhase => exact nextFormed_of_eq rfl (formed_ite (memOk_warmPhase h) h)
  | dieReset => exact nextFormed_of_eq rfl (formed_ite (memOk_dieReset h) h)
  | registerWrite => exact nextFormed_of_eq rfl (formed_ite (memOk_registerWrite h) h)
  | lineWriteBack => exact nextFormed_of_eq rfl (formed_ite (memOk_lineWriteBack h) h)
  | accessResultArrival => exact nextFormed_of_eq rfl (formed_ite (memOk_resultArrival h) h)
  | ucieModuleReturn => exact nextFormed_of_eq rfl (formed_ite (memOk_ucieReturn h) h)
  | warmZone => exact nextFormed_of_eq rfl (formed_ite (memOk_warmZone h) h)
  | coldStart => exact nextFormed_of_eq rfl (formed_ite memOk_coldStart h)
  | _ => cases hi

theorem memOk_exec {i : Instr} {s : State} (h : s.Formed) : NextFormed (exec i s) := by
  cases hi : isEvent i with
  | false => exact memOk_exec_instr hi h
  | true => exact memOk_exec_event hi h

theorem memOk_issueSlot {s : State} {n k : Nat} (h : s.Formed) : NextFormed (issueSlot s n k) := by
  unfold issueSlot
  split
  next heq =>
    have ht := Fetched.Formed.ok heq (memOk_fetchInstr h)
    exact memOk_exec ht
  next heq =>
    have ht := Fetched.Formed.wait heq (memOk_fetchInstr h)
    exact ht
  next heq =>
    have ht := Fetched.Formed.trap heq (memOk_fetchInstr h)
    exact memOk_takeTrap ht

theorem memOk_issueTurn {s : State} {n : Nat} (h : s.Formed) : NextFormed (issueTurn s n) :=
  formed_ite (memOk_issueSlot (memOk_beginTurn h)) (memOk_beginTurn h)

theorem memOk_perform {s : State} {m : Move} (h : s.Formed) : NextFormed (perform s m) := by
  unfold perform
  split
  next n =>
    have hstart : (startCycle s (evenOf n)).Formed := memOk_startCycle h
    generalize startCycle s (evenOf n) = t at hstart ⊢
    exact memOk_issueTurn hstart
  next n => exact memOk_issueTurn h
  next i =>
    split
    · exact memOk_exec h
    · exact h
  next n i part u =>
    have hprogress : (engineProgress s n i part u).Formed := memOk_engineProgress h
    exact hprogress
  next n k rows =>
    have hspoil : (repackSpoil s n k rows).Formed := memOk_repackSpoil h
    exact hspoil
  next f old =>
    have hflaw : (flaw s f old).Formed := memOk_flaw h
    exact hflaw

theorem memOk_freely {s : State} {m : Move} (h : s.Formed) : NextFormed (freely s m) := by
  unfold freely
  split
  · exact h
  · exact memOk_perform h

theorem memOk_step {s : State} (h : s.Formed) : NextFormed (step s) := by
  unfold step
  split
  · exact memOk_perform h
  · exact memOk_freely (memOk_freeTick h)

/-- Settles O7: every function that a step is built of keeps the form, down to the one that places bytes in memory. -/
theorem memoryForm : Obligations.MemoryForm := by
  unfold Obligations.MemoryForm
  intro s t hs hstep
  have hnext : NextFormed (step s) := memOk_step hs
  rw [hstep] at hnext
  exact hnext

end Sys2Proof.Machine
end
